-- ==== Sys2Proof/Word.lean ====
section
/-! DEFINITION. The word types of the device and the sparse map every indexed piece of state is held in. -/

namespace Sys2Proof

/-- One byte. Multi-byte values are little-endian (R5). -/
abbrev Byte := BitVec 8

/-- One scratchpad word of 32 bytes; byte 0 is bits [7:0] (R228, R5). -/
abbrev SWord := BitVec 256

/-- One instruction word (R178). -/
abbrev IWord := BitVec 64

/-- A sparse map from a number to a value, in one canonical form: keys strictly rising, no entry equal to the
value an absent key stands for. -/
abbrev KV (α : Type) := List (Nat × α)

namespace KV

/-- What the map holds at a key; `d` is what an absent key stands for. -/
def get {α : Type} (d : α) (m : KV α) (k : Nat) : α :=
  match m with
  | [] => d
  | (k', v) :: r => if k' = k then v else KV.get d r k

/-- The map with nothing at a key. -/
def erase {α : Type} (m : KV α) (k : Nat) : KV α :=
  match m with
  | [] => []
  | (k', v) :: r => if k' = k then KV.erase r k else (k', v) :: KV.erase r k

/-- The map with an entry put in its place. -/
def insert {α : Type} (m : KV α) (k : Nat) (v : α) : KV α :=
  match m with
  | [] => [(k, v)]
  | (k', v') :: r =>
    if k < k' then (k, v) :: (k', v') :: r
    else if k = k' then (k, v) :: r
    else (k', v') :: KV.insert r k v

/-- A write: the default value leaves no entry. -/
def set {α : Type} [DecidableEq α] (d : α) (m : KV α) (k : Nat) (v : α) : KV α :=
  if v = d then KV.erase m k else KV.insert m k v

/-- Every key of the map lies above `k`. -/
def above {α : Type} (k : Nat) (m : KV α) : Bool := m.all (fun e => decide (k < e.1))

/-- The canonical form. -/
def wf {α : Type} [DecidableEq α] (d : α) (m : KV α) : Bool :=
  match m with
  | [] => true
  | (k, v) :: r => KV.above k r && decide (v ≠ d) && KV.wf d r

end KV

end Sys2Proof
end

