-- ==== Sys2Proof/Syntax.lean ====
section
/-! DEFINITION. The commands of the block: one constructor per row of spec/opcode_table.json, with the operands
the row's rule gives it. Numbers of units the device has a fixed count of are `Fin`, so that no command can name a
unit the device lacks. -/

namespace Sys2Proof

/-- Who issues a command or a dictionary write (R417, R419). -/
inductive Issuer where
  | a | b | can
  deriving DecidableEq, Repr

/-- A PCIe port and the host behind it (R401). -/
inductive HostPort where
  | a | b
  deriving DecidableEq, Repr

/-- One of the two CAN controllers (R410). -/
inductive CanCtl where
  | canA | canB
  deriving DecidableEq, Repr

/-- The two streams of a stream pair (R178). -/
inductive StreamId where
  | a | x
  deriving DecidableEq, Repr

/-- The units of a stream pair whose instructions run as element threads (R179). -/
inductive UnitId where
  | loader | storer | stager | remote | engine | region
  deriving DecidableEq, Repr

/-- A remote-operation packet: the header fields of R241 and 0 to 8 data words. -/
structure Packet where
  kind : BitVec 4
  srcUnit : BitVec 5
  srcCtx : BitVec 6
  ctxValid : Bool
  srcPair : BitVec 2
  dstUnit : BitVec 5
  addr : BitVec 43
  words : BitVec 4
  flag : BitVec 5
  seq : BitVec 16
  tag : BitVec 16
  status : BitVec 16
  poison : Bool
  data : List SWord
  deriving DecidableEq, Repr

/-- Where sensor traffic comes from (R38). `kind` is 1 for A-PHY, 2 for Ethernet. -/
structure Location where
  kind : Nat
  port : Nat
  pos : Nat
  vc : Nat
  ip : BitVec 32
  udp : BitVec 16
  deriving DecidableEq, Repr

/-- What a CSI-2 receiver knows of one packet beside its content: header ECC 0 clean, 1 corrected, 2 uncorrectable
(R34); `exposure` is the virtual channel less the endpoint's (R74). -/
structure CsiInfo where
  ecc : Fin 3
  crcOk : Bool
  exposure : Fin 3
  deriving DecidableEq, Repr

/-- An Ethernet frame with a UDP datagram as it arrives at the MAC of a port, from its destination address on and without its check
sequence, and the position it comes from (R35, R38). -/
structure Datagram where
  port : Fin 16
  pos : Fin 8
  frame : List Byte
  deriving DecidableEq, Repr

/-- How a maintenance activity turned out (R394, R395, R396). -/
inductive MaintOutcome where
  /-- step 0 passed; lowest VBED in mV at which every test passed; highest junction temperature -/
  | stress (step0 : Bool) (lowest : Nat) (temp : BitVec 16)
  | retrain (ok : Bool)
  | sweep (uncorrectable : Nat)
  /-- the flash read back as programmed; the fuse bits that failed to blow -/
  | update (readBackOk : Bool) (stuckFuses : List Nat)
  deriving DecidableEq, Repr

/-- How a die link trained (R253): not at all, at 16 GT/s, at 32 GT/s with lanes repaired, or at 32 GT/s. -/
inductive LinkTrain where
  | failed | half | repaired | full
  deriving DecidableEq, Repr

/-- One step of R381 with what it found. -/
inductive PartStep where
  | contexts
  | hold
  | selfTest (ok : Bool)
  | links (bed ringNext ringPrev : LinkTrain)
  | dram (ok : Bool)
  /-- blocks of the partition (their numbers) that held an uncorrectable error; contexts whose container is damaged -/
  | verify (badBlocks : List Nat) (badContainers : List (Fin 64))
  | replace
  deriving DecidableEq, Repr

/-- The data rates of LPDDR4X in MT/s, and GiB fitted per partition (R21, R255). -/
inductive DramRate where
  | r3200 | r3733 | r4266
  deriving DecidableEq, Repr

def DramRate.mts : DramRate → Nat
  | .r3200 => 3200
  | .r3733 => 3733
  | .r4266 => 4266

inductive DramSize where
  | g4 | g8 | g16
  deriving DecidableEq, Repr

def DramSize.gib : DramSize → Nat
  | .g4 => 4
  | .g8 => 8
  | .g16 => 16

/-- One step of R389 with what it found. -/
inductive DevStep where
  | record
  | resetHold
  | boot (flash : List Byte)
  | selfTest (ok : List Bool) (links : List LinkTrain)
  | dram (ok : List Bool) (rate : DramRate) (fitted : DramSize)
  | clear
  deriving DecidableEq, Repr

/-- One step of the exit from a low-power state (R462, R463, R464). -/
inductive ExitStep where
  | begin
  | rails
  | finish
  deriving DecidableEq, Repr

/-- What a scrub access finds beside what is known to be there (R260): an error in an 8-byte data part of its granule (its number modulo
32), or in a check granule in the check byte of a part of the block (R257). -/
inductive EccFinding where
  | clean
  | corrected (part : Fin 224)
  | uncorrectable (part : Fin 224)
  deriving DecidableEq, Repr

/-- What a gPTP message tells the port (R44): a sync of the slave port with the offset it measured, or another message. -/
inductive GptpInfo where
  | sync (masterTime : Nat)
  | other
  deriving DecidableEq, Repr

/-- The commands and events of the block, in the order of spec/opcode_table.json. -/
inductive Instr where
  -- host and field commands (R421)
  | nopCommand (iss : Issuer)
  | hostAttach (iss : Issuer)
  | statePreOperational (iss : Issuer)
  | stateOperational (iss : Issuer)
  | stateStopped (iss : Issuer)
  | stateMaintenance (iss : Issuer)
  | powerIdle (iss : Issuer)
  | powerStandby (iss : Issuer)
  | powerSleep (iss : Issuer)
  | powerExit (iss : Issuer)
  | deviceReset (iss : Issuer)
  | partitionReset (iss : Issuer) (p0 : BitVec 64)
  | partitionOut (iss : Issuer) (p0 : BitVec 64)
  | partitionIn (iss : Issuer) (p0 : BitVec 64)
  | maintStressTest (iss : Issuer) (p1 : BitVec 64)
  | maintRetraining (iss : Issuer) (p1 : BitVec 64)
  | maintScrubSweep (iss : Issuer) (p1 : BitVec 64)
  | maintFirmwareUpdate (iss : Issuer) (p1 p2 : BitVec 64)
  | maintAbort (iss : Issuer)
  | maintActivityEnd (out : MaintOutcome)
  | ctxCreate (iss : Issuer) (p0 : BitVec 64)
  | ctxLoad (iss : Issuer) (p0 p1 p2 : BitVec 64) (data : List Byte)
  | ctxStart (iss : Issuer) (p0 : BitVec 64)
  | ctxTeardown (iss : Issuer) (p0 : BitVec 64)
  | ctxSave (iss : Issuer) (p0 p1 p2 : BitVec 64)
  | ctxRestore (iss : Issuer) (p0 p1 p2 : BitVec 64) (data : List Byte)
  | windowOpen (iss : Issuer) (p0 p1 p2 p3 : BitVec 64)
  | windowClose (iss : Issuer) (p0 p1 : BitVec 64)
  | closeTakesEffect (core : Fin 8) (win : Fin 64) (t : Nat)
  | adaptBatch (iss : Issuer) (p0 p1 p2 : BitVec 64)
  | adaptPromote (iss : Issuer) (p0 p1 p2 p3 : BitVec 64)
  | exportOpen (iss : Issuer) (p0 p1 p2 : BitVec 64)
  | exportClose (iss : Issuer) (p0 : BitVec 64)
  | attest (iss : Issuer) (p0 p1 p2 p3 : BitVec 64)
  | quoteComplete (t : Nat)
  -- stream instructions (R208): the named stream issues the instruction at its position
  | nopInstruction (core : Fin 8) (pair : Fin 4) (st : StreamId)
  | flagSet (core : Fin 8) (pair : Fin 4) (st : StreamId)
  | flagClear (core : Fin 8) (pair : Fin 4) (st : StreamId)
  | guardInstr (core : Fin 8) (pair : Fin 4) (st : StreamId)
  | jump (core : Fin 8) (pair : Fin 4) (st : StreamId)
  | cset (core : Fin 8) (pair : Fin 4) (st : StreamId)
  | cadd (core : Fin 8) (pair : Fin 4) (st : StreamId)
  | ccopy (core : Fin 8) (pair : Fin 4) (st : StreamId)
  | cmp (core : Fin 8) (pair : Fin 4) (st : StreamId)
  | endInstr (core : Fin 8) (pair : Fin 4) (st : StreamId)
  | ldq (core : Fin 8) (pair : Fin 4)
  | ldt (core : Fin 8) (pair : Fin 4)
  | ldz (core : Fin 8) (pair : Fin 4)
  | stq (core : Fin 8) (pair : Fin 4)
  | stz (core : Fin 8) (pair : Fin 4)
  | dld (core : Fin 8) (pair : Fin 4)
  | dst (core : Fin 8) (pair : Fin 4)
  | put (core : Fin 8) (pair : Fin 4)
  | sput (core : Fin 8) (pair : Fin 4)
  | getInstr (core : Fin 8) (pair : Fin 4)
  | aadd (core : Fin 8) (pair : Fin 4)
  | rflag (core : Fin 8) (pair : Fin 4)
  | fence (core : Fin 8) (pair : Fin 4)
  | mfill (core : Fin 8) (pair : Fin 4)
  | mcopy (core : Fin 8) (pair : Fin 4)
  | mtrans (core : Fin 8) (pair : Fin 4)
  | mdigest (core : Fin 8) (pair : Fin 4)
  | region (core : Fin 8) (pair : Fin 4)
  | wload (core : Fin 8) (pair : Fin 4)
  | weightLoadStart (core : Fin 8) (array : Fin 2) (group : Fin 4)
  | splitChange (core : Fin 8) (array : Fin 2)
  | stream (core : Fin 8) (pair : Fin 4)
  | narrow (core : Fin 8) (pair : Fin 4)
  | elementThread (core : Fin 8) (pair : Fin 4) (unit : UnitId)
  | instructionComplete (core : Fin 8) (pair : Fin 4) (st : StreamId)
  | vectorSlot (core : Fin 8) (array : Fin 2) (group : Fin 4)
  | columnSum (core : Fin 8) (array : Fin 2) (group : Fin 4)
  | tensorClose (core : Fin 8) (pair : Fin 4) (slot : Fin 16)
  | crossWait (ctx : Fin 64)
  | stopReached (ctx : Fin 64)
  -- packets (R241)
  | putPacket (p : Packet)
  | sputData (p : Packet)
  | sputLast (p : Packet)
  | getRequest (p : Packet)
  | getReply (p : Packet)
  | aaddInt32 (p : Packet)
  | aaddFp32 (p : Packet)
  | flagPacket (p : Packet)
  | ack (p : Packet)
  | nack (p : Packet)
  | hold (p : Packet)
  | memoryWrite (p : Packet)
  | memoryReadRequest (p : Packet)
  | memoryReadReply (p : Packet)
  | linkTimeout (p : Packet) (t : Nat)
  | lateReplyPause (core : Fin 8)
  -- frames, slices, slots, safety
  | tick (t : Nat)
  | sliceBoundary (t : Nat)
  | switch (ctx : Fin 64)
  | slotClearing (core : Fin 8)
  | almanacSlot (core : Fin 8) (outs : List (List Byte)) (missed : List Nat)
  | slotVerdictTimeout (core : Fin 8)
  | frameDeadline (ctx : Fin 64)
  | fiwSeal (t : Nat)
  | safeOkToggle
  | smWatchdog
  | lockstepMismatch
  | teardown (ctx : Fin 64) (t : Nat)
  | hostLossGrace (port : HostPort)
  | partitionResetSequence (part : Fin 4) (step : PartStep) (t : Nat)
  | reloadTimeout (ctx : Fin 64)
  | deviceResetSequence (step : DevStep) (t : Nat)
  | poresetN
  | thermalTrip
  | thermalRelease
  | beatSlow (bed : Fin 4)
  | patrolScrub (channel : Fin 32) (finding : EccFinding)
  | frameSyncIn (t : Nat)
  | syncLost
  -- sensors and tensoriser
  | linkUp (loc : Location)
  | getCertResponse (ep : Fin 192) (payload : List Byte)
  | challengeResponse (ep : Fin 192) (payload : List Byte)
  | getCalResponse (ep : Fin 192) (payload : List Byte)
  | getLifeResponse (ep : Fin 192) (payload : List Byte)
  | idTimeout (ep : Fin 192)
  | authTimeout (ep : Fin 192)
  | calTimeout (ep : Fin 192)
  | discoveryRetry (ep : Fin 192)
  | lifePoll (ep : Fin 192)
  | meshBuild
  | linkDown (ep : Fin 192)
  | frameStart (ep : Fin 192) (info : CsiInfo) (number : BitVec 16) (t : Nat)
  | frameEnd (ep : Fin 192) (info : CsiInfo)
  | longPacket (ep : Fin 192) (info : CsiInfo) (dataType : BitVec 6) (payload : List Byte) (accepted : Bool)
  | lineDatagram (d : Datagram) (t : Nat) (accepted : Bool)
  | pointDatagram (d : Datagram) (t : Nat)
  | arpRequest (port : Fin 16) (target : BitVec 32) (senderMac : BitVec 48) (senderIp : BitVec 32)
  | gptpMessage (port : Fin 16) (info : GptpInfo) (t : Nat)
  | gptpUnlocked
  | trigger (ep : Fin 192)
  | sweepClose (ep : Fin 192) (t : Nat)
  | egoLate (frame : Nat)
  | deskew (ep : Fin 192)
  | stripeDelivery (ep : Fin 192) (view : Fin 4)
  | zeroTensor (ep : Fin 192) (t : Nat)
  -- adaptation and exports
  | batchPoll (group : Fin 9)
  | digestPoll (group : Fin 9)
  | adaptLag (group : Fin 9)
  | exportPoll (port : HostPort) (ch : Fin 16)
  -- host ports
  | bar2Read (port : HostPort) (offset len : Nat)
  | bar2Write (port : HostPort) (offset : Nat) (data : List Byte)
  | heartbeatWrite (port : HostPort) (t : Nat)
  | heartbeatTimeout (port : HostPort) (t : Nat)
  | perstAssert (port : HostPort)
  | dlDown (port : HostPort)
  | functionLevelReset (port : HostPort)
  | busMasterEnableClear (port : HostPort)
  | pcieLinkUp (port : HostPort) (busMaster : Bool)
  | registerWrite (port : HostPort) (offset : Nat) (data hostData : List Byte) (t : Nat)
  | dictionaryWrite (iss : Issuer) (index sub off : Nat) (data hostData : List Byte) (t : Nat)
  | handleQuery (iss : Issuer) (handle : BitVec 32)
  | motionCommit (iss : Issuer) (t : Nat)
  | errorLogClear (iss : Issuer) (ctx : Fin 64) (sameBeat : Bool)
  | cleaningRequestAck (iss : Issuer) (ep : Fin 192) (sameBeat : Bool)
  | enableSet (iss : Issuer) (ep : Fin 192)
  | enableClear (iss : Issuer) (ep : Fin 192)
  | go (port : HostPort)
  -- field network
  | emcyTransmit
  | producerHeartbeat
  | canBusOff (ctl : CanCtl)
  | busOffRecovery (ctl : CanCtl)
  | nmtStart
  | nmtStop
  | nmtEnterPreOperational
  | nmtResetNode
  | nmtResetCommunication
  -- power, pins, wake
  | wakeCan
  | wakeN
  | perstDeassert (port : HostPort)
  | wakeTimer
  | lowPowerExit (step : ExitStep) (t : Nat)
  | railFault (group : Fin 8)
  | pmbAlert (bed : Fin 4) (status : Option (BitVec 16))
  | flitRetryFailure (link : Fin 8)
  | frameSyncOutPulse
  | syncInterval
  | poresetNRelease
  | vaonApplied
  | vaonRemoved
  | temperatureRefresh (temps : List (BitVec 16))
  deriving DecidableEq, Repr

end Sys2Proof
end

