-- ==== Sys2Proof/Decode.lean ====
section
/-! DEFINITION. The command a table word spells. No row of the spec's table gives its command bits: commands reach the
block as register writes, packets, frames and pin events, and stream instructions are read by `Machine/Isa.lean`. -/

namespace Sys2Proof

/-- The command that a word spells by the table's bits. DESIGN CHOICE, log entry 4. -/
def decodeTableWord (_nbits _w : Nat) : Option Instr := none

end Sys2Proof
end

