-- ==== Sys2Proof/Machine/Numerics.lean ====
section
/-! DEFINITION. Bytes and words, binary32 and the narrow formats: the arithmetic of R5, R74–R91, R112, R130–R138,
R247 and R283–R285, computed exactly on integers and rounded once at the end. -/

namespace Sys2Proof.Machine

/-! ### Bytes, words and lists -/

/-- `n` bytes of a number, little-endian (R5). -/
def bytesOf (n : Nat) (v : Nat) : List Byte := (List.range n).map (fun i => BitVec.ofNat 8 (v >>> (8 * i)))

/-- The number that little-endian bytes spell. -/
def natOf : List Byte → Nat
  | [] => 0
  | b :: r => b.toNat + 256 * natOf r

/-- The number that big-endian bytes spell (RSA fields, R5). -/
def natOfBE (l : List Byte) : Nat := l.foldl (fun a b => a * 256 + b.toNat) 0

/-- `n` bytes of a number, big-endian. -/
def bytesBE (n : Nat) (v : Nat) : List Byte := (bytesOf n v).reverse

/-- The little-endian field of `len` bytes at `off`; bytes beyond the end count as 0. -/
def fieldAt (l : List Byte) (off len : Nat) : Nat := natOf ((l.drop off).take len)

/-- The bytes `off` to `off + len - 1`. -/
def slice (l : List Byte) (off len : Nat) : List Byte := (l.drop off).take len

/-- A list of bytes padded with zeros, or cut, to `n` bytes. -/
def padTo (n : Nat) (l : List Byte) : List Byte := (l ++ List.replicate (n - l.length) 0).take n

/-- The 32 bytes of a scratchpad word. -/
def bytesOfWord (w : SWord) : List Byte := bytesOf 32 w.toNat

/-- The scratchpad word that up to 32 bytes spell. -/
def wordOfBytes (l : List Byte) : SWord := BitVec.ofNat 256 (natOf (l.take 32))

/-- Byte `i` of a scratchpad word. -/
def wbyte (w : SWord) (i : Nat) : Byte := w.extractLsb' (8 * i) 8

/-- The 32-bit field at byte `i` of a scratchpad word. -/
def w32 (w : SWord) (i : Nat) : BitVec 32 := w.extractLsb' (8 * i) 32

/-- The 16-bit field at byte `i` of a scratchpad word. -/
def w16 (w : SWord) (i : Nat) : BitVec 16 := w.extractLsb' (8 * i) 16

/-- Bits [hi:lo] of a number. -/
def bits (v : Nat) (hi lo : Nat) : Nat := (v >>> lo) % 2 ^ (hi + 1 - lo)

/-- Bit `i` of a number. -/
def bitAt (v i : Nat) : Bool := v.testBit i

/-- A byte list cut into words of 32 bytes, the last padded with zeros; `n` bounds the count. -/
def wordsOf : Nat → List Byte → List SWord
  | 0, _ => []
  | _, [] => []
  | n + 1, l => wordOfBytes l :: wordsOf n (l.drop 32)

/-- All the words of a byte list. -/
def toWords (l : List Byte) : List SWord := wordsOf (l.length / 32 + 1) l

/-- Ceiling division. -/
def cdiv (a b : Nat) : Nat := (a + b - 1) / b

/-- A two's complement number of `n` bits as an integer. -/
def signed (n v : Nat) : Int := if v % 2 ^ n < 2 ^ (n - 1) then (v % 2 ^ n : Nat) else ((v % 2 ^ n : Nat) : Int) - 2 ^ n

/-- An integer held between two bounds. -/
def clampInt (lo hi v : Int) : Int := if v < lo then lo else if hi < v then hi else v

/-- The list with element `i` replaced. -/
def setAt {α : Type} (l : List α) (i : Nat) (v : α) : List α := l.set i v

/-- Element `i`, or a default beyond the end. -/
def nth {α : Type} (d : α) (l : List α) (i : Nat) : α := l.getD i d

/-- An arithmetic right shift of an integer. -/
def asr (v : Int) (n : Nat) : Int := v / (2 ^ n : Int)

/-! ### binary32 -/

abbrev F32 := BitVec 32

/-- DESIGN CHOICE, log entry 46. -/
def fNaN : F32 := 0x7FC00000
def fInf (neg : Bool) : F32 := if neg then 0xFF800000 else 0x7F800000
def fZero : F32 := 0
def fOne : F32 := 0x3F800000
def fNeg (x : F32) : Bool := x.getLsbD 31
def fExp (x : F32) : Nat := (x.extractLsb' 23 8).toNat
def fFrac (x : F32) : Nat := (x.extractLsb' 0 23).toNat
def fIsNaN (x : F32) : Bool := fExp x == 255 && fFrac x != 0
def fIsInf (x : F32) : Bool := fExp x == 255 && fFrac x == 0
def fFinite (x : F32) : Bool := fExp x != 255
def fIsZero (x : F32) : Bool := fExp x == 0 && fFrac x == 0

/-- The integer significand of a finite value: |x| = fMant x × 2 ^ fPow x. -/
def fMant (x : F32) : Nat := if fExp x = 0 then fFrac x else fFrac x + 2 ^ 23
def fPow (x : F32) : Int := (if fExp x = 0 then (1 : Int) else (fExp x : Int)) - 150

/-- The signed significand. -/
def fSig (x : F32) : Int := if fNeg x then -(fMant x : Int) else fMant x

/-- `m / 2 ^ s` rounded to nearest, ties to even. -/
def shiftRne (m s : Nat) : Nat :=
  if s = 0 then m
  else
    let hi := m >>> s
    let lo := m % 2 ^ s
    let half := 2 ^ (s - 1)
    if half < lo || (lo == half && hi % 2 == 1) then hi + 1 else hi

/-- `±m × 2 ^ e` rounded to binary32, nearest even; overflow gives infinity, subnormals are kept. -/
def fPack (neg : Bool) (m : Nat) (e : Int) : F32 :=
  let sgn : Nat := if neg then 2 ^ 31 else 0
  if m = 0 then BitVec.ofNat 32 sgn
  else
    let q := max (e + (Nat.log2 m + 1 : Nat) - 24) (-149)
    let m' := if q ≤ e then m <<< (e - q).toNat else shiftRne m (q - e).toNat
    let b := (q + 149).toNat * 2 ^ 23 + m'
    BitVec.ofNat 32 (sgn + (if b ≥ 0x7F800000 then 0x7F800000 else b))

/-- An integer times a power of two, rounded to binary32; zero is +0. -/
def fOfScaled (v : Int) (e : Int) : F32 := fPack (decide (v < 0)) v.natAbs e

/-- An integer rounded to binary32 (fp32() of R133). -/
def fOfInt (v : Int) : F32 := fOfScaled v 0

def fAdd (x y : F32) : F32 :=
  if fIsNaN x || fIsNaN y then fNaN
  else if fIsInf x then (if fIsInf y && fNeg x != fNeg y then fNaN else x)
  else if fIsInf y then y
  else if fIsZero x && fIsZero y then (if fNeg x && fNeg y then x else 0)
  else
    let e := min (fPow x) (fPow y)
    let v := fSig x * 2 ^ (fPow x - e).toNat + fSig y * 2 ^ (fPow y - e).toNat
    if v = 0 then 0 else fOfScaled v e

def fNegate (x : F32) : F32 := x ^^^ 0x80000000
def fAbs (x : F32) : F32 := x &&& 0x7FFFFFFF
def fSub (x y : F32) : F32 := if fIsNaN y then fNaN else fAdd x (fNegate y)

def fMul (x y : F32) : F32 :=
  let s := fNeg x != fNeg y
  if fIsNaN x || fIsNaN y then fNaN
  else if fIsInf x || fIsInf y then (if fIsZero x || fIsZero y then fNaN else fInf s)
  else fPack s (fMant x * fMant y) (fPow x + fPow y)

def fDiv (x y : F32) : F32 :=
  let s := fNeg x != fNeg y
  if fIsNaN x || fIsNaN y then fNaN
  else if fIsInf x then (if fIsInf y then fNaN else fInf s)
  else if fIsInf y then (if s then 0x80000000 else 0)
  else if fIsZero y then (if fIsZero x then fNaN else fInf s)
  else
    let a := fMant x <<< 60
    let q := a / fMant y
    let r := a % fMant y
    fPack s (2 * q + (if r = 0 then 0 else 1)) (fPow x - fPow y - 61)

/-- The integer square root, by bits from bit `n` down. -/
def isqrt : Nat → Nat → Nat → Nat
  | 0, _, r => r
  | n + 1, v, r => let c := r + 2 ^ n; isqrt n v (if c * c ≤ v then c else r)

def fSqrt (x : F32) : F32 :=
  if fIsNaN x then fNaN
  else if fIsZero x then x
  else if fNeg x then fNaN
  else if fIsInf x then x
  else
    let e := fPow x - 60
    let odd := e % 2 != 0
    let a := (fMant x <<< 60) * (if odd then 2 else 1)
    let e2 := (if odd then e - 1 else e) / 2
    let q := isqrt 64 a 0
    fPack false (2 * q + (if q * q = a then 0 else 1)) (e2 - 1)

/-- `x < y`; false when either is a NaN. -/
def fLt (x y : F32) : Bool :=
  if fIsNaN x || fIsNaN y then false
  else
    let key (z : F32) : Int := if fNeg z then -((fAbs z).toNat : Int) else ((fAbs z).toNat : Int)
    decide (key x < key y)

def fLe (x y : F32) : Bool := if fIsNaN x || fIsNaN y then false else !fLt y x

/-- The larger and the smaller of two values. -/
def fMax (x y : F32) : F32 := if fLt x y then y else x
def fMin (x y : F32) : F32 := if fLt y x then y else x

/-- A finite value truncated toward zero. -/
def fTrunc (x : F32) : Int :=
  let m : Nat := if 0 ≤ fPow x then fMant x <<< (fPow x).toNat else fMant x >>> (-(fPow x)).toNat
  if fNeg x then -(m : Int) else m

/-- The floor of a finite value. -/
def fFloor (x : F32) : Int :=
  if 0 ≤ fPow x then fSig x * 2 ^ (fPow x).toNat else fSig x / 2 ^ (-(fPow x)).toNat

/-- A finite value rounded to the nearest integer, ties to even. -/
def fRne (x : F32) : Int :=
  let m : Nat := if 0 ≤ fPow x then fMant x <<< (fPow x).toNat else shiftRne (fMant x) (-(fPow x)).toNat
  if fNeg x then -(m : Int) else m

/-- A finite value times 2 ^ k, exactly where representable. -/
def fScale (x : F32) (k : Int) : F32 := if fFinite x then fPack (fNeg x) (fMant x) (fPow x + k) else x

/-! ### The 8-bit floating formats (R112) -/

/-- An E4M3 code as binary32: S.1111.111 is NaN, there is no infinity. -/
def e4m3 (b : Byte) : F32 :=
  let v := b.toNat
  let e := bits v 6 3
  let f := bits v 2 0
  if e = 15 && f = 7 then fNaN
  else fPack (bitAt v 7) (if e = 0 then f else f + 8) ((if e = 0 then (1 : Int) else (e : Int)) - 10)

/-- An E5M2 code as binary32. -/
def e5m2 (b : Byte) : F32 :=
  let v := b.toNat
  let e := bits v 6 2
  let f := bits v 1 0
  if e = 31 then (if f = 0 then fInf (bitAt v 7) else fNaN)
  else fPack (bitAt v 7) (if e = 0 then f else f + 4) ((if e = 0 then (1 : Int) else (e : Int)) - 17)

/-- Format codes of R110 and R220. -/
def fmtU8 : Nat := 1
def fmtI8 : Nat := 2
def fmtE4M3 : Nat := 3
def fmtE5M2 : Nat := 4
def fmtI16 : Nat := 5
def fmtI4 : Nat := 6
def fmtU4 : Nat := 7
def fmtBin8 : Nat := 8
def fmtF32 : Nat := 9
def fmtI32 : Nat := 10

/-- The exponent of the least significant bit of a narrow format at a magnitude `m × 2 ^ e` (R138). -/
def lsbExp (fmt : Nat) (m : Nat) (e : Int) : Int :=
  let top : Int := e + (Nat.log2 m : Nat)
  if fmt = fmtE4M3 then max top (-6) - 3
  else if fmt = fmtE5M2 then max top (-14) - 2
  else 0

/-- The code of a magnitude `k × 2 ^ l` in an FP8 format that represents it exactly, without the sign. -/
def fp8Code (fmt : Nat) (k : Nat) (l : Int) : Nat :=
  if k = 0 then 0
  else
    let fr : Nat := if fmt = fmtE4M3 then 3 else 2
    let low : Int := if fmt = fmtE4M3 then -9 else -16
    let q := max (l + (Nat.log2 k : Nat) - fr) low
    let m := if l ≥ q then k <<< (l - q).toNat else k >>> (q - l).toNat
    (q - low).toNat * 2 ^ fr + m

/-- The largest code magnitude Q of R136 as an integer; formats without one give 0. -/
def qOf (fmt : Nat) : Nat :=
  if fmt = fmtU8 then 255 else if fmt = fmtI8 then 127 else if fmt = fmtU4 then 15 else if fmt = fmtI4 then 7
  else if fmt = fmtI16 then 32767 else if fmt = fmtE4M3 then 448 else if fmt = fmtE5M2 then 57344 else 0

def fmtUnsigned (fmt : Nat) : Bool := fmt == fmtU8 || fmt == fmtU4
def fmtFp8 (fmt : Nat) : Bool := fmt == fmtE4M3 || fmt == fmtE5M2

/-- The bits of one element of a format. -/
def fmtBits (fmt : Nat) : Nat :=
  if fmt = fmtI4 || fmt = fmtU4 then 4 else if fmt = fmtI16 then 16 else if fmt = fmtF32 || fmt = fmtI32 then 32 else 8

/-- How a magnitude is rounded: `none` toward zero, or `n` cut bits against `d` (R138). -/
abbrev Rounding := Option (Nat × Nat)

/-- The code of a finite value under R137 and R138, and whether it was clipped. -/
def narrowCode (fmt : Nat) (rnd : Rounding) (v : F32) : Nat × Bool :=
  let m := fMant v
  if m = 0 then (0, false)
  else
    let e := fPow v
    let l := lsbExp fmt m e
    let k := if l ≤ e then m <<< (e - l).toNat else m >>> (l - e).toNat
    let rest := if l ≤ e then 0 else m % 2 ^ (l - e).toNat
    let up : Nat := match rnd with
      | none => 0
      | some (n, d) => if l ≤ e then 0 else if d < (rest <<< n) >>> (l - e).toNat then 1 else 0
    let k' := k + up
    let q := qOf fmt
    -- |v| rounded is k' × 2 ^ l; it is clipped when it exceeds Q
    let clipq : Bool := if l ≥ 0 then decide (q < k' <<< l.toNat) else decide (q <<< (-l).toNat < k')
    if fmtUnsigned fmt && fNeg v then (0, false)
    else if fmtFp8 fmt then
      let c := if clipq then fp8Code fmt q 0 else fp8Code fmt k' l
      (if c = 0 then 0 else if fNeg v then c + 128 else c, clipq)
    else
      let a := if clipq then q else k'
      let w := fmtBits fmt
      (if fNeg v then (2 ^ w - a) % 2 ^ w else a, clipq)

/-- A finite value to an FP8 code, nearest even, saturated (R91). -/
def fp8Rne (fmt : Nat) (v : F32) : Nat :=
  let m := fMant v
  if m = 0 then 0
  else
    let e := fPow v
    let l := lsbExp fmt m e
    let k := if l ≤ e then m <<< (e - l).toNat else shiftRne m (l - e).toNat
    let q := qOf fmt
    let clipq : Bool := if l ≥ 0 then decide (q < k <<< l.toNat) else decide (q <<< (-l).toNat < k)
    let c := if clipq then fp8Code fmt q 0 else fp8Code fmt k l
    if c = 0 then 0 else if fNeg v then c + 128 else c

/-! ### Random bits (R283–R285) -/

/-- One step of the register: x × s mod P with P = x^128 + x^126 + x^101 + x^99 + 1 (R283). -/
def lfsrStep (s : BitVec 128) : BitVec 128 :=
  let t := s <<< 1
  if s.getLsbD 127 then t ^^^ ((1 <<< 126) ||| (1 <<< 101) ||| (1 <<< 99) ||| 1) else t

/-- a × b mod P clipq the low `n` bits of b, from its highest. -/
def lfsrMulGo : Nat → BitVec 128 → BitVec 128 → BitVec 128 → BitVec 128
  | 0, _, _, acc => acc
  | n + 1, a, b, acc => lfsrMulGo n a b (lfsrStep acc ^^^ (if b.getLsbD n then a else 0))

def lfsrMul (a b : BitVec 128) : BitVec 128 := lfsrMulGo 128 a b 0

/-- x ^ m mod P, clipq the low `n` bits of m, from its highest. -/
def lfsrPowGo : Nat → Nat → BitVec 128 → BitVec 128
  | 0, _, acc => acc
  | n + 1, m, acc =>
    let sq := lfsrMul acc acc
    lfsrPowGo n m (if m.testBit n then lfsrStep sq else sq)

/-- The state x^m mod P; the exponent has fewer than 192 bits. -/
def lfsrPow (m : Nat) : BitVec 128 := lfsrPowGo 192 m 1

/-- The 64 outputs from a state, bit k the output of step k (R283, R284). -/
def lfsrOut : Nat → BitVec 128 → Nat
  | 0, _ => 0
  | n + 1, s => (if s.getLsbD 127 then 1 else 0) + 2 * lfsrOut n (lfsrStep s)

/-- Draw q of granule G = seed × 2^32 + tensor id (R284). -/
def rngDraw (seed tensor q : Nat) : BitVec 64 :=
  BitVec.ofNat 64 (lfsrOut 64 (lfsrPow ((seed * 2 ^ 32 + tensor) * 2 ^ 64 + 64 * q)))

/-- The n random bits of element e with reuse u (R285). -/
def rngBits (seed tensor n u e : Nat) : Nat :=
  let per := 64 / n
  let q := e / (u * per)
  let r := e % (u * per)
  let rho := r / per
  let p := r % per
  let dr := (rngDraw seed tensor q).rotateLeft (21 * rho)
  bits dr.toNat (n * (p + 1) - 1) (n * p)

end Sys2Proof.Machine
end

