-- ==== Sys2Proof/Machine/Crypto.lean ====
section
/-! DEFINITION. SHA-256 (FIPS 180-4), the CRC-32 of IEEE 802.3 and RSASSA-PSS verification with SHA-256 and a 32-byte
salt, as R47, R48, R54, R225, R236, R297, R358 and R448 use them. -/

namespace Sys2Proof.Machine

def shaK : List (BitVec 32) :=
  [0x428a2f98, 0x71374491, 0xb5c0fbcf, 0xe9b5dba5, 0x3956c25b, 0x59f111f1, 0x923f82a4, 0xab1c5ed5] ++
  [0xd807aa98, 0x12835b01, 0x243185be, 0x550c7dc3, 0x72be5d74, 0x80deb1fe, 0x9bdc06a7, 0xc19bf174] ++
  [0xe49b69c1, 0xefbe4786, 0x0fc19dc6, 0x240ca1cc, 0x2de92c6f, 0x4a7484aa, 0x5cb0a9dc, 0x76f988da] ++
  [0x983e5152, 0xa831c66d, 0xb00327c8, 0xbf597fc7, 0xc6e00bf3, 0xd5a79147, 0x06ca6351, 0x14292967] ++
  [0x27b70a85, 0x2e1b2138, 0x4d2c6dfc, 0x53380d13, 0x650a7354, 0x766a0abb, 0x81c2c92e, 0x92722c85] ++
  [0xa2bfe8a1, 0xa81a664b, 0xc24b8b70, 0xc76c51a3, 0xd192e819, 0xd6990624, 0xf40e3585, 0x106aa070] ++
  [0x19a4c116, 0x1e376c08, 0x2748774c, 0x34b0bcb5, 0x391c0cb3, 0x4ed8aa4a, 0x5b9cca4f, 0x682e6ff3] ++
  [0x748f82ee, 0x78a5636f, 0x84c87814, 0x8cc70208, 0x90befffa, 0xa4506ceb, 0xbef9a3f7, 0xc67178f2]

/-- The eight working words. -/
structure Sha where
  a : BitVec 32
  b : BitVec 32
  c : BitVec 32
  d : BitVec 32
  e : BitVec 32
  f : BitVec 32
  g : BitVec 32
  h : BitVec 32
  deriving DecidableEq, Repr

def Sha.init : Sha :=
  { a := 0x6a09e667, b := 0xbb67ae85, c := 0x3c6ef372, d := 0xa54ff53a, e := 0x510e527f, f := 0x9b05688c,
    g := 0x1f83d9ab, h := 0x5be0cd19 }

/-- One round with its schedule word and constant. -/
def Sha.round (s : Sha) (w k : BitVec 32) : Sha :=
  let s1 := s.e.rotateRight 6 ^^^ s.e.rotateRight 11 ^^^ s.e.rotateRight 25
  let ch := (s.e &&& s.f) ^^^ (~~~s.e &&& s.g)
  let t1 := s.h + s1 + ch + k + w
  let s0 := s.a.rotateRight 2 ^^^ s.a.rotateRight 13 ^^^ s.a.rotateRight 22
  let mj := (s.a &&& s.b) ^^^ (s.a &&& s.c) ^^^ (s.b &&& s.c)
  { a := t1 + s0 + mj, b := s.a, c := s.b, d := s.c, e := s.d + t1, f := s.e, g := s.f, h := s.g }

/-- The next schedule word from the last sixteen, newest last. -/
def shaNext (w : List (BitVec 32)) : BitVec 32 :=
  let x := nth 0 w 1
  let y := nth 0 w 14
  nth 0 w 0 + (x.rotateRight 7 ^^^ x.rotateRight 18 ^^^ (x >>> 3)) + nth 0 w 9
    + (y.rotateRight 17 ^^^ y.rotateRight 19 ^^^ (y >>> 10))

/-- The rounds over the constants, with a sliding window of sixteen schedule words. -/
def shaRounds : List (BitVec 32) → List (BitVec 32) → Sha → Sha
  | [], _, s => s
  | k :: ks, w, s => shaRounds ks (w.drop 1 ++ [shaNext w]) (s.round (nth 0 w 0) k)

/-- One block of 64 bytes. -/
def shaBlock (s : Sha) (blk : List Byte) : Sha :=
  let w := (List.range 16).map (fun i => BitVec.ofNat 32 (natOfBE (slice blk (4 * i) 4)))
  let t := shaRounds shaK w s
  { a := s.a + t.a, b := s.b + t.b, c := s.c + t.c, d := s.d + t.d, e := s.e + t.e, f := s.f + t.f, g := s.g + t.g,
    h := s.h + t.h }

/-- The blocks of a padded message. -/
def shaBlocks : Nat → List Byte → Sha → Sha
  | 0, _, s => s
  | n + 1, m, s => shaBlocks n (m.drop 64) (shaBlock s (m.take 64))

/-- SHA-256, in the byte order FIPS 180-4 produces it. -/
def sha256 (m : List Byte) : List Byte :=
  let z := (119 - m.length % 64) % 64
  let p := m ++ [0x80] ++ List.replicate z 0 ++ bytesBE 8 (8 * m.length)
  let s := shaBlocks (p.length / 64) p Sha.init
  [s.a, s.b, s.c, s.d, s.e, s.f, s.g, s.h].flatMap (fun w => bytesBE 4 w.toNat)

/-- Eight bits of the reflected CRC-32. -/
def crcBits : Nat → BitVec 32 → BitVec 32
  | 0, c => c
  | n + 1, c => crcBits n (if c.getLsbD 0 then (c >>> 1) ^^^ 0xEDB88320 else c >>> 1)

/-- CRC-32 of IEEE 802.3. -/
def crc32 (m : List Byte) : BitVec 32 :=
  ~~~(m.foldl (fun c b => crcBits 8 (c ^^^ b.setWidth 32)) (0xFFFFFFFF : BitVec 32))

/-- b ^ e mod n over the low `k` bits of e, from its highest. -/
def powMod : Nat → Nat → Nat → Nat → Nat → Nat
  | 0, _, _, _, acc => acc
  | k + 1, b, e, n, acc =>
    let sq := acc * acc % n
    powMod k b e n (if e.testBit k then sq * b % n else sq)

/-- The mask generation of PSS with SHA-256: `n` blocks. -/
def mgf1 (seed : List Byte) (n : Nat) : List Byte :=
  (List.range n).flatMap (fun i => sha256 (seed ++ bytesBE 4 i))

/-- RSASSA-PSS verification, SHA-256, 32-byte salt, 384-byte modulus and signature, both big-endian. -/
def pssVerify (modulus : List Byte) (exponent : Nat) (msg sig : List Byte) : Bool :=
  let n := natOfBE modulus
  let s := natOfBE sig
  if modulus.length ≠ 384 || sig.length ≠ 384 || n ≤ s || n < 2 ^ 3064 then false
  else
    -- the encoded message has one bit less than the modulus
    let emBits := Nat.log2 n
    let emLen := cdiv emBits 8
    let em := powMod 17 s exponent n 1
    if em ≥ 2 ^ (8 * emLen) then false
    else
      let e := bytesBE emLen em
      let dbLen := emLen - 33
      let mdb := e.take dbLen
      let h := slice e dbLen 32
      let top := 8 * emLen - emBits
      let db0 := (mdb.zip (mgf1 h (cdiv dbLen 32))).map (fun p => p.1 ^^^ p.2)
      let db := match db0 with
        | [] => []
        | b :: r => (b &&& BitVec.ofNat 8 (0xFF >>> top)) :: r
      let salt := db.drop (dbLen - 32)
      let pad := db.take (dbLen - 32)
      e.drop (emLen - 1) == [0xBC]
        && decide (em < 2 ^ emBits)
        && pad == List.replicate (dbLen - 33) 0 ++ [1]
        && sha256 (List.replicate 8 0 ++ sha256 msg ++ salt) == h

/-- ASCII of a string's characters. -/
def ascii (s : String) : List Byte := s.toList.map (fun c => BitVec.ofNat 8 c.toNat)

end Sys2Proof.Machine
end

