-- ==== Sys2Proof/Config.lean ====
section
/-! DEFINITION. What one part fixes at manufacture and the free values: constants without a body, so that nothing can
prove a value of them. -/

namespace Sys2Proof

/-- The fused device serial (R447). -/
opaque Config.serial : BitVec 64

/-- The fused identity key hash (R447, R454). -/
opaque Config.identityHash : BitVec 256

/-- The fused vendor root key hashes 0 to 3, hash 0 lowest (R447). -/
opaque Config.rootHashes : BitVec 1024

/-- SHA-256 of the boot ROM content (R455). DESIGN CHOICE, log entry 10. -/
opaque Config.romDigest : BitVec 256

/-- The fuse array as Melpogil ships it: serial, identity key hash and vendor root key hashes blown, the configuring
owner set holding host A, every other fuse 0 (R447). -/
def Config.shippedFuses : BitVec 2048 :=
  (Config.serial.setWidth 2048) ||| ((Config.identityHash.setWidth 2048) <<< 64)
    ||| ((Config.rootHashes.setWidth 2048) <<< 320) ||| ((1 : BitVec 2048) <<< 1993)

/-- A free byte: position in the free-value counter of State, index within the draw. -/
opaque Config.freeByte : Nat → Nat → Byte

/-- A free 32-bit value: position in the free-value counter of State. -/
opaque Config.freeWord : Nat → BitVec 32

/-- A free natural number: position in the free-value counter of State. -/
opaque Config.freeNat : Nat → Nat

/-- Whether the beat ring of a domain issues a beat in a nanosecond of the time base (R266: a beat has no fixed length). -/
opaque Config.beatIssued : Nat → Nat → Bool

/-- The error of the FP32 evaluation of the BT.709 equations in 1/1,024 of a code, plus 32 (R77: the order of evaluation is not
stated): Y, Cb, Cr, channel. -/
opaque Config.bt709Error : Nat → Nat → Nat → Nat → Fin 65

/-- A number that the spec leaves open in a view: a function of what R65 lets a view depend on. The records, the input in numbers, and which
number it is. -/
opaque Config.viewFree : List Byte → List (Nat × List Nat) → List Nat → Nat

/-- The IPv4 address of each Ethernet port: the spec names it and gives no object that holds it (R35, R36). -/
opaque Config.portIp : Nat → BitVec 32

/-- The multicast groups listed for each Ethernet port, for which the spec gives no object either (R35). -/
opaque Config.portGroup : Nat → BitVec 32 → Bool

/-- The tunnelling latency of an A-PHY port in ns, as measured for a trigger time (R42): port, time. -/
opaque Config.tunnelLatency : Nat → Nat → Nat

/-- Output codes of a column group in one pass of the Almanac's kernel set without a fault; patterns and known answers are part of the
firmware image (R348): the image's digest, the pass, the group. DESIGN CHOICE, log entry 85. -/
opaque Config.katCodes : List Byte → List Nat → Nat → List Byte

/-- The checksum that EN 50325-5 defines over SRDO 1's parameters: refresh time, validation time, COB-ID 1, COB-ID 2 (R411). -/
opaque Config.srdoChecksum : Nat → Nat → Nat → Nat → BitVec 16

/-- The descriptor word of a batch half, whose layout the spec does not give: batch number, nr, R, replica index (R299).
DESIGN CHOICE, log entry 142. -/
opaque Config.batchDescriptor : Nat → Nat → Nat → Nat → BitVec 256

/-- Word offsets in the checkpoint window at which an image keeps the working weights and scales of an agreed checkpoint: image
digest, checkpoint (R302, R307). DESIGN CHOICE, log entry 148. -/
opaque Config.agreedWords : Nat → Nat → List Nat

end Sys2Proof
end

