-- ==== Sys2Proof/Machine/State.lean ====
section
/-! DEFINITION. The state of the device as plain data, and the state right after power-on reset. Indexed state is
held in sparse canonical maps (`KV`), keyed as each field says; what an absent key reads as is the field's default. -/

namespace Sys2Proof.Machine

/-- The device has no fault outcome: every error the spec describes leaves the device in a state it describes (a code
logged, a context torn down, a reset), so nothing raises a fault. Safe: there is no stop. -/
inductive Fault where
  deriving DecidableEq, Repr

/-- Why a command has no outcome. -/
inductive Refusal where
  /-- Raised only by an arm of `exec` whose command has no meaning yet. Safe: the machine stops. -/
  | notModelled (mnemonic : String)
  deriving DecidableEq, Repr

/-- One frame on a CAN bus. -/
structure CanFrame where
  cobId : Nat
  data : List Byte
  deriving DecidableEq, Repr

/-- What one command makes the device send to the outside. -/
inductive Message where
  /-- a frame on CAN-A or CAN-B (R410) -/
  | can (ctl : CanCtl) (f : CanFrame)
  /-- SDO or USDO abort code to an issuer (R407, R433) -/
  | sdoAbort (code : Nat)
  /-- an MSI-X vector (R425) -/
  | msix (port : HostPort) (vector : Nat)
  /-- a PCIe read completion with data, poisoned or not (R404) -/
  | readData (port : HostPort) (data : List Byte) (poisoned : Bool)
  /-- Unsupported Request (R404) -/
  | unsupported (port : HostPort)
  /-- Completer Abort (R404) -/
  | completerAbort (port : HostPort)
  /-- a head management message: header and payload (R46) -/
  | head (ep : Nat) (bytes : List Byte)
  /-- a trigger edge through an A-PHY control channel at a gPTP time (R42) -/
  | gpio (ep : Nat) (time : Nat)
  /-- an ARP reply for the port's address (R36) -/
  | arpReply (port : Nat) (mac : BitVec 48) (ip : BitVec 32)
  /-- a gPTP message of the port's own (R44) -/
  | gptp (port : Nat) (time : Nat)
  /-- a pulse of 10 µs on FRAME_SYNC_OUT, rising at a gPTP time (R476) -/
  | syncOut (time : Nat)
  /-- VOUT_COMMAND of a bed in mV (R474) -/
  | vout (bed : Nat) (mv : Nat)
  /-- the firmware image and, if given, the trust record programmed into the flash (R396, R458) -/
  | flashProgram (image : List Byte)
  | trustProgram (record : List Byte)
  /-- words of the image store erased (R396) -/
  | flashErase
  deriving DecidableEq, Repr

/-- A word in an operand or result queue (R181): the under-run mark of R170, the ZC header mark of R215, the poison mark of R262. -/
structure QWord where
  data : SWord
  under : Bool
  header : Bool
  poison : Bool
  /-- the global byte address it was read from; 0 for a word the device made -/
  addr : Nat
  deriving DecidableEq, Repr

/-- A comparator's setting (R188): relation code of R212, counter a, and counter b or an immediate. -/
structure Comparator where
  rel : Nat
  a : Nat
  useB : Bool
  b : Nat
  imm : BitVec 32
  deriving DecidableEq, Repr

def Comparator.zero : Comparator := { rel := 0, a := 0, useB := false, b := 0, imm := 0 }

/-- What the target of a remote operation was at issue (R216). -/
structure Target where
  core : Nat
  window : Nat
  gen : Nat
  deriving DecidableEq, Repr

/-- An instruction that has issued and is not yet complete (R180). -/
structure Op where
  /-- its number among the stream's issues since context start -/
  seq : Nat
  pos : Nat
  words : List IWord
  /-- generator bases with the counter term added at issue (R191) -/
  bases : List Int
  /-- the next element thread, and the words of it already moved -/
  thread : Nat
  sub : Nat
  /-- words gathered for a digest, or left over by a decompressor -/
  buf : List QWord
  /-- the record read at its start (tap, region), or the target of a remote operation -/
  record : SWord
  target : Target
  /-- packets sent and unanswered; whether a NACK ended its sending -/
  unanswered : Nat
  failed : Bool
  /-- every thread has run -/
  ran : Bool
  /-- its effects are visible -/
  complete : Bool
  /-- held until END in strict mode (R280) -/
  held : Bool
  /-- skipped after issue (R196) -/
  skipped : Bool
  /-- a boundary hold on its staging was already counted (R277) -/
  counted : Bool
  /-- its accelerator has counted every box or tile so far (REGION boxes, LDZ tiles) -/
  aux : Nat
  deriving DecidableEq, Repr

/-- One stream (R178, R188). -/
structure Strm where
  pos : Nat
  k0 : BitVec 32
  k1 : BitVec 32
  k2 : BitVec 32
  k3 : BitVec 32
  p0 : Comparator
  p1 : Comparator
  /-- instructions issued since the frame program's or context's start (R199) -/
  count : Nat
  atEnd : Bool
  stopped : Bool
  /-- the wait of the instruction at the position has been satisfied; its unit was busy (R184, R207) -/
  waited : Bool
  /-- the bed's beat count when the frame program or the context started (R197); for a saved context the beats it has run -/
  startBeat : Int
  /-- issued and not yet retired, oldest first -/
  ops : List Op
  nextSeq : Nat
  deriving DecidableEq, Repr

def Strm.zero : Strm :=
  { pos := 0, k0 := 0, k1 := 0, k2 := 0, k3 := 0, p0 := .zero, p1 := .zero, count := 0, atEnd := false,
    stopped := false, waited := false, startBeat := 0, ops := [], nextSeq := 0 }

/-- A close that waits for the instructions naming its slot (R139): the closing instruction, its lane, and its record. -/
structure ScaleClose where
  seq : Nat
  array : Nat
  group : Nat
  record : List Byte
  deriving DecidableEq, Repr

/-- A scale slot (R139). -/
structure ScaleSlot where
  isOpen : Bool
  closed : Bool
  absmax : BitVec 32
  elements : Nat
  clipped : Nat
  /-- [0] input validity lost, [2] scale miss copied, [3] arithmetic fault, [4] plausibility fault -/
  status : BitVec 8
  carried : BitVec 32
  closing : Option ScaleClose
  /-- the scale the slot's tensor closed with, read by NARROW (R141) -/
  closedScale : BitVec 32
  deriving DecidableEq, Repr

def ScaleSlot.zero : ScaleSlot :=
  { isOpen := false, closed := false, absmax := 0, elements := 0, clipped := 0, status := 0, carried := 0,
    closing := none, closedScale := 0 }

/-- A remote packet sent and unanswered: its sequence number, the issue number of its instruction, for a GET the local
word its first word fills, its remote word, the words still to come, and whether a HOLD stopped its timer (R249, R254). The
destination unit and window are kept, since an answer names neither (R241). -/
structure Out where
  seq : Nat
  op : Nat
  dst : Nat
  win : Nat
  loc : Nat
  off : Nat
  left : Nat
  held : Bool
  deriving DecidableEq, Repr

/-- A stream pair (R181). -/
structure Pair where
  sa : Strm
  sx : Strm
  oq0 : List QWord
  oq1 : List QWord
  oq2 : List QWord
  oq3 : List QWord
  rq0 : List QWord
  rq1 : List QWord
  /-- sequence of the next remote packet (R241) -/
  rseq : BitVec 16
  outstanding : List Out
  deriving DecidableEq, Repr

def Pair.zero : Pair :=
  { sa := .zero, sx := .zero, oq0 := [], oq1 := [], oq2 := [], oq3 := [], rq0 := [], rq1 := [], rseq := 0,
    outstanding := [] }

/-- A weight set (R103): k rows of w bytes, the weight format, and one checksum register per row (R117). -/
structure WSet where
  rows : List (List Byte)
  fmt : Nat
  csum : List (BitVec 24)
  deriving DecidableEq, Repr

/-- A weight load issued to a group (R103). -/
structure WLoad where
  pair : Nat
  seq : Nat
  k : Nat
  fmt : Nat
  split : Nat
  queue : Nat
  checked : Bool
  deriving DecidableEq, Repr

/-- A slot whose column sums are on their way to the CEU (R101): its number, whether it is a checksum vector (R118),
the data column sums with their overflow bits, and the checksum column's sum. -/
structure SlotSums where
  t : Nat
  isCheck : Bool
  sums : List (BitVec 32 × Bool)
  csum : BitVec 32
  deriving DecidableEq, Repr

/-- What an element is after activation and the range check (R131–R134). -/
inductive Elem where
  /-- forced to code 0, and to the largest code -/
  | forced
  | largest
  | absent
  /-- a value y', and for INT32 output its integer -/
  | value (y : BitVec 32) (v : Int)
  deriving DecidableEq, Repr

/-- A STREAM that has issued and has not delivered its last output. -/
structure Job where
  pair : Nat
  seq : Nat
  mode : Nat
  fmt : Nat
  swap : Bool
  swapped : Bool
  checked : Bool
  n : Nat
  oq : Nat
  rq : Nat
  slots : Nat
  /-- the 96 bytes of the record, the multipliers m and biases b of its columns, and its table (R127, R133) -/
  record : List Byte
  mcol : List (BitVec 32)
  bcol : List (BitVec 32)
  table : List (BitVec 32)
  /-- the carried scale in use (R143) -/
  scale : BitVec 32
  /-- next data slot to inject; words of it already popped -/
  inject : Nat
  popped : List QWord
  /-- the running block of R118: its data slots and the exact sums of its activations -/
  blockLen : Nat
  blockSum : List Int
  flight : List SlotSums
  /-- the slot entering the CEU: columns taken and their elements; sums of each column over the block -/
  col : Nat
  elems : List Elem
  rowSums : List (BitVec 32)
  /-- codes not yet in a full word; dense words of the tile under construction and its first slot -/
  pack : List Nat
  tile : List SWord
  tileFirst : Nat
  /-- data slots through the CEU; output words waiting for room in the result queue -/
  drained : Nat
  outq : List QWord
  deriving DecidableEq, Repr

/-- A tile chain (R129). -/
structure Chain where
  base : Nat
  slots : Nat
  mode : Nat
  fmt : Nat
  wfmt : Nat
  tiles : Nat
  deriving DecidableEq, Repr

/-- A column group's registers (R114). -/
structure Group where
  active : Option WSet
  shadow : Option WSet
  /-- the load in progress with the rows already in -/
  loading : Option (WLoad × List (List Byte))
  waiting : Option WLoad
  jobs : List Job
  chain : Option Chain
  deriving DecidableEq, Repr

def Group.zero : Group :=
  { active := none, shadow := none, loading := none, waiting := none, jobs := [], chain := none }

/-- An accumulator entry of one column (R129): 48 bits, or an FP32 value in the low 32, and the sticky overflow bit. -/
structure Acc where
  val : BitVec 48
  ov : Bool
  deriving DecidableEq, Repr

def Acc.zero : Acc := { val := 0, ov := false }

/-- A section of an image (R224). -/
structure Section where
  kind : Nat
  pair : Nat
  offset : Nat
  len : Nat
  load : Nat
  deriving DecidableEq, Repr

/-- One timetable variant (R320). -/
structure Variant where
  kind : Nat
  core : Nat
  deadline : Nat
  slotStart : Nat
  deriving DecidableEq, Repr

/-- What a saved BE context holds (R326). -/
structure SaveArea where
  /-- words of the resident range with their poison marks, by scratchpad word address -/
  words : KV (SWord × Bool)
  /-- stream pairs and their scale slots (16 × i + slot), by image stream pair -/
  pairs : List Pair
  slots : KV ScaleSlot
  /-- owned groups: array, group, registers, and the group's accumulators (entry × 128 + column of the group) -/
  groups : List (Nat × Nat × Group)
  accs : List (Nat × Nat × KV Acc)
  /-- splits of the arrays the context has groups on -/
  splits : List (Nat × Nat)
  /-- flags of the masks by 6-bit code -/
  flags : KV Bool
  deriving DecidableEq, Repr, Inhabited

def SaveArea.empty : SaveArea := { words := [], pairs := [], slots := [], groups := [], accs := [], splits := [], flags := [] }

/-- How far a context has come in a switch, a teardown or a reset. -/
inductive CtxMove where
  | still | switchingOut | switchingIn | tearing | heldByReset | reloadWait
  deriving DecidableEq, Repr

/-- What the device holds of a context beside its dictionary object (R311 and after). -/
structure Ctx where
  /-- the container's facts: pair offset, pairs, programs (load address and length in instruction words) and their
  boundary maps, A of pair 0, X of pair 0, A of pair 1 and so on -/
  o : Nat
  n : Nat
  programs : List (Nat × Nat)
  bounds : List (List Nat)
  sections : List Section
  containerLen : Nat
  footprint : Nat
  localMask : BitVec 32
  remoteMask : BitVec 32
  windows : List (BitVec 128)
  period : Nat
  variants : List Variant
  /-- split of arrays 0 and 1 in force for placement after a split change (R313) -/
  splitNow : List Nat
  /-- groups owned: array, group, image pair -/
  owned : List (Nat × Nat × Nat)
  move : CtxMove
  /-- the core a dispatch chose, until the switch ends -/
  dest : Option Nat
  placed : Bool
  ready : Bool
  /-- window numbers held (R239) -/
  heldWins : List Nat
  cause : Nat
  laterCauses : Nat
  /-- the detail of the teardown's cause, for the creator's record (R424) -/
  detail : List Byte
  started : Bool
  /-- consecutive beats of the stall monitor (R195) -/
  stall : Nat
  /-- slice boundaries passed since the streams started (R324) -/
  ranSlices : Nat
  save : Option SaveArea
  /-- FP32 contributors seen per window in this frame (R248) -/
  fp32Seen : List (Nat × Nat × Nat)
  /-- marks in force (R200) -/
  marks : List Nat
  skipLimit : Nat
  seed : Nat
  reuse : Nat
  endedFrame : Bool
  /-- handles of CTX_TEARDOWN commands that wait for the teardown's end -/
  handles : List (Nat × Nat)
  /-- the core of a context in teardown, whose object shows none (R337); 255 none -/
  tearCore : Nat
  /-- the range of DRAM that the context holds: first address and bytes (R315) -/
  allotAt : Nat
  allotLen : Nat
  /-- previous dispatch place (core + 1, 0 none) for the placement choice (R277) -/
  lastCore : Nat
  /-- the newest error-log entry made, stored or not (R201) -/
  lastSkip : Nat
  deriving DecidableEq, Repr

def Ctx.zero : Ctx :=
  { o := 0, n := 0, programs := [], bounds := [], sections := [], containerLen := 0, footprint := 0, localMask := 0,
    remoteMask := 0, windows := [], period := 0, variants := [], splitNow := [], owned := [], move := .still, dest := none,
    placed := false, ready := false, heldWins := [], cause := 0, laterCauses := 0, detail := [], started := false, stall := 0,
    ranSlices := 0, save := none, fp32Seen := [],
    marks := [], skipLimit := 16, seed := 0, reuse := 1, endedFrame := false, handles := [], tearCore := 255, allotAt := 0, allotLen := 0, lastCore := 0, lastSkip := 0 }

/-- A window close that waits for its spacing (R239). -/
structure Closing where
  ctx : Nat
  handles : List (Nat × Nat)
  deriving DecidableEq, Repr

/-- A handle slot (R420): the handle that took it, its state (2 running, 3 complete) and code. -/
structure HandleSlot where
  handle : BitVec 32
  st : Nat
  code : Nat
  deriving DecidableEq, Repr

def HandleSlot.zero : HandleSlot := { handle := 0, st := 0, code := 0 }

/-- An export channel (R408). -/
structure Export where
  ctx : Nat
  window : Nat
  ready : Nat
  words : Nat
  addr : Nat
  double : Bool
  last : Option Nat
  deriving DecidableEq, Repr

/-- One PCIe port (R401, R402, R436, R452). -/
structure PortState where
  linkUp : Bool
  busMaster : Bool
  perst : Bool
  trans : List (BitVec 64)
  logBase : BitVec 64
  logSize : BitVec 16
  consumer : BitVec 16
  producer : BitVec 16
  lost : BitVec 32
  /-- log in force since the last HOST_ATTACH, and records lost since the last kind-5 record -/
  ringBase : Nat
  ringSize : Nat
  lostSince : Nat
  selectors : List (BitVec 16)
  romState : Nat
  romCode : Nat
  romLength : BitVec 32
  channels : KV (Option Export)
  /-- when the heartbeat watchdog was last restarted (R402, R405) -/
  heartbeat : Nat
  /-- the MSI-X table by byte (R402) -/
  msixTable : List Host.Cell
  deriving DecidableEq, Repr

/-- Discovery of a head (R50). -/
inductive Disc where
  | idle | certSent | challengeWait | challengeSent | calFetch | meshWait | admitNext | admitted | refused | retryWait
  deriving DecidableEq, Repr

/-- An image being delivered (R34, R59). -/
structure Image where
  isOpen : Bool
  /-- per exposure: its Frame Start came, its Frame End came, and its lines received -/
  began : List Bool
  ended : List Bool
  got : List Nat
  number : BitVec 16
  stamp : Nat
  /-- the frame of its Frame Start, or for a triggered endpoint the frame it belongs to -/
  frame : Nat
  valid : Bool
  deriving DecidableEq, Repr

def Image.zero : Image :=
  { isOpen := false, began := [false, false, false], ended := [false, false, false], got := [0, 0, 0],
    number := 0, stamp := 0, frame := 0, valid := false }

/-- What the device holds of an endpoint beside object 0x2200 + e (R50 and after). -/
structure Endpoint where
  linkUp : Bool
  disc : Disc
  modulus : List Byte
  nonce : List Byte
  calDigest : List Byte
  cal : List Byte
  calLen : Nat
  calAsked : Nat
  /-- what the next tick does to the admitted head: 0 nothing, 1 releases it (R61), 2 releases and refuses it (R54, R56) -/
  releaseNext : Nat
  /-- refused for what Enable cleared and set again can mend (R75) -/
  enableRetry : Bool
  image : Image
  haveNumber : Bool
  lastNumber : BitVec 16
  /-- the newest image whose tensors are complete: the frame they are the input of, and their validity (R25) -/
  complete : Option (Nat × Bool)
  lowClarity : Nat
  admittedFrame : Nat
  lifePending : Bool
  deriving DecidableEq, Repr

def Endpoint.zero : Endpoint :=
  { linkUp := false, disc := .idle, modulus := [], nonce := [], calDigest := [], cal := [], calLen := 0,
    calAsked := 0, releaseNext := 0, enableRetry := false, image := .zero, haveNumber := false, lastNumber := 0,
    complete := none, lowClarity := 0, admittedFrame := 0, lifePending := false }

/-- The delivery of one view in the present frame (R94, R95). -/
structure ViewState where
  stripe : Nat
  valid : Bool
  ended : Bool
  gen : Option Nat
  spanBad : Bool
  done : Bool
  deriving DecidableEq, Repr

def ViewState.zero : ViewState := { stripe := 0, valid := true, ended := false, gen := none, spanBad := false, done := false }

/-- A lidar point kept for a sweep (R87). -/
structure Point where
  code : Nat
  a16 : Nat
  channel : Nat
  intensity : Nat
  offset : Nat
  deriving DecidableEq, Repr

/-- A lidar sweep of an endpoint (R87). -/
structure Sweep where
  frame : Nat
  closed : Bool
  deskewed : Bool
  valid : Bool
  points : List Point
  deriving DecidableEq, Repr

def Sweep.zero : Sweep := { frame := 0, closed := false, deskewed := false, valid := true, points := [] }

/-- A partition (R379 and after). -/
structure Partition where
  fenced : Bool
  /-- the partition reset's step reached, 0 when none runs -/
  resetStep : Nat
  cause : Nat
  safeCause : Bool
  underTest : Bool
  /-- times of past resets, newest first (R384) -/
  resets : List Nat
  handles : List (Nat × Nat)
  step8At : Option Nat
  /-- the code the reset will end with, out of service; 0 none (R378, R384) -/
  failCode : Nat
  /-- the bed link has failed once in this reset or caused it (R378) -/
  linkHit : Bool
  /-- steps 7 to 9 of R381 run after a maintenance activity: no reset (R393) -/
  returning : Bool
  deriving DecidableEq, Repr

def Partition.zero : Partition :=
  { fenced := false, resetStep := 0, cause := 0, safeCause := false, underTest := false, resets := [], handles := [],
    step8At := none, failCode := 0, linkHit := false, returning := false }

/-- A frame fault attributed to the present frame (R342): code, core if one, whether it is a disagreement, and whether it
invalidates the frame. -/
structure FrameFault where
  code : Nat
  core : Option Nat
  disagree : Bool
  /-- of the kind that invalidates the frame -/
  invalid : Bool
  deriving DecidableEq, Repr

/-- The FIW record of the present frame (R342, R344, R358). -/
structure FrameRec where
  isOpen : Bool
  n : Nat
  /-- the device has been in OPERATIONAL since the tick -/
  inOp : Bool
  maint : Bool
  variant : Nat
  outSet : BitVec 4
  fencedSet : BitVec 4
  faults : List FrameFault
  degraded : Nat
  truncations : Nat
  slotPassed : BitVec 8
  slotDone : BitVec 8
  orreryOk : Bool
  /-- the instances of a class that is none of a core's have been tested -/
  orreryDone : Bool
  valid : List Bool
  delivered : List Bool
  /-- admitted heads whose meshes were not built at the tick (R85) -/
  unbuilt : List Nat
  deriving DecidableEq, Repr

def FrameRec.zero : FrameRec :=
  { isOpen := false, n := 0, inOp := false, maint := false, variant := 0, outSet := 0, fencedSet := 0, faults := [],
    degraded := 0, truncations := 0, slotPassed := 0, slotDone := 0, orreryOk := true, orreryDone := false, valid := [], delivered := [],
    unbuilt := [] }

/-- An open event-log record (R369). -/
structure OpenRec where
  index : Nat
  code : Nat
  origin : Nat
  deriving DecidableEq, Repr

/-- A quote waiting for the signature engine (R456). -/
structure Quote where
  issuer : Nat
  handle : Nat × Nat
  hword : Nat
  nonce : List Byte
  deriving DecidableEq, Repr

/-- A batch the device keeps (R300). -/
structure Batch where
  number : Nat
  offset : Nat
  handle : Nat × Nat
  /-- its command has completed after a failed delivery (R299) -/
  done : Bool
  status : List Nat
  delivered : List Nat
  deriving DecidableEq, Repr

/-- A verdict for the replicas of a group (R304): checkpoint, outcome, resume step, receivers. -/
structure Verdict where
  checkpoint : Nat
  outcome : Nat
  resume : Nat
  dsts : List Nat
  deriving DecidableEq, Repr

/-- An adaptation group (R290, R303, R306). DEDUCED, log entry 165. -/
structure AdGroup where
  replicas : List Nat
  batches : List Batch
  agreed : Nat
  rollbacks : Nat
  /-- complete digest records that wait for their verdict: context, step, digest -/
  seen : List (Nat × Nat × Nat)
  /-- records whose verdict has been given, until they change -/
  judged : List (Nat × Nat × Nat)
  /-- a verdict that waits until reduction windows may close again (R239, R304) -/
  due : Option Verdict
  deriving DecidableEq, Repr

def AdGroup.zero : AdGroup := { replicas := [], batches := [], agreed := 0, rollbacks := 0, seen := [], judged := [], due := none }

/-- A promotion in progress (R307). -/
structure Promotion where
  group : Nat
  checkpoint : Nat
  ctx : Nat
  window : Nat
  gen : Nat
  offset : Nat
  handle : Nat × Nat
  digest : List Byte
  /-- puts sent and unanswered -/
  unanswered : List Nat
  failed : Option Nat
  deriving DecidableEq, Repr

/-- A contribution held in a strict-mode round (R249). -/
structure Contribution where
  unit : Nat
  ctx : Nat
  packet : Packet
  /-- which data word of the packet -/
  ix : Nat
  deriving DecidableEq, Repr

/-- A running maintenance activity (R392). -/
structure Activity where
  code : Nat
  part : Nat
  handle : Nat × Nat
  erased : Bool
  image : List Byte
  prov : List Byte
  /-- the partition was out of service before (R397) -/
  wasOut : Bool
  /-- of a stress test, as the parameters stood when it started (R399): its start and floor setpoints and its margin, in mV -/
  start : Nat
  floor : Nat
  margin : Nat
  deriving DecidableEq, Repr

/-- The state of the device. DEDUCED, log entry 166. -/
structure State where
  /-- commands waiting, first in first out -/
  pending : List Instr
  /-- gPTP time base, in ns (R45) -/
  timeNs : Nat
  /-- what the last command made the device send -/
  sent : List Message
  /-- object dictionary: index × 256 + sub-index; an absent key reads its default (R430) -/
  dict : KV (Option Nat)
  /-- every byte of DRAM, scratchpads and Lodestar SRAM by global address (R20) -/
  mem : List Host.Cell
  /-- poisoned 8-byte parts by address / 8 (R262) -/
  poison : KV Bool
  /-- latent memory errors by address / 8: 1 correctable, 2 not (R234, R257) -/
  ecc : KV Nat
  /-- memory of host A and host B as the device wrote it: port × 2^64 + address -/
  hostMem : List Host.Cell
  /-- beat rings: running, and the free value's position (R266, R270) -/
  ringsOn : BitVec 5
  /-- in a low-power state, the clock rings that go on at its exit (R270) -/
  lpRings : BitVec 5
  freeIx : Nat
  /-- stream pairs by 4 × core + pair (R14) -/
  pairs : KV Pair
  /-- scale slots by 16 × (4 × core + pair) + slot (R139) -/
  slots : KV ScaleSlot
  /-- array split code 0, 1, 2 for 1, 2, 4 groups, by 2 × core + array (R113) -/
  splits : KV Nat
  /-- column groups by 4 × (2 × core + array) + group -/
  groups : KV Group
  /-- accumulators by ((2 × core + array) × 2048 + entry) × 128 + column -/
  accs : KV Acc
  /-- flags by 64 × core + flag code (R183); overrun counts by 64 × context + flag code (R184) -/
  flags : KV Bool
  overruns : KV Nat
  /-- window tables by 64 × core + window (R237); time of the last close; closes waiting -/
  windows : KV (BitVec 128)
  lastClose : KV (Option Nat)
  closing : KV (Option Closing)
  /-- reduction rounds by core × 2^21 + word (R249) -/
  rounds : KV (List Contribution)
  /-- packets sent and not yet arrived -/
  fabric : List Packet
  /-- instructions with a failed SPUT packet at the destination: unit, context, pair, tag (R244) -/
  sputBad : List (Nat × Nat × Nat × Nat)
  /-- late-reply buffers by core (R327) -/
  late : KV (List Packet)
  /-- times of recent LINK_TIMEOUTs by link (R377); fallback in use by ring link -/
  timeouts : KV (List Nat)
  /-- contexts by number; the BE waiting queue; the next slice boundary's slices -/
  ctxs : KV Ctx
  waiting : List Nat
  /-- cores in slot clearing (R346); cores whose slot of the present frame is a full test (R351) -/
  clearing : BitVec 8
  fullNow : BitVec 8
  adapt : KV AdGroup
  promotions : List Promotion
  /-- cores that a replica was expelled from, with the frame of it, until a full test passes (R306) -/
  barred : KV (Option Nat)
  /-- handles by 256 × issuer + slot; last slot taken and next sequence by issuer (R419) -/
  handles : KV HandleSlot
  lastSlot : KV Nat
  seqs : KV Nat
  /-- a transition to OPERATIONAL waits for its tick; the handles of the STATE commands that asked for it (R416) -/
  stateWait : Option (List (Nat × Nat))
  portA : PortState
  portB : PortState
  /-- CAN: EMCY queue, bus-off marks, frames sent since -/
  emcy : List CanFrame
  busOffA : Bool
  busOffB : Bool
  busOffRecent : Bool
  /-- CAN-A parameters in force since the last reset of CAN-A (R428) -/
  canParams : List Nat
  eps : KV Endpoint
  /-- life counters in always-on memory by endpoint: serial, hours, cycles, minutes; 0 none (R54) -/
  life : KV (Option (Nat × Nat × Nat × Nat))
  /-- locations of no enabled endpoint at which a head is present; those reported as UNBOUND_HEAD (R38) -/
  unbound : List Location
  announced : List Location
  /-- counters by A-PHY port: discards, corrected headers; by endpoint: skipped images, dropped datagrams (R33–R35) -/
  discards : KV Nat
  eccFixed : KV Nat
  skipped : KV Nat
  dgramDrops : KV Nat
  /-- the device's copy of the tensoriser tables (R67), by offset in Lodestar SRAM -/
  tables : List Host.Cell
  /-- first vertex of each view's mesh by view entry (R81) -/
  meshBase : KV Nat
  /-- lines of the image in delivery by (endpoint × 4 + exposure) × 2^16 + row: sample codes (R73, R78) -/
  raw : KV (List Nat)
  views : KV ViewState
  sweeps : KV Sweep
  sweepsPrev : KV Sweep
  meshQueue : List Nat
  /-- endpoints whose heads passed the digest check of step 4, in order of it (R85) -/
  fetched : List Nat
  /-- calibration sections kept by endpoint -/
  calib : KV (List Byte)
  lensMesh : KV (List Byte)
  /-- motion records taken by frame: six FP32 patterns (R89) -/
  motion : KV (List Nat)
  egoLate : List Nat
  /-- triggers fixed: endpoint, frame, time, and whether it has gone out (R42) -/
  triggers : List (Nat × Nat × Nat × Bool)
  gptpSync : Bool
  /-- a tick has come since reset -/
  ticked : Bool
  tickPredicted : Nat
  /-- gPTP time of the tick before the last one -/
  tickPrev : Nat
  lockGood : Bool
  frame : FrameRec
  disagreements : KV (List Nat)
  logOpen : List OpenRec
  /-- pins (R476) -/
  safeOk : Bool
  faultN : Bool
  poresetN : Bool
  pwrEn : BitVec 8
  pwrGood : BitVec 8
  thermalHold : Bool
  /-- the safe state's reset: causes counted after the first (R363) -/
  laterCauses : Nat
  parts : KV Partition
  /-- device reset: 1 started, 2 log copied, 3 held in reset, 4 firmware runs, 5 self-tested, 6 DRAM trained, 0 none; its cause -/
  devReset : Nat
  devCause : Nat
  devLater : Nat
  /-- always-on memory: log records kept for the reset, codes to report, retained entries (R389, R431, R459) -/
  aonLog : List Byte
  aonCodes : List Nat
  aonDict : KV (Option Nat)
  resetCause : Nat
  activity : Option Activity
  /-- low power: state entered from, wake latched (0 the command, else the bit plus 1), sources and timer read at entry,
  exit begun, exit abandoned (R461, R466, R467, R473) -/
  lpFrom : Nat
  wake : Option Nat
  wakeMask : BitVec 8
  wakeTimer : Nat
  lpExitBegun : Bool
  /-- the groups an exit enables are good (R463, R464); hosts whose grace ended in IDLE (R468) -/
  lpRails : Bool
  graceDue : List Nat
  lpStuck : Bool
  /-- beat caps in force by bed where a stress test set one (R287); the last measurement of the beat rates: its time and the beat counts
  then; beds whose BEAT_SLOW was reported and that have not been at their cap again (R268) -/
  testCap : KV (Option Nat)
  rateAt : Nat
  rateMark : KV Nat
  slowHeld : BitVec 4
  /-- fuse array shadow (R447) and the key block's use -/
  fuses : BitVec 2048
  /-- GiB of DRAM fitted per partition, found at training (R21, R389); the safe state: 0 none, 1 partition, 2 device reset (R362, R363) -/
  fitted : Nat
  safeState : Nat
  /-- boot: ROM waits for a host; the image buffer and the running image's header facts -/
  romWait : Bool
  /-- the exit from SLEEP waits for the boot (R464); hosts to be told of the last device reset once admitted (R389 step 6) -/
  bootDue : Bool
  owedReset : List Nat
  romSource : Nat
  bootDigest : List Byte
  imageLevel : Nat
  imageRevoke : Nat
  fuseBlowDue : Bool
  trustKey : List Byte
  quotes : List Quote
  scrubPos : KV Nat
  /-- the temperature warning was given; since when every die has been 5 °C below the threshold (R440) -/
  tempHeld : Bool
  tempBelow : Option Nat
  /-- VBED setpoint that each stage acknowledged last, where it is not 680 mV (R474) -/
  vset : KV Nat
  deriving DecidableEq, Repr

/-- A port at its defaults (R402, R436). -/
def PortState.reset (port : HostPort) : PortState :=
  { linkUp := false, busMaster := false, perst := false, trans := List.replicate 16 0, logBase := 0, logSize := 0,
    consumer := 0, producer := 0, lost := 0, ringBase := 0, ringSize := 0, lostSince := 0,
    selectors := [match port with | .a => 0x5000 | .b => 0x5001, 0x5100, 0x2700],
    romState := 2, romCode := 0, romLength := 0, channels := [], heartbeat := 0, msixTable := [] }

/-- The device when VAON is applied: INITIALISING, FAULT_N asserted (low), SAFE_OK low, every PWR_EN high
(R414, R362, R473), every dictionary entry at its default, nothing in memory.
DESIGN CHOICE, log entry 8; DESIGN CHOICE, log entry 9. -/
def State.reset : State :=
  { pending := [], timeNs := 0, sent := [], dict := [], mem := [], poison := [], ecc := [], hostMem := [],
    ringsOn := 0, lpRings := 0, freeIx := 0, pairs := [], slots := [], splits := [], groups := [], accs := [], flags := [],
    overruns := [], windows := [], lastClose := [], closing := [], rounds := [], fabric := [], sputBad := [], late := [],
    timeouts := [], ctxs := [], waiting := [], clearing := 0, fullNow := 0, adapt := [], promotions := [], barred := [], handles := [],
    lastSlot := [], seqs := [], stateWait := none,
    portA := PortState.reset .a, portB := PortState.reset .b, emcy := [], busOffA := false, busOffB := false,
    busOffRecent := false, canParams := [0x10, 0x11, 0x11, 3], eps := [], life := [], unbound := [], announced := [], discards := [],
    eccFixed := [], skipped := [], dgramDrops := [], tables := [], meshBase := [], raw := [], views := [],
    sweeps := [], sweepsPrev := [], meshQueue := [], fetched := [], calib := [], lensMesh := [], motion := [], egoLate := [],
    triggers := [], gptpSync := false, ticked := false, tickPredicted := 0, tickPrev := 0, lockGood := false, frame := .zero, disagreements := [],
    logOpen := [], safeOk := false, faultN := false, poresetN := false,
    pwrEn := 0xFF, pwrGood := 0, thermalHold := false, laterCauses := 0, parts := [], devReset := 3, devCause := 0,
    devLater := 0, aonLog := [], aonCodes := [], aonDict := [], resetCause := 0, activity := none, 
    lpFrom := 0, wake := none, wakeMask := 0, wakeTimer := 0,
    lpExitBegun := false, lpRails := false, graceDue := [], lpStuck := false, testCap := [], rateAt := 0, rateMark := [], slowHeld := 0, fuses := Config.shippedFuses, fitted := 0, safeState := 0, romWait := false, bootDue := false, owedReset := [],
    romSource := 0, bootDigest := [], imageLevel := 0, imageRevoke := 0, fuseBlowDue := false, trustKey := [],
    quotes := [], scrubPos := [], tempHeld := false, tempBelow := none, vset := [] }

end Sys2Proof.Machine
end

