-- ==== Sys2Proof/Machine/Dict.lean ====
section
/-! DEFINITION. The object dictionary: what each entry is (type size, access, owner, default, range, when it changes,
through which power states it is kept), and the reads and device-side writes of it (R39, R98, R201, R264, R287, R288,
R309, R337, R338, R371, R372, R398, R399, R417, R428, R430–R445). -/

namespace Sys2Proof.Machine

/-- CiA 301 access words (R7). -/
inductive Access where
  | const | ro | wo | rw
  deriving DecidableEq, Repr

/-- The Owner column (R407, R432): the configuring owner set, one host or CAN by itself, the context's creator, or nobody
who writes. -/
inductive Owner where
  | any | conf | hostA | hostB | can | creator | everyone
  deriving DecidableEq, Repr

/-- What values an entry accepts, and what R426 makes of the others. -/
inductive Range where
  | any
  | span (lo hi : Nat)
  /-- separate codes beside a span -/
  | codes (cs : List Nat) (lo hi : Nat)
  /-- an enumeration: anything else becomes the default -/
  | enum (cs : List Nat)
  /-- a span in steps -/
  | step (lo hi by' : Nat)
  /-- reserved bits are ignored -/
  | mask (m : Nat)
  | signed (bitsN : Nat) (lo hi : Int)
  | real (lo hi : F32)
  /-- depends on other entries or on fuses: see `clampOf` -/
  | special
  deriving DecidableEq, Repr

/-- The device and context states in which a rw entry changes. -/
inductive When where
  /-- any state that accepts writes -/
  | always
  | preOp
  | preOpMaint
  /-- context state 1 or 2 (R337, R290) -/
  | ctxIdle
  deriving DecidableEq, Repr

structure Entry where
  size : Nat
  access : Access
  owner : Owner
  dflt : Nat
  range : Range
  when' : When
  deriving DecidableEq, Repr

def eConst (n d : Nat) : Entry := { size := n, access := .const, owner := .any, dflt := d, range := .any, when' := .always }
def eRo (n d : Nat) : Entry := { size := n, access := .ro, owner := .any, dflt := d, range := .any, when' := .always }
def eRw (n d : Nat) (r : Range) (o : Owner) (w : When) : Entry :=
  { size := n, access := .rw, owner := o, dflt := d, range := r, when' := w }
def eWo (o : Owner) : Entry := { size := 1, access := .wo, owner := o, dflt := 0, range := .enum [0, 1], when' := .always }

/-- Object 0x2200 + e (R39, R40). -/
def objEndpoint : List (Nat × Entry) :=
  [(0x00, eConst 1 0x20), (0x01, eRw 1 0 (.enum [0, 1]) .conf .always), (0x02, eRw 1 0 (.enum [0, 1, 2]) .conf .preOp),
   (0x03, eRw 1 0 .special .conf .preOp), (0x04, eRw 1 0 .special .conf .preOp),
   (0x05, eRw 1 0 (.span 0 15) .conf .preOp), (0x06, eRw 4 0 .any .conf .preOp),
   (0x07, eRw 2 49400 (.span 1024 65535) .conf .preOp), (0x08, eRw 1 1 (.enum [1, 2, 3, 4]) .conf .preOp)] ++
  [(0x09, eRw 1 0x2F (.enum [0x2B, 0x2C, 0x2D, 0x2E, 0x2F, 0x1E, 0x30, 0x31]) .conf .preOp),
   (0x0A, eRw 2 1920 (.span 16 8192) .conf .preOp), (0x0B, eRw 2 1200 (.span 16 8192) .conf .preOp),
   (0x0C, eRw 1 0 (.enum [0, 1]) .conf .preOp), (0x0D, eRw 4 0 .special .conf .preOp), (0x0E, eRw 8 0 .any .conf .preOp),
   (0x0F, eRw 4 0 (.span 0 1000000) .conf .preOp), (0x10, eRw 4 0 (.span 0 10000000) .conf .preOp),
   (0x11, eRw 4 0 (.span 0 10000000) .conf .preOp), (0x12, eRw 1 96 (.span 0 239) .conf .always)] ++
  [(0x13, eRw 2 40 (.span 1 10000) .conf .always), (0x14, eRw 2 10 (.span 1 1000) .conf .preOp), (0x15, eRo 1 0),
   (0x16, eRo 1 0), (0x17, eRo 8 0), (0x18, eRo 2 0), (0x19, eRo 1 255),
   (0x1A, eRw 1 0 (.enum [0, 1]) .everyone .always), (0x1B, eRo 4 0), (0x1C, eRo 4 0), (0x1D, eRo 4 0), (0x1E, eRo 4 0),
   (0x1F, eRo 4 0), (0x20, eRo 4 0)]

/-- Object 0x2400 (R98). -/
def objTensoriser : List (Nat × Entry) :=
  [(0x00, eConst 1 0x17), (0x01, eRo 4 0), (0x02, eRo 4 0), (0x03, eRw 4 4000 (.span 500 20000) .conf .preOp),
   (0x04, eRo 4 0), (0x05, eRo 4 0), (0x06, eRo 4 0), (0x07, eRo 4 0), (0x08, eRo 4 0), (0x09, eRo 4 0), (0x0A, eRo 2 0),
   (0x10, eRw 4 0 .any .conf .always)] ++
  [0x11, 0x12, 0x13].map (fun k => (k, eRw 4 0 (.real 0xC2C80000 0x42C80000) .conf .always)) ++
  [0x14, 0x15, 0x16].map (fun k => (k, eRw 4 0 (.real 0xC1200000 0x41200000) .conf .always)) ++
  [(0x17, eWo .conf)]

/-- Object 0x2401 (R441). -/
def objMeridian : List (Nat × Entry) :=
  [(0x00, eConst 1 0x09), (0x01, eRw 4 50000 (.span 10000 200000) .conf .preOp), (0x02, eRw 1 0 (.enum [0, 1, 2]) .conf .preOp),
   (0x03, eRw 4 0 .special .conf .preOp), (0x04, eRw 4 0 .special .conf .preOp), (0x05, eRo 1 0), (0x06, eRo 4 0),
   (0x07, eRo 8 0), (0x08, eRo 4 0), (0x09, eRo 4 0)]

/-- Object 0x2500 (R398, R264, R338, R428, R443). -/
def objPartitions : List (Nat × Entry) :=
  [(0x00, eConst 1 0x4E)] ++
  [1, 2, 3, 4, 5].map (fun k => (k, eRo 1 0)) ++
  [6, 7, 8, 9].map (fun k => (k, eRo 4 0)) ++
  [(0x0A, eRw 1 3 (.span 0 16) .conf .always), (0x0B, eRw 2 60 (.span 1 1440) .conf .always),
   (0x0C, eRw 2 2000 (.span 500 10000) .conf .always), (0x0D, eRo 2 0), (0x0E, eRo 4 0), (0x0F, eRo 1 0)] ++
  [0x10, 0x11, 0x12, 0x13, 0x14, 0x15, 0x16, 0x17].map (fun k => (k, eRo 1 0)) ++
  [(0x20, eRw 1 0 .special .conf .preOp), (0x21, eRw 2 24 (.span 1 168) .conf .always), (0x22, eRo 2 0), (0x23, eRo 1 0)] ++
  [0x24, 0x25, 0x26, 0x27, 0x28, 0x29, 0x2A, 0x2B, 0x2C, 0x2D, 0x2E, 0x2F].map (fun k => (k, eRo 4 0)) ++
  [(0x30, eRw 2 1000 (.span 250 10000) .conf .preOp), (0x31, eRw 2 500 (.span 0 60000) .conf .always), (0x32, eRo 4 0),
   (0x33, eRo 1 0)] ++
  [(0x40, eRo 1 0), (0x41, eRo 1 0), (0x42, eRo 1 0), (0x43, eRw 2 100 (.span 10 5000) .hostA .always),
   (0x44, eRw 2 100 (.span 10 5000) .hostB .always), (0x45, eRo 1 1), (0x46, eRo 1 1), (0x47, eRo 1 1), (0x48, eRo 4 0),
   (0x49, eRo 4 0)] ++
  [(0x4A, eRw 1 0x10 (.span 1 127) .conf .preOp), (0x4B, eRw 1 0x11 (.enum [0x00, 0x01, 0x10, 0x11]) .conf .preOp),
   (0x4C, eRw 1 0x11 (.span 1 127) .conf .preOp), (0x4D, eRw 1 3 (.enum [0, 1, 2, 3]) .conf .preOp), (0x4E, eRo 4 0)]

/-- Object 0x2600 + k (R337, R398, R444, R201, R288, R309). -/
def objContext : List (Nat × Entry) :=
  [(0x00, eConst 1 0xE0), (0x01, eRo 1 0), (0x02, eRo 1 0), (0x03, eRo 1 0),
   (0x04, eRw 1 255 (.codes [255] 0 7) .creator .ctxIdle), (0x05, eRw 1 0 (.enum [0, 1]) .creator .ctxIdle),
   (0x06, eRw 1 0 .special .creator .ctxIdle), (0x07, eRo 1 255), (0x08, eRo 1 255), (0x09, eRo 1 0), (0x0A, eRo 1 0)] ++
  [(0x0B, eRw 1 0 (.span 0 3) .creator .ctxIdle), (0x0C, eRo 8 0), (0x0D, eRw 4 0 (.step 0 0xFFFFFFE0 32) .creator .ctxIdle),
   (0x0E, eRo 8 0), (0x0F, eRo 8 0)] ++
  [0x10, 0x11, 0x12, 0x13].map (fun k => (k, eRw 2 0 (.mask 0x3F3F) .creator .ctxIdle)) ++
  [(0x14, eRo 4 0), (0x15, eRo 4 0), (0x16, eRo 4 0), (0x17, eRo 4 0), (0x18, eRo 4 0), (0x19, eRo 4 0), (0x1A, eRo 4 0),
   (0x1B, eRo 2 0), (0x1C, eRo 4 0), (0x1D, eRo 32 0), (0x1E, eRo 1 0), (0x1F, eRw 1 0 (.codes [0] 1 16) .creator .ctxIdle),
   (0x20, eRw 1 0 .special .creator .ctxIdle)] ++
  [0x21, 0x22, 0x23, 0x24, 0x25, 0x26, 0x27, 0x28, 0x29, 0x2A].map (fun k => (k, eRo 4 0)) ++
  [(0x30, eRw 2 16 .any .creator .always), (0x31, eRo 2 0), (0x32, eRo 4 0), (0x33, eRo 1 0), (0x34, eRo 4 0),
   (0x35, eWo .creator), (0x36, eRo 4 0), (0x37, eRo 4 0)] ++
  [0x38, 0x39, 0x3A, 0x3B, 0x3C, 0x3D, 0x3E, 0x3F].map (fun k => (k, eRw 4 0 .special .creator .always)) ++
  [(0x40, eRo 1 0)] ++ (List.range 64).map (fun k => (0x41 + k, eRo 16 0)) ++
  [(0x81, eRw 4 0 .any .creator .always), (0x82, eRw 1 1 (.enum [1, 2, 4]) .creator .always), (0x83, eRo 2 0), (0x84, eRo 4 0),
   (0x85, eRo 4 0), (0x86, eRo 4 0), (0x87, eRo 4 0)] ++
  [(0x90, eRw 1 0 (.codes [0] 1 8) .creator .ctxIdle), (0x91, eRo 1 255), (0x92, eRw 2 16 (.span 1 256) .creator .ctxIdle),
   (0x93, eRw 2 64 (.span 1 256) .creator .ctxIdle), (0x94, eRw 8 0 (.step 0 0xFFFFFFFFFFFFFFE0 32) .creator .ctxIdle),
   (0x95, eRw 4 0 .any .creator .ctxIdle), (0x96, eRw 1 2 (.enum [1, 2, 5]) .creator .ctxIdle),
   (0x97, eRw 2 64 (.span 1 4096) .creator .ctxIdle), (0x98, eRw 2 64 (.span 1 4096) .creator .ctxIdle),
   (0x99, eRw 2 3 (.span 1 1024) .creator .ctxIdle)] ++
  [(0x9A, eRo 4 0), (0x9B, eRo 4 0), (0x9C, eRo 4 0), (0x9D, eRo 4 0), (0x9E, eRo 4 0),
   (0x9F, eRw 4 0 (.mask 0x3FFFFFFF) .creator .ctxIdle), (0xA0, eRw 2 0 (.mask 0x1F1F) .creator .ctxIdle)] ++
  (List.range 64).map (fun k => (0xA1 + k, eRo 16 0))

/-- Object 0x2700 (R371). -/
def objSafety : List (Nat × Entry) :=
  [(0x00, eConst 1 0x1C), (0x01, eRw 1 2 (.span 1 16) .conf .preOp), (0x02, eRw 2 100 .special .conf .preOp),
   (0x03, eRw 4 38000 .special .conf .preOp), (0x04, eRo 1 0), (0x05, eRo 2 0), (0x06, eRo 64 0), (0x07, eRo 8 0)] ++
  [0x08, 0x09, 0x0A, 0x0B, 0x0C, 0x0D, 0x0E, 0x0F].map (fun k => (k, eRo 4 0)) ++
  [(0x10, eRo 1 0), (0x11, eRo 4 0), (0x12, eRo 4 0)] ++
  [0x13, 0x14, 0x15, 0x16, 0x17, 0x18, 0x19, 0x1A].map (fun k => (k, eRo 2 0)) ++ [(0x1B, eRo 1 0), (0x1C, eRo 4 0)]

/-- Object 0x2800 (R372). -/
def objLog : List (Nat × Entry) :=
  [(0x00, eConst 1 0x05), (0x01, eRo 2 0), (0x02, eRo 2 0), (0x03, eRo 4 0), (0x04, eRo 4 0), (0x05, eRo 4 0)]

/-- Object 0x2900 (R287). -/
def objBeats : List (Nat × Entry) :=
  [(0x00, eConst 1 0x16), (0x01, eRw 1 0 .special .conf .preOp), (0x02, eConst 1 0)] ++
  [3, 4, 5, 6].map (fun k => (k, eRw 2 900 (.step 300 1200 10) .conf .preOp)) ++
  [7, 8, 9, 0x0A, 0x0B].map (fun k => (k, eRo 2 0)) ++ [0x0C, 0x0D, 0x0E, 0x0F, 0x10].map (fun k => (k, eRo 8 0)) ++
  [0x11, 0x12, 0x13, 0x14, 0x15, 0x16].map (fun k => (k, eRo 4 0))

/-- Object 0x2A00 (R399). -/
def objMaint : List (Nat × Entry) :=
  [(0x00, eConst 1 0x14), (0x01, eRo 1 0), (0x02, eRo 1 255), (0x03, eRw 2 680 .special .conf .preOpMaint),
   (0x04, eRw 2 600 .special .conf .preOpMaint), (0x05, eRw 2 900 (.step 300 1200 10) .conf .preOpMaint),
   (0x06, eRw 4 1000 (.span 1 100000) .conf .preOpMaint), (0x07, eRw 1 0 (.codes [0] 60 120) .conf .preOpMaint),
   (0x08, eRw 2 600 (.span 10 3600) .conf .preOpMaint), (0x09, eRw 2 40 (.span 0 200) .conf .preOpMaint)] ++
  [(0x0A, eRo 1 0), (0x0B, eRo 2 0), (0x0C, eRo 2 0), (0x0D, eRo 1 255), (0x0E, eRo 2 0), (0x0F, eRo 4 0), (0x10, eRo 1 0),
   (0x11, eRo 4 0), (0x12, eRo 4 0), (0x13, eRo 4 0), (0x14, eRo 2 0)]

/-- Object 0x2100 (R440). -/
def objPower : List (Nat × Entry) :=
  [(0x00, eConst 1 0x14), (0x01, eRo 1 0)] ++ [2, 3, 4, 5].map (fun k => (k, eRw 2 680 (.step 550 800 10) .conf .preOp)) ++
  [6, 7, 8, 9, 0x0A].map (fun k => (k, eRo 2 0)) ++ [(0x0B, eRo 2 0xFFD8)] ++ [0x0C, 0x0D, 0x0E].map (fun k => (k, eRo 1 0)) ++
  [(0x0F, eRw 2 115 (.signed 16 60 125) .conf .always), (0x10, eRo 4 0), (0x11, eRo 2 0),
   (0x12, eRw 1 0x0F (.mask 0x0F) .conf .always), (0x13, eRw 4 0 (.codes [0] 1 86400) .conf .always), (0x14, eRo 1 0)]

/-- Object 0x2000 (R439): defaults of fused entries come from the fuses, see `dfltOf`. -/
def objIdentity : List (Nat × Entry) :=
  [(0x00, eConst 1 0x16), (0x01, eConst 10 (natOf (ascii "VXW-8448-A"))), (0x02, eConst 1 0xB0), (0x03, eConst 8 0),
   (0x04, eConst 32 0), (0x05, eRo 4 0), (0x06, eRo 8 0), (0x07, eRo 1 0), (0x08, eConst 32 0), (0x09, eConst 32 0),
   (0x0A, eConst 32 0), (0x0B, eConst 32 0), (0x0C, eConst 1 0), (0x0D, eRo 1 0)] ++
  [(0x0E, eConst 32 0), (0x0F, eConst 32 0), (0x10, eConst 1 0), (0x11, eConst 1 0), (0x12, eConst 1 0), (0x13, eConst 8 0),
   (0x14, eConst 1 0), (0x15, eConst 1 0), (0x16, eConst 1 0)]

/-- Objects 0x5000, 0x5001 and 0x5002 (R417). -/
def objCommand (o : Owner) : List (Nat × Entry) :=
  [(0x00, eConst 1 0x08),
   (0x01, eRw 1 1 (.enum [0x01, 0x02, 0x10, 0x11, 0x12, 0x13, 0x14, 0x15, 0x20, 0x21, 0x30, 0x31, 0x32, 0x33, 0x34, 0x35, 0x38,
     0x39, 0x40, 0x41, 0x48, 0x49, 0x50]) o .always),
   (0x02, eRw 8 0 .any o .always), (0x03, eRw 8 0 .any o .always), (0x04, eRw 8 0 .any o .always),
   (0x05, eRw 8 0 .any o .always), (0x06, eWo o), (0x07, eRo 4 0), (0x08, eRo 2 0)]

/-- Object 0x5100 (R445). -/
def objHandles : List (Nat × Entry) :=
  [(0x00, eConst 1 0x06), (0x01, eRw 4 0 .any .hostA .always), (0x02, eRo 4 0), (0x03, eRw 4 0 .any .hostB .always),
   (0x04, eRo 4 0), (0x05, eRw 4 0 .any .can .always), (0x06, eRo 4 0)]

/-- The communication profile (R438). -/
def objComm : Nat → List (Nat × Entry)
  | 0x1000 => [(0, eConst 4 0)]
  | 0x1001 => [(0, eRo 1 0)]
  | 0x1008 => [(0, eConst 24 (natOf (ascii "Voxnov Wenkar VXW-8448-A")))]
  | 0x1009 => [(0, eConst 2 (natOf (ascii "B0")))]
  | 0x100A => [(0, eRo 8 0)]
  | 0x1014 => [(0, eRw 4 0x90 .special .conf .always)]
  | 0x1015 => [(0, eRw 2 0 .any .conf .always)]
  | 0x1017 => [(0, eRw 2 100 (.codes [0] 10 10000) .conf .always)]
  | 0x1018 => [(0, eConst 1 4), (1, eConst 4 0x5D3), (2, eConst 4 0x8448), (3, eConst 4 0xB0), (4, eConst 4 0)]
  | 0x1301 => [(0, eConst 1 6), (1, eConst 1 1), (2, eRo 2 50), (3, eRw 1 20 (.span 1 255) .conf .preOp), (4, eConst 1 254),
      (5, eRw 4 0x101 .special .conf .preOp), (6, eRo 4 0x102)]
  | 0x1381 => [(0, eConst 1 2), (1, eConst 4 0x27000740), (2, eConst 4 0x27000740)]
  | 0x13FE => [(0, eRw 1 0 .special .conf .preOp)]
  | 0x13FF => [(0, eConst 1 1), (1, eRw 2 0 .any .conf .preOp)]
  | _ => []

/-- The entries of an index; an index without entries is absent (R430). -/
def objOf (index : Nat) : List (Nat × Entry) :=
  if 0x2200 ≤ index && index < 0x22C0 then objEndpoint
  else if 0x2600 ≤ index && index < 0x2640 then objContext
  else if index = 0x2000 then objIdentity
  else if index = 0x2100 then objPower
  else if index = 0x2400 then objTensoriser
  else if index = 0x2401 then objMeridian
  else if index = 0x2500 then objPartitions
  else if index = 0x2700 then objSafety
  else if index = 0x2800 then objLog
  else if index = 0x2900 then objBeats
  else if index = 0x2A00 then objMaint
  else if index = 0x5000 then objCommand .hostA
  else if index = 0x5001 then objCommand .hostB
  else if index = 0x5002 then objCommand .can
  else if index = 0x5100 then objHandles
  else objComm index

/-- The entry at a sub-index, if there is one. -/
def findEntry : List (Nat × Entry) → Nat → Option Entry
  | [], _ => none
  | (k, e) :: r, sub => if k = sub then some e else findEntry r sub

def entryOf (index sub : Nat) : Option Entry := findEntry (objOf index) sub

/-! ### Fuses -/

/-- The fuse field [hi:lo] (R447). -/
def State.fuse (s : State) (hi lo : Nat) : Nat := bits s.fuses.toNat hi lo

/-- The number of set bits among the low `n`. -/
def popcount : Nat → Nat → Nat
  | 0, _ => 0
  | n + 1, v => v % 2 + popcount n (v / 2)

/-- The anti-rollback counter: the number of blown bits (R447). -/
def State.rollback (s : State) : Nat := popcount 64 (s.fuse 1411 1348)

/-! ### Reads -/

def dkey (index sub : Nat) : Nat := index * 256 + sub

/-- Eight hexadecimal digits of an image version (R438). -/
def hexDigits (v : Nat) : List Byte :=
  (List.range 8).map (fun i => let d := bits v (31 - 4 * i) (28 - 4 * i); BitVec.ofNat 8 (if d < 10 then 48 + d else 55 + d))

/-- Object 0x1001 (R412): [0] safe state or a partition out of service, [4] a bus-off within the frame, [7] a record
created in the present frame. It reads as the machine stands; nothing writes it. DEDUCED, log entry 160. -/
def State.errorRegister (s : State) : Nat :=
  let out := (KV.get none s.dict (dkey 0x2500 0x05)).getD 0
  (if s.safeState ≠ 0 || out ≠ 0 then 1 else 0) + (if s.busOffRecent then 16 else 0)
    + (if s.logOpen.isEmpty then 0 else 128)

/-- What an entry reads before anything has written it since reset. -/
def State.dfltOf (s : State) (index sub : Nat) : Nat :=
  let plain := match entryOf index sub with | some e => e.dflt | none => 0
  if index = 0x2000 then
    if sub = 0x03 then s.fuse 63 0
    else if sub = 0x04 then s.fuse 319 64
    else if sub = 0x06 then s.rollback
    else if 0x08 ≤ sub && sub ≤ 0x0B then s.fuse (575 + 256 * (sub - 8)) (320 + 256 * (sub - 8))
    else if sub = 0x0C then s.fuse 1347 1344
    else if sub = 0x0E then s.fuse 1667 1412
    else if sub = 0x0F then s.fuse 1923 1668
    else if sub = 0x10 then s.fuse 1924 1924
    else if sub = 0x11 then s.fuse 1925 1925
    else if sub = 0x12 then s.fuse 1926 1926
    else if sub = 0x13 then s.fuse 1990 1927
    else if sub = 0x14 then s.fuse 1991 1991
    else if sub = 0x15 then s.fuse 1992 1992
    else if sub = 0x16 then s.fuse 1995 1993
    else plain
  else if index = 0x2900 && sub = 0x02 then s.fuse 1925 1925
  else if index = 0x1018 && sub = 4 then s.fuse 31 0
  else if index = 0x1001 && sub = 0 then s.errorRegister
  else if index = 0x1014 && sub = 0 then
    0x80 + (match KV.get none s.dict (dkey 0x2500 0x4A) with | some v => v | none => 0x10)
  else plain

/-- The present value of a dictionary entry (R430, R431). -/
def State.dget (s : State) (index sub : Nat) : Nat :=
  match KV.get none s.dict (dkey index sub) with
  | some v => v
  | none => s.dfltOf index sub

/-- The device sets an entry. -/
def State.dset (s : State) (index sub v : Nat) : State := { s with dict := KV.set none s.dict (dkey index sub) (some v) }

/-- An entry returns to its default. -/
def State.dclear (s : State) (index sub : Nat) : State := { s with dict := KV.set none s.dict (dkey index sub) none }

/-- A counter entry of 32 bits goes up, wrapping. -/
def State.dadd (s : State) (index sub n : Nat) : State := s.dset index sub ((s.dget index sub + n) % 2 ^ 32)
def State.dbump (s : State) (index sub : Nat) : State := s.dadd index sub 1

/-- Entries of context k and of endpoint e. -/
def State.cget (s : State) (k sub : Nat) : Nat := s.dget (0x2600 + k) sub
def State.cset (s : State) (k sub v : Nat) : State := s.dset (0x2600 + k) sub v
def State.cbump (s : State) (k sub : Nat) : State := s.dbump (0x2600 + k) sub
def State.eget (s : State) (e sub : Nat) : Nat := s.dget (0x2200 + e) sub
def State.eset (s : State) (e sub v : Nat) : State := s.dset (0x2200 + e) sub v
def State.ebump (s : State) (e sub : Nat) : State := s.dbump (0x2200 + e) sub

/-- The dictionary clamp counter goes up (R7, R426). -/
def State.clamped (s : State) : State := s.dbump 0x2500 0x48

/-! ### Device states (R414) and settings (R28) -/

def dsInit : Nat := 0
def dsPreOp : Nat := 1
def dsOp : Nat := 2
def dsStopped : Nat := 3
def dsMaint : Nat := 4
def dsRecovering : Nat := 5
def dsLowPower : Nat := 6

/-- The device state of object 0x2500:40. -/
def State.dev (s : State) : Nat := s.dget 0x2500 0x40

/-- The device state for dictionary writes: LOW-POWER stands for the state entered from (R414). -/
def State.devForWrites (s : State) : Nat := if s.dev = dsLowPower then s.lpFrom else s.dev

def State.strict (s : State) : Bool := s.dget 0x2900 0x01 == 1
def State.bririte (s : State) : Bool := s.dget 0x2500 0x20 == 1
/-- Frame period in ns, and the present frame number. -/
def State.periodNs (s : State) : Nat := s.dget 0x2401 0x01 * 1000
def State.frameNo (s : State) : Nat := s.dget 0x2401 0x06
def State.tickNs (s : State) : Nat := s.dget 0x2401 0x07

/-! ### Clamps (R426, R29, R40, R442) -/

/-- The low two bits of each port's role: 3 becomes 0, and only the lowest slave stays one (R442). -/
def clampRoles : Nat → Nat → Bool → Nat → Nat
  | 0, _, _, acc => acc
  | n + 1, v, seen, acc =>
    let q := 15 - n
    let r := bits v (2 * q + 1) (2 * q)
    let r' := if r = 3 then 0 else if r = 2 && seen then 1 else r
    clampRoles n v (seen || r == 2) (acc + r' * 4 ^ q)

def clampNat (lo hi v : Nat) : Nat := if v < lo then lo else if hi < v then hi else v

/-- What a written value becomes, by the entry's range; special entries by their own rules. DESIGN CHOICE, log entry 158. -/
def State.clampOf (s : State) (index sub : Nat) (e : Entry) (v : Nat) : Nat :=
  match e.range with
  | .any => v
  | .span lo hi => clampNat lo hi v
  | .codes cs lo hi => if cs.contains v then v else clampNat lo hi v
  | .enum cs => if cs.contains v then v else e.dflt
  | .step lo hi st => let c := clampNat lo hi v; c - c % st
  | .mask m => v &&& m
  | .signed n lo hi =>
    let c := clampInt lo hi (signed n v)
    if c < 0 then (c + 2 ^ n).toNat else c.toNat
  | .real lo hi =>
    let x : F32 := BitVec.ofNat 32 v
    if fIsNaN x then (Config.freeWord s.freeIx).toNat
    else if fLt x lo then lo.toNat else if fLt hi x then hi.toNat else v
  | .special =>
    if 0x2200 ≤ index && index < 0x22C0 then
      let kind := s.dget index 0x02
      if sub = 0x03 then clampNat 0 (if kind = 2 then 15 else 47) v
      else if sub = 0x04 then clampNat 0 (if kind = 1 then 3 else 7) v
      else clampNat 0 (s.dget 0x2401 0x01 - 1000) v
    else if 0x2600 ≤ index && index < 0x2640 then
      let k := index - 0x2600
      if sub = 0x06 then
        if v = 1 && s.fuse (1927 + k) (1927 + k) = 1 && s.dget index 0x02 = 1 then 1 else 0
      else if sub = 0x20 then (if v % 32 > 28 then 28 else v % 32) + (v &&& 0x80)
      else if s.fuse 1992 1992 = 1 then 0 else v
    else if index = 0x2401 then
      if sub = 0x03 then clampNat 0 (s.dget 0x2401 0x01 - 1) v else clampRoles 16 v false 0
    else if index = 0x2500 then (if v = 1 && s.fuse 1926 1926 = 1 then 1 else 0)
    else if index = 0x2700 then
      if sub = 0x02 then clampNat (s.dget 0x2700 0x01) 10000 v
      else clampNat 500 (s.dget 0x2401 0x01 - 48) v
    else if index = 0x2900 then (if v = 1 && s.fuse 1925 1925 = 1 then 1 else 0)
    else if index = 0x2A00 then
      if sub = 0x03 then
        let c := clampNat 550 800 v
        max (c - c % 10) (s.dget 0x2A00 0x04)
      else
        let c := clampNat 550 (s.dget 0x2A00 0x03) v
        c - c % 10
    else if index = 0x1014 then clampNat 0x081 0x0FF (v % 2048) + (v &&& 0x80000000)
    else if index = 0x1301 then
      let c := clampNat 0x101 0x17F v
      if c % 2 = 0 then c - 1 else c
    else if v = 0xA5 then 0xA5 else 0

/-- Whether a clamp counts: reserved bits that a mask drops are not a clamp (R6), nor are bits of 0x1014 without a field; any other change
is (R426). DESIGN CHOICE, log entry 171. -/
def State.clampCounts (s : State) (index sub : Nat) (e : Entry) (v : Nat) : Bool :=
  match e.range with
  | .mask _ => false
  | .special =>
    if 0x2600 ≤ index && index < 0x2640 && sub = 0x20 then decide (v % 32 > 28)
    else if index = 0x1014 then decide (clampNat 0x081 0x0FF (v % 2048) ≠ v % 2048)
    else decide (s.clampOf index sub e v ≠ v)
  | _ => decide (s.clampOf index sub e v ≠ v)

/-! ### Retention (R430, R431) -/

/-- 0 kept through no low-power state, 1 through IDLE, 2 through IDLE and STANDBY, 3 through every state. -/
def keepLevel (index sub : Nat) : Nat :=
  if 0x1000 ≤ index && index < 0x1400 then 3
  else if index = 0x2000 then 3
  else if index = 0x2100 then (if (2 ≤ sub && sub ≤ 5) || sub = 0x0F || sub = 0x12 || sub = 0x13 then 3 else 0)
  else if 0x2200 ≤ index && index < 0x22C0 then (if sub = 0x1A then 0 else 2)
  else if index = 0x2400 then (if sub = 0x03 then 2 else 0)
  else if index = 0x2401 then (if 1 ≤ sub && sub ≤ 4 then 3 else 0)
  else if index = 0x2500 then
    (if (0x0A ≤ sub && sub ≤ 0x0C) || sub = 0x0E || sub = 0x20 || sub = 0x30 || sub = 0x31 || sub = 0x43 || sub = 0x44
        || (0x4A ≤ sub && sub ≤ 0x4D) then 3 else 0)
  else if 0x2600 ≤ index && index < 0x2640 then 1
  else if index = 0x2700 then (if 1 ≤ sub && sub ≤ 3 then 3 else 0)
  else if index = 0x2900 then (if sub = 1 || (3 ≤ sub && sub ≤ 6) then 3 else 0)
  else if index = 0x2A00 then (if 3 ≤ sub && sub ≤ 9 then 3 else 0)
  else 0

/-- Entries that show a present fact of the device which the low-power state does not end (states, rates, counts that
run on): they are shown again after the exit. `level` is 1 for IDLE, 2 for STANDBY. DEDUCED, log entry 159. -/
def liveEntry (level index sub : Nat) : Bool :=
  (index == 0x2500 && (sub ≤ 5 || sub == 0x0F || (0x10 ≤ sub && sub ≤ 0x17)
      || (0x40 ≤ sub && sub ≤ 0x42) || (0x45 ≤ sub && sub ≤ 0x47)))
    || (index == 0x2100 && (sub == 1 || (6 ≤ sub && sub ≤ 0x0A) || sub == 0x14))
    || (index == 0x2401 && (0x05 ≤ sub && sub ≤ 0x08))
    || (index == 0x2900 && level == 1 && (0x0C ≤ sub && sub ≤ 0x10))
    || (index == 0x5000 || index == 0x5001 || index == 0x5002) && sub == 7

/-- The dictionary that a low-power state of a level leaves. -/
def State.keepDict (s : State) (level : Nat) : KV (Option Nat) :=
  s.dict.filter (fun e => decide (level ≤ keepLevel (e.1 / 256) (e.1 % 256)) || (decide (level ≤ 2) && liveEntry level (e.1 / 256) (e.1 % 256)))

end Sys2Proof.Machine
end

