-- ==== Sys2Proof/Machine/Ops.lean ====
section
/-! DEFINITION. The shared operations: memory and the address map, sparse state by unit, the event log and EMCY, host
records, handles and the checks every command passes. -/

namespace Sys2Proof.Machine

/-- What one command makes the device send is empty when the command begins. DESIGN CHOICE, log entry 1. -/
def State.fresh (s : State) : State := { s with sent := [] }

/-- The device sends a message. DESIGN CHOICE, log entry 12. -/
def State.send (s : State) (m : Message) : State := { s with sent := s.sent ++ [m] }

/-- The time base reaches `t`; it never runs back. -/
def State.atTime (s : State) (t : Nat) : State := { s with timeNs := max s.timeNs t }

/-- A free number; the counter of free values moves on. DESIGN CHOICE, log entry 7. -/
def State.freeStep (s : State) : State := { s with freeIx := s.freeIx + 1 }

/-- Fold a state over a list. -/
def foldS {α : Type} (l : List α) (f : State → α → State) (s : State) : State := l.foldl f s

/-! ### The address map (R20–R24) -/

def spmBase (c : Nat) : Nat := 0x100000000000 + c * 0x4000000
def lsBase : Nat := 0x110000000000
def ctlBase : Nat := 0x120000000000
def dramBase (p : Nat) : Nat := p * 0x400000000
/-- Words of a core's scratchpad, and of a quarter (R228). -/
def spmWords : Nat := 1572864
def quarterWords : Nat := 393216

/-- Where a global address lies. -/
inductive Region where
  | dram (p : Nat)
  | spm (c : Nat)
  | ls
  | sm
  | ctl
  | unmapped
  deriving DecidableEq, Repr

/-- Usable bytes of a partition: 7/8 of the fitted capacity (R21). -/
def State.usable (s : State) : Nat := s.fitted * 0x40000000 * 7 / 8

/-- The region of a global byte address (R20–R23). -/
def State.regionOf (s : State) (a : Nat) : Region :=
  if a < 0x1000000000 then
    (if a % 0x400000000 < s.usable then .dram (a / 0x400000000) else .unmapped)
  else if spmBase 0 ≤ a && a < spmBase 8 then
    (if (a - spmBase 0) % 0x4000000 < 0x3000000 then .spm ((a - spmBase 0) / 0x4000000) else .unmapped)
  else if lsBase ≤ a && a < lsBase + 0x4000000 then
    (if lsBase + 0x3800000 ≤ a && a < lsBase + 0x3C00000 then .sm else .ls)
  else if ctlBase ≤ a && a < ctlBase + 0x1000000 then .ctl
  else .unmapped

/-! ### Memory -/

/-- What a byte that nothing has written reads as: 0 (DRAM and SRAM are initialised to zeros, R389, R463, R464).
DEDUCED, log entry 3. -/
def memDefault : Byte := 0

def State.byteAt (s : State) (a : Nat) : Byte := KV.get memDefault s.mem a
def State.setByte (s : State) (a : Nat) (b : Byte) : State := { s with mem := KV.set memDefault s.mem a b }

/-- `n` bytes from `a` up. -/
def State.readBytes (s : State) (a n : Nat) : List Byte := (List.range n).map (fun i => s.byteAt (a + i))

/-- Bytes written from `a` up. -/
def writeCells : List Host.Cell → Nat → List Byte → List Host.Cell
  | m, _, [] => m
  | m, a, b :: r => writeCells (KV.set memDefault m a b) (a + 1) r

def State.writeBytes (s : State) (a : Nat) (l : List Byte) : State := { s with mem := writeCells s.mem a l }

/-- Whether any 8-byte part of the 32-byte word at `a` is poisoned (R262). -/
def State.wordPoison (s : State) (a : Nat) : Bool :=
  let p := a / 8
  KV.get false s.poison p || KV.get false s.poison (p + 1) || KV.get false s.poison (p + 2) || KV.get false s.poison (p + 3)

def poisonSet (m : KV Bool) (p : Nat) (b : Bool) : KV Bool :=
  [p, p + 1, p + 2, p + 3].foldl (fun m k => KV.set false m k b) m

/-- The 32-byte word at a word-aligned address. -/
def State.wordAt (s : State) (a : Nat) : SWord := wordOfBytes (s.readBytes a 32)

/-- A whole word written, with or without the poison mark (R262: clean data clears it). -/
def State.putWord (s : State) (a : Nat) (w : SWord) (poison : Bool) : State :=
  { s.writeBytes a (bytesOfWord w) with poison := poisonSet s.poison (a / 8) poison }

/-- Word `w` of core `c`'s scratchpad. -/
def spmAddr (c w : Nat) : Nat := spmBase c + 32 * w
def State.spm (s : State) (c w : Nat) : SWord := s.wordAt (spmAddr c w)
def State.spmPoison (s : State) (c w : Nat) : Bool := s.wordPoison (spmAddr c w)
def State.setSpm (s : State) (c w : Nat) (v : SWord) (poison : Bool) : State := s.putWord (spmAddr c w) v poison

/-- `n` scratchpad words as bytes. -/
def State.spmBytes (s : State) (c w n : Nat) : List Byte := s.readBytes (spmAddr c w) (32 * n)

/-- Every byte of a range becomes zero and clean. -/
def State.zeroRange (s : State) (a n : Nat) : State :=
  { s with mem := s.mem.filter (fun e => !(decide (a ≤ e.1) && decide (e.1 < a + n)))
           poison := s.poison.filter (fun e => !(decide (a ≤ 8 * e.1) && decide (8 * e.1 < a + n)))
           ecc := s.ecc.filter (fun e => !(decide (a ≤ 8 * e.1) && decide (8 * e.1 < a + n))) }

/-! ### State by unit -/

def pairKey (c q : Nat) : Nat := 4 * c + q
def arrKey (c a : Nat) : Nat := 2 * c + a
def grpKey (c a g : Nat) : Nat := 4 * (2 * c + a) + g
def slotKey (c q i : Nat) : Nat := 16 * (4 * c + q) + i
def flagKey (c f : Nat) : Nat := 64 * c + f
def winKey (c w : Nat) : Nat := 64 * c + w
def accKey (c a e j : Nat) : Nat := ((2 * c + a) * 2048 + e) * 128 + j

def State.pair (s : State) (c q : Nat) : Pair := KV.get Pair.zero s.pairs (pairKey c q)
def State.setPair (s : State) (c q : Nat) (p : Pair) : State := { s with pairs := KV.set Pair.zero s.pairs (pairKey c q) p }
def Pair.strm (p : Pair) : StreamId → Strm
  | .a => p.sa
  | .x => p.sx
def Pair.setStrm (p : Pair) (i : StreamId) (t : Strm) : Pair :=
  match i with
  | .a => { p with sa := t }
  | .x => { p with sx := t }
def State.strm (s : State) (c q : Nat) (i : StreamId) : Strm := (s.pair c q).strm i
def State.setStrm (s : State) (c q : Nat) (i : StreamId) (t : Strm) : State := s.setPair c q ((s.pair c q).setStrm i t)
def State.slot (s : State) (c q i : Nat) : ScaleSlot := KV.get ScaleSlot.zero s.slots (slotKey c q i)
def State.setSlot (s : State) (c q i : Nat) (v : ScaleSlot) : State :=
  { s with slots := KV.set ScaleSlot.zero s.slots (slotKey c q i) v }
def State.split (s : State) (c a : Nat) : Nat := KV.get 0 s.splits (arrKey c a)
def State.setSplit (s : State) (c a v : Nat) : State := { s with splits := KV.set 0 s.splits (arrKey c a) v }
/-- Groups of a split code, and their width (R113). -/
def splitGroups (k : Nat) : Nat := 2 ^ k
def splitWidth (k : Nat) : Nat := 128 / 2 ^ k
def State.group (s : State) (c a g : Nat) : Group := KV.get Group.zero s.groups (grpKey c a g)
def State.setGroup (s : State) (c a g : Nat) (v : Group) : State :=
  { s with groups := KV.set Group.zero s.groups (grpKey c a g) v }
def State.acc (s : State) (c a e j : Nat) : Acc := KV.get Acc.zero s.accs (accKey c a e j)
def State.setAcc (s : State) (c a e j : Nat) (v : Acc) : State := { s with accs := KV.set Acc.zero s.accs (accKey c a e j) v }
def State.flag (s : State) (c f : Nat) : Bool := KV.get false s.flags (flagKey c f)
def State.putFlag (s : State) (c f : Nat) (b : Bool) : State := { s with flags := KV.set false s.flags (flagKey c f) b }
def State.ctx (s : State) (k : Nat) : Ctx := KV.get Ctx.zero s.ctxs k
def State.setCtx (s : State) (k : Nat) (v : Ctx) : State := { s with ctxs := KV.set Ctx.zero s.ctxs k v }
def State.ep (s : State) (e : Nat) : Endpoint := KV.get Endpoint.zero s.eps e
def State.setEp (s : State) (e : Nat) (v : Endpoint) : State := { s with eps := KV.set Endpoint.zero s.eps e v }
def State.part (s : State) (p : Nat) : Partition := KV.get Partition.zero s.parts p
def State.setPart (s : State) (p : Nat) (v : Partition) : State := { s with parts := KV.set Partition.zero s.parts p v }
def State.view (s : State) (v : Nat) : ViewState := KV.get ViewState.zero s.views v
def State.setView (s : State) (v : Nat) (x : ViewState) : State := { s with views := KV.set ViewState.zero s.views v x }
def State.adGroup (s : State) (g : Nat) : AdGroup := KV.get AdGroup.zero s.adapt g
def State.setAdGroup (s : State) (g : Nat) (x : AdGroup) : State := { s with adapt := KV.set AdGroup.zero s.adapt g x }
def State.port (s : State) : HostPort → PortState
  | .a => s.portA
  | .b => s.portB
def State.setPort (s : State) (h : HostPort) (p : PortState) : State :=
  match h with
  | .a => { s with portA := p }
  | .b => { s with portB := p }

/-- The context states of R311. -/
def csFree : Nat := 0
def csCreated : Nat := 1
def csLoaded : Nat := 2
def csRunning : Nat := 3
def csWaiting : Nat := 4
def csFinished : Nat := 5
def csTearing : Nat := 6
def State.cstate (s : State) (k : Nat) : Nat := s.cget k 0x01
def State.cclass (s : State) (k : Nat) : Nat := s.cget k 0x02
/-- The core of a context: the one its object shows, or in teardown, where the object shows none, the one its units are still on
(R332, R337). -/
def State.ccore (s : State) (k : Nat) : Nat := if s.cstate k = csTearing then (s.ctx k).tearCore else s.cget k 0x07
def State.isLC (s : State) (k : Nat) : Bool := s.cclass k == 1

def allCtx : List Nat := List.range 64
def allCores : List Nat := List.range 8
def allParts : List Nat := List.range 4

/-- The stream pairs a context owns: o to o + n - 1. -/
def Ctx.pairsOf (x : Ctx) : List Nat := (List.range x.n).map (fun i => x.o + i)

/-- The context that runs on a stream pair, if one does (R228). -/
def State.owner (s : State) (c q : Nat) : Option Nat :=
  allCtx.find? (fun k => s.cstate k == csRunning && s.ccore k == c && (s.ctx k).pairsOf.contains q)

/-- The context that runs there and is not halted: neither held, nor switching, nor on a fenced partition or a stopped
beat ring (R270, R322, R325, R380, R381). -/
def State.runner (s : State) (c q : Nat) : Option Nat :=
  match s.owner c q with
  | some k =>
    if (s.ctx k).move = .still && (s.ctx k).ready && !(s.part (c / 2)).fenced && s.ringsOn.getLsbD (c / 2) then some k else none
  | none => none

/-! ### Unit codes (R366) -/

def uc (cls ix : Nat) : Nat := cls * 2 ^ 19 + ix
def ucEndpoint (e : Nat) : Nat := uc 0x01 e
def ucView (v : Nat) : Nat := uc 0x02 v
def ucLane (c a g sl : Nat) : Nat := uc 0x03 (c + 8 * a + 16 * g + 64 * sl)
def ucPair (c q k : Nat) : Nat := uc 0x04 (c + 8 * q + 32 * k)
def ucWindow (c w : Nat) : Nat := uc 0x05 (c + 8 * w)
def ucCtx (k : Nat) : Nat := uc 0x06 k
def ucPart (p : Nat) : Nat := uc 0x07 p
def ucChannel (ch : Nat) : Nat := uc 0x08 ch
def ucLink (l : Nat) : Nat := uc 0x09 l
def ucBed (b : Nat) : Nat := uc 0x0A b
def ucIssuer (i : Nat) : Nat := uc 0x0B i
def ucReplica (g i : Nat) : Nat := uc 0x0C (g + 16 * i)
def ucBatch (b sl : Nat) : Nat := uc 0x0D (b % 2048 + 2048 * sl)
def ucClass (k : Nat) : Nat := uc 0x0E k
def ucHost (h : Nat) : Nat := uc 0x0F h
def ucCore (c : Nat) : Nat := uc 0x10 c
def ucSm : Nat := uc 0x11 0
def ucTensor : Nat := uc 0x12 0
def ucDevice : Nat := uc 0x13 0

/-! ### EMCY (R10, R412) -/

/-- Every partition's out-of-service bit. -/
def State.outSet (s : State) : Nat := s.dget 0x2500 0x05

/-- An EMCY frame joins the queue of 32, or is dropped and counted; [31] of the COB-ID disables EMCY (R438).
DEDUCED, log entry 160. -/
def State.emcySend (s : State) (code unit : Nat) : State :=
  if s.dget 0x1014 0 ≥ 0x80000000 then s
  else if s.emcy.length ≥ 32 then s.dbump 0x2500 0x4E
  else
    let f : CanFrame := CanFrame.mk (s.dget 0x1014 0 % 2048)
      (bytesOf 2 (0xFF00 + code / 256) ++ bytesOf 1 s.errorRegister ++ bytesOf 2 code ++ bytesOf 3 unit)
    { s with emcy := s.emcy ++ [f] }

/-! ### The event log (R366–R370, R375) -/

def logBaseAddr : Nat := lsBase + 0x3C00000

/-- Codes 0x0001–0x00FF and PARTITION classes: whether a code is sent as EMCY (R374, R375). -/
def emcyCode (code : Nat) : Bool := decide (0x100 ≤ code)

/-- A report (R369): it joins an open record of the same code and origin, whose frame-fault bit it may set, or sends one EMCY and makes
a record. DEDUCED, log entry 169. -/
def State.report (s : State) (code unit origin : Nat) (detail : List Byte) (frameFault : Bool := false) : State :=
  let s := s.dbump 0x2800 0x03
  match s.logOpen.find? (fun r => r.code == code && r.origin == origin) with
  | some r =>
    let a := logBaseAddr + 64 * (r.index % 4096)
    let n := natOf (s.readBytes (a + 24) 4)
    let s := s.dbump 0x2800 0x04
    let s := s.writeBytes (a + 24) (bytesOf 4 (if n ≥ 0xFFFFFFFF then 0xFFFFFFFF else n + 1))
    let s := s.writeBytes (a + 28) (bytesOf 4 s.frameNo)
    let s := if frameFault then s.setByte (a + 2) (s.byteAt (a + 2) ||| 2) else s
    if n + 1 ≥ 0xFFFFFFFF then s.setByte (a + 2) (s.byteAt (a + 2) ||| 4) else s
  | none =>
    let rec' (s : State) : State :=
      if s.logOpen.length ≥ 4096 then s.dbump 0x2800 0x05
      else
        let i := s.dget 0x2800 0x02 % 4096
        let bs := bytesOf 2 code ++ [BitVec.ofNat 8 (1 + (if frameFault then 2 else 0)), 0] ++ bytesOf 3 unit ++ [0]
          ++ bytesOf 3 origin ++ [0] ++ bytesOf 4 s.frameNo ++ bytesOf 8 s.timeNs ++ bytesOf 8 0 ++ padTo 32 detail
        let s := s.writeBytes (logBaseAddr + 64 * i) bs
        let s := { s with logOpen := s.logOpen ++ [OpenRec.mk i code origin] }
        let s := s.dset 0x2800 0x02 ((i + 1) % 4096)
        s.dset 0x2800 0x01 (min 4096 (s.dget 0x2800 0x01 + 1))
    let s := rec' s
    if emcyCode code then s.emcySend code unit else s

/-- A report whose origin is its reporting unit. -/
def State.rep (s : State) (code unit : Nat) : State := s.report code unit unit []

/-- At a tick every record closes (R369). -/
def State.closeLog (s : State) : State :=
  let s := foldS s.logOpen (fun s r =>
    let a := logBaseAddr + 64 * (r.index % 4096) + 2
    s.setByte a (s.byteAt a &&& 0xFE)) s
  { s with logOpen := [] }

/-! ### Frame faults (R342) -/

/-- The safety manager receives a frame fault of an LC context or a core's test. DEDUCED, log entry 78. -/
def State.frameFault (s : State) (code : Nat) (core : Option Nat) (disagree : Bool) (invalid : Bool := true) : State :=
  { s with frame := { s.frame with faults := s.frame.faults ++ [FrameFault.mk code core disagree invalid] } }

/-- A frame fault raised by a context: only an LC context's counts (R342, R292). -/
def State.ctxFault (s : State) (k code : Nat) (disagree : Bool) : State :=
  if s.isLC k then
    s.frameFault code (if s.ccore k < 8 then some (s.ccore k) else none) disagree
  else s

/-- A frame fault of an LC context that does not invalidate its frame (R342: a truncation, a scale miss); it counts among the causes.
DEDUCED, log entry 167. -/
def State.ctxNote (s : State) (k code : Nat) : State :=
  if s.isLC k then s.frameFault code (if s.ccore k < 8 then some (s.ccore k) else none) false false else s

/-- A scale miss of an LC context in strict mode degrades the frame and does not invalidate it (R145, R342, R343). -/
def State.ctxDegrade (s : State) (k code : Nat) : State :=
  if s.isLC k then
    let s := s.ctxNote k code
    { s with frame := { s.frame with degraded := s.frame.degraded + 1 } }
  else s

/-- A report of an event of R342 by a context: bit [1] of its record says frame fault for an LC context only (R342, R368). -/
def State.reportCtx (s : State) (k code unit origin : Nat) (detail : List Byte) : State :=
  s.report code unit origin detail (s.isLC k)

/-! ### Host records (R424, R425, R334) -/

def hostIx : HostPort → Nat
  | .a => 0
  | .b => 1
def portOf : Nat → HostPort
  | 0 => .a
  | _ => .b
def issIx : Issuer → Nat
  | .a => 0
  | .b => 1
  | .can => 2
def issOf : Nat → Issuer
  | 0 => .a
  | 1 => .b
  | _ => .can

/-- Host state of R402: 0 absent, 1 link up, 2 admitted, 3 lost. -/
def State.hostState (s : State) (h : Nat) : Nat := s.dget 0x2500 (0x41 + h)
def State.setHostState (s : State) (h v : Nat) : State := s.dset 0x2500 (0x41 + h) v
def State.admitted (s : State) (h : Nat) : Bool := s.hostState h == 2

/-- The device writes host memory. -/
def hostCell (h a : Nat) : Nat := h * 2 ^ 64 + a
def State.hostWrite (s : State) (h a : Nat) (l : List Byte) : State := { s with hostMem := writeCells s.hostMem (hostCell h a) l }

/-- One record at the producer index, with its MSI-X vector. -/
def State.putRecord (s : State) (h handle code kind unit result : Nat) (body : List Byte) : State :=
  let p := s.port (portOf h)
  let ix := p.producer.toNat
  let phase := if (ix / p.ringSize) % 2 = 0 then 1 else 0
  let bs := bytesOf 4 handle ++ bytesOf 2 code ++ bytesOf 1 kind ++ bytesOf 1 phase ++ bytesOf 4 s.frameNo ++ bytesOf 3 unit ++ [0]
    ++ bytesOf 8 s.timeNs ++ bytesOf 8 result ++ padTo 96 body
  let s := s.hostWrite h (p.ringBase + 128 * (ix % p.ringSize)) bs
  let s := s.setPort (portOf h) { p with producer := p.producer + 1 }
  s.send (.msix (portOf h) (kind - 1))

/-- Whether the ring has room: the producer is not a whole ring ahead of the consumer. -/
def PortState.room (p : PortState) : Bool := decide ((p.producer - p.consumer).toNat < p.ringSize)

/-- A record for a host: written, dropped on a full log, or discarded for a lost host. DEDUCED, log entry 17. -/
def State.hostRecord (s : State) (h handle code kind unit result : Nat) (body : List Byte) : State :=
  if s.hostState h = 3 then s.dbump 0x2500 0x32
  else if s.admitted h then
    let p := s.port (portOf h)
    let lose (s : State) : State :=
      let p := s.port (portOf h)
      s.setPort (portOf h) { p with lost := p.lost + 1, lostSince := p.lostSince + 1 }
    if !p.room then lose s
    else
      let s := if p.lostSince = 0 then s
        else
          let s := s.putRecord h 0 0 5 (ucHost h) p.lostSince []
          s.setPort (portOf h) { s.port (portOf h) with lostSince := 0 }
      if (s.port (portOf h)).room then s.putRecord h handle code kind unit result body else lose s
  else s

/-- A status record to one host, and to both. -/
def State.statusTo (s : State) (h code unit : Nat) (body : List Byte) : State := s.hostRecord h 0 code 3 unit 0 body
def State.statusAll (s : State) (code unit : Nat) (body : List Byte) : State :=
  (s.statusTo 0 code unit body).statusTo 1 code unit body

/-- The host that created a context: 0 A, 1 B, none for a free one. -/
def State.creatorHost (s : State) (k : Nat) : Option Nat :=
  if s.cget k 0x03 = 1 then some 0 else if s.cget k 0x03 = 2 then some 1 else none

def State.statusCreator (s : State) (k code unit : Nat) (body : List Byte) : State :=
  match s.creatorHost k with
  | some h => s.statusTo h code unit body
  | none => s

/-! ### Handles (R418–R420, R423) -/

abbrev HRef := Nat × Nat
def hKey (i slot : Nat) : Nat := 256 * i + slot
def State.hslot (s : State) (r : HRef) : HandleSlot := KV.get HandleSlot.zero s.handles (hKey r.1 r.2)
def State.setHslot (s : State) (r : HRef) (v : HandleSlot) : State :=
  { s with handles := KV.set HandleSlot.zero s.handles (hKey r.1 r.2) v }

/-- A handle word (R419). -/
def handleWord (i gen slot seq : Nat) : BitVec 32 := BitVec.ofNat 32 (seq % 16384 + 2 ^ 14 * slot + 2 ^ 22 * gen + 2 ^ 30 * i)

/-- The first free slot at or after the slot taken last, wrapping. DEDUCED, log entry 15. -/
def State.freeSlot (s : State) (i : Nat) : Option Nat :=
  let last := KV.get 0 s.lastSlot i
  ((List.range 256).map (fun d => (last + d) % 256)).find? (fun k => (s.hslot (i, k)).st ≠ 2)

/-- An execute takes a slot: its reference and the state; or CMD_NO_SLOT, logged as any refusal is (R420, R375). -/
def State.takeHandle (s : State) (i : Nat) : Option HRef × State :=
  let obj := 0x5000 + i
  match s.freeSlot i with
  | none => (none, ((s.rep 0x0003 (ucIssuer i)).dset obj 0x07 0).dset obj 0x08 0x0003)
  | some k =>
    let seq := KV.get 0 s.seqs i
    let w := handleWord i (s.dget 0x2500 (0x45 + i)) k seq
    let s := s.setHslot (i, k) { handle := w, st := 2, code := 0 }
    let s := { s with lastSlot := KV.set 0 s.lastSlot i k, seqs := KV.set 0 s.seqs i ((seq + 1) % 16384) }
    (some (i, k), (s.dset obj 0x07 w.toNat).dset obj 0x08 0)

/-- A command completes with a code, a result and a body; its issuer's log receives the record (R424). -/
def State.completeBody (s : State) (r : HRef) (code result : Nat) (body : List Byte) : State :=
  let h := s.hslot r
  let s := s.setHslot r { h with st := 3, code := code }
  if r.1 < 2 then s.hostRecord r.1 h.handle.toNat code 1 (ucIssuer r.1) result body else s

/-- A completion without a body. -/
def State.complete (s : State) (r : HRef) (code result : Nat) : State := s.completeBody r code result []

/-- A command is refused: logged with the issuer as reporting unit, and completed (R375). -/
def State.refuse (s : State) (r : HRef) (code : Nat) : State := (s.rep code (ucIssuer r.1)).complete r code 0

/-- Command status codes (R429). -/
def STATE_CONFLICT : Nat := 0x0001
def CMD_PARAM : Nat := 0x0002
def HOST_NOT_ADMITTED : Nat := 0x0004
def NOT_OWNER : Nat := 0x0005
def CTX_FULL : Nat := 0x0006
def MAINT_BUSY : Nat := 0x0020
def ADDR_UNMAPPED : Nat := 0x3001

/-- Who may give a command (R421). -/
inductive Who where
  | any | hosts
  /-- the configuring owner set (R432), with or without CAN -/
  | conf | confHosts
  /-- the creator of the named context -/
  | creator (k : Nat)
  /-- the creator of the group's replicas -/
  | groupCreator (g : Nat)
  deriving DecidableEq, Repr

/-- Whether an issuer is in the configuring owner set. -/
def State.inConf (s : State) (i : Nat) : Bool := bitAt (s.dget 0x2000 0x16) i

/-- Check 2 of R422. A free context has no creator: its creator-only commands pass here and meet check 3 (R311). -/
def State.mayIssue (s : State) (i : Nat) : Who → Bool
  | .any => true
  | .hosts => i < 2
  | .conf => s.inConf i
  | .confHosts => i < 2 && s.inConf i
  | .creator k => decide (64 ≤ k) || s.cstate k == csFree || (i < 2 && s.cget k 0x03 == i + 1)
  | .groupCreator g => match (s.adGroup g).replicas with
    | k :: _ => i < 2 && s.cget k 0x03 == i + 1
    | [] => i < 2

/-- States of R421: P, O, S, M, L. -/
def stP : List Nat := [dsPreOp]
def stPOSM : List Nat := [dsPreOp, dsOp, dsStopped, dsMaint]
def stAll : List Nat := [dsPreOp, dsOp, dsStopped, dsMaint, dsLowPower]
def stPOM : List Nat := [dsPreOp, dsOp, dsMaint]

/-- The first refusal of R422 checks 1 to 4, if any. DESIGN CHOICE, log entry 16. -/
def State.cmdCheck (s : State) (i : Nat) (needAdmit : Bool) (who : Who) (states : List Nat) (paramsOk : Bool) : Option Nat :=
  if needAdmit && i < 2 && !s.admitted i then some HOST_NOT_ADMITTED
  else if !s.mayIssue i who then some NOT_OWNER
  else if !states.contains s.dev || (match who with | .creator k => decide (k < 64) && s.cstate k == csFree | _ => false) then some STATE_CONFLICT
  else if !paramsOk then some CMD_PARAM
  else none

/-- In SLEEP no command and no access reaches the device (R461). -/
def State.asleep (s : State) : Bool := s.dev == dsLowPower && s.dget 0x2100 1 == 3

/-- Nothing answers while the device is held in reset or asleep. -/
def State.portsServe (s : State) : Bool := !(s.devReset != 0 && s.devReset < 4) && !s.asleep

/-- Any command: nothing reaches the device asleep, and no command over CAN in STOPPED (R414); a slot, the checks of R422, then the command's own body with the slot's reference. -/
def runCommand (iss : Issuer) (needAdmit : Bool) (who : Who) (states : List Nat) (paramsOk : Bool)
    (body : HRef → State → State) (s : State) : State :=
  if s.asleep || (decide (iss = .can) && s.devForWrites == dsStopped) then s
  else
  match s.takeHandle (issIx iss) with
  | (none, s) => s
  | (some r, s) =>
    match s.cmdCheck r.1 needAdmit who states paramsOk with
    | some code => s.refuse r code
    | none => body r s

/-- A parameter that names a context. -/
def pctx (p : BitVec 64) : Nat := p.toNat

end Sys2Proof.Machine
end

