-- ==== Sys2Proof/Machine/Isa.lean ====
section
/-! DEFINITION. The stream instruction encoding: head word, opcode map, loop nest, generators, and the illegal
conditions of R196 and R221 (R203–R220). An instruction is the list of its words, head word first. -/

namespace Sys2Proof.Machine

abbrev Insn := List IWord

def Insn.w (i : Insn) (k : Nat) : Nat := (nth 0 i k).toNat
def Insn.head (i : Insn) : Nat := i.w 0
def Insn.op (i : Insn) : Nat := bits i.head 7 0
def Insn.len (i : Insn) : Nat := bits i.head 11 8
def Insn.waitKind (i : Insn) : Nat := bits i.head 13 12
def Insn.waitFlag (i : Insn) : Nat := bits i.head 19 14
def Insn.setOn (i : Insn) : Bool := bitAt i.head 20
def Insn.setFlag (i : Insn) : Nat := bits i.head 26 21

/-- The words an instruction occupies when it is passed over: LEN, or 1 for LEN = 0 (R204). -/
def Insn.span (i : Insn) : Nat := if i.len = 0 then 1 else i.len

/-- A row of the opcode map (R208): streams that have it, fixed words, whether it has a nest, generators. -/
structure OpRow where
  inA : Bool
  inX : Bool
  fixed : Nat
  nest : Bool
  gens : Nat
  deriving DecidableEq, Repr

def opRow : Nat → Option OpRow
  | 0x00 | 0x01 | 0x02 | 0x03 | 0x04 | 0x05 | 0x06 | 0x08 => some ⟨true, true, 0, false, 0⟩
  | 0x07 => some ⟨true, true, 1, false, 0⟩
  | 0x10 | 0x13 => some ⟨true, false, 0, true, 1⟩
  | 0x11 | 0x12 => some ⟨true, false, 2, false, 0⟩
  | 0x14 => some ⟨true, false, 1, false, 0⟩
  | 0x18 | 0x19 | 0x1C | 0x1D | 0x1E | 0x1F | 0x26 => some ⟨true, false, 1, true, 2⟩
  | 0x20 => some ⟨true, false, 1, false, 0⟩
  | 0x21 => some ⟨true, false, 0, false, 0⟩
  | 0x24 | 0x27 => some ⟨true, false, 1, true, 1⟩
  | 0x25 => some ⟨true, false, 0, true, 2⟩
  | 0x28 => some ⟨true, false, 1, false, 0⟩
  | 0x40 => some ⟨false, true, 0, false, 0⟩
  | 0x41 => some ⟨false, true, 1, true, 0⟩
  | 0x42 => some ⟨false, true, 2, false, 0⟩
  | _ => none

/-- Nest depth D (R209): bits [57:55] in STREAM, [41:39] otherwise. -/
def Insn.depth (i : Insn) : Nat := if i.op = 0x41 then bits i.head 57 55 else bits i.head 41 39
def Insn.depthOk (i : Insn) : Bool := 1 ≤ i.depth && i.depth ≤ 6

/-- Words per thread, bits [38:32]. -/
def Insn.wpt (i : Insn) : Nat := bits i.head 38 32

/-- The length R208 gives, where it defines one. -/
def Insn.rightLen (i : Insn) (r : OpRow) : Option Nat :=
  if r.nest then (if i.depthOk then some (1 + r.fixed + (if i.depth ≤ 4 then 1 else 2) + 3 * r.gens) else none)
  else some (1 + r.fixed)

/-- Where the nest and the generators start. -/
def Insn.nestAt (_i : Insn) (r : OpRow) : Nat := 1 + r.fixed
def Insn.genAt (i : Insn) (r : OpRow) (g : Nat) : Nat := 1 + r.fixed + (if i.depth ≤ 4 then 1 else 2) + 3 * g

/-- The count field of level l. -/
def Insn.count (i : Insn) (r : OpRow) (l : Nat) : Nat :=
  let n := i.nestAt r
  if l < 4 then bits (i.w n) (16 * l + 15) (16 * l)
  else if i.depth ≤ 4 then 0 else bits (i.w (n + 1)) (16 * (l - 4) + 15) (16 * (l - 4))

/-- The counts of the levels below D. -/
def Insn.counts (i : Insn) (r : OpRow) : List Nat := (List.range i.depth).map (i.count r)
/-- Element threads: the product of the counts. -/
def Insn.threads (i : Insn) (r : OpRow) : Nat := (i.counts r).foldl (· * ·) 1

/-- A generator descriptor as one number (R210). -/
def Insn.gen (i : Insn) (r : OpRow) (g : Nat) : Nat :=
  let k := i.genAt r g
  i.w k + i.w (k + 1) * 2 ^ 64 + i.w (k + 2) * 2 ^ 128
def genBase (d : Nat) : Nat := bits d 20 0
def genCtr (d : Nat) : Nat := bits d 22 21
def genCtrStride (d : Nat) : Int := signed 24 (bits d 47 24)
def genStride (d l : Nat) : Int := signed 24 (bits d (71 + 24 * l) (48 + 24 * l))

/-- The index of each level at thread t, level 0 fastest (R193). -/
def nestIx : List Nat → Nat → List Nat
  | [], _ => []
  | n :: r, t => t % n :: nestIx r (t / n)

/-- The address of a generator at thread t from its base at issue (R191). -/
def genAddr (base : Int) (d : Nat) (counts : List Nat) (t : Nat) : Int :=
  ((nestIx counts t).zip (List.range 6)).foldl (fun a p => a + (p.1 : Int) * genStride d p.2) base

/-- The lowest and highest address a nest reaches (R192). -/
def genLow (base : Int) (d : Nat) (counts : List Nat) : Int :=
  (counts.zip (List.range 6)).foldl (fun a p => a + min 0 (genStride d p.2 * ((p.1 : Int) - 1))) base
def genHigh (base : Int) (d : Nat) (counts : List Nat) : Int :=
  (counts.zip (List.range 6)).foldl (fun a p => a + max 0 (genStride d p.2 * ((p.1 : Int) - 1))) base

/-! ### Fields of the instructions (R212–R219) -/

def bitsMask (hi lo : Nat) : Nat := 2 ^ (hi + 1) - 2 ^ lo

/-- The bits of the head word above [26:0] that an opcode defines. -/
def headMask (op : Nat) : Nat :=
  let done := bitsMask 58 52
  match op with
  | 0x01 => bitsMask 35 28
  | 0x02 => bitsMask 46 28
  | 0x03 => bitsMask 30 28 + bitsMask 47 32
  | 0x04 | 0x05 => bitsMask 29 28 + bitsMask 63 32
  | 0x06 => bitsMask 31 28
  | 0x07 => bitsMask 36 28
  | 0x10 | 0x13 => bitsMask 41 28
  | 0x11 | 0x14 => bitsMask 31 28
  | 0x12 => bitsMask 32 28
  | 0x18 | 0x19 | 0x24 | 0x25 | 0x27 => bitsMask 41 32 + done
  | 0x1C | 0x1D | 0x1E | 0x1F => bitsMask 41 32
  | 0x26 => bitsMask 32 32 + bitsMask 41 39 + done
  | 0x28 => done
  | 0x40 => bitsMask 51 28
  | 0x41 => bitsMask 57 28
  | 0x42 => bitsMask 35 28
  | _ => 0

/-- The bits a fixed word defines. -/
def fixedMask (op k : Nat) : Nat :=
  match op, k with
  | 0x07, 1 => bitsMask 31 0
  | 0x11, 1 => bitsMask 59 0
  | 0x11, 2 => bitsMask 31 0
  | 0x12, 1 => bitsMask 63 0
  | 0x12, 2 => bitsMask 20 0
  | 0x14, 1 => bitsMask 45 0
  | 0x18, 1 | 0x19, 1 => bitsMask 42 0
  | 0x1C, 1 | 0x1D, 1 | 0x1E, 1 | 0x1F, 1 | 0x20, 1 => bitsMask 44 0
  | 0x24, 1 => bitsMask 63 0
  | 0x26, 1 => bitsMask 41 0
  | 0x27, 1 | 0x28, 1 | 0x41, 1 => bitsMask 20 0
  | 0x42, 1 => bitsMask 62 0
  | 0x42, 2 => bitsMask 31 0
  | _, _ => 0

def outside (v mask : Nat) : Bool := v &&& (2 ^ 64 - 1 - mask) != 0

/-- Target word of R216. -/
def Insn.tgt (i : Insn) : Nat := i.w 1
def tgtSource (t : Nat) : Bool := bitAt t 17

/-- A field that R212–R219 require to be 0 is not 0. -/
def Insn.mustBeZeroBroken (i : Insn) : Bool :=
  let h := i.head
  match i.op with
  | 0x07 => if bitAt h 34 then bits (i.w 1) 31 0 != 0 else bits h 36 35 != 0
  | 0x12 => !bitAt h 32 && bits (i.w 2) 20 0 != 0
  | 0x1C | 0x1D | 0x1E | 0x1F | 0x20 =>
    let t := i.tgt
    (if tgtSource t then bits t 16 0 != 0 else bits t 38 18 != 0)
      || (i.op != 0x1D && i.op != 0x20 && bits t 43 39 != 0) || (i.op != 0x1F && bitAt t 44)
  | 0x42 => if bitAt h 29 then bits h 33 30 != 0 else bits (i.w 1) 62 42 != 0
  | _ => false

/-- A reserved bit is set, or a must-be-zero field is not (ILL_RESERVED). -/
def Insn.reservedBroken (i : Insn) (r : OpRow) : Bool :=
  outside i.head (bitsMask 26 0 + headMask i.op)
    || (List.range r.fixed).any (fun k => outside (i.w (k + 1)) (fixedMask i.op (k + 1)))
    || (r.nest && i.depthOk &&
        ((5 ≤ i.depth && bits (i.w (i.nestAt r + 1)) 63 32 != 0)
          || (List.range 6).any (fun l => i.depth ≤ l && i.count r l != 0)
          || (List.range r.gens).any (fun g => bitAt (i.gen r g) 23)))
    || i.mustBeZeroBroken

def weightFmtOk (f : Nat) : Bool := [1, 2, 3, 4, 6, 8].contains f
def actFmtOk (f : Nat) : Bool := 1 ≤ f && f ≤ 8
def ceuFmtOk (f : Nat) : Bool := [1, 2, 3, 4, 5, 6, 7, 9, 10].contains f

/-- An undefined code in a field (ILL_FIELD). -/
def Insn.fieldBroken (i : Insn) : Bool :=
  let h := i.head
  match i.op with
  | 0x01 => 2 ≤ bits h 29 28
  | 0x03 => 5 ≤ bits h 30 28
  | 0x07 => 6 ≤ bits h 33 31
  | 0x13 | 0x14 => 2 ≤ bits h 29 28
  | 0x40 => bits h 32 31 == 3 || !weightFmtOk (bits h 36 33)
  | 0x41 => bits h 33 31 == 7 || !actFmtOk (bits h 37 34) || 2 ≤ bits h 52 51
  | _ => false

/-- A count outside its range (ILL_COUNT). -/
def Insn.countBroken (i : Insn) (r : OpRow) : Bool :=
  let h := i.head
  let w1 := i.w 1
  (r.nest && (!i.depthOk || (i.counts r).any (· == 0)))
    || (r.nest && i.op != 0x41 && i.op != 0x26 && (i.wpt == 0 || 72 < i.wpt))
    || (match i.op with
      | 0x02 => bits h 46 34 == 0 || 4096 < bits h 46 34
      | 0x11 => bits (i.w 2) 31 0 == 0 || 2 ^ 31 < bits (i.w 2) 31 0
      | 0x12 => bits w1 29 21 < 2 || 289 < bits w1 29 21 || bits w1 45 30 == 0 || bits w1 54 46 == 0 || 256 < bits w1 54 46
          || bits w1 63 55 == 0 || 256 < bits w1 63 55
      | 0x14 => bits w1 29 21 < 2 || 289 < bits w1 29 21 || bits w1 45 30 == 0
      | 0x41 => bits h 46 39 == 0
      | 0x42 => bits (i.w 2) 31 0 == 0
      | _ => false)

/-- The lowest illegal condition an instruction meets in a stream, from its words alone (R196, R221, R222). -/
def Insn.illegal (i : Insn) (st : StreamId) : Option Nat :=
  match opRow i.op with
  | none => some 0x2040
  | some r =>
    if !(match st with | .a => r.inA | .x => r.inX) then some 0x2041
    else if i.len == 0 || (match i.rightLen r with | some n => i.len != n | none => false) then some 0x2042
    else if i.reservedBroken r then some 0x2043
    else if i.waitKind == 3 then some 0x2044
    else if i.fieldBroken then some 0x2045
    else if i.countBroken r then some 0x2046
    else none

/-- The done flag of R217, where the opcode has one and the word enables it. -/
def Insn.doneFlag (i : Insn) : Option Nat :=
  if [0x18, 0x19, 0x24, 0x25, 0x26, 0x27, 0x28].contains i.op && bitAt i.head 58 then some (bits i.head 57 52) else none

/-- Every flag an instruction names (R183): its wait, its set, its done flag and its opcode's. -/
def Insn.flags (i : Insn) : List Nat :=
  (if i.waitKind = 0 then [] else [i.waitFlag]) ++ (if i.setOn then [i.setFlag] else []) ++ i.doneFlag.toList
    ++ (match i.op with | 0x01 => [bits i.head 35 30] | 0x02 => [bits i.head 33 28] | _ => [])

/-- Queue references: stream pair and queue (R214). -/
def Insn.queueRefs (i : Insn) : List Nat :=
  match i.op with
  | 0x10 | 0x11 | 0x13 | 0x14 => [bits i.head 31 28]
  | 0x12 => if bitAt i.head 32 then [] else [bits i.head 31 28]
  | 0x40 => [bits i.head 51 48]
  | 0x41 => [bits i.head 50 47, bits i.head 54 51]
  | _ => []

/-- The array and the group that an execute instruction names (R219), and the target of an LDZ (R215). -/
def Insn.arr (i : Insn) : Nat := bits i.head 28 28
def wlGroup (i : Insn) : Nat := bits i.head 30 29
def smGroup (i : Insn) : Nat := bits i.head 30 29
def ldzTarget (i : Insn) : Bool := bitAt i.head 32

/-- The unit an access instruction runs on (R179). -/
def unitOf (op : Nat) : Option UnitId :=
  match op with
  | 0x10 | 0x11 | 0x12 => some .loader
  | 0x13 | 0x14 => some .storer
  | 0x18 | 0x19 => some .stager
  | 0x1C | 0x1D | 0x1E | 0x1F | 0x20 | 0x21 => some .remote
  | 0x24 | 0x25 | 0x26 | 0x27 => some .engine
  | 0x28 => some .region
  | _ => none

/-- The position after a walk of the LEN fields, with the boundaries it reaches (R205). The walk has `n` words at most. -/
def walk : Nat → List IWord → Nat → List Nat → List Nat × Nat
  | 0, _, p, acc => (acc ++ [p], p)
  | n + 1, prog, p, acc =>
    if prog.length ≤ p then (acc ++ [p], p)
    else walk n prog (p + Insn.span (prog.drop p)) (acc ++ [p])

/-- The boundary map of a program, and whether its last instruction ends exactly at its end (R205, R226 step 5). -/
def boundaryMap (prog : List IWord) : List Nat × Bool :=
  let r := walk (prog.length + 1) prog 0 []
  (r.1, r.2 == prog.length)

/-- The instruction words that bytes spell (R203). -/
def iwordsOf (l : List Byte) : List IWord := (List.range (l.length / 8)).map (fun k => BitVec.ofNat 64 (fieldAt l (8 * k) 8))

end Sys2Proof.Machine
end

