-- ==== Sys2Proof/Machine/Base.lean ====
section
/-! DEFINITION. The starts of the reactions of R374: a teardown (R331, R314), a partition reset (R379, R381 step 1), a
device reset (R389 step 1) and the safe state (R362, R363). What follows each start is a command of its own. -/

namespace Sys2Proof.Machine

/-! ### Codes -/

def codePartFenced : Nat := 0x3008
def codeLinkTimeout : Nat := 0x3009
def codeCtxGone : Nat := 0x300A
def codeSramUnc : Nat := 0x3012
def codeDramUnc : Nat := 0x3013
def codePoison : Nat := 0x3014
def codeResetCommanded : Nat := 0x504B
def codePartReset : Nat := 0x5040
def codeMaintAborted : Nat := 0x5049

/-! ### Teardown -/

/-- The waiting queue changes with its object (R338). -/
def State.setWaiting (s : State) (l : List Nat) : State := { s with waiting := l }.dset 0x2500 0x33 l.length

/-- Whether the teardown of a context is a frame fault: of an LC context placed and not held (R332, R342). -/
def State.tearFaults (s : State) (k : Nat) : Bool :=
  s.isLC k && (s.ctx k).placed && (s.ctx k).move != .heldByReset && (s.ctx k).move != .reloadWait

/-- One context enters state 6: the first cause is recorded, a later one is counted; a placed LC context that is not held
invalidates the frame (R331, R332). DEDUCED, log entry 73. -/
def State.tearOne (s : State) (k cause : Nat) : State :=
  let x := s.ctx k
  if s.cstate k = csFree then s
  else if s.cstate k = csTearing then s.setCtx k { x with laterCauses := x.laterCauses + 1 }
  else
    let s := if s.tearFaults k then s.ctxFault k cause false else s
    let s := (s.cset k 0x1B cause).setCtx k { x with move := .tearing, cause := cause, dest := none, tearCore := s.ccore k }
    let s := s.setWaiting (s.waiting.filter (· != k))
    (s.cset k 0x01 csTearing).cset k 0x07 255

/-- The members of a context group beside `k` (R314). -/
def State.groupMates (s : State) (k : Nat) : List Nat :=
  let g := s.cget k 0x1F
  if g = 0 then [] else allCtx.filter (fun m => m != k && s.cget m 0x1F == g && s.cstate m != csFree)

/-- The detail of a cause is kept for the record of the teardown that it starts (R332, R424). -/
def State.noteDetail (s : State) (k : Nat) (l : List Byte) : State :=
  if s.cstate k = csTearing then s else s.setCtx k { s.ctx k with detail := l }

/-- A teardown starts; unless a CTX_TEARDOWN named this context alone, its group shares its fate (R314). DEDUCED, log entry 74. -/
def State.startTeardown (s : State) (k cause : Nat) (alone : Bool := false) : State :=
  let fresh := s.cstate k != csTearing && s.cstate k != csFree
  let mates := if alone || !fresh then [] else s.groupMates k
  let s := s.tearOne k cause
  foldS mates (fun s m =>
    let new := s.cstate m != csTearing
    let t := s.tearOne m cause
    if new then t.report cause (ucCtx m) (ucCtx k) [] (s.tearFaults m) else t) s

/-! ### Fences -/

def State.isFenced (s : State) (p : Nat) : Bool := (s.part p).fenced

/-- The set O of partitions out of service, bit p (R386, R398). -/
def State.setOut (s : State) (p : Nat) (b : Bool) : State :=
  let o := s.dget 0x2500 0x05
  s.dset 0x2500 0x05 (if b then o ||| 2 ^ p else if bitAt o p then o - 2 ^ p else o)

/-- Partition states of object 0x2500:01-04. -/
def psIn : Nat := 0
def psResetting : Nat := 1
def psReload : Nat := 2
def psOut : Nat := 3
def psMaint : Nat := 4
def State.pstate (s : State) (p : Nat) : Nat := s.dget 0x2500 (1 + p)
def State.setPstate (s : State) (p v : Nat) : State := s.dset 0x2500 (1 + p) v

/-- A partition is fenced, in this frame too (R381 step 1, R358 byte 10); a frame not yet sealed is invalid unless its variant has
the partition out of service (R342). -/
def State.fence (s : State) (p : Nat) : State :=
  let x := s.part p
  let s := if s.frame.isOpen && !x.fenced && s.frame.variant ≠ p + 1 then s.frameFault codePartFenced none false else s
  let s := (s.setPart p { x with fenced := true }).setOut p true
  { s with frame := { s.frame with fencedSet := s.frame.fencedSet ||| BitVec.ofNat 4 (2 ^ p) } }

/-! ### Maintenance ends -/

/-- A running activity ends with a code: its handle completes and the objects of R399 follow. -/
def State.endActivity (s : State) (code : Nat) (aborted : Bool) : State :=
  match s.activity with
  | none => s
  | some a =>
    let s := { s with activity := none, testCap := [] }
    let s := ((s.dset 0x2A00 0x01 0).dset 0x2A00 0x02 255).dset 0x2A00 0x14 code
    let s := s.dbump 0x2A00 (if aborted then 0x13 else 0x12)
    let s := if a.code = 1 && aborted then s.dset 0x2A00 0x0A 5 else s
    s.complete a.handle code 0

/-! ### Partition reset -/

/-- A partition reset or activity ends with the partition out of service (R384, R386). -/
def State.endOut (s : State) (p code : Nat) : State :=
  let x := s.part p
  let s := (s.setPart p { x with resetStep := 0, handles := [], step8At := none, safeCause := false, underTest := false, failCode := 0,
                                 linkHit := false, returning := false }).setPstate p psOut
  foldS x.handles (fun s r => s.complete r code 0) s

/-- Whether a partition resets: a maintenance activity's return through steps 7 to 9 is no reset (R379, R393). -/
def Partition.resetting (x : Partition) : Bool := x.resetStep != 0 && !x.returning

/-- A partition reset starts (R379, R381 step 1). `handle` is the command that waits for its end. -/
def State.startPartReset (s : State) (p cause : Nat) (safe : Bool) (handle : Option HRef) (detail : Nat := 0) : State :=
  let x := s.part p
  let hs := match handle with | some h => [h] | none => []
  if x.resetting then s.setPart p { x with handles := x.handles ++ hs, safeCause := x.safeCause || safe }
  else
    let s := match s.activity with
      | some a => if a.part = p && a.code ≠ 4 then (s.rep codeMaintAborted (ucPart p)).endActivity codeMaintAborted true else s
      | none => s
    let x := s.part p
    let s := s.setPart p { x with resetStep := 1, cause := cause, safeCause := safe, underTest := false,
                                  resets := s.timeNs :: x.resets, handles := x.handles ++ hs, step8At := none, failCode := 0,
                                  linkHit := decide (cause = 0x300F), returning := false }
    let s := ((s.fence p).setPstate p psResetting).dbump 0x2500 (6 + p)
    let s := s.dset 0x2500 0x0D cause
    let s := s.report codePartReset (ucPart p) (ucPart p) (bytesOf 2 cause ++ bytesOf 2 detail)
    s.statusAll codePartReset (ucPart p) (bytesOf 2 cause ++ bytesOf 2 detail)

/-! ### Die links (R15-R17, R377, R378) -/

/-- The bed of a unit; the Lodestar has none. -/
def bedOf (u : Nat) : Option Nat := if u < 8 then some (u / 2) else if 12 ≤ u && u < 16 then some (u - 12) else none
def State.linkFailed (s : State) (l : Nat) : Bool := bitAt (s.dget 0x2500 0x0F) l

/-- The die link a packet from `a` to `b` leaves on, by the fixed table of R16 and the fallback entries of R378. Traffic between opposite
beds, or over a fallback, crosses two bed links and stands for the source's. DESIGN CHOICE, log entry 172. -/
def State.linkOf (s : State) (a b : Nat) : Option Nat :=
  match bedOf a, bedOf b with
  | some p, some q =>
    if p = q then none
    else
      let ring := if q = (p + 1) % 4 then some (4 + p) else if p = (q + 1) % 4 then some (4 + q) else none
      match ring with
      | some l => if s.linkFailed l then some p else some l
      | none => some p
  | some p, none => some p
  | none, some q => some q
  | none, none => none

/-- A link fails (R377): a bed link resets its partition; in a running reset its first failure changes nothing (R379), and a
further one leaves the partition out of service, at step 5 or, after it, at once (R378, R384). Ring traffic falls back.
DEDUCED, log entry 91. -/
def State.linkFail (s : State) (l : Nat) : State :=
  let s := s.rep 0x300F (ucLink l)
  let s := (s.dset 0x2500 0x0F (s.dget 0x2500 0x0F ||| 2 ^ l)).dset 0x2500 (0x10 + l) 0
  if 4 ≤ l then s
  else
    let x := s.part l
    if x.resetting then
      if !x.linkHit then s.setPart l { x with linkHit := true }
      else if 5 ≤ x.resetStep then s.endOut l 0x300F
      else s.setPart l { x with failCode := 0x300F }
    else s.startPartReset l 0x300F false none

/-! ### Device reset -/

/-- The 64 newest event-log records, newest last (R389 step 1, R391). DESIGN CHOICE, log entry 14. -/
def State.newestLog (s : State) : List Byte :=
  let n := min 64 (s.dget 0x2800 0x01)
  let next := s.dget 0x2800 0x02
  ((List.range n).map (fun i => s.readBytes (logBaseAddr + 64 * ((next + 4096 - n + i) % 4096)) 64)).flatten

/-- The pins while the always-on domain holds them: SAFE_OK low, FAULT_N asserted (R362). -/
def State.pinsSafe (s : State) : State := { s with safeOk := false, faultN := false }

/-- A device reset starts, or a further cause is counted, and reported once the firmware runs (R389). PORESET_N restarts it and copies no log. It ends every
low-power state (R468), and every PWR_EN is high again (R473). DEDUCED, log entry 95. -/
def State.startDevReset (s : State) (cause : Nat) (poreset : Bool) (detail : Nat := 0) : State :=
  if s.devReset ≠ 0 && !poreset then
    let s := { s with devLater := s.devLater + 1 }
    if s.devReset < 4 then { s with aonCodes := s.aonCodes ++ [cause] } else s.rep cause (if cause = 0x4004 || cause = 0x4005 then ucSm else ucDevice)
  else
    let s := s.pinsSafe.dbump 0x2500 0x0E
    let s := (s.dset 0x2500 0x40 (if poreset then dsInit else dsRecovering)).dclear 0x2100 1
    { s with devReset := 1, devCause := cause, resetCause := detail, activity := none, testCap := [], pwrEn := 0xFF, wake := none
             lpExitBegun := false, lpRails := false, lpStuck := false, bootDue := false
             aonLog := if poreset then [] else if s.devReset = 0 then s.newestLog else s.aonLog }

/-! ### The safe state -/

/-- What a safe-state cause resets. -/
inductive SafeReset where
  | part (p : Nat)
  | device
  deriving DecidableEq, Repr

/-- The safe state and the object that shows it (R371). -/
def State.setSafe (s : State) (v : Nat) : State := { s with safeState := v }.dset 0x2700 0x04 v

/-- The safe state is entered, or a later cause is counted; a device cause in the safe state of a partition reset turns it into a
device reset (R363). `poreset` tells the reset that PORESET_N starts. DEDUCED, log entry 168. -/
def State.enterSafe (s : State) (cause : Nat) (r : SafeReset) (poreset : Bool := false) : State :=
  let cur := s.safeState
  if cur = 0 then
    let s := s.pinsSafe
    let s := s.setSafe (match r with | .part _ => 1 | .device => 2)
    let s := (s.dset 0x2700 0x05 cause).dbump 0x2700 0x1C
    let s := s.report 0x4008 ucDevice ucDevice (bytesOf 2 cause)
    match r with
    | .part p => s.startPartReset p cause true none
    | .device => s.startDevReset cause poreset
  else
    match r with
    | .part _ => { s with laterCauses := s.laterCauses + 1 }
    | .device =>
      if cur = 1 then (s.setSafe 2).startDevReset cause poreset
      else { s with laterCauses := s.laterCauses + 1 }.startDevReset cause poreset

/-! ### Uncorrectable errors and poison (R234, R257, R261, R263) -/

/-- The report of an uncorrectable part at a global byte address. -/
def State.reportUnc (s : State) (a : Nat) : State :=
  match s.regionOf a with
  | .spm c => s.report codeSramUnc (ucCore c) (ucCore c) (bytesOf 8 a)
  | .dram p =>
    let ch := 8 * p + a % 0x400000000 / 256 % 8
    (s.report codeDramUnc (ucChannel ch) (ucChannel ch) (bytesOf 8 a)).dbump 0x2500 (0x28 + p)
  | _ => s.report codeSramUnc ucDevice ucDevice (bytesOf 8 a)

/-- Native containment of it: the code and what is reset (R261). -/
def Region.contained : Region → Nat × SafeReset
  | .spm c => (codeSramUnc, .part (c / 2))
  | .dram p => (codeDramUnc, .part p)
  | _ => (codeSramUnc, .device)

/-- An uncorrectable part under native containment (R261). -/
def State.contain (s : State) (a : Nat) : State :=
  let r := (s.regionOf a).contained
  (s.reportUnc a).enterSafe r.1 r.2

/-- The response to an uncorrectable part at a global byte address. -/
def State.uncorrectable (s : State) (a : Nat) : State :=
  let shared := match s.regionOf a with | .spm _ | .dram _ => false | _ => true
  if s.bririte && !shared then
    { s.reportUnc a with poison := KV.set false s.poison (a / 8) true, ecc := KV.erase s.ecc (a / 8) }
  else s.contain a

/-- A corrected part: counted, written back (R234, R257). -/
def State.corrected (s : State) (a : Nat) : State :=
  let s := { s with ecc := KV.erase s.ecc (a / 8) }
  match s.regionOf a with
  | .dram p =>
    let ch := 8 * p + a % 0x400000000 / 256 % 8
    (s.rep 0x3011 (ucChannel ch)).dbump 0x2500 (0x24 + p)
  | .spm c => (s.rep 0x3010 (ucCore c)).dbump 0x2500 0x2C
  | _ => (s.rep 0x3010 ucDevice).dbump 0x2500 0x2C

/-- A read of the 32-byte word at `a` finds its latent errors. -/
def State.touch (s : State) (a : Nat) : State :=
  foldS [0, 1, 2, 3] (fun s i =>
    match KV.get 0 s.ecc (a / 8 + i) with
    | 0 => s
    | 1 => s.corrected (a + 8 * i)
    | _ => s.uncorrectable (a + 8 * i)) s

/-- A context consumes a poisoned word (R263). DEDUCED, log entry 30. -/
def State.consume (s : State) (k c a : Nat) : State :=
  let detail := bytesOf 8 a ++ bytesOf 1 k
  let s := (s.reportCtx k codePoison (ucCore c) (ucCore c) detail).dbump 0x2500 0x2D
  (s.noteDetail k detail).startTeardown k codePoison

/-- Every 32-byte word of a range of memory is read through its ECC. -/
def State.touchRange (s : State) (a n : Nat) : State :=
  foldS (List.range (cdiv (a % 32 + n) 32)) (fun s i => s.touch (a / 32 * 32 + 32 * i)) s

/-- A range that the safety manager reads: what it finds poisoned is contained natively (R263). -/
def State.smTouch (s : State) (a n : Nat) : State :=
  foldS (List.range (cdiv (a % 8 + n) 8)) (fun s i =>
    if KV.get false s.poison (a / 8 + i) then s.contain (8 * (a / 8 + i)) else s) (s.touchRange a n)

/-! ### Choices (R277, R278) -/

/-- A timing-dependent choice of kind 0 FP32 order, 1 scale miss, 2 placement, 3 DRAM hold. Strict mode makes none. -/
def State.choice (s : State) (k kind : Nat) : State :=
  if s.strict then s
  else
    let s := s.cset k 0x83 (min 65535 (s.cget k 0x83 + 1))
    (s.cbump k (0x84 + kind)).dbump 0x2900 0x15

end Sys2Proof.Machine
end

