-- ==== Sys2Proof/Machine/Flags.lean ====
section
/-! DEFINITION. The current copy of a context's words, pairs and flags (R326, R330), and the operations on a flag: set with
its overrun count, clear, and the masks of a context (R183, R184). -/

namespace Sys2Proof.Machine

/-! ### The current copy (R330) -/

/-- Whether the scratchpad, the pair registers and the core's flags hold the context: it runs, or ran when its teardown began. -/
def State.isLive (s : State) (k : Nat) : Bool := s.cstate k == csRunning || (s.cstate k == csTearing && decide (s.ccore k < 8))
def State.saved (s : State) (k : Nat) : SaveArea := (s.ctx k).save.getD .empty
def State.setSaved (s : State) (k : Nat) (v : SaveArea) : State := s.setCtx k { s.ctx k with save := some v }

/-- Whether a word lies in the resident range (R326). -/
def Ctx.resident (x : Ctx) (w : Nat) : Bool := decide (quarterWords * x.o ≤ w) && decide (w < x.footprint)

/-- A word of a context with its poison mark, wherever the context is. -/
def State.kWord (s : State) (k w : Nat) : SWord × Bool :=
  if s.isLive k then (s.spm (s.ccore k) w, s.spmPoison (s.ccore k) w)
  else KV.get (0, false) (s.saved k).words w

/-- A word written there; a word outside the resident range has no place in a save area (R326). DEDUCED, log entry 50. -/
def State.kSetWord (s : State) (k w : Nat) (v : SWord) (poison : Bool) : State :=
  if s.isLive k then s.setSpm (s.ccore k) w v poison
  else if (s.ctx k).resident w then
    let a := s.saved k
    s.setSaved k { a with words := KV.set (0, false) a.words w (v, poison) }
  else s

def State.kPair (s : State) (k q : Nat) : Pair :=
  if s.isLive k then s.pair (s.ccore k) q else nth .zero (s.saved k).pairs (q - (s.ctx k).o)
def State.kSetPair (s : State) (k q : Nat) (p : Pair) : State :=
  if s.isLive k then s.setPair (s.ccore k) q p
  else
    let a := s.saved k
    s.setSaved k { a with pairs := setAt a.pairs (q - (s.ctx k).o) p }

def State.kFlag (s : State) (k f : Nat) : Bool :=
  if s.isLive k then s.flag (s.ccore k) f else KV.get false (s.saved k).flags f
def State.kPutFlag (s : State) (k f : Nat) (b : Bool) : State :=
  if s.isLive k then s.putFlag (s.ccore k) f b
  else
    let a := s.saved k
    s.setSaved k { a with flags := KV.set false a.flags f b }

/-- A word read, with its latent errors found where the scratchpad holds it (R234, R261). -/
def State.readK (s : State) (k w : Nat) : (SWord × Bool) × State :=
  let s := if s.isLive k then s.touch (spmAddr (s.ccore k) w) else s
  (s.kWord k w, s)

/-- Several words read in order. -/
def State.readKs (s : State) (k : Nat) : List Nat → List (SWord × Bool) × State
  | [] => ([], s)
  | w :: r =>
    let x := s.readK k w
    let y := State.readKs x.2 k r
    (x.1 :: y.1, y.2)

/-- A set of a flag: an overrun where it is 1 already (R184). -/
def State.kSetFlag (s : State) (k f : Nat) : State :=
  if s.kFlag k f then
    { s with overruns := KV.set 0 s.overruns (flagKey k f) (KV.get 0 s.overruns (flagKey k f) + 1) }.cbump k 0x37
  else s.kPutFlag k f true

/-- Whether a flag lies in the context's masks (R183). -/
def Ctx.hasFlag (x : Ctx) (f : Nat) : Bool :=
  if f < 32 then x.localMask.getLsbD f else x.remoteMask.getLsbD (f - 32)

end Sys2Proof.Machine
end

