-- ==== Sys2Proof/Machine/Fabric.lean ====
section
/-! DEFINITION. Windows, address-matched and local accesses (R231, R240), and the packets of R241: their checks, effects and answers (R242–R254). -/

namespace Sys2Proof

/-! ### Packets (R241) -/

def Packet.window (p : Packet) : Nat := Machine.bits p.addr.toNat 5 0
def Packet.gen (p : Packet) : Nat := Machine.bits p.addr.toNat 13 6
def Packet.off (p : Packet) : Nat := Machine.bits p.addr.toNat 34 14
def Packet.dst (p : Packet) : Nat := p.dstUnit.toNat
def Packet.src (p : Packet) : Nat := p.srcUnit.toNat
def Packet.k (p : Packet) : Nat := p.srcCtx.toNat
/-- How many words an operation covers: the data it carries, or what a request asks for. -/
def Packet.count (p : Packet) : Nat := if p.kind = 3 || p.kind = 11 then p.words.toNat + 1 else p.data.length

/-- The global byte addresses of the words that a memory packet covers. -/
def Packet.wordAddrs (p : Packet) : List Nat := (List.range p.count).map (fun i => 32 * (p.addr.toNat + i))

/-- An answer to a packet: units swapped, sequence and tag kept, every field that its kind does not use 0. -/
def Packet.answer (p : Packet) (kind : BitVec 4) (status : Nat) : Packet :=
  { p with kind := kind, srcUnit := p.dstUnit, dstUnit := p.srcUnit, addr := 0, words := 0, flag := 0,
           status := BitVec.ofNat 16 status, poison := false, data := [] }

/-- The unit code of a packet's source (R245): the stream pair of a context, or the unit itself. -/
def Packet.srcCode (p : Packet) : Nat :=
  if p.src < 8 then Machine.ucPair p.src p.srcPair.toNat p.k
  else if p.src = 8 then Machine.ucTensor else if p.src = 9 then Machine.ucSm else Machine.ucHost (p.src - 10)

end Sys2Proof

namespace Sys2Proof.Machine

/-! ### Windows (R237–R240) -/

def wnBase (e : BitVec 128) : Nat := bits e.toNat 20 0
def wnLen (e : BitVec 128) : Nat := bits e.toNat 41 21
def wnBit (e : BitVec 128) (i : Nat) : Bool := e.getLsbD i
def wnOpen (e : BitVec 128) : Bool := e.getLsbD 72
def wnGen (e : BitVec 128) : Nat := bits e.toNat 71 64
def wnOwner (e : BitVec 128) : Nat := bits e.toNat 78 73
def wnRed (e : BitVec 128) : Nat := bits e.toNat 63 60
def wnSources (e : BitVec 128) : Nat := bits e.toNat 59 48
def rPut : Nat := 42
def rGet : Nat := 43
def rInt : Nat := 44
def rFp : Nat := 45
def rFlag : Nat := 46

def State.win (s : State) (c w : Nat) : BitVec 128 := KV.get 0 s.windows (winKey c w)
/-- The table entry, and the entry of the owner's object beside it (R237, R337). -/
def State.setWin (s : State) (c w : Nat) (e : BitVec 128) : State :=
  { s with windows := KV.set 0 s.windows (winKey c w) e }

/-- Bits [hi:lo] of an entry replaced. -/
def wnPut (e : BitVec 128) (hi lo v : Nat) : BitVec 128 :=
  let old := bits e.toNat hi lo
  BitVec.ofNat 128 (e.toNat - old * 2 ^ lo + v % 2 ^ (hi + 1 - lo) * 2 ^ lo)

/-- The object entry that shows window `w` of context `k` (R337). DEDUCED, log entry 65. -/
def State.showWin (s : State) (k c w : Nat) : State := s.cset k (0xA1 + w) (s.win c w).toNat

/-- The checks of R242 on a window-addressed access of `n` words. DEDUCED, log entry 49. -/
def State.windowCheck (s : State) (c w gen unit : Nat) (rights : List Nat) (off n : Nat) : Option Nat :=
  let e := s.win c w
  if s.isFenced (c / 2) then some codePartFenced
  else if !wnOpen e then some 0x3002
  else if wnGen e ≠ gen then some 0x3003
  else if !wnBit e (48 + unit) then some 0x3004
  else if rights.any (fun r => !wnBit e r) then some 0x3005
  else if wnLen e < off + n then some 0x3006
  else none

/-- The window an address-matched access of word `a` finds: the lowest open one that contains it, grants the right and lists
the source (R240). -/
def State.matchWindow (s : State) (c unit right a : Nat) : Option Nat :=
  (List.range 64).find? (fun w =>
    let e := s.win c w
    wnOpen e && decide (wnBase e ≤ a) && decide (a < wnBase e + wnLen e) && wnBit e right && wnBit e (48 + unit))

/-! ### Packets (R241) -/

def winAddr (w gen off : Nat) : BitVec 43 := BitVec.ofNat 43 (w + gen * 2 ^ 6 + off * 2 ^ 14)
def pkAck : BitVec 4 := 8
def pkNack : BitVec 4 := 9
def pkHold : BitVec 4 := 13

def State.sendPacket (s : State) (p : Packet) : State := { s with fabric := s.fabric ++ [p] }

/-- A packet that arrives is no longer in flight. -/
def State.arrive (s : State) (p : Packet) : State := { s with fabric := s.fabric.erase p }

/-- The origin of a NACK's reports (R367): the destination unit and window, or the requester. -/
def nackOrigin (code dst win requester : Nat) : Nat :=
  if code = codePartFenced then ucPart (if 12 ≤ dst && dst < 16 then dst - 12 else dst / 2)
  else if code = ADDR_UNMAPPED then requester
  else ucWindow dst win

/-- The destination refuses a packet: reported there, counted, answered (R242, R245). -/
def State.nackPacket (s : State) (p : Packet) (code : Nat) : State :=
  let unit := if p.kind.toNat < 8 then ucWindow p.dst p.window
    else if 12 ≤ p.dst && p.dst < 16 then ucPart (p.dst - 12) else ucDevice
  let s := s.report code unit (nackOrigin code p.dst p.window p.srcCode) []
  let s := s.dbump 0x2500 0x2E
  let s := if p.kind = 1 || p.kind = 2 then { s with sputBad := (p.src, p.k, p.srcPair.toNat, p.tag.toNat) :: s.sputBad } else s
  s.sendPacket (p.answer pkNack code)

/-- Words cut into packets (R241): a poisoned word alone, clean words up to eight together. -/
def cutRuns : Nat → List (SWord × Bool) → List (List SWord × Bool)
  | 0, _ => []
  | _, [] => []
  | n + 1, (w, true) :: r => ([w], true) :: cutRuns n r
  | n + 1, l =>
    let run := (l.takeWhile (fun x => !x.2)).take 8
    (run.map (·.1), false) :: cutRuns n (l.drop run.length)

/-- The packets that carry a list of words, with the offset of each. -/
def packWords (l : List (SWord × Bool)) : List (Nat × List SWord × Bool) :=
  ((cutRuns l.length l).foldl (fun (acc : Nat × List (Nat × List SWord × Bool)) r =>
    (acc.1 + r.1.length, acc.2 ++ [(acc.1, r.1, r.2)])) (0, [])).2

/-! ### Atomic adds (R247–R250) -/

def addInt8 (a b : SWord) : SWord :=
  wordOfBytes (((List.range 8).map (fun i => bytesOf 4 (w32 a (4 * i) + w32 b (4 * i)).toNat)).flatten)

/-- One binary32 addition per element; every NaN is 0x7FC0_0000. -/
def fAddN (x y : F32) : F32 := let r := fAdd x y; if fIsNaN r then fNaN else r
def addFp8 (a b : SWord) : SWord :=
  wordOfBytes (((List.range 8).map (fun i => bytesOf 4 (fAddN (w32 a (4 * i)) (w32 b (4 * i))).toNat)).flatten)

/-- A contribution added into word `w` of context `k`; a poisoned word stays poisoned (R262). -/
def State.addWord (s : State) (k w : Nat) (f : SWord → SWord → SWord) (v : SWord) (poison : Bool) : State :=
  let x := s.readK k w
  x.2.kSetWord k w (f x.1.1 v) (x.1.2 || poison)

def roundKey (c w : Nat) : Nat := c * 2 ^ 21 + w
def State.round (s : State) (c w : Nat) : List Contribution := KV.get [] s.rounds (roundKey c w)
def State.setRound (s : State) (c w : Nat) (l : List Contribution) : State :=
  { s with rounds := KV.set [] s.rounds (roundKey c w) l }

/-- Contributions in ascending source unit, then source context. -/
def Contribution.before (a b : Contribution) : Bool := decide (a.unit * 64 + a.ctx ≤ b.unit * 64 + b.ctx)

/-- Whether a contribution of the packet is still held in a round of core `c`. -/
def State.stillHeld (s : State) (c : Nat) (p : Packet) : Bool :=
  s.rounds.any (fun e => decide (e.1 / 2 ^ 21 = c) && e.2.any (fun x => x.packet = p))

/-- A full round is applied in order and its packets are ACKed once no round holds them (R249). -/
def State.applyRound (s : State) (k c w : Nat) : State :=
  let l := (s.round c w).mergeSort Contribution.before
  let s := foldS l (fun s x => s.addWord k w addFp8 (nth 0 x.packet.data x.ix) x.packet.poison) s
  let s := s.setRound c w []
  foldS l (fun s x => if s.stillHeld c x.packet then s else s.sendPacket (x.packet.answer pkAck 0)) s

/-- A strict-mode contribution: refused, or held, and each full round applied. DEDUCED, log entry 55. -/
def State.contribute (s : State) (k c base red : Nat) (p : Packet) : State :=
  let ws := (List.range p.data.length).map (fun i => (i, base + p.off + i))
  if ws.any (fun x => (s.round c x.2).any (fun y => y.unit == p.src && y.ctx == p.k)) then s.nackPacket p 0x300D
  else
    let s := foldS ws (fun s x => s.setRound c x.2 (s.round c x.2 ++ [Contribution.mk p.src p.k p x.1])) s
    let s := s.sendPacket (p.answer pkHold 0)
    foldS ws (fun s x => if red ≤ (s.round c x.2).length then s.applyRound k c x.2 else s) s

/-- A relaxed-mode FP32 add counts one choice when the window's second contributor of the frame comes (R248). -/
def State.noteFp32 (s : State) (k : Nat) (p : Packet) : State :=
  let x := s.ctx k
  let me := (p.window, p.src, p.k)
  let here := x.fp32Seen.filter (fun e => e.1 == p.window)
  if here.contains me then s
  else
    let s := s.setCtx k { x with fp32Seen := x.fp32Seen ++ [me] }
    if here.length = 1 then s.choice k 0 else s

/-! ### Effects at the destination (R243) -/

def State.putWords (s : State) (k a : Nat) (ws : List SWord) (poison : Bool) : State :=
  foldS ((List.range ws.length).zip ws) (fun s x => s.kSetWord k (a + x.1) x.2 poison) s

/-- Words read from a context's copy, sent back in replies with the offsets they come from. -/
def State.sendReplies (s : State) (p : Packet) (kind : BitVec 4) (l : List (SWord × Bool)) (addrAt : Nat → BitVec 43) : State :=
  foldS (packWords l) (fun s r =>
    s.sendPacket { p.answer kind 0 with addr := addrAt r.1, words := BitVec.ofNat 4 (r.2.1.length - 1), data := r.2.1, poison := r.2.2 }) s

/-- An arrival for a context that is not running counts (R330, R337). -/
def State.noteSaved (s : State) (k : Nat) : State := if s.isLive k then s else s.cbump k 0x16

/-- Whether data of the same SPUT is still on its way (R243). -/
def State.sputPending (s : State) (p : Packet) : Bool :=
  s.fabric.any (fun x => x.kind = 1 && x.srcUnit = p.srcUnit && x.srcCtx = p.srcCtx && x.srcPair = p.srcPair && x.tag = p.tag)
    || s.late.any (fun e => e.2.any (fun x => x.kind = 1 && x.srcUnit = p.srcUnit && x.srcCtx = p.srcCtx && x.srcPair = p.srcPair
        && x.tag = p.tag))

def sputId (p : Packet) : Nat × Nat × Nat × Nat := (p.src, p.k, p.srcPair.toNat, p.tag.toNat)

/-- The effect of a packet that passed R242, on the context `k` that owns the window with entry `e`. -/
def State.applyPacket (s : State) (k : Nat) (e : BitVec 128) (p : Packet) : State :=
  let a := wnBase e + p.off
  let s := s.noteSaved k
  if p.kind = 3 then
    let x := s.readKs k ((List.range p.count).map (a + ·))
    x.2.sendReplies p 4 x.1 (fun i => winAddr p.window p.gen (p.off + i))
  else if p.kind = 5 then
    let s := foldS ((List.range p.data.length).zip p.data) (fun s x => s.addWord k (a + x.1) addInt8 x.2 p.poison) s
    s.sendPacket (p.answer pkAck 0)
  else if p.kind = 6 then
    if s.strict then s.contribute k p.dst (wnBase e) (wnRed e) p
    else
      let s := s.noteFp32 k p
      let s := foldS ((List.range p.data.length).zip p.data) (fun s x => s.addWord k (a + x.1) addFp8 x.2 p.poison) s
      s.sendPacket (p.answer pkAck 0)
  else if p.kind = 7 then (s.kSetFlag k (32 + p.flag.toNat)).sendPacket (p.answer pkAck 0)
  else
    let s := s.putWords k a p.data p.poison
    let s :=
      if p.kind = 2 then
        if s.sputBad.contains (sputId p) then { s with sputBad := s.sputBad.filter (· != sputId p) }
        else s.kSetFlag k (32 + p.flag.toNat)
      else s
    s.sendPacket (p.answer pkAck 0)

/-- The rights a kind needs (R237). -/
def rightsOf (kind : BitVec 4) : List Nat :=
  match kind.toNat with
  | 0 | 1 => [rPut]
  | 2 => [rPut, rFlag]
  | 3 => [rGet]
  | 5 => [rInt]
  | 6 => [rFp]
  | _ => [rFlag]

/-- The core whose late-reply buffer takes arrivals for a context in a switch (R327). -/
def State.switchCore (s : State) (k : Nat) : Option Nat :=
  match (s.ctx k).move with
  | .switchingOut => some (s.ccore k)
  | .switchingIn => (s.ctx k).dest
  | _ => none

def State.holdLate (s : State) (c : Nat) (p : Packet) : State :=
  { s with late := KV.set [] s.late c (KV.get [] s.late c ++ [p]) }

/-- A window-addressed packet at its destination: checked under R242, then applied, or held while its context switches.
`free` applies it although the context switches. -/
def State.windowPacket (s : State) (p : Packet) (free : Bool) : State :=
  if 8 ≤ p.dst then s
  else
    match s.windowCheck p.dst p.window p.gen p.src (rightsOf p.kind) p.off p.count with
    | some code => s.nackPacket p code
    | none =>
      let e := s.win p.dst p.window
      let k := wnOwner e
      match s.switchCore k, free with
      | some c, false => s.holdLate c p
      | _, _ => s.applyPacket k e p

/-! ### Memory packets (R22, R23, R242) -/

/-- The region a memory packet reaches: its unit must be the one that holds the address. -/
def memUnit (s : State) (a : Nat) : Option Nat :=
  match s.regionOf a with
  | .dram p => some (12 + p)
  | .ls | .sm => some 16
  | .ctl => some 17
  | _ => none

/-- The code a memory packet fails with, if any; every word must lie at its unit, and the safety manager region and control space
answer the safety manager only. -/
def State.memCheck (s : State) (p : Packet) : Option Nat :=
  if 12 ≤ p.dst && p.dst < 16 && s.isFenced (p.dst - 12) then some codePartFenced
  else if p.wordAddrs.any (fun a => memUnit s a != some p.dst) then some ADDR_UNMAPPED
  else if p.src ≠ 9 && p.wordAddrs.any (fun a => s.regionOf a == .sm || s.regionOf a == .ctl) then some ADDR_UNMAPPED
  else none

/-! ### Address-matched accesses (R231, R240) -/

/-- A word read by address from outside its stream pairs; `none` where no window qualifies. -/
def State.matchedRead (s : State) (c unit w : Nat) : Option ((SWord × Bool) × State) :=
  (s.matchWindow c unit rGet w).map (fun n => s.readK (wnOwner (s.win c n)) w)

def State.matchedWrite (s : State) (c unit w : Nat) (v : SWord) (poison : Bool) : Option State :=
  (s.matchWindow c unit rPut w).map (fun n => s.kSetWord (wnOwner (s.win c n)) w v poison)

def Ctx.ownsWord (x : Ctx) (w : Nat) : Bool := x.pairsOf.contains (w / quarterWords)

/-- A local read of a running context (R231): its own scratchpad, or through a window of the same core. -/
def State.localRead (s : State) (k c w : Nat) : (SWord × Bool) × State :=
  if (s.ctx k).ownsWord w then
    let s := s.touch (spmAddr c w)
    ((s.spm c w, s.spmPoison c w), s)
  else
    match s.matchedRead c c w with
    | some v => v
    | none => ((0, false), s.rep 0x3007 (ucCore c))

/-- A local write. -/
def State.localWrite (s : State) (k c w : Nat) (v : SWord) (poison : Bool) : State :=
  if (s.ctx k).ownsWord w then s.setSpm c w v poison
  else
    match s.matchedWrite c c w v poison with
    | some s' => s'
    | none => s.rep 0x3007 (ucCore c)

/-- Words that an answer brings to a context: local writes while the context is on its core, else words of its save area (R231, R330). -/
def State.putLocal (s : State) (k a : Nat) (ws : List SWord) (poison : Bool) : State :=
  foldS ((List.range ws.length).zip ws) (fun s x =>
    if s.isLive k then s.localWrite k (s.ccore k) (a + x.1) x.2 poison else s.kSetWord k (a + x.1) x.2 poison) s

/-! ### Answers at the source (R243–R246, R249, R254) -/

/-- An answer that nothing waits for is dropped and counted against the core (R246, R254). -/
def State.dropAnswer (s : State) (p : Packet) : State :=
  let s := s.dbump 0x2500 0x2F
  s.report codeCtxGone (if p.dst < 8 then ucCore p.dst else if p.dst = 9 then ucSm else ucDevice) (ucCtx p.k) []

def findOut (l : List Out) (seq : Nat) : Option Out := l.find? (fun o => o.seq == seq)
def Pair.dropOut (p : Pair) (seq : Nat) : Pair := { p with outstanding := p.outstanding.filter (fun o => o.seq != seq) }
def Pair.putOut (p : Pair) (o : Out) : Pair :=
  { p with outstanding := p.outstanding.map (fun x => if x.seq == o.seq then o else x) }

/-- An operation of a stream pair changes. -/
def Strm.mapOp (t : Strm) (seq : Nat) (f : Op → Op) : Strm := { t with ops := t.ops.map (fun o => if o.seq == seq then f o else o) }

/-- An operation fails: it sends no further packets; the context counts it; an LC frame is invalid (R244). -/
def State.failOp (s : State) (k q seq code : Nat) : State :=
  let p := s.kPair k q
  let known := p.sa.ops.any (fun o => o.seq == seq && !o.failed)
  let s := s.kSetPair k q { p with sa := p.sa.mapOp seq (fun o => { o with failed := true, ran := true }) }
  if known then (s.cbump k 0x2A).ctxFault k code false else s

/-- An operation whose threads have run and that waits for no answer is complete (R180, R243, R244). -/
def Pair.settle (p : Pair) : Pair :=
  { p with sa := { p.sa with ops := p.sa.ops.map (fun o =>
      if o.ran && !o.complete && ([0x18, 0x19, 0x1C, 0x1D, 0x1E, 0x1F, 0x20].contains (Insn.op o.words))
          && !p.outstanding.any (fun x => x.op == o.seq) then { o with complete := true } else o) } }

/-- What an operation does to flags when it and every earlier one of its stream are complete (R185, R213). -/
def State.applySets (s : State) (k : Nat) (o : Op) : State :=
  if o.skipped then s
  else
    let i : Insn := o.words
    let s := if i.op = 0x01 then
        (if bits i.head 29 28 = 0 then s.kSetFlag k (bits i.head 35 30) else s.kPutFlag k (bits i.head 35 30) false)
      else s
    if i.setOn then s.kSetFlag k i.setFlag else s

/-- Retire the complete operations at the head of a stream, in program order. -/
def retireGo : Nat → State → Nat → Nat → StreamId → State
  | 0, s, _, _, _ => s
  | n + 1, s, k, q, st =>
    let p := s.kPair k q
    match (p.strm st).ops with
    | o :: r =>
      if o.complete then
        let s := s.kSetPair k q (p.setStrm st { p.strm st with ops := r })
        retireGo n (s.applySets k o) k q st
      else s
    | [] => s

def State.retire (s : State) (k q : Nat) (st : StreamId) : State := retireGo ((s.kPair k q).strm st).ops.length s k q st

/-- For a context in its save area an operation takes effect with its last answer (R330). -/
def State.settleSaved (s : State) (k q : Nat) : State :=
  if s.isLive k then s
  else
    let before := (s.kPair k q).sa.ops.filter (fun o => !o.complete)
    let s := s.kSetPair k q (s.kPair k q).settle
    let now := (s.kPair k q).sa.ops.filter (fun o => o.complete && before.any (fun b => b.seq == o.seq))
    let s := foldS now (fun s o => match Insn.doneFlag o.words with | some f => s.kSetFlag k f | none => s) s
    s.retire k q .a

/-- The effect of an answer on the operation that waits for it. -/
def State.applyAnswer (s : State) (k q : Nat) (o : Out) (p : Packet) : State :=
  let s := s.noteSaved k
  let pr := s.kPair k q
  if p.kind = pkHold then s.kSetPair k q (pr.putOut { o with held := true })
  else if p.kind = pkAck then (s.kSetPair k q (pr.dropOut o.seq)).settleSaved k q
  else if p.kind = pkNack then
    let code := p.status.toNat
    let unit := if s.isLive k then ucPair p.dst q k else ucCtx k
    let s := s.reportCtx k code unit (nackOrigin code o.dst o.win (ucPair p.dst q k)) []
    let s := s.kSetPair k q (pr.dropOut o.seq)
    (s.failOp k q o.op code).settleSaved k q
  else
    let at' := if p.kind = 4 then p.off else p.addr.toNat
    let s := s.putLocal k (o.loc + (at' - o.off)) p.data p.poison
    let left := o.left - p.data.length
    let pr := s.kPair k q
    (s.kSetPair k q (if left = 0 then pr.dropOut o.seq else pr.putOut { o with left := left })).settleSaved k q

/-- An answer arrives at a core: for a context that is gone, or with nothing waiting, it is dropped; while its context
switches it is held. -/
def State.answerPacket (s : State) (p : Packet) (free : Bool) : State :=
  let k := p.k
  let q := p.srcPair.toNat
  if !p.ctxValid || s.cstate k < csRunning || s.cstate k = csTearing || (s.ctx k).move = .heldByReset
      || (s.ctx k).move = .reloadWait then s.dropAnswer p
  else
    match s.switchCore k, free with
    | some c, false => s.holdLate c p
    | _, _ =>
      match findOut (s.kPair k q).outstanding p.seq.toNat with
      | none => s.dropAnswer p
      | some o => s.applyAnswer k q o p

/-! ### Reads of a running context -/

/-- Several words read in ascending order. -/
def State.localReads (s : State) (k c : Nat) : List Nat → List (SWord × Bool) × State
  | [] => ([], s)
  | w :: r =>
    let x := s.localRead k c w
    let y := State.localReads x.2 k c r
    (x.1 :: y.1, y.2)

/-- A record or word that poison must not reach: read, or `none` once its poison is consumed (R263). -/
def State.consumeRead (s : State) (k c w : Nat) : Option SWord × State :=
  let x := s.localRead k c w
  if x.1.2 then (none, x.2.consume k c (spmAddr c w)) else (some x.1.1, x.2)

/-- `n` words read so, as bytes. -/
def consumeBytes : Nat → State → Nat → Nat → Nat → Option (List Byte) × State
  | 0, s, _, _, _ => (some [], s)
  | n + 1, s, k, c, w =>
    match s.consumeRead k c w with
    | (none, s) => (none, s)
    | (some v, s) =>
      match consumeBytes n s k c (w + 1) with
      | (none, s) => (none, s)
      | (some l, s) => (some (bytesOfWord v ++ l), s)

end Sys2Proof.Machine
end

