-- ==== Sys2Proof/Machine/Operands.lean ====
section
/-! DEFINITION. How a stream issues: fetch, wait, the checks made at issue, skips, the operand forms of an instruction
(generators, targets, queues), and the push of an operation (R178–R199, R203–R222). -/

namespace Sys2Proof.Machine

/-! ### Where a stream stands -/

/-- A stream at its position: core, pair, stream, context, stream state, instruction. -/
structure Site where
  c : Nat
  q : Nat
  st : StreamId
  k : Nat
  t : Strm
  i : Insn
  load : Nat
  len : Nat
  deriving DecidableEq, Repr

def stIx : StreamId → Nat
  | .a => 0
  | .x => 1

/-- Number of a stream among a context's, as the stop marks and programs count them (R201). -/
def Ctx.streamIx (x : Ctx) (q : Nat) (st : StreamId) : Nat := 2 * (q - x.o) + stIx st

/-- Instruction word `k` of a program at word `l` (R203). -/
def State.iwordAt (s : State) (c l k : Nat) : IWord := (s.spm c (l + k / 4)).extractLsb' (64 * (k % 4)) 64

/-- The instruction at a position. -/
def State.fetch (s : State) (c l pos : Nat) : Insn :=
  let h := s.iwordAt c l pos
  (List.range (Insn.span [h])).map (fun j => s.iwordAt c l (pos + j))

/-- Where a running stream stands, if it can issue at all. -/
def State.site (s : State) (c q : Nat) (st : StreamId) : Option Site :=
  match s.runner c q with
  | none => none
  | some k =>
    let x := s.ctx k
    let t := s.strm c q st
    if t.atEnd || t.stopped then none
    else
      let pr := nth (0, 0) x.programs (x.streamIx q st)
      some { c := c, q := q, st := st, k := k, t := t, i := s.fetch c pr.1 t.pos, load := pr.1, len := pr.2 }

/-- The scratchpad words an instruction was fetched from. -/
def Site.fetched (z : Site) : List Nat :=
  let a := z.load + z.t.pos / 4
  (List.range (z.load + (z.t.pos + z.i.length - 1) / 4 - a + 1)).map (fun j => a + j)

/-- A fetch finds latent errors and consumes poison (R234, R263): `true` when the context is torn down by it. -/
def State.fetchErrors (s : State) (z : Site) : Bool × State :=
  let s := foldS z.fetched (fun s w => s.touch (spmAddr z.c w)) s
  match z.fetched.find? (fun w => s.spmPoison z.c w) with
  | some w => (true, s.consume z.k z.c (spmAddr z.c w))
  | none => (false, s)

/-! ### Skips (R196–R198) -/

/-- The beat counter of a bed (R269, R287). DEDUCED, log entry 37. -/
def State.beats (s : State) (bed : Nat) : Nat := s.dget 0x2900 (0x0C + bed)

/-- One entry of the error log (R197). DEDUCED, log entry 31. -/
def State.logSkip (s : State) (k c q pos code : Nat) (st : StreamId) (late : Bool) (start : Int) : State :=
  let beat := min 0xFFFFFFFF ((s.beats (c / 2) : Int) - start).toNat
  let v := s.frameNo % 2 ^ 32 + pos * 2 ^ 32 + code * 2 ^ 64 + q * 2 ^ 80 + stIx st * 2 ^ 82 + (if late then 2 ^ 83 else 0) + beat * 2 ^ 96
  let s := s.setCtx k { s.ctx k with lastSkip := v }
  let n := s.cget k 0x33
  if n < 64 then (s.cset k (0x41 + n) v).cset k 0x33 (n + 1) else s.cbump k 0x34

/-- A skip is logged, reported once for its context in a frame (R197), counted, and at the limit tears the context down. -/
def State.noteSkip (s : State) (k c q pos code : Nat) (st : StreamId) (late : Bool) : State :=
  let s := s.logSkip k c q pos code st late (s.strm c q st).startBeat
  let s := (s.reportCtx k 0x200C (ucPair c q k) (ucCtx k) (bytesOf 2 code)).ctxFault k 0x200C false
  let n := s.cget k 0x31 + 1
  let s := (s.cset k 0x31 (min 65535 n)).cbump k 0x32
  if (s.ctx k).skipLimit < n then (s.reportCtx k 0x200B (ucPair c q k) (ucPair c q k) []).startTeardown k 0x200B else s

/-- A stream moves past an instruction: position, count, END at the program's end, its stop mark (R199, R204). -/
def Strm.passed (t : Strm) (len span mark : Nat) : Strm :=
  let pos := t.pos + span
  let n := t.count + 1
  { t with pos := pos, count := n, waited := false, atEnd := t.atEnd || pos == len, stopped := t.stopped || (mark ≠ 0 && decide (mark ≤ n)) }

def State.markOf (s : State) (z : Site) : Nat := nth 0 (s.ctx z.k).marks ((s.ctx z.k).streamIx z.q z.st)

/-- The stream moves on; with the first stream that stops at its mark the context is stopping (R199, R201). -/
def State.advance (s : State) (z : Site) : State :=
  let t := (s.strm z.c z.q z.st).passed z.len z.i.span (s.markOf z)
  let s := s.setStrm z.c z.q z.st t
  if t.stopped && s.cget z.k 0x40 == 0 then s.cset z.k 0x40 1 else s

/-- An instruction skipped at issue. -/
def State.skip (s : State) (z : Site) (code : Nat) : State :=
  (s.advance z).noteSkip z.k z.c z.q z.t.pos code z.st false

/-! ### Waits (R184, R207, R277) -/

def State.waitMet (s : State) (z : Site) : Bool := z.i.waitKind == 0 || z.t.waited || s.kFlag z.k z.i.waitFlag
def State.takeWait (s : State) (z : Site) : State :=
  if z.i.waitKind = 2 && !z.t.waited then s.kPutFlag z.k z.i.waitFlag false else s

/-- An instruction whose wait is satisfied while its unit is busy: the wait is over, and a wait-clear has cleared its flag. -/
def State.holdBusy (s : State) (z : Site) : State :=
  if z.i.waitKind = 0 || z.t.waited then s
  else
    let s := s.takeWait z
    s.setStrm z.c z.q z.st { s.strm z.c z.q z.st with waited := true }

/-- Whether an operation, when complete, sets a flag by its set field or as FLAG. -/
def Op.sets (o : Op) (f : Nat) : Bool :=
  !o.skipped && ((Insn.setOn o.words && Insn.setFlag o.words == f)
    || (Insn.op o.words == 0x01 && bits (Insn.head o.words) 29 28 == 0 && bits (Insn.head o.words) 35 30 == f))

/-- DEDUCED, log entry 25. -/
def Op.isStaging (o : Op) : Bool := Insn.op o.words == 0x18 || Insn.op o.words == 0x19

/-- The incomplete DLD or DST operations that a flag is pending behind in a stream. -/
def pendingStaging (f : Nat) : List Op → List Nat
  | [] => []
  | o :: r =>
    if o.isStaging && !o.complete && (Insn.doneFlag o.words == some f || o.sets f || r.any (fun x => x.sets f))
    then o.seq :: pendingStaging f r else pendingStaging f r

/-- A hold on a flag pending behind a DLD or DST is a choice, once per instruction (R277). -/
def State.noteDramHold (s : State) (z : Site) : State :=
  foldS (s.ctx z.k).pairsOf (fun s q =>
    foldS (pendingStaging z.i.waitFlag (s.strm z.c q .a).ops) (fun s n =>
      let t := s.strm z.c q .a
      if t.ops.any (fun o => o.seq == n && !o.counted) then
        (s.setStrm z.c q .a (t.mapOp n (fun o => { o with counted := true }))).choice z.k 3
      else s) s) s

/-! ### Operand forms -/

def Strm.counter (t : Strm) (n : Nat) : BitVec 32 :=
  match n with
  | 0 => t.k0
  | 1 => t.k1
  | 2 => t.k2
  | _ => t.k3
def Strm.setCounter (t : Strm) (n : Nat) (v : BitVec 32) : Strm :=
  match n with
  | 0 => { t with k0 := v }
  | 1 => { t with k1 := v }
  | 2 => { t with k2 := v }
  | _ => { t with k3 := v }

/-- Whether a comparator holds now (R188, R212). -/
def Strm.holds (t : Strm) (p : Comparator) : Bool :=
  let a := t.counter p.a
  let b := if p.useB then t.counter p.b else p.imm
  match p.rel with
  | 0 => a == b
  | 1 => a != b
  | 2 => a.slt b
  | 3 => !a.slt b
  | 4 => a.ult b
  | _ => !a.ult b

/-- The row of the opcode map; callers have passed the illegal checks. -/
def Insn.row (i : Insn) : OpRow := (opRow i.op).getD ⟨true, true, 0, false, 0⟩

/-- Generator bases with the counter term, read once at issue (R191). -/
def Site.bases (z : Site) : List Int :=
  (List.range z.i.row.gens).map (fun g =>
    let d := z.i.gen z.i.row g
    (genBase d : Int) + (z.t.counter (genCtr d)).toInt * genCtrStride d)

def Site.base (z : Site) (g : Nat) : Int := nth 0 z.bases g
def Site.counts (z : Site) : List Nat := z.i.counts z.i.row
def Site.threads (z : Site) : Nat := z.i.threads z.i.row
def Site.low (z : Site) (g : Nat) : Int := genLow (z.base g) (z.i.gen z.i.row g) z.counts
def Site.high (z : Site) (g : Nat) : Int := genHigh (z.base g) (z.i.gen z.i.row g) z.counts

/-- A generator that stays in the scratchpad with `n` words beyond its highest address (R192, R211). -/
def Site.localOk (z : Site) (g : Nat) (extra : Int) : Bool := 0 ≤ z.low g && z.high g + extra < spmWords

def tooMany (z : Site) : Bool := decide (2 ^ 31 < z.threads)
def wordOk (w : Nat) : Bool := decide (w < spmWords)

/-- The lowest code, one skip for each instruction (R222). -/
def leastCode (l : List Nat) : Option Nat := l.min?

def failIf (b : Bool) (code : Nat) : List Nat := if b then [code] else []

/-- Conditions that any instruction can meet: flags, queues (R183, R181). -/
def State.commonChecks (s : State) (z : Site) : List Nat :=
  failIf (z.i.flags.any (fun f => !(s.ctx z.k).hasFlag f)) 0x206E
    ++ failIf (z.i.queueRefs.any (fun r => r / 4 != z.q)) 0x206F

/-! ### Queues (R181) -/

def queueCap : Nat := 64
def Pair.oq (p : Pair) (n : Nat) : List QWord :=
  match n % 4 with
  | 0 => p.oq0
  | 1 => p.oq1
  | 2 => p.oq2
  | _ => p.oq3
def Pair.setOq (p : Pair) (n : Nat) (l : List QWord) : Pair :=
  match n % 4 with
  | 0 => { p with oq0 := l }
  | 1 => { p with oq1 := l }
  | 2 => { p with oq2 := l }
  | _ => { p with oq3 := l }
def Pair.rq (p : Pair) (n : Nat) : List QWord := if n % 2 = 0 then p.rq0 else p.rq1
def Pair.setRq (p : Pair) (n : Nat) (l : List QWord) : Pair := if n % 2 = 0 then { p with rq0 := l } else { p with rq1 := l }

def plainWord (v : SWord) (poison : Bool) (addr : Nat) : QWord :=
  { data := v, under := false, header := false, poison := poison, addr := addr }

/-! ### Holds and stop marks (R195, R199) -/

/-- An earlier instruction of the unit is unfinished (R180); a transfer held for END has freed it (R280).
DEDUCED, log entry 24. -/
def Strm.unitBusy (t : Strm) (u : UnitId) : Bool := t.ops.any (fun o => unitOf (Insn.op o.words) == some u && !o.ran && !o.held)

/-- What a stream holds on: 1 pop from an empty queue, 2 push to a full one, 3 a local flag, 4 END; with the queue or flag. -/
abbrev Hold := Nat × Nat

/-- What an access operation that has not finished holds on, if it is a queue. -/
def State.opHold (s : State) (c q : Nat) (o : Op) : Option Hold :=
  let i : Insn := o.words
  let ref := bits i.head 31 28
  let full := decide (queueCap ≤ ((s.pair c q).oq ref).length)
  match i.op with
  | 0x10 | 0x11 => if full then some (2, ref) else none
  | 0x12 => if full && !ldzTarget i && !o.buf.isEmpty then some (2, ref) else none
  | 0x13 | 0x14 => if ((s.pair c q).rq ref).isEmpty then some (1, ref) else none
  | _ => none

/-- What a column group that an instruction still streams through holds on: a full result queue, or an empty operand queue with
nothing in flight. -/
def State.groupHold (s : State) (c a g : Nat) : Option Hold :=
  let x := s.group c a g
  match x.jobs with
  | [] => none
  | j :: _ =>
    if !j.outq.isEmpty then
      (if queueCap ≤ ((s.pair c j.pair).rq j.rq).length then some (2, 4 * j.pair + j.rq) else none)
    else if x.jobs.all (fun y => y.flight.isEmpty) then
      match x.jobs.find? (fun y => decide (y.inject < y.slots)) with
      | some y => if ((s.pair c y.pair).oq y.oq).isEmpty then some (1, 4 * y.pair + y.oq) else none
      | none => none
    else none

/-- What a weight load of a group holds on. -/
def State.loadHold (s : State) (c a g : Nat) : Option Hold :=
  let x := s.group c a g
  match x.loading with
  | some (l, _) =>
    if ((s.pair c l.pair).oq l.queue).length < splitWidth (s.split c a) / 32 then some (1, 4 * l.pair + l.queue) else none
  | none => if x.waiting.isSome then s.groupHold c a g else none

/-- The hold of a stream; `none` when it is not locally blocked (R195). -/
def State.holdOf (s : State) (c q : Nat) (st : StreamId) : Option Hold :=
  let t := s.strm c q st
  if t.atEnd then some (4, 0)
  else
    match s.site c q st with
    | none => none
    | some z =>
      if (z.i.illegal st).isSome then none
      else if !s.waitMet z then (if z.i.waitFlag < 32 then some (3, z.i.waitFlag) else none)
      else
        match st, unitOf z.i.op with
        | .a, some u =>
          match t.ops.find? (fun o => unitOf (Insn.op o.words) == some u && !o.ran && !o.held) with
          | some o => s.opHold c q o
          | none => none
        | .a, none => none
        | .x, _ =>
          if z.i.op = 0x40 then s.loadHold c z.i.arr (wlGroup z.i)
          else if z.i.op = 0x41 then s.groupHold c z.i.arr (smGroup z.i)
          else none

/-- The streams of a context: stream pair and stream. -/
def Ctx.streams (x : Ctx) : List (Nat × StreamId) := x.pairsOf.flatMap (fun q => [(q, StreamId.a), (q, .x)])

/-- A stream that is locally blocked or at END while every other stream of its context has stopped at its mark stops too (R199). -/
def State.stopCheck (s : State) (k : Nat) : State :=
  if s.cget k 0x40 ≠ 1 then s
  else
    let c := s.ccore k
    match (s.ctx k).streams.filter (fun p => !(s.strm c p.1 p.2).stopped) with
    | [p] => if (s.holdOf c p.1 p.2).isSome then s.setStrm c p.1 p.2 { s.strm c p.1 p.2 with stopped := true } else s
    | _ => s

/-! ### Issue (R180, R196, R207) -/

/-- Every stream of a context at END, and every unit of it idle (R324). -/
def State.allEnd (s : State) (k : Nat) : Bool :=
  (s.ctx k).pairsOf.all (fun q => (s.kPair k q).sa.atEnd && (s.kPair k q).sx.atEnd)
def State.localIdle (s : State) (k : Nat) : Bool :=
  (s.ctx k).pairsOf.all (fun q => (s.kPair k q).sa.ops.all (·.ran) && (s.kPair k q).sx.ops.all (·.ran))

/-- No slot of the context is in its arrays or column end units. -/
def State.arraysIdle (s : State) (k : Nat) : Bool :=
  [0, 1].all (fun a => [0, 1, 2, 3].all (fun g =>
    (s.group (s.ccore k) a g).jobs.all (fun j => !(s.ctx k).pairsOf.contains j.pair)))

/-- No scale slot of the context waits for its close (R139). -/
def State.closesDone (s : State) (k : Nat) : Bool :=
  (s.ctx k).pairsOf.all (fun q => (List.range 16).all (fun i => (s.slot (s.ccore k) q i).closing.isNone))

/-- After a row that moved a context: its last stream may stop at the marks (R199), and a running BE context at END is switched out (R324).
DESIGN CHOICE, log entry 26. -/
def State.finishCheck (s : State) (k : Nat) : State :=
  let s := s.stopCheck k
  let x := s.ctx k
  if s.cclass k == 2 && s.isLive k && x.move == .still && x.ready && s.allEnd k && s.localIdle k && s.arraysIdle k && s.closesDone k then
    s.setCtx k { x with move := .switchingOut }
  else s

/-- What a stream does when it is commanded to issue: the instruction at its position if it is one of the row's, after its
wait and its checks; otherwise the stream holds where it is. The checks are made again when the unit is free. DEDUCED, log entry 20. -/
def State.issue (s : State) (c q : Nat) (st : StreamId) (want : Insn → StreamId → Bool) (checks : Site → State → List Nat)
    (busy : Site → State → Bool) (body : Site → State → State) : State :=
  match s.site c q st with
  | none => s
  | some z =>
    if !want z.i st then s
    else
      match s.fetchErrors z with
      | (true, s) => s
      | (false, s) =>
        match z.i.illegal st with
        | some code => (s.skip z code).finishCheck z.k
        | none =>
          if !s.waitMet z then (s.noteDramHold z).stopCheck z.k
          else
            match leastCode (s.commonChecks z ++ checks z s) with
            | some code => ((s.takeWait z).skip z code).finishCheck z.k
            | none => if busy z s then (s.holdBusy z).stopCheck z.k else (body z ((s.takeWait z).advance z)).finishCheck z.k

/-- The row of one opcode. DESIGN CHOICE, log entry 19. -/
def isOp (n : Nat) (i : Insn) (_ : StreamId) : Bool := i.op == n

/-- An operation as it issues. -/
def Site.op (z : Site) (seq : Nat) : Op :=
  { seq := seq, pos := z.t.pos, words := z.i, bases := z.bases, thread := 0, sub := 0, buf := [], record := 0,
    target := Target.mk 0 0 0, unanswered := 0, failed := false, ran := false, complete := false, held := false,
    skipped := false, counted := false, aux := 0 }

/-- An operation joins its stream's issued ones, changed by `f`. -/
def State.pushOp (s : State) (z : Site) (f : Op → Op) : State :=
  let t := s.strm z.c z.q z.st
  s.setStrm z.c z.q z.st { t with ops := t.ops ++ [f (z.op t.nextSeq)], nextSeq := t.nextSeq + 1 }

/-- A control instruction is complete as it issues; its set takes effect in program order (R185). DEDUCED, log entry 21. -/
def State.pushDone (s : State) (z : Site) : State :=
  (s.pushOp z (fun o => { o with ran := true, complete := true })).retire z.k z.q z.st

/-- A skip found after issue: the last operation of the stream does nothing more and sets nothing (R196). -/
def State.lateSkip (s : State) (z : Site) (code : Nat) : State :=
  let t := s.strm z.c z.q z.st
  let last := t.nextSeq - 1
  let s := s.setStrm z.c z.q z.st (t.mapOp last (fun o => { o with skipped := true, ran := true, complete := true }))
  (s.noteSkip z.k z.c z.q z.t.pos code z.st true).retire z.k z.q z.st

/-! ### Remote targets (R216) -/

/-- What a target record holds, if its bytes are in range. -/
def targetRecord (w : SWord) : Option Target :=
  let b (i : Nat) := (wbyte w i).toNat
  if b 0 < 8 && b 1 < 64 && w.toNat / 2 ^ 24 = 0 then some (Target.mk (b 0) (b 1) (b 2)) else none

/-- The target an instruction names, read at issue. -/
def State.targetOf (s : State) (z : Site) : Option Target :=
  let t := z.i.tgt
  if tgtSource t then
    let r := bits t 38 18
    targetRecord ((s.localRead z.k z.c r).1.1)
  else some (Target.mk (bits t 2 0) (bits t 8 3) (bits t 16 9))

/-- The poisoned target record an instruction would consume. -/
def State.targetPoison (s : State) (z : Site) : Bool :=
  tgtSource z.i.tgt && ((s.localRead z.k z.c (bits z.i.tgt 38 18)).1.2)

/-- Conditions of the five remote instructions. -/
def State.remoteChecks (s : State) (z : Site) : List Nat :=
  let nest := z.i.op != 0x20
  failIf ((nest && (!z.localOk 0 (z.i.wpt - 1) || tooMany z)) || (tgtSource z.i.tgt && !wordOk (bits z.i.tgt 38 18))) 0x2071
    ++ failIf (nest && !z.localOk 1 (z.i.wpt - 1)) 0x2072
    ++ failIf (!s.targetPoison z && (s.targetOf z).isNone) 0x2073

/-! ### Word runs of a thread -/

/-- The address of a generator at a thread of an operation; generator 0 of a DRAM transfer may be negative (R215). -/
def Op.addrAt (o : Op) (g t : Nat) : Int :=
  let i : Insn := o.words
  genAddr (nth 0 o.bases g) (i.gen i.row g) (i.counts i.row) t
/-- The scratchpad or window word of a generator at the present thread. -/
def Op.addr (o : Op) (g : Nat) : Nat := (o.addrAt g o.thread).toNat
def Op.threads (o : Op) : Nat := let i : Insn := o.words; i.threads i.row
def Op.wpt (o : Op) : Nat := Insn.wpt o.words

/-- The operation after the words of a thread that moved: the next thread, or the end. -/
def Op.moved (o : Op) (n : Nat) : Op :=
  if o.wpt ≤ o.sub + n then
    { o with sub := 0, thread := o.thread + 1, ran := o.threads ≤ o.thread + 1 }
  else { o with sub := o.sub + n }

end Sys2Proof.Machine
end

