-- ==== Sys2Proof/Machine/Streams.lean ====
section
/-! DEFINITION. The issue of the control and access instructions (R188, R189, R208, R212–R218). Each row names a stream; the
instruction is fetched at the stream's position, and a row whose opcode is not the one there changes nothing. -/

namespace Sys2Proof.Machine

def never (_ : Site) (_ : State) : Bool := false
def noChecks (_ : Site) (_ : State) : List Nat := []

/-! ### Control (R212) -/

/-- NOP, and the words no other row takes: an undefined opcode and an opcode of the other stream (R196, R221). -/
def nopRow (i : Insn) (st : StreamId) : Bool :=
  i.op == 0 || (match opRow i.op with
    | none => true
    | some r => match st with | .a => !r.inA | .x => !r.inX)

def execNopInstruction (core : Fin 8) (pair : Fin 4) (st : StreamId) (s : State) : Host.Outcome State Fault Refusal :=
  .next (s.fresh.issue core.val pair.val st nopRow noChecks never (fun z s => s.pushDone z))

def flagRow (clear : Bool) (i : Insn) (_ : StreamId) : Bool := i.op == 0x01 && ((bits i.head 29 28 == 1) == clear)

/-- FLAG with operation 0 (R184, R185); an undefined operation is illegal here. -/
def execFlagSet (core : Fin 8) (pair : Fin 4) (st : StreamId) (s : State) : Host.Outcome State Fault Refusal :=
  .next (s.fresh.issue core.val pair.val st (flagRow false) noChecks never (fun z s => s.pushDone z))


/-- FLAG with operation 1 (R213). -/
def execFlagClear (core : Fin 8) (pair : Fin 4) (st : StreamId) (s : State) : Host.Outcome State Fault Refusal :=
  .next (s.fresh.issue core.val pair.val st (flagRow true) noChecks never (fun z s => s.pushDone z))

/-- Whether a position is a boundary of the program (R205). -/
def State.boundary (s : State) (z : Site) (p : Int) : Bool :=
  decide (0 ≤ p) && (nth [] (s.ctx z.k).bounds ((s.ctx z.k).streamIx z.q z.st)).contains p.toNat

/-- A stream continues at a position; the program's end behaves as END (R204). -/
def State.goTo (s : State) (z : Site) (p : Nat) : State :=
  let t := s.strm z.c z.q z.st
  s.setStrm z.c z.q z.st { t with pos := p, atEnd := p == z.len }

def guardTarget (z : Site) : Int := (z.t.pos + 1 + bits z.i.head 46 34 : Nat)

/-- GUARD (R189): it holds until every earlier instruction of its stream is complete. -/
def execGuardInstr (core : Fin 8) (pair : Fin 4) (st : StreamId) (s : State) : Host.Outcome State Fault Refusal :=
  .next (s.fresh.issue core.val pair.val st (isOp 0x02)
    (fun z s => failIf (!s.boundary z (guardTarget z)) 0x2070)
    (fun z _ => !z.t.ops.isEmpty)
    (fun z s =>
      let s := if s.kFlag z.k (bits z.i.head 33 28) then s else s.goTo z (guardTarget z).toNat
      s.pushDone z))

def jumpTarget (z : Site) : Int := (z.t.pos : Int) + signed 16 (bits z.i.head 47 32)

/-- The condition of a JUMP. -/
def jumpTaken (z : Site) : Bool :=
  match bits z.i.head 30 28 with
  | 0 => true
  | 1 => z.t.holds z.t.p0
  | 2 => !z.t.holds z.t.p0
  | 3 => z.t.holds z.t.p1
  | _ => !z.t.holds z.t.p1

/-- JUMP (R189). DEDUCED, log entry 22. -/
def execJump (core : Fin 8) (pair : Fin 4) (st : StreamId) (s : State) : Host.Outcome State Fault Refusal :=
  .next (s.fresh.issue core.val pair.val st (isOp 0x03)
    (fun z s => failIf (!s.boundary z (jumpTarget z)) 0x2070) never
    (fun z s => (if jumpTaken z then s.goTo z (jumpTarget z).toNat else s).pushDone z))

/-- A stream's registers change at issue (R212). -/
def State.mapStrm (s : State) (z : Site) (f : Strm → Strm) : State := s.setStrm z.c z.q z.st (f (s.strm z.c z.q z.st))

/-- CSET (R212). -/
def execCset (core : Fin 8) (pair : Fin 4) (st : StreamId) (s : State) : Host.Outcome State Fault Refusal :=
  .next (s.fresh.issue core.val pair.val st (isOp 0x04) noChecks never (fun z s =>
    (s.mapStrm z (fun t => t.setCounter (bits z.i.head 29 28) (BitVec.ofNat 32 (bits z.i.head 63 32)))).pushDone z))

/-- CADD (R212). -/
def execCadd (core : Fin 8) (pair : Fin 4) (st : StreamId) (s : State) : Host.Outcome State Fault Refusal :=
  .next (s.fresh.issue core.val pair.val st (isOp 0x05) noChecks never (fun z s =>
    (s.mapStrm z (fun t =>
      let n := bits z.i.head 29 28
      t.setCounter n (t.counter n + BitVec.ofNat 32 (bits z.i.head 63 32)))).pushDone z))

/-- CCOPY (R212). -/
def execCcopy (core : Fin 8) (pair : Fin 4) (st : StreamId) (s : State) : Host.Outcome State Fault Refusal :=
  .next (s.fresh.issue core.val pair.val st (isOp 0x06) noChecks never (fun z s =>
    (s.mapStrm z (fun t => t.setCounter (bits z.i.head 29 28) (t.counter (bits z.i.head 31 30)))).pushDone z))

def cmpSetting (i : Insn) : Comparator :=
  { rel := bits i.head 33 31, a := bits i.head 30 29, useB := bitAt i.head 34, b := bits i.head 36 35,
    imm := BitVec.ofNat 32 (bits (i.w 1) 31 0) }

/-- CMP (R188, R212). -/
def execCmp (core : Fin 8) (pair : Fin 4) (st : StreamId) (s : State) : Host.Outcome State Fault Refusal :=
  .next (s.fresh.issue core.val pair.val st (isOp 0x07) noChecks never (fun z s =>
    (s.mapStrm z (fun t => if bitAt z.i.head 28 then { t with p1 := cmpSetting z.i } else { t with p0 := cmpSetting z.i })).pushDone z))

/-- END (R189). -/
def execEndInstr (core : Fin 8) (pair : Fin 4) (st : StreamId) (s : State) : Host.Outcome State Fault Refusal :=
  .next (s.fresh.issue core.val pair.val st (isOp 0x08) noChecks never (fun z s =>
    (s.mapStrm z (fun t => { t with atEnd := true })).pushDone z))

/-! ### Access (R215–R218) -/

def busyOn (u : UnitId) (z : Site) (_ : State) : Bool := z.t.unitBusy u

/-- The range of a nest whose threads move W words at generator `g` (R192, R211). -/
def nestRange (g : Nat) (z : Site) : Bool := !z.localOk g (z.i.wpt - 1) || tooMany z

/-- Issue on the A stream of a pair. -/
def State.issueA (s : State) (c q op : Nat) (u : UnitId) (checks : Site → State → List Nat) (body : Site → State → State) : State :=
  s.issue c q .a (isOp op) checks (busyOn u) body

def pushPlain (z : Site) (s : State) : State := s.pushOp z id

/-- LDQ (R215). -/
def execLdq (core : Fin 8) (pair : Fin 4) (s : State) : Host.Outcome State Fault Refusal :=
  .next (s.fresh.issueA core.val pair.val 0x10 .loader (fun z _ => failIf (nestRange 0 z) 0x2071) pushPlain)

/-- STQ (R215). -/
def execStq (core : Fin 8) (pair : Fin 4) (s : State) : Host.Outcome State Fault Refusal :=
  .next (s.fresh.issueA core.val pair.val 0x13 .storer (fun z _ => failIf (nestRange 0 z) 0x2071) pushPlain)

/-! A tap record (R156). -/

def tapF (r : SWord) (off len : Nat) : Nat := fieldAt (bytesOfWord r) off len
def tapWi (r : SWord) : Nat := tapF r 0 2
def tapHi (r : SWord) : Nat := tapF r 2 2
def tapPitch (r : SWord) : Nat := tapF r 4 4
def tapBase (r : SWord) : Nat := tapF r 8 4
def tapRr (r : SWord) : Nat := tapF r 12 2
def tapB (r : SWord) : Nat := tapF r 14 1
def tapEs (r : SWord) : Nat := tapF r 15 1
def tapKw (r : SWord) : Nat := tapF r 16 1
def tapKh (r : SWord) : Nat := tapF r 17 1
def tapSx (r : SWord) : Nat := tapF r 18 1
def tapSy (r : SWord) : Nat := tapF r 19 1
def tapDx (r : SWord) : Nat := tapF r 20 1
def tapDy (r : SWord) : Nat := tapF r 21 1
def tapPl (r : SWord) : Nat := tapF r 22 1
def tapPt (r : SWord) : Nat := tapF r 23 1
def tapMode (r : SWord) : Nat := tapF r 24 1
def tapPad (r : SWord) : Nat := tapF r 26 2
def tapWo (r : SWord) : Nat := tapF r 28 2

def inSpan (v lo hi : Nat) : Bool := decide (lo ≤ v) && decide (v ≤ hi)

/-- The fields of an LDT. -/
def ldtW0 (i : Insn) : Nat := bits (i.w 1) 36 21
def ldtN (i : Insn) : Nat := bits (i.w 1) 43 37
def ldtOy0 (i : Insn) : Nat := bits (i.w 1) 59 44
def ldtSlots (i : Insn) : Nat := bits (i.w 2) 31 0

/-- The highest word an LDT can read (R159). -/
def tapHighest (r : SWord) (i : Insn) : Int :=
  let oyLast : Int := (ldtOy0 i + (ldtSlots i - 1) / tapWo r : Nat)
  let yHi : Int :=
    if tapRr r ≠ 0 then (min (tapRr r) (tapHi r) : Nat) - 1
    else min ((tapHi r : Int) - 1) (max (oyLast * tapSy r - tapPt r + ((tapKh r : Int) - 1) * tapDy r) (tapPt r))
  tapBase r + yHi * tapPitch r + (tapWi r : Int) * tapB r - 1

/-- The conditions of R159. -/
def tapBad (r : SWord) (i : Insn) : Bool :=
  !(inSpan (tapWi r) 1 8192 && inSpan (tapHi r) 1 65535 && inSpan (tapPitch r) 1 spmWords && decide (tapBase r < spmWords)
    && inSpan (tapB r) 1 255 && inSpan (tapEs r) 1 2 && inSpan (tapKw r) 1 15 && inSpan (tapKh r) 1 15
    && inSpan (tapSx r) 1 8 && inSpan (tapSy r) 1 8 && inSpan (tapDx r) 1 8 && inSpan (tapDy r) 1 8
    && decide (tapPl r ≤ 63) && decide (tapPt r ≤ 63) && decide (tapMode r ≤ 3) && inSpan (tapWo r) 1 8192
    && tapF r 25 1 == 0 && tapF r 30 2 == 0)
    || !(inSpan (ldtN i) 1 (if tapEs r = 2 then 72 else 36))
    || decide (tapKh r * tapKw r * tapB r < ldtW0 i + ldtN i)
    || decide ((spmWords : Int) - 1 < tapHighest r i)

/-- LDT: the tap record is read once, at the start of the load (R157, R159). -/
def execLdt (core : Fin 8) (pair : Fin 4) (s : State) : Host.Outcome State Fault Refusal :=
  .next (s.fresh.issueA core.val pair.val 0x11 .loader (fun z _ => failIf (!wordOk (bits (z.i.w 1) 20 0)) 0x2071) (fun z s =>
    match s.consumeRead z.k z.c (bits (z.i.w 1) 20 0) with
    | (none, s) => s
    | (some r, s) =>
      let s := s.pushOp z (fun o => { o with record := r })
      if tapBad r z.i then s.lateSkip z 0x206C else s))

/-- The dense words of an LDZ, all tiles together. -/
def ldzTiles (i : Insn) : Nat := bits (i.w 1) 45 30
def ldzPitch (i : Insn) : Nat := bits (i.w 1) 29 21
def ldzBase (i : Insn) : Nat := bits (i.w 1) 20 0
def ldzEw (i : Insn) (t : Nat) : Nat := if t + 1 = ldzTiles i then bits (i.w 1) 63 55 else bits (i.w 1) 54 46
def ldzDest (i : Insn) : Nat := bits (i.w 2) 20 0

/-- LDZ (R168, R215). -/
def execLdz (core : Fin 8) (pair : Fin 4) (s : State) : Host.Outcome State Fault Refusal :=
  .next (s.fresh.issueA core.val pair.val 0x12 .loader (fun z _ =>
    let n := ldzTiles z.i
    failIf (decide (spmWords < ldzBase z.i + ldzPitch z.i * n)
      || (ldzTarget z.i && decide (spmWords < ldzDest z.i + (n - 1) * bits (z.i.w 1) 54 46 + bits (z.i.w 1) 63 55))) 0x2071) pushPlain)

/-- STZ (R165, R215). -/
def execStz (core : Fin 8) (pair : Fin 4) (s : State) : Host.Outcome State Fault Refusal :=
  .next (s.fresh.issueA core.val pair.val 0x14 .storer (fun z _ =>
    failIf (decide (spmWords < ldzBase z.i + ldzPitch z.i * ldzTiles z.i)) 0x2071) pushPlain)

/-- Whether a DRAM nest stays in the context's staging range (R192, R259). -/
def State.stagingOk (s : State) (z : Site) : Bool :=
  let lo : Int := (s.cget z.k 0x0E / 32 : Nat)
  let hi : Int := (((s.ctx z.k).allotAt + (s.ctx z.k).allotLen) / 32 : Nat)
  let b : Int := (bits (z.i.w 1) 42 0 : Nat)
  decide (lo ≤ b + z.low 0) && decide (b + z.high 0 + z.i.wpt ≤ hi)

def stagingChecks (z : Site) (s : State) : List Nat := failIf (nestRange 1 z) 0x2071 ++ failIf (!s.stagingOk z) 0x2072

/-- In strict mode a transfer of an LC context's frame program is held until END (R280). -/
def pushStaging (z : Site) (s : State) : State :=
  if s.strict && s.isLC z.k then (s.pushOp z (fun o => { o with held := true })).dbump 0x2900 0x16 else s.pushOp z id

/-- DLD (R215, R259). -/
def execDld (core : Fin 8) (pair : Fin 4) (s : State) : Host.Outcome State Fault Refusal :=
  .next (s.fresh.issueA core.val pair.val 0x18 .stager stagingChecks pushStaging)

/-- DST (R215, R259). -/
def execDst (core : Fin 8) (pair : Fin 4) (s : State) : Host.Outcome State Fault Refusal :=
  .next (s.fresh.issueA core.val pair.val 0x19 .stager stagingChecks pushStaging)

/-- A remote instruction takes its target at issue; its target record must not be poisoned (R216, R263). -/
def pushRemote (z : Site) (s : State) : State :=
  if s.targetPoison z then s.consume z.k z.c (spmAddr z.c (bits z.i.tgt 38 18))
  else
    let tg := (s.targetOf z).getD (Target.mk 0 0 0)
    let s := if tgtSource z.i.tgt then (s.localRead z.k z.c (bits z.i.tgt 38 18)).2 else s
    let t := s.strm z.c z.q z.st
    let tag := t.nextSeq % 65536
    let s := { s with sputBad := s.sputBad.filter (fun b => b != (z.c, z.k, z.q, tag)) }
    s.pushOp z (fun o => { o with target := tg })

def remoteCheck (z : Site) (s : State) : List Nat := s.remoteChecks z

/-- PUT (R216). -/
def execPut (core : Fin 8) (pair : Fin 4) (s : State) : Host.Outcome State Fault Refusal :=
  .next (s.fresh.issueA core.val pair.val 0x1C .remote remoteCheck pushRemote)

/-- SPUT (R216). -/
def execSput (core : Fin 8) (pair : Fin 4) (s : State) : Host.Outcome State Fault Refusal :=
  .next (s.fresh.issueA core.val pair.val 0x1D .remote remoteCheck pushRemote)

/-- GET (R216). -/
def execGetInstr (core : Fin 8) (pair : Fin 4) (s : State) : Host.Outcome State Fault Refusal :=
  .next (s.fresh.issueA core.val pair.val 0x1E .remote remoteCheck pushRemote)

/-- AADD (R216, R247). -/
def execAadd (core : Fin 8) (pair : Fin 4) (s : State) : Host.Outcome State Fault Refusal :=
  .next (s.fresh.issueA core.val pair.val 0x1F .remote remoteCheck pushRemote)

/-- RFLAG (R216). -/
def execRflag (core : Fin 8) (pair : Fin 4) (s : State) : Host.Outcome State Fault Refusal :=
  .next (s.fresh.issueA core.val pair.val 0x20 .remote remoteCheck pushRemote)

/-- Whether every remote operation issued before an operation is complete (R252). -/
def Strm.remoteDone (t : Strm) (seq : Nat) : Bool :=
  t.ops.all (fun o => !(decide (o.seq < seq) && unitOf (Insn.op o.words) == some .remote) || o.complete)

/-- FENCE (R252): with nothing outstanding it is complete at issue. -/
def execFence (core : Fin 8) (pair : Fin 4) (s : State) : Host.Outcome State Fault Refusal :=
  .next (s.fresh.issueA core.val pair.val 0x21 .remote noChecks (fun z s =>
    if (s.strm z.c z.q z.st).remoteDone (s.strm z.c z.q z.st).nextSeq then s.pushDone z else s.pushOp z id))

/-- MFILL (R218). -/
def execMfill (core : Fin 8) (pair : Fin 4) (s : State) : Host.Outcome State Fault Refusal :=
  .next (s.fresh.issueA core.val pair.val 0x24 .engine (fun z _ => failIf (nestRange 0 z) 0x2071) pushPlain)

/-- MCOPY (R218). -/
def execMcopy (core : Fin 8) (pair : Fin 4) (s : State) : Host.Outcome State Fault Refusal :=
  .next (s.fresh.issueA core.val pair.val 0x25 .engine (fun z _ => failIf (nestRange 0 z || nestRange 1 z) 0x2071) pushPlain)

/-- Words of a block of MTRANS, and its pitches (R171, R218). -/
def mtBlock (i : Insn) : Nat := if bitAt i.head 32 then 16 else 32
def mtSrcPitch (i : Insn) : Nat := bits (i.w 1) 20 0
def mtDstPitch (i : Insn) : Nat := bits (i.w 1) 41 21

/-- MTRANS (R171, R218). -/
def execMtrans (core : Fin 8) (pair : Fin 4) (s : State) : Host.Outcome State Fault Refusal :=
  .next (s.fresh.issueA core.val pair.val 0x26 .engine (fun z _ =>
    failIf (!z.localOk 0 ((mtBlock z.i - 1) * mtSrcPitch z.i) || !z.localOk 1 ((mtBlock z.i - 1) * mtDstPitch z.i) || tooMany z) 0x2071)
    pushPlain)

/-- MDIGEST (R218, R236). -/
def execMdigest (core : Fin 8) (pair : Fin 4) (s : State) : Host.Outcome State Fault Refusal :=
  .next (s.fresh.issueA core.val pair.val 0x27 .engine (fun z _ =>
    failIf (nestRange 0 z || !wordOk (bits (z.i.w 1) 20 0)) 0x2071) pushPlain)

/-! A region record (R172). -/

def rgBase (r : SWord) : Nat := tapF r 0 4
def rgW (r : SWord) : Nat := tapF r 4 2
def rgH (r : SWord) : Nat := tapF r 6 2
def rgPitch (r : SWord) : Nat := tapF r 8 4
def rgB (r : SWord) : Nat := tapF r 12 1
def rgFmt (r : SWord) : Nat := tapF r 13 1
def rgOw (r : SWord) : Nat := tapF r 14 1
def rgOh (r : SWord) : Nat := tapF r 15 1
def rgSamples (r : SWord) : Nat := tapF r 16 1
def rgPad (r : SWord) : Nat := tapF r 18 2
def rgList (r : SWord) : Nat := tapF r 20 4
def rgBudget (r : SWord) : Nat := tapF r 24 2
def rgDest (r : SWord) : Nat := tapF r 28 4

/-- A field out of range, an FP8 format or a reserved bit (R172). -/
def regionBad (r : SWord) : Bool :=
  !(decide (rgBase r < spmWords) && inSpan (rgW r) 1 8192 && inSpan (rgH r) 1 8192 && decide (rgPitch r < 2 ^ 21)
    && inSpan (rgB r) 1 255 && [1, 2, 5].contains (rgFmt r) && inSpan (rgOw r) 1 64 && inSpan (rgOh r) 1 64
    && decide (rgSamples r ≤ 1) && tapF r 17 1 == 0 && decide (rgList r < spmWords) && inSpan (rgBudget r) 1 4096
    && tapF r 26 2 == 0 && decide (rgDest r < spmWords))

/-- REGION: its record and the box count are read once, at its start (R172, R173). `aux` holds the count. -/
def execRegion (core : Fin 8) (pair : Fin 4) (s : State) : Host.Outcome State Fault Refusal :=
  .next (s.fresh.issueA core.val pair.val 0x28 .region (fun z _ => failIf (!wordOk (bits (z.i.w 1) 20 0)) 0x2071) (fun z s =>
    match s.consumeRead z.k z.c (bits (z.i.w 1) 20 0) with
    | (none, s) => s
    | (some r, s) =>
      if regionBad r then (s.pushOp z id).lateSkip z 0x206D
      else
        match s.consumeRead z.k z.c (rgList r) with
        | (none, s) => s
        | (some l, s) => s.pushOp z (fun o => { o with record := r, aux := (w32 l 0).toNat })))

end Sys2Proof.Machine
end

