-- ==== Sys2Proof/Machine/Threads.lean ====
section
/-! DEFINITION. Element threads of the A stream's units, and the completion of an instruction (R157, R165–R175, R193, R215–R218,
R235, R236, R241). A thread moves the words it can and goes on where it stopped. -/

namespace Sys2Proof.Machine

/-- One operation on its stream pair, as a unit sees it, and how many words of its present thread may move, where an earlier
operation of the stream limits them (R194). -/
structure Work where
  k : Nat
  c : Nat
  q : Nat
  o : Op
  lim : Option Nat
  deriving DecidableEq, Repr

/-- The operation after its thread. -/
def State.putOp (s : State) (w : Work) (o : Op) : State :=
  let t := s.strm w.c w.q .a
  s.setStrm w.c w.q .a (t.mapOp w.o.seq (fun _ => o))

def State.mapPair (s : State) (w : Work) (f : Pair → Pair) : State := s.setPair w.c w.q (f (s.pair w.c w.q))

def wordRun (a n : Nat) : List Nat := (List.range n).map (fun i => a + i)

/-- The words of the thread that may move, of `n`. -/
def Work.cap (w : Work) (n : Nat) : Nat :=
  match w.lim with
  | none => n
  | some l => min l n

/-! ### Queue loader -/

/-- Push words that were read, as far as there is room; `n` is how many. -/
def State.pushOq (s : State) (w : Work) (ref : Nat) (l : List QWord) : State :=
  s.mapPair w (fun p => p.setOq ref (p.oq ref ++ l))

def State.oqRoom (s : State) (w : Work) (ref : Nat) : Nat := queueCap - ((s.pair w.c w.q).oq ref).length

/-- LDQ (R215). -/
def threadLdq (w : Work) (s : State) : State :=
  let ref := bits (Insn.head w.o.words) 31 28
  let n := w.cap (min (w.o.wpt - w.o.sub) (s.oqRoom w ref))
  if n = 0 then s
  else
    let ws := wordRun (w.o.addr 0 + w.o.sub) n
    let r := s.localReads w.k w.c ws
    (r.2.pushOq w ref ((r.1.zip ws).map (fun x => plainWord x.1.1 x.1.2 (spmAddr w.c x.2)))).putOp w (w.o.moved n)

/-- Mirror and repeat-edge (R158). -/
def edge (mode : Nat) (x : Int) (e : Nat) : Int :=
  let m := if mode = 2 then (if x < 0 then -x else if (e : Int) ≤ x then 2 * ((e : Int) - 1) - x else x) else x
  if m < 0 then 0 else if (e : Int) ≤ m then
    (if mode = 2 && x < 0 then 0 else (e : Int) - 1) else m

/-- The edge position a mirrored coordinate falls back to is that of its own side (R158). -/
def edgePos (mode : Nat) (x : Int) (e : Nat) : Int :=
  let r := edge mode x e
  if mode = 2 && (e : Int) ≤ x && 2 * ((e : Int) - 1) - x < 0 then (e : Int) - 1 else r

/-- The word of a pad value. -/
def padWord (r : SWord) : SWord :=
  let v := tapPad r
  if tapEs r = 1 then wordOfBytes (List.replicate 32 (BitVec.ofNat 8 v))
  else wordOfBytes ((List.replicate 16 (bytesOf 2 v)).flatten)

/-- What word `w` of the tap sequence of slot `t` is: a scratchpad word, or a padding word (R157, R158). -/
def tapWord (r : SWord) (i : Insn) (t w : Nat) : Nat ⊕ SWord :=
  let ox : Int := (t % tapWo r : Nat)
  let oy : Int := (ldtOy0 i + t / tapWo r : Nat)
  let ky := w / (tapKw r * tapB r)
  let kx := w / tapB r % tapKw r
  let blk := w % tapB r
  let x : Int := ox * tapSx r + (kx * tapDx r : Nat) - tapPl r
  let y : Int := oy * tapSy r + (ky * tapDy r : Nat) - tapPt r
  let word (x y : Int) : Nat :=
    let row := if tapRr r = 0 then y.toNat else y.toNat % tapRr r
    tapBase r + row * tapPitch r + x.toNat * tapB r + blk
  let inside := decide (0 ≤ x) && decide (x < tapWi r) && decide (0 ≤ y) && decide (y < tapHi r)
  if inside then .inl (word x y)
  else if tapMode r = 0 then .inr 0
  else if tapMode r = 1 then .inr (padWord r)
  else .inl (word (edgePos (tapMode r) x (tapWi r)) (edgePos (tapMode r) y (tapHi r)))

/-- The words of a tap run, read in order. DESIGN CHOICE, log entry 34. -/
def State.tapReads (s : State) (w : Work) : List (Nat ⊕ SWord) → List (SWord × Bool) × State
  | [] => ([], s)
  | .inr v :: r => let y := State.tapReads s w r; ((v, false) :: y.1, y.2)
  | .inl a :: r =>
    let x := s.localRead w.k w.c a
    let y := State.tapReads x.2 w r
    (x.1 :: y.1, y.2)

/-- LDT: one slot of the tap gather (R157). -/
def threadLdt (w : Work) (s : State) : State :=
  let i : Insn := w.o.words
  let ref := bits i.head 31 28
  let n := w.cap (min (ldtN i - w.o.sub) (s.oqRoom w ref))
  if n = 0 then s
  else
    let ws := (List.range n).map (fun j => tapWord w.o.record i w.o.thread (ldtW0 i + w.o.sub + j))
    let r := s.tapReads w ws
    let o := if w.o.sub + n < ldtN i then { w.o with sub := w.o.sub + n }
      else { w.o with sub := 0, thread := w.o.thread + 1, ran := decide (ldtSlots i ≤ w.o.thread + 1) }
    let at' (x : Nat ⊕ SWord) : Nat := match x with | .inl a => spmAddr w.c a | .inr _ => 0
    (r.2.pushOq w ref ((r.1.zip ws).map (fun x => plainWord x.1.1 x.1.2 (at' x.2)))).putOp w o

/-! #### The decompressor (R166–R170) -/

/-- Spread present bytes over a dense word. -/
def spread : Nat → Nat → Nat → List Byte → List Byte
  | 0, _, _, _ => []
  | n + 1, mask, k, l =>
    if mask.testBit k then (match l with | b :: r => b :: spread n mask (k + 1) r | [] => 0 :: spread n mask (k + 1) [])
    else 0 :: spread n mask (k + 1) l

/-- Dense words decoded from payload bytes: the words, their present elements, and whether a record ran out. -/
def zcDecode : Nat → List Byte → List SWord × Nat × Bool
  | 0, _ => ([], 0, false)
  | n + 1, l =>
    let mask := fieldAt l 0 4
    let p := popcount 32 mask
    if l.length < 4 + p then ([], 0, true)
    else
      let r := zcDecode n (l.drop (4 + p))
      (wordOfBytes (spread 32 mask 0 (slice l 4 p)) :: r.1, p + r.2.1, r.2.2)

/-- A tile decoded (R169, R170): its Ew dense words, under-run, over-claim. -/
def zcTile (header : SWord) (payload : List Byte) (ew dh : Nat) : List SWord × Bool :=
  let d := zcDecode dh payload
  let under := decide (dh < ew) || d.2.2 || d.2.1 != (w32 header 8).toNat
  ((d.1 ++ List.replicate (ew - d.1.length) 0).take ew, under)

/-- The next tile of an LDZ is read and decoded; `none` when poison was consumed. -/
def State.readTile (s : State) (w : Work) : Option (List QWord) × State :=
  let i : Insn := w.o.words
  let base := ldzBase i + ldzPitch i * w.o.thread
  let ew := ldzEw i w.o.thread
  match s.consumeRead w.k w.c base with
  | (none, s) => (none, s)
  | (some h, s) =>
    let marked := wbyte h 0 == 0xC5
    let dh := (w16 h 2).toNat
    let ph := (w16 h 4).toNat
    let claim := marked && (decide (ew < dh) || decide (ldzPitch i - 1 < ph))
    let dh' := if marked then min dh ew else 0
    let ph' := if marked then min ph (ldzPitch i - 1) else 0
    match consumeBytes ph' s w.k w.c (base + 1) with
    | (none, s) => (none, s)
    | (some l, s) =>
      let r := zcTile h l ew dh'
      let under := !marked || r.2
      let unit := ucPair w.c w.q w.k
      let s := if claim then (s.rep 0x2008 unit).cbump w.k 0x27 else s
      let s := if under then ((s.reportCtx w.k 0x2007 unit unit []).cbump w.k 0x26).ctxFault w.k 0x2007 true else s
      (some (r.1.map (fun v => { data := v, under := under, header := false, poison := false, addr := 0 })), s)

/-- LDZ: a tile, into the queue as room allows or whole into the dense range (R168). -/
def threadLdz (w : Work) (s : State) : State :=
  let i : Insn := w.o.words
  let ready : Option (List QWord) × State := if w.o.buf.isEmpty then s.readTile w else (some w.o.buf, s)
  match ready with
  | (none, s) => s
  | (some l, s) =>
    let next (o : Op) : Op := { o with buf := [], thread := o.thread + 1, ran := decide (ldzTiles i ≤ o.thread + 1) }
    if ldzTarget i then
      let a := ldzDest i + w.o.thread * bits (i.w 1) 54 46
      let s := foldS ((List.range l.length).zip l) (fun s x => s.localWrite w.k w.c (a + x.1) x.2.data false) s
      s.putOp w (next w.o)
    else
      let ref := bits i.head 31 28
      let n := min l.length (s.oqRoom w ref)
      let s := s.pushOq w ref (l.take n)
      if n = l.length then s.putOp w (next w.o) else s.putOp w { w.o with buf := l.drop n }

/-! ### Queue storer -/

/-- STQ (R215). -/
def threadStq (w : Work) (s : State) : State :=
  let ref := bits (Insn.head w.o.words) 31 28
  let l := (s.pair w.c w.q).rq ref
  let n := w.cap (min (w.o.wpt - w.o.sub) l.length)
  if n = 0 then s
  else
    let a := w.o.addr 0 + w.o.sub
    let s := s.mapPair w (fun p => p.setRq ref (l.drop n))
    let s := foldS ((List.range n).zip (l.take n)) (fun s x => s.localWrite w.k w.c (a + x.1) x.2.data x.2.poison) s
    s.putOp w (w.o.moved n)

/-- STZ: payload words, then the header word that the queue marks (R165). -/
def threadStz (w : Work) (s : State) : State :=
  let i : Insn := w.o.words
  let ref := bits i.head 31 28
  match (s.pair w.c w.q).rq ref with
  | [] => s
  | x :: r =>
    let base := ldzBase i + ldzPitch i * w.o.thread
    let s := s.mapPair w (fun p => p.setRq ref r)
    if x.header then
      (s.localWrite w.k w.c base x.data x.poison).putOp w
        { w.o with sub := 0, thread := w.o.thread + 1, ran := decide (ldzTiles i ≤ w.o.thread + 1) }
    else (s.localWrite w.k w.c (base + 1 + w.o.sub) x.data x.poison).putOp w { w.o with sub := w.o.sub + 1 }

/-! ### Packets of a thread -/

/-- A packet from a stream pair, taking the stream's next sequence number and waiting for its answer. -/
def State.emit (s : State) (w : Work) (p : Packet) (loc off left : Nat) : State :=
  let pr := s.pair w.c w.q
  let p := { p with srcUnit := BitVec.ofNat 5 w.c, srcCtx := BitVec.ofNat 6 w.k, ctxValid := true, srcPair := BitVec.ofNat 2 w.q,
                    seq := pr.rseq, tag := BitVec.ofNat 16 w.o.seq, status := 0 }
  let s := s.setPair w.c w.q { pr with rseq := pr.rseq + 1,
                                       outstanding := pr.outstanding ++ [Out.mk pr.rseq.toNat w.o.seq p.dst p.window loc off left false] }
  s.sendPacket p

def blankPacket (kind : Nat) (dst : Nat) (addr : BitVec 43) : Packet :=
  { kind := BitVec.ofNat 4 kind, srcUnit := 0, srcCtx := 0, ctxValid := false, srcPair := 0, dstUnit := BitVec.ofNat 5 dst,
    addr := addr, words := 0, flag := 0, seq := 0, tag := 0, status := 0, poison := false, data := [] }

def withData (p : Packet) (l : List SWord) (poison : Bool) : Packet :=
  { p with words := BitVec.ofNat 4 (l.length - 1), data := l, poison := poison }

/-- Packets the remote-operation port may still send (R233). -/
def State.portRoom (s : State) (w : Work) : Nat :=
  let t := s.strm w.c w.q .a
  let mine := (s.pair w.c w.q).outstanding.filter (fun x =>
    t.ops.any (fun o => o.seq == x.op && unitOf (Insn.op o.words) == some .remote))
  256 - mine.length

/-- PUT, SPUT and AADD: the words of a thread in packets, as far as the port has room (R241, R243). DEDUCED, log entry 33. -/
def threadSend (w : Work) (s : State) : State :=
  let i : Insn := w.o.words
  let left := w.o.wpt - w.o.sub
  let r := s.localReads w.k w.c (wordRun (w.o.addr 0 + w.o.sub) left)
  let room := r.2.portRoom w
  let pk := (packWords r.1).take room
  let off := w.o.addr 1 + w.o.sub
  let lastThread := decide (w.o.threads ≤ w.o.thread + 1)
  let s := foldS pk (fun s x =>
    let isLast := lastThread && x.1 + x.2.1.length == left
    let kind := if i.op = 0x1F then (if bitAt i.tgt 44 then 6 else 5) else if i.op = 0x1D then (if isLast then 2 else 1) else 0
    let p := blankPacket kind w.o.target.core (winAddr w.o.target.window w.o.target.gen (off + x.1))
    let p := { withData p x.2.1 x.2.2 with flag := if kind = 2 then BitVec.ofNat 5 (bits i.tgt 43 39) else 0 }
    s.emit w p 0 (off + x.1) 0) r.2
  s.putOp w (w.o.moved ((pk.map (fun x => x.2.1.length)).foldl (· + ·) 0))

/-- Runs of at most eight words. -/
def eights (n : Nat) : List (Nat × Nat) := (List.range (cdiv n 8)).map (fun j => (8 * j, min 8 (n - 8 * j)))

/-- GET: requests of up to eight words (R241, R243). -/
def threadGet (w : Work) (s : State) : State :=
  let left := w.o.wpt - w.o.sub
  let rq := (eights left).take (s.portRoom w)
  let loc := w.o.addr 0 + w.o.sub
  let off := w.o.addr 1 + w.o.sub
  let s := foldS rq (fun s x =>
    let p := blankPacket 3 w.o.target.core (winAddr w.o.target.window w.o.target.gen (off + x.1))
    s.emit w { p with words := BitVec.ofNat 4 (x.2 - 1) } (loc + x.1) (off + x.1) x.2) s
  s.putOp w (w.o.moved ((rq.map (·.2)).foldl (· + ·) 0))

/-- RFLAG: one packet (R216). -/
def threadRflag (w : Work) (s : State) : State :=
  if s.portRoom w = 0 then s
  else
    let p := blankPacket 7 w.o.target.core (winAddr w.o.target.window w.o.target.gen 0)
    (s.emit w { p with flag := BitVec.ofNat 5 (bits (Insn.tgt w.o.words) 43 39) } 0 0 0).putOp w { w.o with ran := true }

/-- FENCE (R252). -/
def threadFence (w : Work) (s : State) : State :=
  if (s.strm w.c w.q .a).remoteDone w.o.seq then s.putOp w { w.o with ran := true } else s

/-- The DRAM word of a staging thread, and the unit that holds it. -/
def Op.dramWord (o : Op) : Nat := ((bits (Insn.w o.words 1) 42 0 : Nat) + o.addrAt 0 o.thread).toNat
def dramUnit (w : Nat) : Nat := 12 + 32 * w / 0x400000000

/-- DLD: memory read requests (R243, R259). -/
def threadDld (w : Work) (s : State) : State :=
  let a := w.o.dramWord
  let s := foldS (eights w.o.wpt) (fun s x =>
    let p := blankPacket 11 (dramUnit a) (BitVec.ofNat 43 (a + x.1))
    s.emit w { p with words := BitVec.ofNat 4 (x.2 - 1) } (w.o.addr 1 + x.1) (a + x.1) x.2) s
  s.putOp w { w.o.moved w.o.wpt with held := false }

/-- DST: memory writes (R243, R259). -/
def threadDst (w : Work) (s : State) : State :=
  let a := w.o.dramWord
  let r := s.localReads w.k w.c (wordRun (w.o.addr 1) w.o.wpt)
  let s := foldS (packWords r.1) (fun s x =>
    s.emit w (withData (blankPacket 10 (dramUnit a) (BitVec.ofNat 43 (a + x.1))) x.2.1 x.2.2) 0 (a + x.1) 0) r.2
  s.putOp w { w.o.moved w.o.wpt with held := false }

/-! ### Memory-side engine -/

/-- MFILL: clean words (R218, R262). -/
def threadMfill (w : Work) (s : State) : State :=
  let v := Insn.w w.o.words 1
  let pat : SWord := BitVec.ofNat 256 (v * (1 + 2 ^ 64 + 2 ^ 128 + 2 ^ 192))
  let s := foldS (wordRun (w.o.addr 0) w.o.wpt) (fun s a => s.localWrite w.k w.c a pat false) s
  s.putOp w (w.o.moved w.o.wpt)

/-- MCOPY (R218). DEDUCED, log entry 27. -/
def threadMcopy (w : Work) (s : State) : State :=
  let r := s.localReads w.k w.c (wordRun (w.o.addr 0) w.o.wpt)
  let s := foldS ((wordRun (w.o.addr 1) w.o.wpt).zip r.1) (fun s x => s.localWrite w.k w.c x.1 x.2.1 x.2.2) r.2
  s.putOp w (w.o.moved w.o.wpt)

/-- A transposed block: element `j` of source word `i` goes to element `i` of word `j` (R171). -/
def transpose (es : Nat) (l : List SWord) : List SWord :=
  (List.range l.length).map (fun j => wordOfBytes ((l.map (fun v => slice (bytesOfWord v) (es * j) es)).flatten))

/-- MTRANS (R171). -/
def threadMtrans (w : Work) (s : State) : State :=
  let i : Insn := w.o.words
  let n := mtBlock i
  let r := s.localReads w.k w.c ((List.range n).map (fun j => w.o.addr 0 + j * mtSrcPitch i))
  let out := transpose (if n = 16 then 2 else 1) (r.1.map (·.1))
  let bad := r.1.any (·.2)
  let s := foldS ((List.range n).zip out) (fun s x => s.localWrite w.k w.c (w.o.addr 1 + x.1 * mtDstPitch i) x.2 bad) r.2
  s.putOp w { w.o with thread := w.o.thread + 1, ran := decide (w.o.threads ≤ w.o.thread + 1) }

/-- MDIGEST: the words of a thread join the message (R236). -/
def threadMdigest (w : Work) (s : State) : State :=
  match consumeBytes w.o.wpt s w.k w.c (w.o.addr 0) with
  | (none, s) => s
  | (some l, s) => s.putOp w { w.o.moved w.o.wpt with buf := w.o.buf ++ (toWords l).map (fun v => plainWord v false 0) }

/-! ### Region unit (R172–R175) -/

/-- Elements of a region's format. -/
def rgSize (r : SWord) : Nat := if rgFmt r = fmtI16 then 2 else 1
def rgElem (r : SWord) (l : List Byte) (e : Nat) : Int :=
  let v := fieldAt l (e * rgSize r) (rgSize r)
  if rgFmt r = fmtU8 then v else signed (8 * rgSize r) v

/-- The source words of a sample: its four taps, block `b`; padding outside. -/
def State.rgTap (s : State) (w : Work) (r : SWord) (x y : Int) (b : Nat) : Option (List Byte) × State :=
  if 0 ≤ x && x < rgW r && 0 ≤ y && y < rgH r then
    match s.consumeRead w.k w.c (rgBase r + y.toNat * rgPitch r + x.toNat * rgB r + b) with
    | (none, s) => (none, s)
    | (some v, s) => (some (bytesOfWord v), s)
  else
    let p := rgPad r
    (some (if rgSize r = 1 then List.replicate 32 (BitVec.ofNat 8 p) else (List.replicate 16 (bytesOf 2 p)).flatten), s)

/-- One sample of every element of a block: the weighted sums, or `none` when poison was consumed. -/
def State.rgSample (s : State) (w : Work) (r : SWord) (X Y : Int) (b : Nat) : Option (List Int) × State :=
  let xi := asr X 16
  let yi := asr Y 16
  let fx := (asr X 8) % 256
  let fy := (asr Y 8) % 256
  match s.rgTap w r xi yi b with
  | (none, s) => (none, s)
  | (some a00, s) =>
    match s.rgTap w r (xi + 1) yi b with
    | (none, s) => (none, s)
    | (some a10, s) =>
      match s.rgTap w r xi (yi + 1) b with
      | (none, s) => (none, s)
      | (some a01, s) =>
        match s.rgTap w r (xi + 1) (yi + 1) b with
        | (none, s) => (none, s)
        | (some a11, s) =>
          (some ((List.range (32 / rgSize r)).map (fun e =>
            (256 - fx) * (256 - fy) * rgElem r a00 e + fx * (256 - fy) * rgElem r a10 e
              + (256 - fx) * fy * rgElem r a01 e + fx * fy * rgElem r a11 e)), s)

/-- The samples of an output word, added. -/
def State.rgSum (s : State) (w : Work) (r : SWord) (b : Nat) : List (Int × Int) → List Int → Option (List Int) × State
  | [], acc => (some acc, s)
  | (X, Y) :: rest, acc =>
    match s.rgSample w r X Y b with
    | (none, s) => (none, s)
    | (some l, s) => State.rgSum s w r b rest (if acc.isEmpty then l else List.zipWith (· + ·) acc l)

/-- Sample coordinates of output pixel (u, v) of a box (R174). -/
def rgCoords (r : SWord) (x0 y0 x1 y1 : Int) (u v : Nat) : List (Int × Int) :=
  if rgSamples r = 0 then
    [(x0 + (x1 - x0) * (2 * u + 1 : Nat) / (2 * rgOw r : Nat), y0 + (y1 - y0) * (2 * v + 1 : Nat) / (2 * rgOh r : Nat))]
  else
    [(0, 0), (1, 0), (0, 1), (1, 1)].map (fun (p : Nat × Nat) =>
      (x0 + (x1 - x0) * (4 * u + 1 + 2 * p.1 : Nat) / (4 * rgOw r : Nat), y0 + (y1 - y0) * (4 * v + 1 + 2 * p.2 : Nat) / (4 * rgOh r : Nat)))

def rgRound (r : SWord) (a : Int) : Int := if rgSamples r = 0 then asr (a + 32768) 16 else asr (a + 131072) 18

/-- Every output word of a box, in order; stops where poison is consumed. -/
def rgPixels : List (Nat × Nat × Nat) → State → Work → SWord → (Int × Int × Int × Int) → Nat → Bool × State
  | [], s, _, _, _, _ => (true, s)
  | (u, v, b) :: rest, s, w, r, bx, dest =>
    match s.rgSum w r b (rgCoords r bx.1 bx.2.1 bx.2.2.1 bx.2.2.2 u v) [] with
    | (none, s) => (false, s)
    | (some l, s) =>
      let n := rgSize r
      let out := wordOfBytes ((l.map (fun a => bytesOf n ((rgRound r a) % (2 ^ (8 * n) : Int)).toNat)).flatten)
      rgPixels rest (s.localWrite w.k w.c (dest + (v * rgOw r + u) * rgB r + b) out false) w r bx dest

/-- The end of a REGION: the processed number and the excess, and the truncation (R173). -/
def State.regionEnd (s : State) (w : Work) : State :=
  let r := w.o.record
  let n := min w.o.aux (rgBudget r)
  let excess := w.o.aux - n
  let x := (s.localRead w.k w.c (rgList r)).1
  let l := bytesOfWord x.1
  let s := s.localWrite w.k w.c (rgList r) (wordOfBytes (l.take 4 ++ bytesOf 4 n ++ bytesOf 4 excess ++ l.drop 12)) x.2
  let s := if excess = 0 then s
    else
      let s := (s.rep 0x2009 (ucPair w.c w.q w.k)).cbump w.k 0x28
      let s := s.cset w.k 0x29 ((s.cget w.k 0x29 + excess) % 2 ^ 32)
      if s.isLC w.k then { s with frame := { s.frame with truncations := s.frame.truncations + excess } }.ctxNote w.k 0x2009 else s
  s.putOp w { w.o with ran := true }

/-- REGION: one box, or the end (R173–R175). DEDUCED, log entry 32. -/
def threadRegion (w : Work) (s : State) : State :=
  let r := w.o.record
  let n := min w.o.aux (rgBudget r)
  if n ≤ w.o.thread then s.regionEnd w
  else
    let b := w.o.thread
    match s.consumeRead w.k w.c (rgList r + 1 + b / 2) with
    | (none, s) => s
    | (some v, s) =>
      let f (i : Nat) : Int := (w32 v (16 * (b % 2) + 4 * i)).toInt
      let px := (List.range (rgOh r)).flatMap (fun y => (List.range (rgOw r)).flatMap (fun u => (List.range (rgB r)).map (fun k => (u, y, k))))
      match rgPixels px s w r (f 0, f 1, f 2, f 3) (rgDest r + b * rgOh r * rgOw r * rgB r) with
      | (false, s) => s
      | (true, s) =>
        let o := { w.o with thread := b + 1 }
        if n ≤ b + 1 then s.regionEnd { w with o := o } else s.putOp w o

/-! ### The row -/

/-- The thread of an operation, by its opcode. -/
def runThread (w : Work) (s : State) : State :=
  match Insn.op w.o.words with
  | 0x10 => threadLdq w s
  | 0x11 => threadLdt w s
  | 0x12 => threadLdz w s
  | 0x13 => threadStq w s
  | 0x14 => threadStz w s
  | 0x18 => threadDld w s
  | 0x19 => threadDst w s
  | 0x1C | 0x1D | 0x1F => threadSend w s
  | 0x1E => threadGet w s
  | 0x20 => threadRflag w s
  | 0x21 => threadFence w s
  | 0x24 => threadMfill w s
  | 0x25 => threadMcopy w s
  | 0x26 => threadMtrans w s
  | 0x27 => threadMdigest w s
  | 0x28 => threadRegion w s
  | _ => s

/-! #### Program order of one stream's accesses to a word (R194)

A load and a store of one stream meet in its queue loader and its queue storer. The units of the table's other rows are ordered by flags
alone. -/

/-- Threads of a load or a store. -/
def Op.threadCount (o : Op) : Nat :=
  let i : Insn := o.words
  match i.op with
  | 0x11 => ldtSlots i
  | 0x12 | 0x14 => ldzTiles i
  | _ => o.threads

/-- The words a thread of a load or a store accesses, in order, and whether it writes them. A padding word has the number beyond the
scratchpad's last. -/
def Op.threadWords (o : Op) (t : Nat) : List (Nat × Bool) :=
  let i : Insn := o.words
  match i.op with
  | 0x10 => (wordRun (o.addrAt 0 t).toNat o.wpt).map (·, false)
  | 0x13 => (wordRun (o.addrAt 0 t).toNat o.wpt).map (·, true)
  | 0x11 => (List.range (ldtN i)).map (fun j => (match tapWord o.record i t (ldtW0 i + j) with | .inl a => a | .inr _ => spmWords, false))
  | 0x12 => (if t = o.thread && !o.buf.isEmpty then [] else (wordRun (ldzBase i + ldzPitch i * t) (ldzPitch i)).map (·, false))
      ++ (if ldzTarget i then (wordRun (ldzDest i + t * bits (i.w 1) 54 46) (ldzEw i t)).map (·, true) else [])
  | 0x14 => (wordRun (ldzBase i + ldzPitch i * t) (ldzPitch i)).map (·, true)
  | _ => []

/-- Words of a thread that move one by one; those of a compressed tile move together. -/
def Op.wordwise (o : Op) : Bool := Insn.op o.words == 0x10 || Insn.op o.words == 0x11 || Insn.op o.words == 0x13

/-- Whether an operation has still to access a word, and one of the two accesses is a write. -/
def Op.ahead (o : Op) (x : Nat × Bool) : Bool :=
  (List.range (o.threadCount - o.thread)).any (fun d =>
    ((o.threadWords (o.thread + d)).drop (if d = 0 && o.wordwise then o.sub else 0)).any (fun y => y.1 == x.1 && (x.2 || y.2)))

/-- Loads and stores that the stream issued before an operation and that still run. -/
def Strm.earlier (t : Strm) (o : Op) : List Op :=
  t.ops.filter (fun e => decide (e.seq < o.seq) && !e.ran
    && (unitOf (Insn.op e.words) == some .loader || unitOf (Insn.op e.words) == some .storer))

/-- How many words of the present thread no earlier load or store of the stream has still to access; `none` where all may move. -/
def Strm.orderLimit (t : Strm) (o : Op) : Option Nat :=
  match t.earlier o with
  | [] => none
  | l =>
    let ws := (o.threadWords o.thread).drop (if o.wordwise then o.sub else 0)
    let n := (ws.takeWhile (fun x => !l.any (fun e => e.ahead x))).length
    if n = ws.length then none else if o.wordwise then some n else some 0

/-- The unit's oldest unfinished operation runs its next thread; a held transfer waits for END of every stream (R280), and a load or a
store for the stream's earlier accesses to its words (R194). -/
def State.elementThread (s : State) (c q : Nat) (u : UnitId) : State :=
  match s.runner c q with
  | none => s
  | some k =>
    match (s.strm c q .a).ops.find? (fun o => unitOf (Insn.op o.words) == some u && !o.ran) with
    | none => s
    | some o =>
      let lim := if u = .loader || u = .storer then (s.strm c q .a).orderLimit o else none
      if (o.held && !s.allEnd k) || lim = some 0 then s else (runThread { k := k, c := c, q := q, o := o, lim := lim } s).finishCheck k

def execElementThread (core : Fin 8) (pair : Fin 4) (unit : UnitId) (s : State) : Host.Outcome State Fault Refusal :=
  .next (s.fresh.elementThread core.val pair.val unit)

/-! ### Completion (R180, R185, R217) -/

/-- What becomes visible as an operation completes: a digest is written. -/
def State.completeEffects (s : State) (k c : Nat) (o : Op) : State :=
  if Insn.op o.words = 0x27 && !o.skipped then
    let d := sha256 ((o.buf.map (fun x => bytesOfWord x.data)).flatten)
    s.localWrite k c (bits (Insn.w o.words 1) 20 0) (wordOfBytes d) false
  else s

/-- An array instruction whose outputs or close are still due (R139, R180). -/
def State.xBusy (s : State) (c q seq : Nat) : Bool :=
  [0, 1].any (fun a => [0, 1, 2, 3].any (fun g => (s.group c a g).jobs.any (fun j => j.pair == q && j.seq == seq)))
    || (List.range 16).any (fun i => match (s.slot c q i).closing with | some x => x.seq == seq | none => false)

/-- The stream's oldest operation whose threads have run and that waits for no answer completes: its done flag is set at
once, its set field and those behind it in program order. -/
def State.instructionComplete (s : State) (c q : Nat) (st : StreamId) : State :=
  match s.runner c q with
  | none => s
  | some k =>
    let p := s.pair c q
    let waits (o : Op) : Bool := match st with | .a => p.outstanding.any (fun x => x.op == o.seq) | .x => s.xBusy c q o.seq
    match (p.strm st).ops.find? (fun o => o.ran && !o.complete && !waits o) with
    | none => s.retire k q st
    | some o =>
      let s := s.completeEffects k c o
      let t := s.strm c q st
      let s := s.setStrm c q st (t.mapOp o.seq (fun o => { o with complete := true }))
      let s := match Insn.doneFlag o.words with | some f => if o.skipped then s else s.kSetFlag k f | none => s
      (s.retire k q st).finishCheck k

def execInstructionComplete (core : Fin 8) (pair : Fin 4) (st : StreamId) (s : State) : Host.Outcome State Fault Refusal :=
  .next (s.fresh.instructionComplete core.val pair.val st)

end Sys2Proof.Machine
end

