-- ==== Sys2Proof/Machine/Array.lean ====
section
/-! DEFINITION. The matrix arrays: weight sets, their loading, splits, the cell modes and the injection of vector slots
(R100–R122, R219). A weight set's rows, a slot's activations and the sums of its columns are held whole; the beats between
them are left out. -/

namespace Sys2Proof.Machine

/-! ### Formats and modes (R108–R110) -/

def modeMac : Nat := 0
def modeSad : Nat := 1
def modeSsd : Nat := 2
def modeHam : Nat := 3
def modeMin : Nat := 4
def modeMax : Nat := 5
def modeCmp : Nat := 6

/-- The rows of R110: mode, activation format, weight format. -/
def modeFormats (m a w : Nat) : Bool :=
  if m = modeMac then
    ([fmtU8, fmtI8, fmtI16].contains a && w == fmtI8) || ([fmtU4, fmtI4].contains a && w == fmtI4) || (fmtFp8 a && fmtFp8 w)
  else if m = modeSad then (a == fmtU8 && w == fmtU8) || (a == fmtI8 && w == fmtI8)
  else if m = modeSsd || m = modeCmp then (a == fmtU8 && w == fmtU8) || ((a == fmtI8 || a == fmtI16) && w == fmtI8)
  else if m = modeHam then a == fmtBin8 && w == fmtBin8
  else if m = modeMin || m = modeMax then (a == fmtI8 || a == fmtI16) && w == fmtI8
  else false

/-- The values of a byte in a format: two lanes for a nibble format, one otherwise (R102). -/
def lanesOf (fmt : Nat) (b : Byte) : List Int :=
  if fmt = fmtI4 then [signed 4 (bits b.toNat 3 0), signed 4 (bits b.toNat 7 4)]
  else if fmt = fmtU4 then [(bits b.toNat 3 0 : Nat), (bits b.toNat 7 4 : Nat)]
  else if fmt = fmtU8 || fmt = fmtBin8 then [(b.toNat : Int)]
  else [signed 8 b.toNat]

/-- Words of a slot for a set of `k` rows (R103). -/
def slotWords (fmt k : Nat) : Nat := if fmt = fmtI16 then cdiv k 16 else cdiv k 32

/-- The activations of a slot, row by row: INT16 rows take two bytes (R102). -/
def actRows (fmt k : Nat) (l : List Byte) : List (List Byte) :=
  (List.range k).map (fun i => if fmt = fmtI16 then slice l (2 * i) 2 else slice l i 1)

/-- A row's activations as integers, by lane. -/
def actLanes (fmt : Nat) (r : List Byte) : List Int :=
  if fmt = fmtI16 then [signed 16 (natOf r)] else lanesOf fmt (nth 0 r 0)

/-! ### Column sums (R108, R109, R111, R112) -/

/-- What a sum is while it runs down a column: exact integer, or binary32, with its overflow bit. -/
structure Running where
  v : Int
  f : F32
  ov : Bool
  deriving DecidableEq, Repr

def sumStart (mode : Nat) : Int := if mode = modeMin then 0x7FFFFFFF else if mode = modeMax then -0x80000000 else 0
def Running.start (mode : Nat) : Running := { v := sumStart mode, f := 0, ov := false }

def inInt32 (v : Int) : Bool := decide (-(2 ^ 31 : Int) ≤ v) && decide (v < 2 ^ 31)

/-- A binary32 value of an FP8 code. -/
def fp8Value (fmt : Nat) (b : Byte) : F32 := if fmt = fmtE4M3 then e4m3 b else e5m2 b

/-- One cell: activation row `a`, weight byte `w` (R108). -/
def cell (mode afmt wfmt : Nat) (a : List Byte) (w : Byte) (s : Running) : Running :=
  if mode = modeMac && fmtFp8 afmt then { s with f := fAdd s.f (fMul (fp8Value afmt (nth 0 a 0)) (fp8Value wfmt w)) }
  else if mode = modeMac then
    let v := s.v + ((actLanes afmt a).zip (lanesOf wfmt w)).foldl (fun x p => x + p.1 * p.2) 0
    { s with v := v, ov := s.ov || !inInt32 v }
  else
    let x := nth 0 (actLanes afmt a) 0
    let y := nth 0 (lanesOf wfmt w) 0
    if mode = modeSad then { s with v := s.v + (x - y).natAbs }
    else if mode = modeSsd then
      let v := s.v + (x - y) * (x - y)
      if 0xFFFFFFFF < v then { s with v := 0xFFFFFFFF, ov := true } else { s with v := v }
    else if mode = modeHam then { s with v := s.v + popcount 8 ((nth 0 a 0) ^^^ w).toNat }
    else if mode = modeCmp then (if y ≤ x then { s with v := s.v + 1 } else s)
    else
      let gone := y == -128 || (if afmt = fmtI16 then x == -32768 else x == -128)
      if gone then s
      else if mode = modeMin then { s with v := min s.v (x + y) }
      else { s with v := max s.v (x + y) }

/-- The sum of a column over its rows, as it leaves the array. -/
def columnSum (mode afmt wfmt : Nat) (acts : List (List Byte)) (ws : List Byte) : BitVec 32 × Bool :=
  let s := (acts.zip ws).foldl (fun s p => cell mode afmt wfmt p.1 p.2 s) (Running.start mode)
  if mode = modeMac && fmtFp8 afmt then (if fIsNaN s.f then fNaN else s.f, false)
  else (BitVec.ofInt 32 s.v, s.ov)

/-- Column `j` of a set. -/
def WSet.column (w : WSet) (j : Nat) : List Byte := w.rows.map (fun r => nth 0 r j)

/-! ### Checksums (R117, R118) -/

/-- The checksum weight of a row: its lane sums in 12 bits each for INT4, its sum in 16 bits otherwise. -/
def checksumWeight (fmt : Nat) (row : List Byte) : BitVec 24 :=
  let lane (i : Nat) : Int := row.foldl (fun a b => a + nth 0 (lanesOf fmt b) i) 0
  if fmt = fmtI4 then BitVec.ofNat 24 ((lane 0 % 4096).toNat + (lane 1 % 4096).toNat * 4096)
  else BitVec.ofNat 24 (lane 0 % 65536).toNat

/-- A checksum weight's lanes as integers. -/
def checksumLanes (fmt : Nat) (c : BitVec 24) : List Int :=
  if fmt = fmtI4 then [signed 12 (bits c.toNat 11 0), signed 12 (bits c.toNat 23 12)] else [signed 16 (bits c.toNat 15 0)]

/-- A sum of products modulo 2^32. -/
def dot32 (a b : List Int) : BitVec 32 := BitVec.ofInt 32 ((a.zip b).foldl (fun x p => x + p.1 * p.2) 0)

def WSet.csumLanes (w : WSet) : List Int := w.csum.flatMap (checksumLanes w.fmt)
def WSet.colLanes (w : WSet) (j : Nat) : List Int := (w.column j).flatMap (lanesOf w.fmt)
def rowLanes (afmt : Nat) (acts : List (List Byte)) : List Int := acts.flatMap (actLanes afmt)

/-- The sums of a checksum vector ā. -/
def checkVector (w : WSet) (width t : Nat) (abar : List Int) : SlotSums :=
  { t := t, isCheck := true, sums := (List.range width).map (fun j => (dot32 abar (w.colLanes j), false)),
    csum := dot32 abar w.csumLanes }

/-! ### Groups -/

/-- The fields of WLOAD, STREAM and NARROW (R219). -/
def wlSplit (i : Insn) : Nat := bits i.head 32 31
def wlFmt (i : Insn) : Nat := bits i.head 36 33
def wlK (i : Insn) : Nat := bits i.head 47 37
def smMode (i : Insn) : Nat := bits i.head 33 31
def smFmt (i : Insn) : Nat := bits i.head 37 34
def smSwap (i : Insn) : Bool := bitAt i.head 38
def smN (i : Insn) : Nat := bits i.head 46 39
def nrGroup (i : Insn) : Nat := bits i.head 35 34

/-- Whether the stream pair owns a group (R115). -/
def State.ownsGroup (s : State) (z : Site) (a g : Nat) : Bool :=
  decide (g < splitGroups (s.split z.c a)) && (s.ctx z.k).owned.contains (a, g, z.q - (s.ctx z.k).o)

/-- Whether the stream pair owns every group of the array (R116). -/
def State.ownsArray (s : State) (z : Site) (a : Nat) : Bool :=
  (List.range (splitGroups (s.split z.c a))).all (fun g => s.ownsGroup z a g)

/-- An issued STREAM with swap = 1 that has not carried its swap. -/
def Group.claim (g : Group) : Bool := g.jobs.any (fun j => j.swap && !j.swapped)

/-- Weight formats of the loads issued since the last swap, oldest first. -/
def Group.loads (g : Group) : List Nat :=
  (match g.shadow with | some x => [x.fmt] | none => []) ++ (match g.loading with | some x => [x.1.fmt] | none => [])
    ++ (match g.waiting with | some x => [x.fmt] | none => [])

/-- The format of the set that a STREAM issued now would stream through, if there is one (R104). -/
def Group.formatFor (g : Group) (swap : Bool) : Option Nat :=
  let l := if g.claim then g.loads.drop 1 else g.loads
  if swap then l.head?
  else if g.claim then g.loads.head? else g.active.map (·.fmt)

def State.mapGroup (s : State) (c a g : Nat) (f : Group → Group) : State := s.setGroup c a g (f (s.group c a g))

/-- An X-stream unit of a group is busy: an earlier instruction of the opcode has not finished there (R180). -/
def laneBusy (z : Site) (op a g : Nat) : Bool :=
  z.t.ops.any (fun o => Insn.op o.words == op && Insn.arr o.words == a && smGroup o.words == g && !o.ran)

/-! ### WLOAD (R103, R106, R116) -/

/-- Every condition is tested whether or not another holds; the lowest code is recorded (R222). With another split, the pair that owns the
whole array owns each new group; any other pair owns what it owns under the present one. DEDUCED, log entry 182. -/
def wloadChecks (z : Site) (s : State) : List Nat :=
  let a := z.i.arr
  let g := wlGroup z.i
  let change := wlSplit z.i ≠ s.split z.c a
  let x := s.group z.c a g
  failIf (!x.loads.isEmpty && !x.claim) 0x2060
    ++ failIf (wlK z.i == 0 || decide (1152 < wlK z.i)) 0x2061
    ++ failIf (if change && s.ownsArray z a then decide (splitGroups (wlSplit z.i) ≤ g) else !s.ownsGroup z a g) 0x2065
    ++ failIf (change && !s.ownsArray z a) 0x2066

/-- DEDUCED, log entry 38. -/
def execWload (core : Fin 8) (pair : Fin 4) (s : State) : Host.Outcome State Fault Refusal :=
  .next (s.fresh.issue core.val pair.val .x (isOp 0x40) wloadChecks
    (fun z s => laneBusy z 0x40 z.i.arr (wlGroup z.i) || (s.group z.c z.i.arr (wlGroup z.i)).waiting.isSome)
    (fun z s =>
      let seq := (s.strm z.c z.q .x).nextSeq
      let l := WLoad.mk z.q seq (wlK z.i) (wlFmt z.i) (wlSplit z.i) (bits z.i.head 49 48) (s.cget z.k 0x06 == 1)
      (s.pushOp z id).mapGroup z.c z.i.arr (wlGroup z.i) (fun g => { g with waiting := some l })))

/-! ### The load itself (R103, R117) -/

/-- An X operation of a stream pair changes. -/
def State.mapX (s : State) (c q seq : Nat) (f : Op → Op) : State :=
  s.setStrm c q .x ((s.strm c q .x).mapOp seq f)

/-- Rows taken from an operand queue: as many as it holds whole, at most `n`. -/
def takeRows : Nat → Nat → List QWord → List (List QWord) × List QWord
  | 0, _, l => ([], l)
  | n + 1, per, l =>
    if per ≤ l.length then
      let r := takeRows n per (l.drop per)
      (l.take per :: r.1, r.2)
    else ([], l)

/-- The load in progress takes the rows its queue holds; at the last row the set is in the shadow. -/
def State.loadRows (s : State) (k c a g : Nat) : State :=
  let x := s.group c a g
  match x.loading with
  | none => s
  | some (l, rows) =>
    let p := s.pair c l.pair
    let r := takeRows (l.k - rows.length) (splitWidth (s.split c a) / 32) (p.oq l.queue)
    let s := s.setPair c l.pair (p.setOq l.queue r.2)
    match (r.1.flatten).find? (·.poison) with
    | some w => s.consume k c w.addr
    | none =>
      let rows := rows ++ r.1.map (fun ws => ws.flatMap (fun w => bytesOfWord w.data))
      if rows.length < l.k then s.mapGroup c a g (fun x => { x with loading := some (l, rows) })
      else
        let cs := rows.map (fun row => if l.checked then checksumWeight l.fmt row else 0)
        let s := s.mapGroup c a g (fun x => { x with loading := none, shadow := some { rows := rows, fmt := l.fmt, csum := cs } })
        s.mapX c l.pair l.seq (fun o => { o with ran := true })

/-- A waiting load starts once the shadow is free, and a load in progress goes on. -/
def State.weightLoad (s : State) (c a g : Nat) : State :=
  let x := s.group c a g
  let s := match x.waiting, x.loading, x.shadow with
    | some l, none, none =>
      if l.split = s.split c a then s.mapGroup c a g (fun x => { x with waiting := none, loading := some (l, []) }) else s
    | _, _, _ => s
  match (s.group c a g).loading with
  | none => s
  | some (l, _) =>
    match s.runner c l.pair with
    | some k => (s.loadRows k c a g).finishCheck k
    | none => s

def execWeightLoadStart (core : Fin 8) (array : Fin 2) (group : Fin 4) (s : State) : Host.Outcome State Fault Refusal :=
  .next (s.fresh.weightLoad core.val array.val group.val)

/-! ### Split change (R116) -/

/-- The split change an array waits for: the earliest issued. -/
def State.splitWanted (s : State) (c a : Nat) : Option WLoad :=
  (([0, 1, 2, 3].filterMap (fun g => (s.group c a g).waiting)).filter (fun l => l.split != s.split c a)).foldl
    (fun m l => match m with | none => some l | some x => if l.seq < x.seq then some l else some x) none

/-- A STREAM whose set can only load after the change. -/
def Group.behind (x : Group) (l : WLoad) (j : Job) : Bool :=
  j.swap && !j.swapped && x.shadow.isNone && x.loading.isNone && !(match x.waiting with | some y => decide (y.seq < l.seq) | none => false)

/-- A group that a split change waits for: slots on their way, or a load issued before it (R103, R116). -/
def Group.holdsChange (x : Group) (l : WLoad) : Bool :=
  (x.jobs.takeWhile (fun j => !x.behind l j)).any (fun j => decide (j.inject < j.slots) || !j.flight.isEmpty)
    || x.loading.isSome || (match x.waiting with | some y => decide (y.seq < l.seq) | none => false)

/-- Once every group's last sum has entered the CEU: the sets are cleared and the stream pair owns the new groups. A STREAM that waits
for the new set waits behind the change, and a load already issued ends before it. DEDUCED, log entry 183. -/
def State.splitChange (s : State) (c a : Nat) : State :=
  match s.splitWanted c a with
  | none => s
  | some l =>
    if [0, 1, 2, 3].any (fun g => (s.group c a g).holdsChange l) then s
    else
      match s.runner c l.pair with
      | none => s
      | some k =>
        let s := foldS [0, 1, 2, 3] (fun s g => s.mapGroup c a g (fun x => { x with active := none, shadow := none, loading := none })) s
        let s := s.setSplit c a l.split
        let x := s.ctx k
        let own := x.owned.filter (fun o => o.1 != a) ++ (List.range (splitGroups l.split)).map (fun g => (a, g, l.pair - x.o))
        s.setCtx k { x with owned := own, splitNow := setAt (if x.splitNow.length = 2 then x.splitNow else [0, 0]) a l.split }

def execSplitChange (core : Fin 8) (array : Fin 2) (s : State) : Host.Outcome State Fault Refusal :=
  .next (s.fresh.splitChange core.val array.val)

/-! ### Injection (R101, R104, R105, R118, R122) -/

/-- A data slot with its words: the swap if it is the first, the sums of every column, the running block.
DEDUCED, log entry 45. -/
def State.injectSlot (s : State) (c a g : Nat) (j : Job) (w : WSet) (words : List QWord) : State :=
  let width := splitWidth (s.split c a)
  let acts := actRows j.fmt w.rows.length (words.flatMap (fun x => bytesOfWord x.data))
  let sums := (List.range width).map (fun col => columnSum j.mode j.fmt w.fmt acts (w.column col))
  let lanes := rowLanes j.fmt acts
  let cs : BitVec 32 := if j.checked then dot32 lanes w.csumLanes else 0
  let bs := if j.checked then (if j.blockLen = 0 then lanes else List.zipWith (· + ·) j.blockSum lanes) else []
  let j := { j with inject := j.inject + 1, popped := [], blockLen := j.blockLen + 1, blockSum := bs,
                    flight := j.flight ++ [SlotSums.mk j.inject false sums cs] }
  let full := j.checked && (j.blockLen = 64 || j.inject = j.slots)
  let j := if full then { j with flight := j.flight ++ [checkVector w width (j.inject - 1) j.blockSum], blockLen := 0, blockSum := [] }
    else if j.checked then j else { j with blockLen := 0 }
  let s := s.mapGroup c a g (fun x => { x with jobs := x.jobs.map (fun y => if y.seq = j.seq && y.pair = j.pair then j else y) })
  if j.slots ≤ j.inject then s.mapX c j.pair j.seq (fun o => { o with ran := true }) else s

/-- A popped word that carries the under-run mark takes the tensor's validity (R148, R170). -/
def State.markUnder (s : State) (c : Nat) (j : Job) (words : List QWord) : State :=
  if words.any (·.under) then
    let i := (nth 0 j.record 9).toNat
    let v := s.slot c j.pair i
    s.setSlot c j.pair i { v with status := v.status ||| 1 }
  else s

/-- The oldest STREAM that still injects takes the words its queue holds; with all of a slot's words it injects. -/
def State.vectorSlot (s : State) (c a g : Nat) : State :=
  let x := s.group c a g
  match x.jobs.find? (fun j => decide (j.inject < j.slots)) with
  | none => s
  | some j =>
    match s.runner c j.pair with
    | none => s
    | some k =>
      -- a group that a full result queue halts injects nothing
      if x.jobs.any (fun y => !y.outq.isEmpty) then s
      else
        let carry := j.swap && !j.swapped
        match (if carry then (if x.loading.isSome then none else x.shadow) else x.active) with
        | none => s
        | some w =>
          let p := s.pair c j.pair
          let need := slotWords j.fmt w.rows.length - j.popped.length
          let got := (p.oq j.oq).take need
          let s := s.setPair c j.pair (p.setOq j.oq ((p.oq j.oq).drop need))
          match got.find? (·.poison) with
          | some w => s.consume k c w.addr
          | none =>
            let s := s.markUnder c j got
            let words := j.popped ++ got
            if got.length < need then
              s.mapGroup c a g (fun x => { x with jobs := x.jobs.map (fun y => if y.seq = j.seq && y.pair = j.pair then { y with popped := words } else y) })
            else
              let s := if carry then s.mapGroup c a g (fun x => { x with active := some w, shadow := none }) else s
              (s.injectSlot c a g { j with swapped := true } w words).finishCheck k

def execVectorSlot (core : Fin 8) (array : Fin 2) (group : Fin 4) (s : State) : Host.Outcome State Fault Refusal :=
  .next (s.fresh.vectorSlot core.val array.val group.val)

end Sys2Proof.Machine
end

