-- ==== Sys2Proof/Machine/Ceu.lean ====
section
/-! DEFINITION. The column end unit: the record and its checks, STREAM, the way of a column sum to an output code, scale slots
and their close, and NARROW (R125–R153, R165–R167, R498). -/

namespace Sys2Proof.Machine

/-! ### The CEU record (R126) -/

abbrev Rec := List Byte
def Rec.u8 (r : Rec) (o : Nat) : Nat := fieldAt r o 1
def Rec.u16 (r : Rec) (o : Nat) : Nat := fieldAt r o 2
def Rec.u32 (r : Rec) (o : Nat) : Nat := fieldAt r o 4
def Rec.f32 (r : Rec) (o : Nat) : F32 := BitVec.ofNat 32 (fieldAt r o 4)
def Rec.fmt (r : Rec) : Nat := r.u8 0
def Rec.zc (r : Rec) : Bool := r.u8 1 == 1
def Rec.pack (r : Rec) : Nat := r.u8 2
def Rec.act (r : Rec) : Nat := r.u8 3
def Rec.phase (r : Rec) : Nat := r.u8 4
def Rec.carried (r : Rec) : Bool := r.u8 5 == 1
def Rec.block (r : Rec) : Bool := r.u8 6 == 1
def Rec.stochastic (r : Rec) : Bool := r.u8 7 == 1
def Rec.bitsN (r : Rec) : Nat := r.u8 8
def Rec.slot (r : Rec) : Nat := r.u8 9
def Rec.opens (r : Rec) : Bool := bitAt (r.u8 10) 0
def Rec.closes (r : Rec) : Bool := bitAt (r.u8 10) 1
def Rec.again (r : Rec) : Bool := bitAt (r.u8 10) 2
def Rec.miss (r : Rec) : Nat := r.u8 11
def Rec.base (r : Rec) : Nat := r.u16 12
def Rec.tailL (r : Rec) : Nat := bits (r.u8 14) 1 0
def Rec.tailR (r : Rec) : Nat := bits (r.u8 14) 3 2
def Rec.rangeOn (r : Rec) : Bool := bitAt (r.u8 15) 0
def Rec.plausOn (r : Rec) : Bool := bitAt (r.u8 15) 1
def Rec.param (r : Rec) : F32 := r.f32 16
def Rec.x0 (r : Rec) : F32 := r.f32 20
def Rec.invH (r : Rec) : F32 := r.f32 24
def Rec.table (r : Rec) : Nat := r.u32 28
def Rec.immScale (r : Rec) : Bool := bitAt (r.u32 32) 31
def Rec.scaleWord (r : Rec) : Nat := bits (r.u32 32) 20 0
def Rec.imm (r : Rec) : F32 := r.f32 36
def Rec.params (r : Rec) : Nat := r.u32 40
def Rec.outWord (r : Rec) : Nat := r.u32 44
def Rec.staging (r : Rec) : Nat := r.u32 48
def Rec.tensor (r : Rec) : Nat := r.u32 52
def Rec.first (r : Rec) : Nat := r.u32 56
def Rec.channels (r : Rec) : Nat := r.u16 60
def Rec.narrowN (r : Rec) : Nat := r.u16 62
def Rec.rangeLo (r : Rec) : F32 := r.f32 64
def Rec.rangeHi (r : Rec) : F32 := r.f32 68
def Rec.plausLo (r : Rec) : F32 := r.f32 72
def Rec.plausHi (r : Rec) : F32 := r.f32 76
def Rec.initScale (r : Rec) : F32 := r.f32 80
def Rec.headroom (r : Rec) : F32 := r.f32 84
def Rec.clipT (r : Rec) : Nat := r.u16 88
def Rec.underT (r : Rec) : Nat := r.u8 90
def Rec.status2 (r : Rec) : Option Nat := if bitAt (r.u32 92) 31 then none else some (bits (r.u32 92) 20 0)

/-- Present scale, tensor granularity, a format that has a scale: staged and narrowed later (R141). -/
def Rec.staged (r : Rec) : Bool := !r.carried && !r.block && qOf r.fmt != 0

/-- INT32 output bypasses de-quantisation, bias and activation, and ignores the activation code (R133). -/
def Rec.bypassed (r : Rec) : Bool := r.fmt == fmtI32

/-- The first two conditions of R128; a field that R129 or R133 ignores is not in use. DEDUCED, log entry 42. -/
def Rec.fieldBad (r : Rec) : Bool :=
  !(ceuFmtOk r.fmt && decide (r.u8 1 ≤ 1) && [1, 2, 4, 8, 16, 32].contains r.pack && (r.bypassed || decide (r.act ≤ 4)) && decide (r.phase ≤ 3)
    && decide (r.u8 5 ≤ 1) && decide (r.u8 6 ≤ 1) && decide (r.u8 7 ≤ 1) && [4, 8, 16].contains r.bitsN && decide (r.slot ≤ 15)
    && (!r.carried || decide (r.miss ≤ 31)) && (r.phase == 0 || decide (r.base ≤ 2047)) && decide (r.tailL ≤ 2) && decide (r.tailR ≤ 2)
    && wordOk r.table && wordOk r.params && wordOk r.outWord && wordOk r.staging && (r.immScale || wordOk r.scaleWord)
    && (match r.status2 with | some a => wordOk a | none => true) && decide (1 ≤ r.channels))
    || !(fFinite r.initScale && fLt 0 r.initScale && fLe fOne r.headroom && fLe r.headroom 0x40800000)
    || (!r.bypassed && (((r.act == 2 || r.act == 3) && !fFinite r.param) || (r.act == 4 && !(fFinite r.x0 && fFinite r.invH))
      || (r.immScale && !fFinite r.imm)))
    || (r.rangeOn && !(fFinite r.rangeLo && fFinite r.rangeHi))
    || (r.plausOn && !(fFinite r.plausLo && fFinite r.plausHi))

/-- Output formats of a mode (R136). -/
def outFormatOk (mode fmt : Nat) : Bool :=
  if mode = modeMac then true
  else if mode = modeMin || mode = modeMax then [fmtI8, fmtI16, fmtI32].contains fmt
  else [fmtU8, fmtI8, fmtI16, fmtF32, fmtI32].contains fmt

def byteFmt (fmt : Nat) : Bool := [fmtU8, fmtI8, fmtE4M3, fmtE5M2].contains fmt

/-- The conditions of R128 on format, granularity, layout and pack. -/
def Rec.formatBad (r : Rec) (mode n : Nat) : Bool :=
  !outFormatOk mode r.fmt || (r.block && (r.carried || r.zc || !byteFmt r.fmt)) || (r.zc && !byteFmt r.fmt)
    || (decide (1 < r.pack) && decide (256 < r.pack * n * fmtBits r.fmt))

/-- The open, close and recomputation rules of R128. -/
def Rec.slotBad (r : Rec) (v : ScaleSlot) : Bool := r.opens == v.isOpen || (r.again && (!r.closes || r.carried))

/-- The tile chain rules of R129. -/
def Rec.chainBad (r : Rec) (c : Option Chain) (slots mode fmt wfmt : Nat) : Bool :=
  if r.phase = 0 then false
  else if r.phase = 1 then c.isSome || decide (2048 < r.base + slots)
  else match c with
    | none => true
    | some x => x.base != r.base || x.slots != slots || x.mode != mode || x.fmt != fmt || x.wfmt != wfmt || decide (4096 ≤ x.tiles)

/-! ### STREAM (R104, R106, R126–R129, R133, R148, R219) -/

def streamChecks (z : Site) (s : State) : List Nat :=
  let a := z.i.arr
  let g := smGroup z.i
  let f := (s.group z.c a g).formatFor (smSwap z.i)
  failIf (smSwap z.i && f.isNone) 0x2062 ++ failIf (!smSwap z.i && f.isNone) 0x2063
    ++ failIf (match f with | some w => !modeFormats (smMode z.i) (smFmt z.i) w | none => false) 0x2064
    ++ failIf (!s.ownsGroup z a g) 0x2065 ++ failIf (decide (splitWidth (s.split z.c a) < smN z.i)) 0x2067
    ++ failIf (!wordOk (bits (z.i.w 1) 20 0 + 2) || tooMany z) 0x2071

/-- Words read as one record. DEDUCED, log entry 23. -/
def State.recordAt (s : State) (z : Site) (a n : Nat) : Option (List Byte) × State := consumeBytes n s z.k z.c a

/-- binary32 values of a byte list. -/
def f32s (l : List Byte) : List F32 := (List.range (l.length / 4)).map (fun i => BitVec.ofNat 32 (fieldAt l (4 * i) 4))

/-- The lowest late code of a record, if any (R222). -/
def State.streamLate (s : State) (z : Site) (r : Rec) (wfmt : Nat) : Option Nat :=
  leastCode (failIf r.fieldBad 0x2068 ++ failIf (r.formatBad (smMode z.i) (smN z.i)) 0x2069
    ++ failIf (r.slotBad (s.slot z.c z.q (r.slot % 16))) 0x206A
    ++ failIf (r.chainBad (s.group z.c z.i.arr (smGroup z.i)).chain z.threads (smMode z.i) (smFmt z.i) wfmt) 0x206B
    ++ failIf (r.carried && !(s.ctx z.k).hasFlag (r.miss % 32)) 0x206E)

/-- A status word read at the start: validity lost and scale miss copied, as bits of the slot's status (R148). -/
def State.statusOf (s : State) (z : Site) : Option Nat → Option (BitVec 8) × F32 × State
  | none => (some 0, 0, s)
  | some a =>
    match s.consumeRead z.k z.c a with
    | (none, s) => (none, 0, s)
    | (some w, s) =>
      let f := wbyte w 6
      (some ((if f.getLsbD 0 then 0 else 1) ||| (f &&& 4)), w32 w 24, s)

/-- The slot a STREAM names takes it: open resets all but the carried scale (R139). -/
def ScaleSlot.join (v : ScaleSlot) (r : Rec) (st : BitVec 8) (z : Site) (seq : Nat) : ScaleSlot :=
  let v := if r.opens then { ScaleSlot.zero with isOpen := true, carried := v.carried } else v
  let v := { v with status := v.status ||| st }
  if r.closes then { v with closing := some (ScaleClose.mk seq z.i.arr (smGroup z.i) r) } else v

/-- The tile chain after a STREAM of a phase (R129). -/
def Rec.chainAfter (r : Rec) (c : Option Chain) (slots mode fmt wfmt : Nat) : Option Chain :=
  if r.phase = 1 then some (Chain.mk r.base slots mode fmt wfmt 1)
  else if r.phase = 2 then c.map (fun x => { x with tiles := x.tiles + 1 })
  else if r.phase = 3 then none
  else c

/-- A STREAM whose record passed starts. -/
def State.startStream (s : State) (z : Site) (r : Rec) (wfmt : Nat) (sa : F32) (st : BitVec 8) (cols table : List F32) : State :=
  let seq := (s.strm z.c z.q .x).nextSeq - 1
  let n := smN z.i
  let a := z.i.arr
  let g := smGroup z.i
  let old := s.slot z.c z.q r.slot
  let s := s.setSlot z.c z.q r.slot (old.join r st z seq)
  let j : Job :=
    { pair := z.q, seq := seq, mode := smMode z.i, fmt := smFmt z.i, swap := smSwap z.i, swapped := false,
      checked := s.cget z.k 0x06 == 1 && smMode z.i == modeMac && !fmtFp8 (smFmt z.i), n := n,
      oq := bits z.i.head 48 47, rq := bits z.i.head 52 51, slots := z.threads, record := r,
      mcol := (cols.take n).map (fun x => fMul sa x), bcol := (cols.drop n).take n, table := table,
      scale := if old.carried = 0 then r.initScale else old.carried, inject := 0, popped := [], blockLen := 0, blockSum := [],
      flight := [], col := 0, elems := [], rowSums := [], pack := [], tile := [], tileFirst := 0, drained := 0, outq := [] }
  s.mapGroup z.c a g (fun x => { x with jobs := x.jobs ++ [j], chain := r.chainAfter x.chain z.threads (smMode z.i) (smFmt z.i) wfmt })

/-- The record, its status words, its column parameters and its table are read once. -/
def State.readStream (s : State) (z : Site) (wfmt : Nat) : State :=
  match s.recordAt z (bits (z.i.w 1) 20 0) 3 with
  | (none, s) => s
  | (some r, s) =>
    match s.streamLate z r wfmt with
    | some code => s.lateSkip z code
    | none =>
      match s.statusOf z (if Rec.immScale r then none else some (Rec.scaleWord r)) with
      | (none, _, s) => s
      | (some st1, sw, s) =>
        let sa := if Rec.immScale r then Rec.imm r else sw
        match s.statusOf z (Rec.status2 r) with
        | (none, _, s) => s
        | (some st2, _, s) =>
          match s.recordAt z (Rec.params r) (cdiv (2 * smN z.i) 8) with
          | (none, s) => s
          | (some cols, s) =>
            match (if Rec.act r = 4 && !Rec.bypassed r then s.recordAt z (Rec.table r) 32 else (some [], s)) with
            | (none, s) => s
            | (some tb, s) => s.startStream z r wfmt sa (st1 ||| st2) (f32s cols) (f32s tb)

/-- Whether an earlier STREAM of the stream pair has still to write a word: a scale word, a staging copy, or block scales. -/
def State.xWrites (s : State) (c q a : Nat) : Bool :=
  (List.range 16).any (fun i => match (s.slot c q i).closing with | some x => Rec.outWord x.record == a | none => false)
    || [0, 1].any (fun b => [0, 1, 2, 3].any (fun g => (s.group c b g).jobs.any (fun j =>
      let r : Rec := j.record
      let n := if r.phase == 1 || r.phase == 2 then 0
        else if r.staged then cdiv (j.slots * j.n) 16 else if r.block then cdiv (j.slots * cdiv j.n 32) 8 else 0
      j.pair == q && decide (r.staging ≤ a) && decide (a < r.staging + n))))

/-- The words that a STREAM reads: its record, then what the record names. -/
def State.streamWords (s : State) (z : Site) : List Nat :=
  let a := bits (z.i.w 1) 20 0
  let r : Rec := s.spmBytes z.c a 3
  wordRun a 3 ++ (if r.immScale then [] else [r.scaleWord]) ++ r.status2.toList ++ wordRun r.params (cdiv (2 * smN z.i) 8)
    ++ (if r.act = 4 && !r.bypassed then wordRun r.table 32 else [])

/-- An instruction waits for its stream's earlier writes to the words it accesses (R194). -/
def State.xOrdered (s : State) (z : Site) (l : List Nat) : Bool := !l.any (fun a => s.xWrites z.c z.q a)

def execStream (core : Fin 8) (pair : Fin 4) (s : State) : Host.Outcome State Fault Refusal :=
  .next (s.fresh.issue core.val pair.val .x (isOp 0x41) streamChecks
    (fun z s => laneBusy z 0x41 z.i.arr (smGroup z.i) || !s.xOrdered z (s.streamWords z))
    (fun z s =>
      let w := ((s.group z.c z.i.arr (smGroup z.i)).formatFor (smSwap z.i)).getD 0
      (s.pushOp z id).readStream z w))

/-! ### Reports of a lane (R124, R153) -/

/-- The counter of a CEU code (R444). -/
def ceuCounter (code : Nat) : Option Nat :=
  if 0x2002 ≤ code && code ≤ 0x2006 then some (code - 0x2002 + 0x21) else none

/-- A CEU or array code of context `k` from a lane: reported for its group and, by the CEU, its scale slot; reports of one group in one
frame are echoes (R119, R124, R153). A scale miss degrades the frame, every other code invalidates it (R342). -/
def State.laneReport (s : State) (k c a g slot code : Nat) (detail : List Byte) : State :=
  let s := s.reportCtx k code (ucLane c a g slot) (ucLane c a g 0) detail
  let s := match ceuCounter code with | some n => s.cbump k n | none => s
  if code = 0x2006 then s.ctxDegrade k code else s.ctxFault k code true

/-- A fault of an element: the report, and the tensor's validity with flag [3] (R131, R148). -/
def State.elemFault (s : State) (k c a g q slot code : Nat) : State :=
  let s := s.laneReport k c a g slot code []
  let v := s.slot c q slot
  s.setSlot c q slot { v with status := v.status ||| 9 }

/-! ### An element (R130–R137, R146) -/

/-- Tile accumulation (R130): signed or unsigned 48-bit, or binary32 in the low 32 bits. -/
def combine (mode fmt : Nat) (x y : BitVec 48) : BitVec 48 :=
  if mode = modeMac && fmtFp8 fmt then (fAddN (x.setWidth 32) (y.setWidth 32)).setWidth 48
  else if mode = modeMin then (if x.toInt ≤ y.toInt then x else y)
  else if mode = modeMax then (if y.toInt ≤ x.toInt then x else y)
  else x + y

/-- A pass sum as an accumulator. -/
def accOf (mode fmt : Nat) (v : BitVec 32) : BitVec 48 :=
  if mode = modeMac && !fmtFp8 fmt || mode = modeMin || mode = modeMax then v.signExtend 48 else v.setWidth 48

/-- An accumulator's value as an integer. -/
def accInt (mode : Nat) (v : BitVec 48) : Int :=
  if mode = modeMac || mode = modeMin || mode = modeMax then v.toInt else (v.toNat : Int)

/-- The activation (R134, R135). -/
def activate (r : Rec) (t : List F32) (y : F32) : F32 :=
  if r.act = 0 then y
  else if r.act = 1 then (if fLt 0 y then y else 0)
  else if r.act = 2 then fMin (fMax y 0) r.param
  else if r.act = 3 then (if fLe 0 y then y else fMul r.param y)
  else
    let u := fMul (fSub y r.x0) r.invH
    let tail (k : Nat) (e : F32) : F32 := if k = 0 then e else if k = 1 then y else 0
    if fIsNaN u then fNaN
    else if fLt u 0 then tail r.tailL (nth 0 t 0)
    else if fLe 0x437F0000 u then tail r.tailR (nth 0 t 255)
    else
      let i := (fFloor u).toNat
      let f := fSub u (fOfInt i)
      fAdd (nth 0 t i) (fMul f (fSub (nth 0 t (i + 1)) (nth 0 t i)))

/-- The value of an accumulator before the range check, and the fault it raises. -/
def elemValue (j : Job) (col : Nat) (acc : BitVec 48) (ov : Bool) : Elem × Option Nat :=
  let fp := j.mode == modeMac && fmtFp8 j.fmt
  if ov then (if j.mode = modeSsd then .largest else .forced, some 0x2002)
  else if (j.mode = modeMin || j.mode = modeMax) && accInt j.mode acc = sumStart j.mode then (.absent, none)
  else if Rec.fmt j.record = fmtI32 then
    let x : F32 := acc.setWidth 32
    if fp && !fFinite x then (.forced, some 0x2003)
    else
      let v := if fp then fTrunc x else accInt j.mode acc
      let c := clampInt (-(2 ^ 31)) (2 ^ 31 - 1) v
      (.value (fOfInt c) c, if c = v then none else some 0x2004)
  else
    let x : F32 := if fp then acc.setWidth 32 else fOfInt (accInt j.mode acc)
    let y := if fFinite x then fAdd (fMul x (nth 0 j.mcol col)) (nth 0 j.bcol col) else x
    let y := if fFinite y then activate j.record j.table y else y
    if fFinite y then (.value y 0, none) else (.forced, some 0x2003)

/-- The range check holds a value at the nearer bound (R146). DEDUCED, log entry 43. -/
def rangeHold (r : Rec) : Elem → Elem × Option Nat
  | .value y v =>
    if r.rangeOn && fLt y r.rangeLo then (.value r.rangeLo (clampInt (-(2 ^ 31)) (2 ^ 31 - 1) (fTrunc r.rangeLo)), some 0x2004)
    else if r.rangeOn && fLt r.rangeHi y then (.value r.rangeHi (clampInt (-(2 ^ 31)) (2 ^ 31 - 1) (fTrunc r.rangeHi)), some 0x2004)
    else (.value y v, none)
  | e => (e, none)

/-- The code an absent element is written as (R132). -/
def absentCode (fmt mode : Nat) : Nat :=
  if fmt = fmtI8 then 0x80 else if fmt = fmtI16 then 0x8000 else if mode = modeMin then 0x7FFFFFFF else 0x80000000

/-- The largest code of a format (R131). -/
def largestCode (fmt : Nat) : Nat :=
  if fmt = fmtF32 then 0x7F7FFFFF else if fmt = fmtI32 then 0x7FFFFFFF
  else if fmtFp8 fmt then fp8Code fmt (qOf fmt) 0 else qOf fmt

/-- How an element's magnitude is rounded: toward zero, or against its random bits (R138, R285). -/
def Rec.rounding (r : Rec) (seed reuse e : Nat) : Rounding :=
  if r.stochastic then some (r.bitsN, rngBits seed r.tensor r.bitsN reuse e) else none

/-- An element index (R138). -/
def Rec.index (r : Rec) (t j : Nat) : Nat := (r.first + t) * r.channels + j

/-- A value narrowed with r = 1 / s: its code and whether it was clipped, or nothing where v is not finite (R137). -/
def narrowValue (r : Rec) (seed reuse t col : Nat) (recip y : F32) : Option (Nat × Bool) :=
  let v := fMul y recip
  if fFinite v then some (narrowCode r.fmt (r.rounding seed reuse (r.index t col)) v) else none

/-! ### Output words (R149, R150, R165–R167) -/

/-- Codes end to end in words; the last is padded with zeros. -/
def packCodes (w : Nat) (l : List Nat) : List SWord :=
  let n := ((l.zip (List.range l.length)).foldl (fun a p => a + p.1 * 2 ^ (w * p.2)) 0 : Nat)
  (List.range (cdiv (w * l.length) 256)).map (fun i => BitVec.ofNat 256 (n / 2 ^ (256 * i)))

/-- A dense word as a ZC record: mask and present bytes. -/
def zcRecord (w : SWord) : List Byte :=
  let l := bytesOfWord w
  bytesOf 4 (((l.zip (List.range 32)).foldl (fun a p => if p.1 = 0 then a else a + 2 ^ p.2) 0 : Nat)) ++ l.filter (· ≠ 0)

/-- A tile: its payload words, and its header. -/
def zcPack (r : Rec) (dense : List SWord) (first slots n : Nat) : List SWord × SWord :=
  let l := dense.flatMap zcRecord
  let pay := (List.range (cdiv l.length 32)).map (fun i => wordOfBytes (slice l (32 * i) 32))
  let present := (dense.map (fun w => ((bytesOfWord w).filter (· ≠ 0)).length)).foldl (· + ·) 0
  (pay, wordOfBytes (bytesOf 1 0xC5 ++ bytesOf 1 r.fmt ++ bytesOf 2 dense.length ++ bytesOf 2 pay.length ++ bytesOf 2 0
    ++ bytesOf 4 present ++ bytesOf 4 r.tensor ++ bytesOf 4 (r.first + first) ++ bytesOf 1 slots ++ bytesOf 1 r.pack
    ++ bytesOf 2 n ++ bytesOf 8 0))

/-- The words per tile region (R165). -/
def Rec.tilePitch (r : Rec) (n : Nat) : Nat := 1 + cdiv (9 * (64 / r.pack * cdiv (r.pack * n) 32)) 8

def outWord (v : SWord) (header : Bool) : QWord := { data := v, under := false, header := header, poison := false, addr := 0 }

/-! ### The end of a slot -/

/-- Statistics of a scale slot take an element (R140, R144). -/
def ScaleSlot.count (v : ScaleSlot) (y : F32) (clip : Bool) : ScaleSlot :=
  { v with absmax := fMax v.absmax (fAbs y), elements := v.elements + 1, clipped := v.clipped + (if clip then 1 else 0) }

/-- The reciprocal scale of each column of a slot: of the block, or of the carried scale. -/
def recips (j : Job) (es : List Elem) : List F32 × List F32 :=
  if Rec.block j.record then
    let q := fOfInt (qOf (Rec.fmt j.record))
    let scales := (List.range (cdiv j.n 32)).map (fun b =>
      let m := ((es.drop (32 * b)).take 32).foldl (fun m e => match e with | .value y _ => fMax m (fAbs y) | _ => m) 0
      if m = 0 then fOne else fDiv m q)
    (scales, (List.range j.n).map (fun i => fDiv fOne (nth 0 scales (i / 32))))
  else ([], List.replicate j.n (fDiv fOne j.scale))

/-- One element's code; a value that does not narrow is forced (R131, R137). -/
def State.elemCode (s : State) (k c a g : Nat) (j : Job) (t col : Nat) (recip : F32) (e : Elem) : Nat × State :=
  let r : Rec := j.record
  let i := r.slot
  let take (s : State) (y : F32) (clip : Bool) : State := s.setSlot c j.pair i ((s.slot c j.pair i).count y clip)
  match e with
  | .forced => (0, s)
  | .largest => (if r.staged then 0x7FC2 else largestCode r.fmt, s)
  | .absent => (if r.staged then 0x7FC1 else absentCode r.fmt j.mode, s)
  | .value y v =>
    if r.fmt = fmtI32 then ((v % 2 ^ 32 : Int).toNat, take s y false)
    else if r.fmt = fmtF32 then (y.toNat, take s y false)
    else if r.staged then (y.toNat / 65536, take s y false)
    else
      match narrowValue r (s.ctx k).seed (s.ctx k).reuse t col recip y with
      | none => (0, s.elemFault k c a g j.pair i 0x2003)
      | some (code, clip) => (code, take s y clip)

def State.elemCodes (s : State) (k c a g : Nat) (j : Job) (t : Nat) : List (Nat × F32 × Elem) → List Nat × State
  | [] => ([], s)
  | (col, recip, e) :: rest =>
    let x := s.elemCode k c a g j t col recip e
    let y := State.elemCodes x.2 k c a g j t rest
    (x.1 :: y.1, y.2)

/-- A FP32 block scale goes to its four bytes (R142). -/
def State.blockScale (s : State) (k c base ix : Nat) (v : F32) : State :=
  let a := base + ix / 8
  let x := s.localRead k c a
  let l := bytesOfWord x.1.1
  x.2.localWrite k c a (wordOfBytes (l.take (4 * (ix % 8)) ++ bytesOf 4 v.toNat ++ l.drop (4 * (ix % 8) + 4))) false

/-- Words of a job's codes that are full, as the layout has them: the job after them, words for the result queue, words of the
staging copy with the number of the first. -/
def Job.cut (j : Job) (codes : List Nat) : Job × List QWord × Nat × List SWord :=
  let r : Rec := j.record
  let t := j.drained
  let last := decide (j.slots ≤ t + 1)
  let j := { j with drained := t + 1 }
  if r.staged then
    let all := j.pack ++ codes
    let at' := t * j.n / 16
    let full := if last then all.length else all.length / 16 * 16
    ({ j with pack := all.drop full }, [], at', packCodes 16 (all.take full))
  else
    let all := j.pack ++ codes
    let whole := r.pack = 1 || t % r.pack = r.pack - 1 || last
    let j := { j with pack := if whole then [] else all }
    let ws := if whole then packCodes (fmtBits r.fmt) all else []
    if r.zc then
      let dense := j.tile ++ ws
      if (t + 1) % 64 = 0 || last then
        let p := zcPack r dense j.tileFirst (t + 1 - j.tileFirst) j.n
        ({ j with tile := [], tileFirst := t + 1 }, p.1.map (outWord · false) ++ [outWord p.2 true], 0, [])
      else ({ j with tile := dense }, [], 0, [])
    else (j, ws.map (outWord · false), 0, [])

/-- A data slot without output: the accumulator entries hold it (R129). -/
def Job.keeps (j : Job) : Bool := Rec.phase j.record == 1 || Rec.phase j.record == 2

/-- Words leave for the result queue as far as it has room. -/
def State.drain (s : State) (c : Nat) (j : Job) : Job × State :=
  let p := s.pair c j.pair
  let q := p.rq j.rq
  let n := queueCap - q.length
  ({ j with outq := j.outq.drop n }, s.setPair c j.pair (p.setRq j.rq (q ++ j.outq.take n)))

/-- The job at the head of a group changes; one with all its output delivered is gone. -/
def State.putJob (s : State) (c a g : Nat) (j : Job) : State :=
  s.mapGroup c a g (fun x => { x with jobs :=
    match x.jobs with
    | [] => []
    | _ :: r => if j.slots ≤ j.drained && j.outq.isEmpty && j.flight.isEmpty then r else j :: r })

/-- A data slot whose last column came: codes, statistics, words. DEDUCED, log entry 40. -/
def State.endSlot (s : State) (k c a g : Nat) (j : Job) : State :=
  let t := j.drained
  if j.keeps then s.putJob c a g { j with col := 0, elems := [], drained := t + 1 }
  else
    let rs := recips j j.elems
    let x := s.elemCodes k c a g j t ((List.range j.n).map (fun i => (i, nth 0 rs.2 i, nth .forced j.elems i)))
    let s := foldS ((List.range rs.1.length).zip rs.1) (fun s p =>
      s.blockScale k c (Rec.staging j.record) (t * cdiv j.n 32 + p.1) p.2) x.2
    let cut := { j with col := 0, elems := [] }.cut x.1
    let s := foldS ((List.range cut.2.2.2.length).zip cut.2.2.2) (fun s p =>
      s.localWrite k c (Rec.staging j.record + cut.2.2.1 + p.1) p.2 false) s
    let d := s.drain c { cut.1 with outq := cut.1.outq ++ cut.2.1 }
    d.2.putJob c a g d.1

/-! ### COLUMN_SUM (R119, R125, R129) -/

/-- A failing test of R119: array codes name no scale slot (R124). -/
def State.abft (s : State) (k c a g : Nat) (test t col : Nat) : State :=
  s.laneReport k c a g 0 0x2001 (bytesOf 1 test ++ bytesOf 4 t ++ bytesOf 2 col)

def sum32 (l : List (BitVec 32)) : BitVec 32 := l.foldl (· + ·) 0

/-- The next column of a data slot: its accumulator, its element, and its report. -/
def State.dataColumn (s : State) (k c a g : Nat) (j : Job) (f : SlotSums) : Job × State :=
  let r : Rec := j.record
  let p := nth (0, false) f.sums j.col
  let col := g * splitWidth (s.split c a) + j.col
  let e := r.base + f.t
  let old := s.acc c a e col
  let pass : Acc := { val := accOf j.mode j.fmt p.1, ov := p.2 }
  let acc : Acc := if r.phase ≤ 1 then pass else { val := combine j.mode j.fmt old.val pass.val, ov := old.ov || pass.ov }
  if j.keeps then ({ j with col := j.col + 1 }, s.setAcc c a e col acc)
  else
    let s := if r.phase = 3 then s.setAcc c a e col .zero else s
    if j.n ≤ j.col then ({ j with col := j.col + 1 }, s)
    else
      let v := elemValue j j.col acc.val acc.ov
      let s := match v.2 with | some code => s.elemFault k c a g j.pair r.slot code | none => s
      let h := rangeHold r v.1
      let s := match h.2 with | some code => s.elemFault k c a g j.pair r.slot code | none => s
      ({ j with col := j.col + 1, elems := j.elems ++ [h.1] }, s)

/-- The next column sum of a group enters the CEU. -/
def State.columnWork (s : State) (k c a g : Nat) (j : Job) : State :=
    match j.flight with
    | [] => s.putJob c a g j
    | f :: rest =>
      let width := splitWidth (s.split c a)
      if f.isCheck then
        if j.col + 1 < width then s.putJob c a g { j with col := j.col + 1 }
        else
          let bad := (List.range width).find? (fun i => (nth (0, false) f.sums i).1 != nth 0 j.rowSums i)
          let s := match bad with | some i => s.abft k c a g 1 f.t i | none => s
          let s := if f.csum ≠ sum32 (f.sums.map (·.1)) then s.abft k c a g 2 f.t 0 else s
          s.putJob c a g { j with col := 0, rowSums := [], flight := rest }
      else
        let x := s.dataColumn k c a g j f
        if x.1.col < width then x.2.putJob c a g x.1
        else
          let s := if j.checked && f.csum ≠ sum32 (f.sums.map (·.1)) then x.2.abft k c a g 0 f.t 0 else x.2
          let rows := f.sums.map (·.1)
          let rs := if !j.checked then [] else if x.1.rowSums.isEmpty then rows else List.zipWith (· + ·) x.1.rowSums rows
          s.endSlot k c a g { x.1 with rowSums := rs, flight := rest }

/-- Output that waits for room goes first: a full result queue halts the group (R122). -/
def State.columnStep (s : State) (k c a g : Nat) (j : Job) : State :=
  if j.outq.isEmpty then s.columnWork k c a g j
  else
    let d := s.drain c j
    d.2.putJob c a g d.1

/-- A switch-out drains the group: every sum in flight goes through, and its output enters the result queue (R325). -/
def drainGroup : Nat → State → Nat → Nat → Nat → Nat → State
  | 0, s, _, _, _, _ => s
  | n + 1, s, k, c, a, g =>
    match (s.group c a g).jobs with
    | [] => s
    | j :: _ =>
      if !j.outq.isEmpty then
        let p := s.pair c j.pair
        let s := s.setPair c j.pair (p.setRq j.rq (p.rq j.rq ++ j.outq))
        drainGroup n (s.putJob c a g { j with outq := [] }) k c a g
      else if j.flight.isEmpty then s
      else drainGroup n (s.columnWork k c a g j) k c a g

def State.drainAll (s : State) (k c a g : Nat) : State :=
  drainGroup (((s.group c a g).jobs.map (fun j => 130 * (j.flight.length + 1))).foldl (· + ·) 1) s k c a g

def State.columnSum (s : State) (c a g : Nat) : State :=
  match (s.group c a g).jobs with
  | [] => s
  | j :: _ =>
    match s.runner c j.pair with
    | none => s
    | some k => (s.columnStep k c a g j).finishCheck k

def execColumnSum (core : Fin 8) (array : Fin 2) (group : Fin 4) (s : State) : Host.Outcome State Fault Refusal :=
  .next (s.fresh.columnSum core.val array.val group.val)

/-! ### TENSOR_CLOSE (R139–R148) -/

/-- Whether a carried-scale tensor is a scale miss (R144). -/
def scaleMiss (r : Rec) (v : ScaleSlot) (s : F32) : Bool :=
  v.absmax != 0 && ((decide (r.clipT < 65535) && decide (v.elements * r.clipT / 65536 < v.clipped))
    || (decide (0 < r.underT)
        && fLt v.absmax (fDiv (fMul (fMul s (fOfInt (qOf r.fmt))) (fOfInt r.underT)) 0x43800000)))

/-- The scale a tensor closes with (R141–R143, R147). -/
def closeScale (r : Rec) (v : ScaleSlot) : F32 :=
  if qOf r.fmt = 0 then fOne
  else if r.carried then (if v.carried = 0 then r.initScale else v.carried)
  else if v.absmax = 0 then fOne else fDiv v.absmax (fOfInt (qOf r.fmt))

/-- The scale word (R147). -/
def scaleWordOf (s : State) (c q i : Nat) (r : Rec) (v : ScaleSlot) (miss : Bool) (sc next : F32) : SWord :=
  let fl := (if v.status.getLsbD 0 then 0 else 1) + (if v.absmax = 0 then 2 else 0)
    + (if v.status.getLsbD 2 || miss then 4 else 0) + (if v.status.getLsbD 3 then 8 else 0)
    + (if v.status.getLsbD 4 then 16 else 0) + (if r.again then 32 else 0)
  wordOfBytes (bytesOf 4 s.frameNo ++ bytesOf 1 (4 * c + q) ++ bytesOf 1 i ++ bytesOf 1 fl ++ bytesOf 1 r.fmt ++ bytesOf 4 r.tensor
    ++ bytesOf 4 v.elements ++ bytesOf 4 v.clipped ++ bytesOf 4 v.absmax.toNat ++ bytesOf 4 sc.toNat ++ bytesOf 4 next.toNat)

/-- The close of a slot's tensor, once every instruction naming it up to the closing one has delivered its output.
DEDUCED, log entry 44. -/
def State.closeTensor (s : State) (k c q i : Nat) (x : ScaleClose) : State :=
  let r : Rec := x.record
  let v := s.slot c q i
  let hasQ := qOf r.fmt != 0
  let sc := closeScale r v
  let badP := r.plausOn && (fLt v.absmax r.plausLo || fLt r.plausHi v.absmax)
  let s := if badP then s.laneReport k c x.array x.group i 0x2005 [] else s
  let v := if badP then { v with status := v.status ||| 0x11 } else v
  let miss := r.carried && hasQ && scaleMiss r v sc
  let next := if r.carried && hasQ && v.absmax ≠ 0 then fDiv (fMul v.absmax r.headroom) (fOfInt (qOf r.fmt)) else v.carried
  let strict := s.strict
  let s := if miss && strict then s.laneReport k c x.array x.group i 0x2006 [] else s
  let s := s.localWrite k c r.outWord (scaleWordOf s c q i r v (miss && strict) sc next) false
  let s := s.setSlot c q i { v with isOpen := false, closed := true, closing := none, carried := next, closedScale := sc }
  if miss && !strict then (s.kSetFlag k r.miss).choice k 1 else s

/-- DEDUCED, log entry 48. -/
def State.tensorClose (s : State) (c q i : Nat) : State :=
  match s.runner c q, (s.slot c q i).closing with
  | some k, some x =>
    if [0, 1].any (fun a => [0, 1, 2, 3].any (fun g => (s.group c a g).jobs.any (fun j =>
        j.pair == q && decide (j.seq ≤ x.seq) && Rec.slot j.record == i))) then s
    else (s.closeTensor k c q i x).finishCheck k
  | _, _ => s

def execTensorClose (core : Fin 8) (pair : Fin 4) (slot : Fin 16) (s : State) : Host.Outcome State Fault Refusal :=
  .next (s.fresh.tensorClose core.val pair.val slot.val)

/-! ### NARROW (R141, R498) -/

def nrSlot (i : Insn) : Nat := bits i.head 33 30
def nrFromWord (i : Insn) : Bool := bitAt i.head 29
def nrElements (i : Insn) : Nat := bits (i.w 2) 31 0
def nrDest (i : Insn) : Nat := bits (i.w 1) 41 21
def nrWord (i : Insn) : Nat := bits (i.w 1) 62 42

/-- DEDUCED, log entry 41. -/
def narrowChecks (z : Site) (s : State) : List Nat :=
  failIf (!s.ownsGroup z z.i.arr (nrGroup z.i)) 0x2065
    ++ failIf (!nrFromWord z.i && !(s.slot z.c z.q (nrSlot z.i)).closed) 0x206A
    ++ failIf (!wordOk (bits (z.i.w 1) 20 0 + 2) || !wordOk (nrDest z.i) || (nrFromWord z.i && !wordOk (nrWord z.i))) 0x2071

/-- The record conditions a NARROW meets: its producer's fields, a format that narrows, and the narrow width. -/
def narrowLate (r : Rec) : Option Nat :=
  leastCode (failIf (r.fieldBad || r.narrowN == 0 || decide (128 < r.narrowN)) 0x2068
    ++ failIf (qOf r.fmt == 0 || r.formatBad modeMac r.narrowN) 0x2069)

/-- One staged halfword narrowed, and whether it was forced. -/
def stagedCode (r : Rec) (seed reuse : Nat) (recip : F32) (h pat : Nat) : Nat × Bool :=
  if pat = 0x7FC1 then (absentCode r.fmt modeMin, false)
  else if pat = 0x7FC2 then (largestCode r.fmt, false)
  else if pat = 0 then (0, false)
  else
    match narrowValue r seed reuse (h / r.narrowN) (h % r.narrowN) recip (BitVec.ofNat 32 (pat * 65536)) with
    | none => (0, true)
    | some (code, _) => (code, false)

/-- Codes slot by slot as dense words (R149), or as tiles at the tile pitch (R165): words with their offset from the destination. -/
def narrowWords (r : Rec) (codes : List Nat) : List (Nat × SWord) :=
  let n := r.narrowN
  let w := fmtBits r.fmt
  let per := r.pack * n
  let groups (l : List Nat) : List SWord :=
    (List.range (cdiv l.length per)).flatMap (fun i => packCodes w ((l.drop (per * i)).take per))
  if r.zc then
    let tile := 64 * n
    (List.range (cdiv codes.length tile)).flatMap (fun i =>
      let l := (codes.drop (tile * i)).take tile
      let p := zcPack r (groups l) (64 * i) (cdiv l.length n) n
      (r.tilePitch n * i, p.2) :: ((List.range p.1.length).zip p.1).map (fun x => (r.tilePitch n * i + 1 + x.1, x.2)))
  else
    let ws := groups codes
    (List.range ws.length).zip ws

/-- The narrowing of a staging copy, and the scale word after it. -/
def State.narrow (s : State) (z : Site) (r : Rec) (sc : F32) (stage : List Byte) : State :=
  let x := s.ctx z.k
  let n := nrElements z.i
  let recip := fDiv fOne sc
  let cs := (List.range n).map (fun h => stagedCode r x.seed x.reuse recip h (fieldAt stage (2 * h) 2))
  let forced := (cs.filter (·.2)).length
  let s := foldS (List.range forced) (fun s _ => s.laneReport z.k z.c z.i.arr (nrGroup z.i) r.slot 0x2003 []) s
  let s := foldS (narrowWords r (cs.map (·.1))) (fun s p => s.localWrite z.k z.c (nrDest z.i + p.1) p.2 false) s
  let w := s.localRead z.k z.c r.outWord
  let l := bytesOfWord w.1.1
  let f := nth 0 l 6
  let f' := if forced = 0 then f else (f &&& 0xFE) ||| 8
  let s := w.2.localWrite z.k z.c r.outWord (wordOfBytes (l.take 6 ++ [f'] ++ slice l 7 17 ++ bytesOf 4 sc.toNat ++ l.drop 28)) w.1.2
  s.mapX z.c z.q ((s.strm z.c z.q .x).nextSeq - 1) (fun o => { o with ran := true })

def State.readNarrow (s : State) (z : Site) : State :=
  match s.recordAt z (bits (z.i.w 1) 20 0) 3 with
  | (none, s) => s
  | (some r, s) =>
    match narrowLate r with
    | some code => s.lateSkip z code
    | none =>
      match (if nrFromWord z.i then s.consumeRead z.k z.c (nrWord z.i) else (some 0, s)) with
      | (none, s) => s
      | (some w, s) =>
        let sc := if nrFromWord z.i then w32 w 24 else (s.slot z.c z.q (nrSlot z.i)).closedScale
        match s.recordAt z (Rec.staging r) (cdiv (nrElements z.i) 16) with
        | (none, s) => s
        | (some l, s) => s.narrow z r sc l

/-- The words that a NARROW reads, and the scale word that it completes. -/
def State.narrowWordsRead (s : State) (z : Site) : List Nat :=
  let a := bits (z.i.w 1) 20 0
  let r : Rec := s.spmBytes z.c a 3
  wordRun a 3 ++ (if nrFromWord z.i then [nrWord z.i] else []) ++ wordRun r.staging (cdiv (nrElements z.i) 16) ++ [r.outWord]

def execNarrow (core : Fin 8) (pair : Fin 4) (s : State) : Host.Outcome State Fault Refusal :=
  .next (s.fresh.issue core.val pair.val .x (isOp 0x42) narrowChecks (fun z s => !s.xOrdered z (s.narrowWordsRead z))
    (fun z s => (s.pushOp z id).readNarrow z))

end Sys2Proof.Machine
end

