-- ==== Sys2Proof/Machine/Container.lean ====
section
/-! DEFINITION. The container of an image: its layout and the checks of R226 and R312, the timetable of R320 and R321, and the
saved context image of R335 and R336. -/

namespace Sys2Proof.Machine

def codeFormat : Nat := 0x2080
def codeDigest : Nat := 0x2081
def codeSignature : Nat := 0x2082
def codeGeometry : Nat := 0x2083
def codePlace : Nat := 0x20A0
def codeDecl : Nat := 0x20A1
def codeNoDram : Nat := 0x20A2
def codeWinDecl : Nat := 0x300C

/-- A container as bytes. -/
abbrev Cont := List Byte

/-! ### The header and the directory (R223, R224) -/

def Cont.cls (d : Cont) : Nat := fieldAt d 6 1
def Cont.signed (d : Cont) : Bool := bitAt (fieldAt d 7 1) 0
def Cont.sectionsN (d : Cont) : Nat := fieldAt d 12 2
def Cont.pairsN (d : Cont) : Nat := fieldAt d 14 2
def Cont.footprint (d : Cont) : Nat := fieldAt d 24 4
def Cont.version (d : Cont) : Nat := fieldAt d 28 4
def Cont.digest (d : Cont) : List Byte := slice d 32 32
/-- Where the trailer of a signed container begins. -/
def Cont.bodyEnd (d : Cont) : Nat := d.length - (if Cont.signed d then 1024 else 0)

/-- Directory entry `i`. -/
def Cont.entry (d : Cont) (i : Nat) : Section :=
  let a := 64 + 48 * i
  { kind := fieldAt d a 1, pair := fieldAt d (a + 1) 1, offset := fieldAt d (a + 4) 4, len := fieldAt d (a + 8) 4,
    load := fieldAt d (a + 12) 4 }

def Cont.secs (d : Cont) : List Section := (List.range (Cont.sectionsN d)).map (Cont.entry d)
def Cont.bytesOf (d : Cont) (x : Section) : List Byte := slice d x.offset x.len

/-- The section of a type and stream pair, if there is one. -/
def findSec (l : List Section) (kind pair : Nat) : Option Section := l.find? (fun x => x.kind == kind && x.pair == pair)
def countSec (l : List Section) (kind pair : Nat) : Nat := (l.filter (fun x => x.kind == kind && x.pair == pair)).length

/-- One entry's own conditions (R224, R226 step 1). -/
def Cont.entryOk (d : Cont) (i : Nat) : Bool :=
  let x := Cont.entry d i
  let place := decide (x.load + cdiv x.len 32 ≤ spmWords)
  decide (1 ≤ x.kind) && decide (x.kind ≤ 6) && fieldAt d (64 + 48 * i + 2) 2 == 0 && x.offset % 32 == 0
    && decide (64 + 48 * Cont.sectionsN d ≤ x.offset) && decide (x.offset + x.len ≤ d.length)
    && (if x.kind ≤ 2 then decide (x.pair < Cont.pairsN d) && x.len % 8 == 0 && place
        else if x.kind = 3 then x.pair == 0 && x.len % 32 == 0 && place
        else x.pair == 0 && x.load == 0 && (if x.kind = 4 then x.len % 16 == 0 else if x.kind = 5 then x.len == 8 else true))

/-- No two sections share a byte. -/
def disjointSecs : List Section → Bool
  | [] => true
  | x :: r => r.all (fun y => decide (x.offset + x.len ≤ y.offset) || decide (y.offset + y.len ≤ x.offset)) && disjointSecs r

/-- Where the last section ends. -/
def Cont.lastEnd (d : Cont) : Nat := ((Cont.secs d).map (fun x => x.offset + x.len)).foldl max 64

/-- Whether a trailer stands behind the sections (R225). -/
def Cont.trailer (d : Cont) : Bool := Cont.signed d && decide (max (64 + 48 * Cont.sectionsN d) (Cont.lastEnd d) + 1024 ≤ d.length)

/-- Step 1 of R226. -/
def Cont.formatOk (d : Cont) (cls : Nat) : Bool :=
  let n := Cont.sectionsN d
  let q := Cont.pairsN d
  decide (64 ≤ d.length) && slice d 0 4 == ascii "VXCI" && fieldAt d 4 2 == 1 && Cont.cls d == cls && fieldAt d 7 1 / 2 == 0
    && fieldAt d 8 4 == d.length && decide (1 ≤ n) && decide (n ≤ 64) && decide (1 ≤ q) && decide (q ≤ 4)
    && decide (64 + 48 * n ≤ d.length) && (List.range n).all (Cont.entryOk d) && disjointSecs (Cont.secs d)
    && (List.range q).all (fun p => countSec (Cont.secs d) 1 p == 1 && countSec (Cont.secs d) 2 p == 1)
    && countSec (Cont.secs d) 5 0 == 1 && countSec (Cont.secs d) 6 0 == (if cls = 1 then 1 else 0)
    && (!Cont.trailer d || natOf (slice d (Cont.bodyEnd d + 388) 252) == 0)

/-- Step 2 of R226: each section digest, then the image digest. -/
def Cont.digestOk (d : Cont) : Bool :=
  (List.range (Cont.sectionsN d)).all (fun i => sha256 (Cont.bytesOf d (Cont.entry d i)) == slice d (64 + 48 * i + 16) 32)
    && sha256 (slice d 0 32 ++ slice d 64 (Cont.lastEnd d - 64)) == Cont.digest d

/-- Step 3 of R226: the trailer, its key against the fused image-key hash, its signature (R225, R447).
DESIGN CHOICE, log entry 61. -/
def State.signatureOk (s : State) (d : Cont) : Bool :=
  if Cont.signed d then
    let t := slice d (Cont.bodyEnd d) 1024
    let fused := bytesOf 32 (s.fuse 1923 1668)
    Cont.trailer d && natOf fused != 0 && sha256 (slice t 0 388) == fused
      && pssVerify (slice t 0 384) 65537 (ascii "VXCS" ++ Cont.digest d) (slice t 640 384)
  else !(Cont.cls d == 1 && s.fuse 1924 1924 == 1)

/-- Bytes 16–23: rows, data columns, checksum columns, scratchpad words. -/
def geometry : List Byte := bytesOf 2 1152 ++ bytesOf 1 128 ++ bytesOf 1 4 ++ bytesOf 4 spmWords

/-- The programs in order A of pair 0, X of pair 0, A of pair 1 and so on: load address and instruction words. -/
def Cont.programs (d : Cont) : List (Nat × List IWord) :=
  (List.range (2 * Cont.pairsN d)).map (fun j =>
    match findSec (Cont.secs d) (1 + j % 2) (j / 2) with
    | some x => (x.load, iwordsOf (Cont.bytesOf d x))
    | none => (0, []))

/-- The first failure of R226, if any. -/
def State.containerCode (s : State) (d : Cont) (cls : Nat) : Option Nat :=
  if !Cont.formatOk d cls then some codeFormat
  else if !Cont.digestOk d then some codeDigest
  else if !s.signatureOk d then some codeSignature
  else if slice d 16 8 != geometry then some codeGeometry
  else if !(Cont.programs d).all (fun p => (boundaryMap p.2).2) then some codeFormat
  else none

/-! ### Windows and masks of an image (R224, R237) -/

def Cont.windows (d : Cont) : List (BitVec 128) :=
  ((Cont.secs d).filter (fun x => x.kind == 4)).flatMap (fun x =>
    (List.range (x.len / 16)).map (fun i => BitVec.ofNat 128 (fieldAt d (x.offset + 16 * i) 16)))

def Cont.masks (d : Cont) : BitVec 32 × BitVec 32 :=
  match findSec (Cont.secs d) 5 0 with
  | some x => (BitVec.ofNat 32 (fieldAt d x.offset 4), BitVec.ofNat 32 (fieldAt d (x.offset + 4) 4))
  | none => (0, 0)

/-- The window number of an image entry (R237). -/
def wnNumber (e : BitVec 128) : Nat := bits e.toNat 85 80

/-! ### The timetable (R320, R321) -/

def Cont.timetable (d : Cont) : List Byte :=
  match findSec (Cont.secs d) 6 0 with
  | some x => Cont.bytesOf d x
  | none => []

def ttPeriod (t : List Byte) : Nat := fieldAt t 8 4
def ttVariants (t : List Byte) : List Variant :=
  (List.range (fieldAt t 6 1)).map (fun v =>
    let a := 16 + 16 * v
    { kind := fieldAt t a 1, core := fieldAt t (a + 1) 1, deadline := fieldAt t (a + 4) 4, slotStart := fieldAt t (a + 8) 4 })

def findVariant (l : List Variant) (kind : Nat) : Option Variant := l.find? (fun v => v.kind == kind)

/-- What can be judged of a timetable without the device's frame period; its reserved bytes are ignored (R6, R320). -/
def ttOk (t : List Byte) : Bool :=
  let n := fieldAt t 6 1
  let l := ttVariants t
  decide (16 ≤ t.length) && slice t 0 4 == ascii "VXTT" && fieldAt t 4 2 == 1
    && decide (1 ≤ n) && decide (n ≤ 5) && t.length == 16 + 16 * n
    && l.all (fun v => decide (v.kind ≤ 4) && (decide (v.core ≤ 7) || v.core == 255) && decide (v.deadline ≤ v.slotStart)
        && decide (v.slotStart + 48 ≤ ttPeriod t) && (l.filter (fun w => w.kind == v.kind)).length == 1)
    && (findVariant l 0).isSome

/-! ### The group request (R313) -/

/-- The request of an image stream pair for an array: split 0 none, 1, 2, 3 for 1, 2, 4 groups, and the mask of groups. -/
def reqSplit (v a : Nat) : Nat := bits v (8 * a + 1) (8 * a)
def reqMask (v a : Nat) : Nat := bits v (8 * a + 5) (8 * a + 2)

/-- The groups asked for: array, split code 0, 1, 2, group, image stream pair. -/
def State.requested (s : State) (k : Nat) : List (Nat × Nat × Nat × Nat) :=
  (List.range 4).flatMap (fun i =>
    let v := s.cget k (0x10 + i)
    [0, 1].flatMap (fun a =>
      if reqSplit v a = 0 then []
      else ((List.range 4).filter (fun g => bitAt (reqMask v a) g)).map (fun g => (a, reqSplit v a - 1, g, i))))

/-- Whether a request stands (R313). -/
def State.requestOk (s : State) (k n : Nat) : Bool :=
  let l := s.requested k
  (List.range 4).all (fun i =>
    let v := s.cget k (0x10 + i)
    [0, 1].all (fun a => (reqSplit v a == 0) == (reqMask v a == 0)
      && (reqSplit v a == 0 || decide (reqMask v a < 2 ^ splitGroups (reqSplit v a - 1))))
      && (decide (i < n) || (reqSplit v 0 == 0 && reqSplit v 1 == 0 && reqMask v 0 == 0 && reqMask v 1 == 0)))
    && l.all (fun x => (l.filter (fun y => y.1 == x.1 && y.2.2.1 == x.2.2.1)).length == 1)
    && l.all (fun x => l.all (fun y => y.1 != x.1 || y.2.1 == x.2.1))

/-- The swap region in bytes (R326): resident words, stream pairs, groups by width, flags. DEDUCED, log entry 59. -/
def State.swapRegion (s : State) (k footprint o n : Nat) : Nat :=
  32 * (footprint - quarterWords * o) + 32768 * n
    + ((s.requested k).map (fun x => 14592 * splitWidth x.2.1)).foldl (· + ·) 0 + 8

/-! ### The image constraints (R312) -/

/-- The quarter of the load address of image stream pair 0's A program. -/
def Cont.offset (d : Cont) : Nat :=
  match findSec (Cont.secs d) 1 0 with
  | some x => x.load / quarterWords
  | none => 0

def State.declOk (s : State) (k : Nat) (d : Cont) : Bool :=
  let o := Cont.offset d
  let n := Cont.pairsN d
  let lo := quarterWords * o
  let hi := quarterWords * (o + n)
  decide (o + n ≤ 4)
    && (Cont.secs d).all (fun x => decide (3 < x.kind) || (decide (lo ≤ x.load) && decide (x.load + cdiv x.len 32 ≤ hi)))
    && (Cont.windows d).all (fun e => decide (lo ≤ wnBase e) && decide (wnBase e + wnLen e ≤ hi))
    && decide (Cont.footprint d ≤ hi)
    && (Cont.cls d != 2 || decide (s.swapRegion k (Cont.footprint d) o n ≤ 0x800000))
    && (Cont.cls d != 1 || ttOk (Cont.timetable d))

/-! ### The allotment (R315) -/

def twoMiB : Nat := 0x200000
def alignUp (n a : Nat) : Nat := cdiv n a * a

/-- Bytes of an allotment: the container in whole words, the save area of a BE image, the staging range. DEDUCED, log entry 58. -/
def allotSize (len cls staging : Nat) : Nat := alignUp len 32 + (if cls = 2 then 0x800000 else 0) + staging

/-- The ranges that contexts hold in DRAM, from their load to the end of their teardown (R315). -/
def State.allotted (s : State) : List (Nat × Nat) :=
  (allCtx.filter (fun m => 2 ≤ s.cstate m && (s.ctx m).allotLen != 0)).map (fun m =>
    ((s.ctx m).allotAt, (s.ctx m).allotAt + (s.ctx m).allotLen))

/-- The lowest free range of a partition that fits, aligned to 2 MiB. -/
def State.findAllot (s : State) (p size : Nat) : Option Nat :=
  let lo := dramBase p
  let hi := lo + s.usable
  let used := s.allotted
  let cands := (lo :: used.map (fun r => alignUp r.2 twoMiB)).filter (fun a =>
    decide (lo ≤ a) && decide (a + size ≤ hi) && used.all (fun r => decide (a + size ≤ r.1) || decide (r.2 ≤ a)))
  cands.min?

/-! ### Saved context images (R335, R336) -/

/-- The header and body of a saved image, whose length fits its four bytes; the digest covers the whole with its own bytes taken
as 0. DESIGN CHOICE, log entry 29. -/
def savedImage (swap : Nat) (whole : List Byte) : List Byte :=
  let body := whole.take 0xFFFFFFBF
  let h (dg : List Byte) : List Byte := ascii "VXSV" ++ bytesOf 2 1 ++ bytesOf 1 0xB0 ++ [0] ++ bytesOf 4 (64 + body.length)
    ++ bytesOf 4 swap ++ geometry ++ bytesOf 8 0 ++ dg
  h (sha256 (h (bytesOf 32 0) ++ body)) ++ body

/-- The first failure of R336, in its order, if any; `same` says that the context's container has the image's digest. -/
def savedCode (d : List Byte) (same : Bool) : Option Nat :=
  if !(decide (64 ≤ d.length) && slice d 0 4 == ascii "VXSV" && fieldAt d 4 2 == 1 && fieldAt d 6 1 == 0xB0
      && fieldAt d 8 4 == d.length) then some codeFormat
  else if sha256 (slice d 0 32 ++ bytesOf 32 0 ++ d.drop 64) != slice d 32 32 || !same then some codeDigest
  else if slice d 16 8 != geometry then some codeGeometry
  else none

end Sys2Proof.Machine
end

