-- ==== Sys2Proof/Machine/Packets.lean ====
section
/-! DEFINITION. The arrival of each kind of packet (R241–R250), the response timer (R254) and the pause of a switch copy
(R327). An arrival takes the packet out of flight; a packet of another kind than the row's is no such arrival. -/

namespace Sys2Proof.Machine

/-! ### The late-reply buffer (R327) -/

/-- Everything a core's buffer holds is applied to whichever copy of its target is current, oldest first. -/
def State.releaseLate (s : State) (c : Nat) : State :=
  let l := KV.get [] s.late c
  let s := { s with late := KV.set [] s.late c [] }
  foldS l (fun s p =>
    if p.kind.toNat < 8 && p.kind ≠ 4 then s.windowPacket p true else s.answerPacket p true) s

/-- The contexts whose switch on core `c` pauses count the pause (R337). -/
def State.lateReplyPause (s : State) (c : Nat) : State :=
  if KV.get [] s.late c = [] then s
  else
    let ks := allCtx.filter (fun k => s.switchCore k == some c)
    foldS ks (fun s k => s.cbump k 0x17) (s.releaseLate c)

/-- A buffer that an arrival filled to its 64 entries pauses the copy (R327). -/
def State.pauseFull (s : State) (before : KV (List Packet)) : State :=
  if s.late = before then s
  else foldS allCores (fun s c => if 64 ≤ (KV.get [] s.late c).length then s.lateReplyPause c else s) s

/-! ### Window-addressed packets -/

/-- What a window-addressed arrival does. -/
def State.arriveWindow (s : State) (kind : BitVec 4) (p : Packet) : State :=
  if p.kind = kind then ((s.fresh.arrive p).windowPacket p false).pauseFull s.late else s.fresh

/-- A PUT (R242, R243). -/
def execPutPacket (p : Packet) (s : State) : Host.Outcome State Fault Refusal := .next (s.arriveWindow 0 p)

/-- SPUT data (R242, R243). -/
def execSputData (p : Packet) (s : State) : Host.Outcome State Fault Refusal := .next (s.arriveWindow 1 p)

/-- SPUT last: its flag waits for every earlier packet of the instruction (R243, R244). -/
def execSputLast (p : Packet) (s : State) : Host.Outcome State Fault Refusal :=
  .next (if s.sputPending p then s.fresh else s.arriveWindow 2 p)

/-- A GET request (R243). -/
def execGetRequest (p : Packet) (s : State) : Host.Outcome State Fault Refusal := .next (s.arriveWindow 3 p)

/-- An INT32 atomic add (R247). -/
def execAaddInt32 (p : Packet) (s : State) : Host.Outcome State Fault Refusal := .next (s.arriveWindow 5 p)

/-- An FP32 atomic add (R247–R249). -/
def execAaddFp32 (p : Packet) (s : State) : Host.Outcome State Fault Refusal := .next (s.arriveWindow 6 p)

/-- A remote flag set (R186, R243). -/
def execFlagPacket (p : Packet) (s : State) : Host.Outcome State Fault Refusal := .next (s.arriveWindow 7 p)

/-! ### Answers -/

/-- The promotion that waits for an answer to a put (R307). -/
def State.promoOf (s : State) (tag seq : Nat) : Option Promotion :=
  s.promotions.find? (fun x => hKey x.handle.1 x.handle.2 == tag && x.unanswered.contains seq)

/-- A put of a promotion is answered, with a code where it failed: its first failure ends the promotion under R244, and its last answer
then the command. -/
def State.promoPut (s : State) (x : Promotion) (seq : Nat) (code : Option Nat) : State :=
  let x' := { x with unanswered := x.unanswered.filter (· != seq), failed := x.failed.or code }
  match x'.failed, x'.unanswered with
  | some c, [] => ({ s with promotions := s.promotions.filter (· != x) }).complete x.handle c 0
  | _, _ => { s with promotions := s.promotions.map (fun y => if y = x then x' else y) }

/-- An answer to a put of a promotion (R307). -/
def State.promoAnswer (s : State) (p : Packet) : State :=
  match s.promoOf p.tag.toNat p.seq.toNat with
  | none => s.dropAnswer p
  | some x =>
    if p.kind = pkNack then
      (s.report p.status.toNat ucSm (nackOrigin p.status.toNat p.src x.window ucSm) []).promoPut x p.seq.toNat (some p.status.toNat)
    else s.promoPut x p.seq.toNat none

/-- What an answer's arrival does: at a core, at the safety manager, or nowhere it is waited for. -/
def State.arriveAnswer (s : State) (kind : BitVec 4) (p : Packet) : State :=
  if p.kind = kind then
    let s := s.fresh.arrive p
    if p.dst < 8 then (s.answerPacket p false).pauseFull s.late
    else if p.dst = 9 && kind ≠ pkHold then s.promoAnswer p
    else s
  else s.fresh

/-- A GET reply (R243). -/
def execGetReply (p : Packet) (s : State) : Host.Outcome State Fault Refusal := .next (s.arriveAnswer 4 p)

/-- An ACK (R243). -/
def execAck (p : Packet) (s : State) : Host.Outcome State Fault Refusal := .next (s.arriveAnswer 8 p)

/-- A NACK (R244, R245). -/
def execNack (p : Packet) (s : State) : Host.Outcome State Fault Refusal := .next (s.arriveAnswer 9 p)

/-- A HOLD (R249, R254). -/
def execHold (p : Packet) (s : State) : Host.Outcome State Fault Refusal := .next (s.arriveAnswer 13 p)

/-- A memory read reply (R243). -/
def execMemoryReadReply (p : Packet) (s : State) : Host.Outcome State Fault Refusal := .next (s.arriveAnswer 12 p)

/-! ### Memory packets -/

/-- A dictionary entry as bytes: its value in its size (R434). -/
def State.entryBytes (s : State) (index sub : Nat) : List Byte :=
  match entryOf index sub with
  | none => []
  | some e => if e.access = .wo then bytesOf e.size 0 else bytesOf e.size (s.dget index sub)

/-- The index that page `n` of control space holds (R435). -/
def pageIndex (n : Nat) : Option Nat :=
  let ix := if n < 256 then 0x1000 + n else if n < 512 then 0x1300 + (n - 256) else if n < 768 then 0x2200 + (n - 512)
    else if n < 832 then 0x2600 + (n - 768)
    else nth 0 [0x2000, 0x2100, 0x2400, 0x2401, 0x2500, 0x2700, 0x2800, 0x2900, 0x2A00, 0x5000, 0x5001, 0x5002, 0x5100] (n - 832)
  if (objOf ix).isEmpty then none else some ix

/-- Whether a control-space address is mapped: a page of an index there is, and not its slot 0xFF (R435). -/
def ctlMapped (a : Nat) : Bool :=
  (pageIndex ((a - ctlBase) / 0x4000)).isSome && (a % 0x4000) / 64 != 255

/-- Half of a dictionary slot read as a word: bytes beyond the entry read 0 (R434). DEDUCED, log entry 56. -/
def State.ctlWord (s : State) (a : Nat) : SWord :=
  match pageIndex ((a - ctlBase) / 0x4000) with
  | some ix => wordOfBytes (slice (padTo 64 (s.entryBytes ix ((a % 0x4000) / 64))) (a % 64) 32)
  | none => 0

/-- A word at a memory-addressed location. -/
def State.memWord (s : State) (a : Nat) : SWord × Bool :=
  if s.regionOf a = .ctl then (s.ctlWord a, false) else (s.wordAt a, s.wordPoison a)

/-- The code of R22 beside those of R242: control space has unmapped pages. -/
def State.memRefusal (s : State) (p : Packet) : Option Nat :=
  match s.memCheck p with
  | some c => some c
  | none =>
    if p.wordAddrs.any (fun a => s.regionOf a == .ctl && !ctlMapped a) then some ADDR_UNMAPPED else none

/-- A memory write packet: checked and written; control space takes no packet writes (R435). -/
def State.memoryWrite (s : State) (p : Packet) : State :=
  match s.memRefusal p with
  | some code => s.nackPacket p code
  | none =>
    let s := foldS ((List.range p.data.length).zip p.data) (fun s x =>
      let a := 32 * p.addr.toNat + 32 * x.1
      if s.regionOf a = .ctl then s else s.putWord a x.2 p.poison) s
    s.sendPacket (p.answer pkAck 0)

def execMemoryWrite (p : Packet) (s : State) : Host.Outcome State Fault Refusal :=
  .next (if p.kind = 10 then (s.fresh.arrive p).memoryWrite p else s.fresh)

/-- A memory read request: checked and answered. -/
def State.memoryReadRequest (s : State) (p : Packet) : State :=
  match s.memRefusal p with
  | some code => s.nackPacket p code
  | none =>
    let s := foldS p.wordAddrs (fun s a => s.touch a) s
    s.sendReplies p 12 (p.wordAddrs.map s.memWord) (fun i => BitVec.ofNat 43 (p.addr.toNat + i))

def execMemoryReadRequest (p : Packet) (s : State) : Host.Outcome State Fault Refusal :=
  .next (if p.kind = 11 then (s.fresh.arrive p).memoryReadRequest p else s.fresh)

/-! ### The response timer (R254, R377) -/

/-- A LINK_TIMEOUT on a link: the eighth within 1 ms fails it. -/
def State.noteTimeout (s : State) (l : Nat) : State :=
  let recent := (s.timeNs :: KV.get [] s.timeouts l).filter (fun x => decide (s.timeNs < x + 1000000))
  if 8 ≤ recent.length && !s.linkFailed l then { s with timeouts := KV.set [] s.timeouts l [] }.linkFail l
  else { s with timeouts := KV.set [] s.timeouts l recent }

/-- A LINK_TIMEOUT counts on the link its packet left on, if it left the bed. -/
def State.noteLink (s : State) (l : Option Nat) : State :=
  match l with
  | some l => s.noteTimeout l
  | none => s

/-- A host's BAR2 request that finds no answer on its die link: a read completes with Completer Abort, a write is dropped (R404).
DESIGN CHOICE, log entry 51. -/
def State.hostTimeout (s : State) (h : Nat) (p : Packet) : State :=
  match s.linkOf p.src p.dst with
  | none => s
  | some l =>
    if s.romWait || !s.portsServe then s
    else
      let s := s.report codeLinkTimeout (ucHost h) (ucLink l) []
      (if p.kind = 3 || p.kind = 11 then s.send (.completerAbort (portOf h)) else s).noteTimeout l

/-- A packet still unanswered and not held completes at its source as a NACK: a context's, or a promotion's put (R307, R376).
DESIGN CHOICE, log entry 51. -/
def State.linkTimeout (s : State) (p : Packet) : State :=
  let k := p.k
  let q := p.srcPair.toNat
  let link := s.linkOf p.src p.dst
  if p.src = 9 then
    match s.promoOf p.tag.toNat p.seq.toNat with
    | none => s
    | some x =>
      let s := s.report codeLinkTimeout ucSm (match link with | some l => ucLink l | none => ucSm) []
      (s.promoPut x p.seq.toNat (some codeLinkTimeout)).noteLink link
  else if p.src = 10 then s.hostTimeout 0 p
  else if p.src = 11 then s.hostTimeout 1 p
  else if 8 ≤ p.src || !p.ctxValid || s.cstate k < csRunning || s.cstate k = csTearing then s
  else
    match findOut (s.kPair k q).outstanding p.seq.toNat with
    | none => s
    | some o =>
      if o.held then s
      else
        let unit := if s.isLive k then ucPair p.src q k else ucCtx k
        let s := s.reportCtx k codeLinkTimeout unit (match link with | some l => ucLink l | none => ucCore p.src) []
        let s := if p.kind = 1 || p.kind = 2 then { s with sputBad := sputId p :: s.sputBad } else s
        let s := s.kSetPair k q ((s.kPair k q).dropOut o.seq)
        let s := (s.failOp k q o.op codeLinkTimeout).settleSaved k q
        s.noteLink link

def execLinkTimeout (p : Packet) (t : Nat) (s : State) : Host.Outcome State Fault Refusal :=
  .next ((s.fresh.atTime t).linkTimeout p)

/-- A full buffer has paused already; its row comes where the oldest entry has waited 8 µs (R327). -/
def execLateReplyPause (core : Fin 8) (s : State) : Host.Outcome State Fault Refusal := .next (s.fresh.lateReplyPause core.val)

end Sys2Proof.Machine
end

