-- ==== Sys2Proof/Machine/Places.lean ====
section
/-! DEFINITION. Places of contexts: which are free, taking and clearing one, the window table (R237–R239), the save and the
restore of a context (R316–R319, R324–R327). -/

namespace Sys2Proof.Machine

/-- What the body of a saved context image holds: the container and the save area (R335). -/
structure SavedBody where
  container : List Byte
  area : SaveArea
  deriving DecidableEq, Repr, Inhabited

end Sys2Proof.Machine

namespace Sys2Proof

/-- The private layout of a saved image's body and its reading (R335): free values. -/
opaque Config.saveEncode : Machine.SavedBody → List Byte
opaque Config.saveDecode : List Byte → Machine.SavedBody

end Sys2Proof

namespace Sys2Proof.Machine

/-! ### The variant in force (R387) -/

/-- Whether the timetable of a context has a variant kind. -/
def Ctx.hasKind (x : Ctx) (kind : Nat) : Bool := (findVariant x.variants kind).isSome

/-- LC contexts in state 3. -/
def State.runningLC (s : State) : List Nat := allCtx.filter (fun k => s.cstate k == csRunning && s.isLC k)

/-- The variant kind that a set of partitions out of service brings. -/
def State.variantNow (s : State) : Nat :=
  match allParts.find? (fun p => s.outSet == 2 ^ p) with
  | some p => if s.runningLC.all (fun k => (s.ctx k).hasKind (p + 1)) then p + 1 else 0
  | none => 0

def Ctx.variant (x : Ctx) (kind : Nat) : Variant :=
  (findVariant x.variants kind).getD ((findVariant x.variants 0).getD (Variant.mk 0 255 0 0))

/-! ### Free places (R316) -/

/-- The split a context wants of an array: that of its last split change, else the requested one. -/
def State.wantSplit (s : State) (k a : Nat) : Nat :=
  let n := nth 0 (s.ctx k).splitNow a
  if n ≠ 0 then n - 1
  else match (s.requested k).find? (fun x => x.1 == a) with
    | some x => x.2.1
    | none => 0

/-- The groups a context owns where it is placed, or will own. -/
def State.groupsOf (s : State) (k : Nat) : List (Nat × Nat × Nat) :=
  if (s.ctx k).owned.isEmpty then (s.requested k).map (fun x => (x.1, x.2.2.1, x.2.2.2)) else (s.ctx k).owned

/-- The contexts that hold a place on a core: running there and not on their way out, or on their way in. -/
def State.occupants (s : State) (c : Nat) : List Nat :=
  allCtx.filter (fun m => (s.cstate m == csRunning && s.ccore m == c && (s.ctx m).move != .switchingOut)
    || ((s.ctx m).dest == some c && s.cstate m != csTearing && s.cstate m != csFree)
    || (s.cstate m == csTearing && s.ccore m == c))

/-- Whether two contexts could share a core: pairs, groups, splits and flags. One that is there holds its arrays at the split they have,
one on its way there at the split it wants. -/
def State.compatible (s : State) (c k m : Nat) : Bool :=
  let x := s.ctx k
  let y := s.ctx m
  let g := s.groupsOf k
  let h := s.groupsOf m
  (x.pairsOf.all (fun q => !y.pairsOf.contains q))
    && g.all (fun u => !h.any (fun v => v.1 == u.1 && v.2.1 == u.2.1))
    && [0, 1].all (fun a => !(g.any (fun u => u.1 == a)) || !(h.any (fun v => v.1 == a))
        || (if s.ccore m == c && y.dest != some c then s.split c a else s.wantSplit m a) == s.wantSplit k a)
    && (x.localMask &&& y.localMask) == 0 && (x.remoteMask &&& y.remoteMask) == 0

/-- Whether another context holds a window number that the image declares, on its home core. -/
def State.windowsFree (s : State) (c k : Nat) : Bool :=
  allCtx.all (fun m => m == k || s.cstate m == csFree || s.cget m 0x08 != c
    || (s.ctx k).windows.all (fun e => !(s.ctx m).heldWins.contains (wnNumber e)))

/-- Whether the DRAM that holds a context's allotment is reachable (R380). -/
def State.allotUp (s : State) (k : Nat) : Bool := !s.isFenced (s.cget k 0x0C / 0x400000000)

/-- Whether a BE context's place counts as free for a start: it can be switched out (R317, R332, R380). -/
def State.yields (s : State) (m : Nat) : Bool := !s.isLC m && s.cstate m != csTearing && s.allotUp m

/-- A free place of context `k` on core `c`; `above` counts places held by BE contexts as free, `home` asks for its windows. -/
def State.placeFree (s : State) (k c : Nat) (above home : Bool) : Bool :=
  !s.isFenced (c / 2) && !bitAt s.outSet (c / 2) && (!home || s.windowsFree c k)
    && (s.occupants c).all (fun m => m == k || (above && s.yields m) || s.compatible c k m)

/-- The slot-start rule of R321 between a context and the LC contexts of a core. -/
def State.slotRule (s : State) (k c : Nat) : Bool :=
  (s.runningLC.filter (fun m => m != k && s.ccore m == c)).all (fun m =>
    (s.ctx k).variants.all (fun v => match findVariant (s.ctx m).variants v.kind with
      | some w => w.slotStart == v.slotStart
      | none => true))

/-! ### Windows (R238, R239) -/

/-- Words that the strict-mode reductions of a core's open windows take (R238). -/
def State.reduceWords (s : State) (c : Nat) : Nat :=
  ((List.range 64).map (fun w => let e := s.win c w; if wnOpen e && wnBit e rFp then wnLen e * wnRed e else 0)).foldl (· + ·) 0

/-- Why an open is refused (R238). DESIGN CHOICE, log entry 52. -/
def State.openBad (s : State) (k c w : Nat) (e : BitVec 128) : Bool :=
  let x := s.ctx k
  let lo := quarterWords * x.o
  let hi := quarterWords * (x.o + x.n)
  let old := s.win c w
  decide (wnBase e < lo) || decide (hi ≤ wnBase e) || decide (hi < wnBase e + wnLen e) || wnLen e == 0 || wnOpen old
    || allCtx.any (fun m => m != k && s.cstate m != csFree && s.cget m 0x08 == c && (s.ctx m).heldWins.contains w)
    || (wnSources e == 0 && [rPut, rInt, rFp, rFlag].any (wnBit e))
    || (s.strict && wnBit e rFp && (wnRed e == 0 || decide (16384 < s.reduceWords c + wnLen e * wnRed e)))

/-- A window opens with the generation its entry holds. DEDUCED, log entry 53. -/
def State.openWindow (s : State) (k c w : Nat) (e : BitVec 128) : State :=
  let gen := wnGen (s.win c w)
  let e := wnPut (wnPut (wnPut (wnPut (wnPut e 47 47 0) 71 64 gen) 79 72 1) 78 73 k) 127 79 0
  let e := wnPut (if wnBit e rFp then e else wnPut e 63 60 0) 85 80 w
  let s := (s.setWin c w e).showWin k c w
  let x := s.ctx k
  if x.heldWins.contains w then s else s.setCtx k { x with heldWins := x.heldWins ++ [w] }

/-- Every image window that asks for it opens, or `none` (R238). -/
def openAll : List (BitVec 128) → State → Nat → Nat → Option State
  | [], s, _, _ => some s
  | e :: r, s, k, c =>
    if wnOpen e then
      (if s.openBad k c (wnNumber e) e then none else openAll r (s.openWindow k c (wnNumber e) e) k c)
    else openAll r s k c

/-- Packets whose contributions a window's words hold (R250). -/
def State.heldPackets (s : State) (c w : Nat) : List Packet :=
  (((s.rounds.filter (fun e => e.1 / 2 ^ 21 == c)).flatMap (fun e => e.2.map (·.packet))).filter (fun p => p.window == w)).eraseDups

/-- A close takes effect: the entry closes, the generation rises, held contributions are discarded and NACKed (R239, R250). -/
def State.closeNow (s : State) (c w : Nat) : State :=
  let e := s.win c w
  if !wnOpen e then s
  else
    let s := (s.setWin c w (wnPut (wnPut e 72 72 0) 71 64 (wnGen e + 1))).showWin (wnOwner e) c w
    let s := { s with lastClose := KV.set none s.lastClose (winKey c w) (some s.timeNs) }
    let ps := s.heldPackets c w
    if ps.isEmpty then s
    else
      let s := { s with rounds := (s.rounds.map (fun (e : Nat × List Contribution) =>
        if e.1 / 2 ^ 21 == c then (e.1, e.2.filter (fun (x : Contribution) => x.packet.window != w)) else e)).filter (fun e => !e.2.isEmpty) }
      let s := s.report 0x300B (ucCore c) (ucWindow c w) []
      foldS ps (fun s p => s.nackPacket p 0x3002) s

/-- Whether the 32 µs since the entry's last close have passed. -/
def State.spaced (s : State) (c w : Nat) : Bool :=
  match KV.get none s.lastClose (winKey c w) with
  | some t => decide (t + 32000 ≤ s.timeNs)
  | none => true

/-- A close takes effect now, or waits for its spacing with what it completes. DEDUCED, log entry 54. -/
def State.closeWindow (s : State) (k c w : Nat) (h : Option HRef) : State :=
  if s.spaced c w then
    let s := s.closeNow c w
    match h with
    | some r => s.complete r 0 (wnGen (s.win c w))
    | none => s
  else
    let old := match KV.get none s.closing (winKey c w) with | some x => x.handles | none => []
    { s with closing := KV.set none s.closing (winKey c w) (some (Closing.mk k (old ++ h.toList))) }

/-- A close that waited takes effect (R239). -/
def State.closeDue (s : State) (c w : Nat) : State :=
  match KV.get none s.closing (winKey c w) with
  | none => s
  | some x =>
    if !s.spaced c w then s
    else
      let s := { s with closing := KV.set none s.closing (winKey c w) none }.closeNow c w
      foldS x.handles (fun s r => s.complete r 0 (wnGen (s.win c w))) s

/-! ### Taking and clearing a place (R107, R152, R319, R332) -/

/-- A stream at the start of its program. -/
def startStrm (len : Nat) (beat : Int) : Strm := { Strm.zero with atEnd := len == 0, startBeat := beat }

/-- The stream pairs of a context at its start. -/
def Ctx.startPair (x : Ctx) (i : Nat) (beat : Int) : Pair :=
  { Pair.zero with sa := startStrm (nth (0, 0) x.programs (2 * i)).2 beat, sx := startStrm (nth (0, 0) x.programs (2 * i + 1)).2 beat }

/-- Accumulators of a column group are zero (R152). -/
def State.clearAccs (s : State) (c a g : Nat) : State :=
  let w := splitWidth (s.split c a)
  { s with accs := s.accs.filter (fun e => !(e.1 / 128 / 2048 == 2 * c + a && decide (g * w ≤ e.1 % 128) && decide (e.1 % 128 < (g + 1) * w))) }

/-- Registers, slots, queues and flags of a context at core `c` are cleared (R332 step 4). -/
def State.clearUnits (s : State) (k c : Nat) : State :=
  let x := s.ctx k
  let s := foldS x.pairsOf (fun s q =>
    foldS (List.range 16) (fun s i => s.setSlot c q i .zero) (s.setPair c q .zero)) s
  let s := foldS x.owned (fun s o => (s.clearAccs c o.1 o.2.1).setGroup c o.1 o.2.1 .zero) s
  foldS (List.range 64) (fun s f => if x.hasFlag f then s.putFlag c f false else s) s

/-- Every word of the context's quarters on a core becomes 0 (R319). -/
def State.clearQuarters (s : State) (k c : Nat) : State :=
  let x := s.ctx k
  s.zeroRange (spmAddr c (quarterWords * x.o)) (32 * quarterWords * x.n)

/-- The groups of a context are its own, at the split it wants (R115, R316). -/
def State.takeGroups (s : State) (k c : Nat) : State :=
  let own := s.groupsOf k
  let s := s.setCtx k { s.ctx k with owned := own }
  foldS own (fun s o => (s.setSplit c o.1 (s.wantSplit k o.1)).setGroup c o.1 o.2.1 .zero) s

/-- The container's bytes as the allotment keeps them. -/
def State.container (s : State) (k : Nat) : List Byte := s.readBytes (s.cget k 0x0C) (s.ctx k).containerLen

/-- The scratchpad words that the sections of types 0x01 to 0x03 load, by word address (R203, R224). -/
def State.sectionWords (s : State) (k : Nat) : List (Nat × SWord) :=
  let d := s.container k
  ((s.ctx k).sections.filter (fun x => x.kind ≤ 3)).flatMap (fun x =>
    let l := toWords (padTo (alignUp x.len 32) (slice d x.offset x.len))
    ((List.range (cdiv x.len 32)).zip l).map (fun p => (x.load + p.1, p.2)))

/-- An LC context at its place: the quarters cleared, its sections written, its streams at END until a tick (R319). -/
def State.placeLC (s : State) (k c : Nat) : State :=
  let s := s.clearQuarters k c
  let s := foldS (s.sectionWords k) (fun s p => s.setSpm c p.1 p.2 false) s
  let s := s.takeGroups k c
  let x := s.ctx k
  let s := foldS (List.range x.n) (fun s i =>
    let p := x.startPair i 0
    s.setPair c (x.o + i) { p with sa := { p.sa with atEnd := true }, sx := { p.sx with atEnd := true } }) s
  s.setCtx k { s.ctx k with placed := true, ready := true, move := .still, started := false, stall := 0, endedFrame := true }

/-! ### Saving and restoring (R325, R326) -/

/-- The save area that a running context leaves (R326); a STREAM of a chain's last phase that is still to run needs the chain's entries
though the chain has closed (R129, R152). -/
def State.makeSave (s : State) (k c : Nat) : SaveArea :=
  let x := s.ctx k
  let lo := quarterWords * x.o
  let words := (List.range (x.footprint - lo)).filterMap (fun i =>
    let v := (s.spm c (lo + i), s.spmPoison c (lo + i))
    if v = (0, false) then none else some (lo + i, v))
  let bed := s.dget 0x2900 (0x0C + c / 2)
  let run (t : Strm) : Strm := { t with startBeat := (bed : Int) - t.startBeat }
  let pairs := x.pairsOf.map (fun q => let p := s.pair c q; { p with sa := run p.sa, sx := run p.sx })
  let slots := foldl' (x.pairsOf.flatMap (fun q => (List.range 16).map (fun i => (q, i)))) c s
  let groups := x.owned.map (fun o => (o.1, o.2.1, s.group c o.1 o.2.1))
  let accs := x.owned.map (fun o =>
    (o.1, o.2.1, if (s.group c o.1 o.2.1).chain.isNone && (s.group c o.1 o.2.1).jobs.isEmpty then [] else s.accs.filter (fun e =>
      let w := splitWidth (s.split c o.1)
      e.1 / 128 / 2048 == 2 * c + o.1 && decide (o.2.1 * w ≤ e.1 % 128) && decide (e.1 % 128 < (o.2.1 + 1) * w))))
  let flags := (List.range 64).filterMap (fun f => if x.hasFlag f && s.flag c f then some (f, true) else none)
  { words := words, pairs := pairs, slots := slots, groups := groups, accs := accs,
    splits := [0, 1].filterMap (fun a => if x.owned.any (fun o => o.1 == a) then some (a, s.split c a) else none), flags := flags }
where
  /-- scale slots of the pairs that are not zero, by 16 × pair + slot -/
  foldl' (l : List (Nat × Nat)) (c : Nat) (s : State) : KV ScaleSlot :=
    l.filterMap (fun p => if s.slot c p.1 p.2 = .zero then none else some (16 * p.1 + p.2, s.slot c p.1 p.2))

/-- A running context leaves its place: its arrays drain, it is saved, and the place is cleared and released.
DEDUCED, log entry 39. -/
def State.saveOut (s : State) (k : Nat) : State :=
  let c := s.ccore k
  let s := foldS (s.ctx k).owned (fun s o => s.drainAll k c o.1 o.2.1) s
  let fin := s.allEnd k && s.localIdle k
  let area := s.makeSave k c
  let s := s.clearUnits k c
  let x := s.ctx k
  let s := s.setCtx k { x with save := some area, move := .still, ready := false, placed := false, lastCore := c + 1 }
  (s.cset k 0x07 255).cset k 0x01 (if fin then csFinished else csWaiting)

/-- A context comes back to a place: registers, words, flags as they were saved (R107, R326, R319). -/
def State.restoreIn (s : State) (k c : Nat) : State :=
  let s := s.clearQuarters k c
  let s := s.takeGroups k c
  let area := s.saved k
  let x := s.ctx k
  let bed := s.dget 0x2900 (0x0C + c / 2)
  let run (t : Strm) : Strm := { t with startBeat := (bed : Int) - t.startBeat }
  let s := foldS area.words (fun s w => s.setSpm c w.1 w.2.1 w.2.2) s
  let s := foldS ((List.range x.n).zip area.pairs) (fun s p =>
    s.setPair c (x.o + p.1) { p.2 with sa := run p.2.sa, sx := run p.2.sx }) s
  let s := foldS area.slots (fun s p => s.setSlot c (p.1 / 16) (p.1 % 16) p.2) s
  let s := foldS area.groups (fun s g => s.setGroup c g.1 g.2.1 g.2.2) s
  let s := foldS area.accs (fun s g => foldS g.2.2 (fun s e =>
    { s with accs := KV.set Acc.zero s.accs (((2 * c + g.1) * 2048 + e.1 / 128 % 2048) * 128 + e.1 % 128) e.2 }) s) s
  let s := foldS area.flags (fun s f => s.putFlag c f.1 f.2) s
  let s := s.setCtx k { s.ctx k with save := none, move := .still, dest := none, placed := true, ready := true, started := true, ranSlices := 0,
                                     stall := 0 }
  (s.cset k 0x07 c).cset k 0x01 csRunning

/-- The save area of a context that has not run (R318, R330): its sections' words in the resident range. -/
def State.firstSave (s : State) (k : Nat) : SaveArea :=
  let x := s.ctx k
  let words := (s.sectionWords k).foldl (fun m p => if x.resident p.1 then KV.set (0, false) m p.1 (p.2, false) else m) []
  { SaveArea.empty with words := words, pairs := (List.range x.n).map (fun i => x.startPair i 0) }

end Sys2Proof.Machine
end

