-- ==== Sys2Proof/Machine/Stalls.lean ====
section
/-! DEFINITION. The stall monitor and stop marks (R195, R199, R200): what each stream and column group holds on. -/

namespace Sys2Proof.Machine

/-- Nothing of a context is outstanding: remote operations, staging, the memory-side engine, the region unit (R195). -/
def State.quiet (s : State) (k : Nat) : Bool :=
  (s.ctx k).pairsOf.all (fun q =>
    let p := s.kPair k q
    p.outstanding.isEmpty && p.sa.ops.all (fun o =>
      o.complete || o.held || !([some UnitId.stager, some .remote, some .engine, some .region].contains (unitOf (Insn.op o.words)))))

/-- Every group of a context that streams or loads is locally blocked. -/
def State.groupsBlocked (s : State) (k : Nat) : Bool :=
  let c := s.ccore k
  (s.ctx k).owned.all (fun o =>
    let x := s.group c o.1 o.2.1
    (x.jobs.isEmpty || (s.groupHold c o.1 o.2.1).isSome) && (x.loading.isNone || (s.loadHold c o.1 o.2.1).isSome)
      && (match x.waiting with
        | none => true
        | some l => if l.split = s.split c o.1 then x.loading.isSome || x.shadow.isSome
            else [0, 1, 2, 3].any (fun g => (s.group c o.1 g).holdsChange l)))

/-- All conditions of R195 hold in the present beat. DEDUCED, log entry 35. -/
def State.crossBlocked (s : State) (k : Nat) : Bool :=
  let c := s.ccore k
  let x := s.ctx k
  let hs := x.streams.map (fun p => s.holdOf c p.1 p.2)
  hs.all (·.isSome) && s.quiet k && s.groupsBlocked k
    && (hs.any (fun h => match h with | some v => v.1 != 4 | none => false)
        || x.owned.any (fun o => !(s.group c o.1 o.2.1).jobs.isEmpty))

/-- The detail of a CROSS_WAIT record: one entry per stream (R195). -/
def State.crossDetail (s : State) (k : Nat) : List Byte :=
  let c := s.ccore k
  let x := s.ctx k
  x.streams.flatMap (fun p =>
    let h := (s.holdOf c p.1 p.2).getD (0, 0)
    bytesOf 4 ((s.strm c p.1 p.2).pos % 2 ^ 23 + h.1 * 2 ^ 23 + h.2 % 64 * 2 ^ 26))

/-- Beats of the stall monitor before it acts (R195). -/
def stallLimit : Nat := 4096

/-- The monitor's count has reached 4,096 beats (R195). -/
def State.crossWait (s : State) (k : Nat) : State :=
  let x := s.ctx k
  let c := s.ccore k
  if s.cstate k = csRunning && (s.runner c x.o) = some k && s.cget k 0x40 ≠ 2 && stallLimit ≤ x.stall && s.crossBlocked k then
    let unit := ucPair c x.o k
    ((s.reportCtx k 0x200A unit unit (s.crossDetail k)).noteDetail k (s.crossDetail k)).startTeardown k 0x200A
  else s

def execCrossWait (ctx : Fin 64) (s : State) : Host.Outcome State Fault Refusal := .next (s.fresh.crossWait ctx.val)

/-- Loads and stores that have issued can move no further word. -/
def State.accessBlocked (s : State) (k : Nat) : Bool :=
  let c := s.ccore k
  (s.ctx k).pairsOf.all (fun q =>
    let t := s.strm c q .a
    [UnitId.loader, .storer].all (fun u =>
      match t.ops.find? (fun o => unitOf (Insn.op o.words) == some u && !o.ran) with
      | none => true
      | some o => (s.opHold c q o).isSome || t.orderLimit o == some 0))

/-- A close that waits can still not take place. -/
def State.closesBlocked (s : State) (k : Nat) : Bool :=
  let c := s.ccore k
  (s.ctx k).pairsOf.all (fun q => (List.range 16).all (fun i =>
    match (s.slot c q i).closing with
    | none => true
    | some x => [0, 1].any (fun a => [0, 1, 2, 3].any (fun g => (s.group c a g).jobs.any (fun j =>
        j.pair == q && decide (j.seq ≤ x.seq) && Rec.slot j.record == i)))))

/-- A context is stopped at mark: every stream has stopped and nothing outstanding can go on (R199, R200). -/
def State.stopReached (s : State) (k : Nat) : State :=
  let s := s.stopCheck k
  let x := s.ctx k
  let c := s.ccore k
  if s.cstate k = csRunning && (s.runner c x.o) = some k && s.cget k 0x40 = 1
      && x.streams.all (fun p => (s.strm c p.1 p.2).stopped) && s.quiet k && s.groupsBlocked k && s.accessBlocked k && s.closesBlocked k then
    (s.cset k 0x40 2).statusCreator k 0x200E (ucPair c x.o k) []
  else s

def execStopReached (ctx : Fin 64) (s : State) : Host.Outcome State Fault Refusal := .next (s.fresh.stopReached ctx.val)

end Sys2Proof.Machine
end

