-- ==== Sys2Proof/Machine/Clock.lean ====
section
/-! DEFINITION. What passes with time alone: a nanosecond of the time base, the beats that the rings issue in it, and the stall
monitor's counts (R45, R195, R266, R269). -/

namespace Sys2Proof.Machine

/-- The stall monitor counts a beat of a bed: up where all conditions of R195 hold, else from 0. -/
def State.stallBeat (s : State) (bed : Nat) : State :=
  foldS (allCtx.filter (fun k => s.cstate k == csRunning && s.ccore k / 2 == bed)) (fun s k =>
    let x := s.ctx k
    let n := if s.crossBlocked k && s.cget k 0x40 != 2 then min 4096 (x.stall + 1) else 0
    if n = x.stall then s else s.setCtx k { x with stall := n }) s

/-- In a beat of a bed every stream that holds on a flag pending behind staging makes its choice (R277), and a stream that must stop at
the marks stops (R199). -/
def State.holdBeat (s : State) (bed : Nat) : State :=
  foldS (allCtx.filter (fun k => s.cstate k == csRunning && s.ccore k / 2 == bed)) (fun s k =>
    let s := foldS (s.ctx k).streams (fun s p =>
      match s.site (s.ccore k) p.1 p.2 with
      | some z => if (z.i.illegal p.2).isNone && !s.waitMet z then s.noteDramHold z else s
      | none => s) s
    s.stopCheck k) s

/-- A beat of a ring: its counter goes up (R269, R287). -/
def State.beat (s : State) (d : Nat) : State :=
  let s := s.dset 0x2900 (0x0C + d) ((s.dget 0x2900 (0x0C + d) + 1) % 2 ^ 64)
  if d < 4 then (s.holdBeat d).stallBeat d else s

/-- The beat cap of a bed in force: the object's, or the one a stress test set (R267, R287). -/
def State.beatCap (s : State) (b : Nat) : Nat := (KV.get none s.testCap b).getD (s.dget 0x2900 (3 + b))

/-- Each millisecond the mean beat rates of the last one are shown, and a bed within 2 % of its cap may report BEAT_SLOW again
(R268, R287). DESIGN CHOICE, log entry 186. -/
def State.measureRates (s : State) : State :=
  if s.timeNs < s.rateAt + 1000000 then s
  else
    let ns := s.timeNs - s.rateAt
    let s := foldS [0, 1, 2, 3, 4] (fun s d =>
      let n := s.dget 0x2900 (0x0C + d)
      let rate := (n - KV.get 0 s.rateMark d) * 1000 / ns
      let s := { s.dset 0x2900 (7 + d) (min 65535 rate) with rateMark := KV.set 0 s.rateMark d n }
      if d < 4 && s.beatCap d * 98 ≤ rate * 100 then { s with slowHeld := s.slowHeld &&& ~~~(BitVec.ofNat 4 (2 ^ d)) } else s) s
    { s with rateAt := s.timeNs }

/-- A nanosecond without a command. Which rings issue a beat in it is open (R266). DESIGN CHOICE, log entry 2. -/
def idleTick (s : State) : State :=
  let s := { s with sent := [], timeNs := s.timeNs + 1 }
  (foldS [0, 1, 2, 3, 4] (fun s d => if s.ringsOn.getLsbD d && Config.beatIssued d s.timeNs then s.beat d else s) s).measureRates

end Sys2Proof.Machine
end

