-- ==== Sys2Proof/Machine/Contexts.lean ====
section
/-! DEFINITION. The context commands (R311–R318, R335, R336) and the window commands (R238, R239). -/

namespace Sys2Proof.Machine

/-- A refusal that a chapter of its own gives to a command on a context: the object's last code holds it (R337).
DEDUCED, log entry 62. -/
def State.refuseCtx (s : State) (r : HRef) (k code : Nat) : State := (s.cset k 0x1B code).refuse r code

/-! ### CTX_CREATE (R311) -/

/-- The object of a context at its defaults. -/
def State.clearObject (s : State) (index : Nat) : State := { s with dict := s.dict.filter (fun e => e.1 / 256 != index) }

/-- DESIGN CHOICE, log entry 57. -/
def ctxCreate (p0 : BitVec 64) (r : HRef) (s : State) : State :=
  match allCtx.find? (fun k => s.cstate k == csFree) with
  | none => s.refuse r CTX_FULL
  | some k =>
    let s := (s.clearObject (0x2600 + k)).setCtx k .zero
    let s := { s with overruns := s.overruns.filter (fun e => e.1 / 64 != k) }
    let s := ((s.cset k 0x02 p0.toNat).cset k 0x03 (r.1 + 1)).cset k 0x01 csCreated
    s.complete r 0 k

def execCtxCreate (iss : Issuer) (p0 : BitVec 64) (s : State) : Host.Outcome State Fault Refusal :=
  .next (runCommand iss true .hosts stPOSM (p0 == 1 || p0 == 2) (ctxCreate p0) s.fresh)

/-! ### CTX_LOAD (R226, R312, R315, R383) -/

/-- What the device keeps of a container that it accepted. -/
def Ctx.withImage (x : Ctx) (d : Cont) (period : Nat) : Ctx :=
  { x with o := Cont.offset d, n := Cont.pairsN d, programs := (Cont.programs d).map (fun p => (p.1, p.2.length)),
           bounds := (Cont.programs d).map (fun p => (boundaryMap p.2).1), sections := Cont.secs d, containerLen := d.length,
           footprint := Cont.footprint d, localMask := (Cont.masks d).1, remoteMask := (Cont.masks d).2,
           windows := Cont.windows d, period := period, variants := if Cont.cls d = 1 then ttVariants (Cont.timetable d) else [] }

/-- A container takes its allotment, if one fits, and the context is loaded. -/
def State.keepContainer (s : State) (k : Nat) (d : Cont) : Option State :=
  let cls := Cont.cls d
  match s.findAllot (s.cget k 0x0B) (allotSize d.length cls (s.cget k 0x0D)) with
  | none => none
  | some a =>
    let save := a + alignUp d.length 32
    let x := { (s.ctx k).withImage d (ttPeriod (Cont.timetable d)) with allotAt := a, allotLen := allotSize d.length cls (s.cget k 0x0D) }
    let s := (s.writeBytes a d).setCtx k x
    let s := ((s.cset k 0x0C a).cset k 0x0F (if cls = 2 then save else 0)).cset k 0x0E (if cls = 2 then save + 0x800000 else save)
    let s := ((s.cset k 0x09 x.o).cset k 0x0A x.n).cset k 0x14 (s.swapRegion k x.footprint x.o x.n)
    some (((s.cset k 0x1C (Cont.version d)).cset k 0x1D (natOf (Cont.digest d))).cset k 0x01 csLoaded)

/-- The digest of the image a context holds. -/
def State.imageDigest (s : State) (k : Nat) : List Byte := bytesOf 32 (s.cget k 0x1D)

def codeReturned : Nat := 0x5041

/-- The body of a PARTITION_RETURNED record: the context, its open windows, and each window's generation (R424). -/
def State.returnedBody (s : State) (k : Nat) : List Byte :=
  let c := s.cget k 0x08
  let own (w : Nat) : Bool := (s.ctx k).heldWins.contains w
  bytesOf 1 k ++ List.replicate 7 0
    ++ bytesOf 8 ((List.range 64).foldl (fun a w => if own w && wnOpen (s.win c w) then a + 2 ^ w else a) 0)
    ++ (List.range 64).map (fun w => if own w then BitVec.ofNat 8 (wnGen (s.win c w)) else 0)

/-- The creator of a held context learns its windows (R381 step 8). -/
def State.sendReturned (s : State) (p k : Nat) : State := s.statusCreator k codeReturned (ucPart p) (s.returnedBody k)

/-- A held LC context is placed again: cleared, loaded, its windows open with the generations they hold; its creator is told
(R381 step 8, R383). -/
def State.replaceHeld (s : State) (p k : Nat) : State :=
  let c := s.ccore k
  let s := s.placeLC k c
  let s := s.setCtx k { s.ctx k with move := .heldByReset }
  ((openAll (s.ctx k).windows s k c).getD s).sendReturned p k

/-- A reload was accepted, or the wait for one has ended: with none left the partition goes on with its reset, and where step 8 is over
the time of step 9 counts from here (R383, R398). -/
def State.reloadEnd (s : State) (p : Nat) : State :=
  if allCtx.any (fun m => s.cstate m == csRunning && s.ccore m / 2 == p && (s.ctx m).move == .reloadWait) then s
  else
    let s := if s.pstate p = psReload then s.setPstate p psResetting else s
    if (s.part p).resetStep = 8 then s.setPart p { s.part p with step8At := some s.timeNs } else s

/-- The container of a held context in reload wait: it takes its place at once where step 8 is over, else with the others in step 8
(R383). -/
def State.reload (s : State) (k : Nat) (data : List Byte) : State :=
  let s := (s.writeBytes (s.cget k 0x0C) data).setCtx k { (s.ctx k).withImage data (ttPeriod (Cont.timetable data)) with move := .heldByReset }
  let p := s.ccore k / 2
  let s := if (s.part p).resetStep = 8 then s.replaceHeld p k else s
  s.reloadEnd p

def ctxLoad (k : Nat) (p2 : BitVec 64) (data : List Byte) (r : HRef) (s : State) : State :=
  let reload := s.cstate k == csRunning && (s.ctx k).move == .reloadWait
  if !(s.cstate k == csCreated || reload) then s.refuse r STATE_CONFLICT
  else
    let code := if data.length ≠ p2.toNat then some codeFormat else s.containerCode data (s.cclass k)
    match code with
    | some c => s.refuseCtx r k c
    | none =>
      if reload && Cont.digest data != s.imageDigest k then s.refuseCtx r k codeDigest
      else if !s.declOk k data then s.refuseCtx r k codeDecl
      else if reload then (s.reload k data).complete r 0 0
      else
        match s.keepContainer k data with
        | none => s.refuseCtx r k codeNoDram
        | some s => s.complete r 0 0

/-- DESIGN CHOICE, log entry 13. -/
def execCtxLoad (iss : Issuer) (p0 _p1 p2 : BitVec 64) (data : List Byte) (s : State) : Host.Outcome State Fault Refusal :=
  .next (runCommand iss true (.creator (pctx p0)) stPOSM (p0.toNat < 64) (ctxLoad (pctx p0) p2 data) s.fresh)

/-! ### CTX_START (R313, R314, R317, R318, R290, R388) -/

/-- Conditions of CTX_DECL beside placement. -/
def State.startDeclOk (s : State) (k : Nat) : Bool :=
  let x := s.ctx k
  let vf := s.cget k 0x20
  let b := vf % 32
  s.requestOk k x.n
    && (s.groupMates k).all (fun m => s.cget m 0x03 == s.cget k 0x03 && s.cclass m == s.cclass k)
    && !(s.cget k 0x90 != 0 && s.cget k 0x1F != 0)
    && (vf < 128 || (decide (b + 3 ≤ 31) && [0, 1, 2, 3].all (fun i => x.localMask.getLsbD (b + i))))
    && (!s.isLC k || x.period == s.dget 0x2401 0x01)

/-- The core the timetable variant in force or the fixed core names. -/
def State.namedCore (s : State) (k : Nat) : Nat :=
  let v := if s.isLC k then ((s.ctx k).variant s.variantNow).core else 255
  if v ≠ 255 then v else s.cget k 0x04

/-- A context's own entries at its start: choices, skip limit, stop marks, seed (R199, R278, R288). DEDUCED, log entry 36. -/
def State.latchStart (s : State) (k : Nat) : State :=
  let s := foldS [0x83, 0x84, 0x85, 0x86, 0x87, 0x31, 0x40] (fun s i => s.cset k i 0) s
  s.setCtx k { s.ctx k with marks := (List.range 8).map (fun i => s.cget k (0x38 + i)), skipLimit := s.cget k 0x30,
                            seed := s.cget k 0x81, reuse := s.cget k 0x82 }

/-- The place of an LC context (R317): the named core, or the first free one that meets the slot-start rule. -/
def State.lcCore (s : State) (k : Nat) : Option Nat :=
  let named := s.namedCore k
  if named ≠ 255 then (if s.placeFree k named true true then some named else none)
  else allCores.find? (fun c => s.placeFree k c true true && s.slotRule k c)

/-- The home core of a BE context (R318). -/
def State.beCore (s : State) (k : Nat) : Option Nat :=
  let named := s.namedCore k
  if named ≠ 255 then (if s.placeFree k named true true then some named else none)
  else allCores.find? (fun c => s.placeFree k c true true)

/-- A context on its way to a place loses it: it waits, or leaves its present place to wait. -/
def State.loseDest (s : State) (m : Nat) : State :=
  let x := s.ctx m
  s.setCtx m { x with dest := none, move := if x.move = .switchingIn then .still else x.move }

/-- BE contexts that hold part of an LC context's place leave at once, to the head of the queue (R317). DEDUCED, log entry 66. -/
def State.evict (s : State) (k c : Nat) : State :=
  let l := (s.occupants c).filter (fun m => m != k && !s.isLC m && !s.compatible c k m)
  let leaving := allCtx.filter (fun m => m != k && s.cstate m == csRunning && s.ccore m == c && !s.isLC m
    && (s.ctx m).move == .switchingOut && !s.compatible c k m)
  let ms := allCtx.filter (fun m => (l.contains m || leaving.contains m) && s.yields m)
  let s := foldS ms (fun s m =>
    if s.cstate m = csRunning && s.ccore m = c then s.saveOut m else s.loseDest m) s
  s.setWaiting (ms.filter (fun m => s.cstate m != csFinished) ++ s.waiting.filter (fun m => !ms.contains m))

/-- An LC context is placed, or `none` where a window of its image does not open (R317, R319, R238). DEDUCED, log entry 67. -/
def State.startLC (s : State) (k c : Nat) : Option State :=
  let s := s.evict k c
  let s := (((s.latchStart k).cset k 0x07 c).cset k 0x08 c).cset k 0x01 csRunning
  let s := s.placeLC k c
  openAll (s.ctx k).windows s k c

/-- A BE context takes its home core and joins the queue (R318). -/
def State.startBE (s : State) (k c : Nat) : Option State :=
  let s := (s.latchStart k).cset k 0x08 c
  let s := s.setCtx k { s.ctx k with save := some ((s.ctx k).save.getD (s.firstSave k)), owned := s.groupsOf k }
  match openAll (s.ctx k).windows s k c with
  | none => none
  | some s => some ((s.cset k 0x01 csWaiting).setWaiting (s.waiting ++ [k]))

/-- Whether a replica agrees with those of its group that have started (R290). -/
def State.replicaOk (s : State) (k home : Nat) : Bool :=
  let l := ((s.adGroup (s.cget k 0x90)).replicas).filter (fun m => s.cstate m != csFree)
  s.cclass k == 2 && decide (l.length < 3)
    && l.all (fun m => s.cget m 0x03 == s.cget k 0x03 && s.cget m 0x1D == s.cget k 0x1D && s.cget m 0x08 != home
      && (([0x81, 0x82] ++ (List.range 8).map (fun i => 0x92 + i)).all (fun i => s.cget m i == s.cget k i)))

/-- The replica takes the next index of its group (R290, R309); shards change with the count, so what was delivered is delivered again
(R299). -/
def State.joinGroup (s : State) (k : Nat) : State :=
  let g := s.cget k 0x90
  if g = 0 then s
  else
    let x := s.adGroup g
    (s.setAdGroup g { x with replicas := x.replicas ++ [k], batches := x.batches.map (fun b => { b with delivered := [] }) }).cset k 0x91 x.replicas.length

def codeAdaptDecl : Nat := 0x2090

/-- A replica that breaks its group's conditions is not started: reported with the group and the index it would take (R290, R310). -/
def State.refuseReplica (s : State) (r : HRef) (k : Nat) : State :=
  let g := s.cget k 0x90
  ((s.cset k 0x1B codeAdaptDecl).rep codeAdaptDecl (ucReplica g (s.adGroup g).replicas.length)).complete r codeAdaptDecl 0

/-- A start completes; its record lists the windows that it opened with their generations (R238). DEDUCED, log entry 187. -/
def State.completeStart (s : State) (r : HRef) (k : Nat) : State :=
  s.completeBody r 0 0 (if (s.ctx k).heldWins.isEmpty then [] else s.returnedBody k)

/-- A start that passed its declaration checks. -/
def State.startAt (s : State) (r : HRef) (k c : Nat) : State :=
  if s.isLC k then
    if !s.slotRule k c then s.refuseCtx r k codeDecl
    else
      match s.startLC k c with
      | some s => s.completeStart r k
      | none => ((s.cset k 0x1B codeWinDecl).rep codeWinDecl (ucCore c)).complete r codeWinDecl 0
  else if s.cget k 0x90 ≠ 0 && !s.replicaOk k c then s.refuseReplica r k
  else
    match s.startBE k c with
    | some s => (s.joinGroup k).completeStart r k
    | none => ((s.cset k 0x1B codeWinDecl).rep codeWinDecl (ucCore c)).complete r codeWinDecl 0

def ctxStart (k : Nat) (r : HRef) (s : State) : State :=
  if s.cstate k ≠ csLoaded then s.refuse r STATE_CONFLICT
  else if !s.startDeclOk k then s.refuseCtx r k codeDecl
  else if s.isLC k && s.namedCore k != 255 && !s.slotRule k (s.namedCore k) then s.refuseCtx r k codeDecl
  else
    match if s.isLC k then s.lcCore k else s.beCore k with
    | none => s.refuseCtx r k codePlace
    | some c => s.startAt r k c

def execCtxStart (iss : Issuer) (p0 : BitVec 64) (s : State) : Host.Outcome State Fault Refusal :=
  .next (runCommand iss true (.creator (pctx p0)) stPOSM (p0.toNat < 64) (ctxStart (pctx p0)) s.fresh)

/-! ### CTX_TEARDOWN (R331) -/

def codeTornDown : Nat := 0x20A5

def ctxTeardown (k : Nat) (r : HRef) (s : State) : State :=
  if s.cstate k = csTearing then (s.tearOne k codeTornDown).complete r 0 0
  else
    let s := (s.report codeTornDown (ucCtx k) (ucCtx k) [] (s.tearFaults k)).startTeardown k codeTornDown true
    s.setCtx k { s.ctx k with handles := (s.ctx k).handles ++ [r] }

def execCtxTeardown (iss : Issuer) (p0 : BitVec 64) (s : State) : Host.Outcome State Fault Refusal :=
  .next (runCommand iss true (.creator (pctx p0)) stPOSM (p0.toNat < 64) (ctxTeardown (pctx p0)) s.fresh)

/-! ### CTX_SAVE and CTX_RESTORE (R335, R336) -/

/-- DEDUCED, log entry 63. -/
def ctxSave (k : Nat) (p1 p2 : BitVec 64) (r : HRef) (s : State) : State :=
  if s.cclass k ≠ 2 || !(s.cstate k == csWaiting || s.cstate k == csFinished) then s.refuse r STATE_CONFLICT
  else
    let img := savedImage (s.cget k 0x14) (Config.saveEncode (SavedBody.mk (s.container k) (s.saved k)))
    if p2.toNat < img.length then s.refuse r CMD_PARAM else (s.hostWrite r.1 p1.toNat img).complete r 0 img.length

def execCtxSave (iss : Issuer) (p0 p1 p2 : BitVec 64) (s : State) : Host.Outcome State Fault Refusal :=
  .next (runCommand iss true (.creator (pctx p0)) stPOSM (p0.toNat < 64) (ctxSave (pctx p0) p1 p2) s.fresh)

/-- The container a saved image belongs to is the context's own where it holds one. DEDUCED, log entry 64. -/
def ctxRestore (k : Nat) (p2 : BitVec 64) (data : List Byte) (r : HRef) (s : State) : State :=
  if s.cstate k ≠ csCreated then s.refuse r STATE_CONFLICT
  else
    let b := Config.saveDecode (data.drop 64)
    let same := (s.ctx k).containerLen == 0 || Cont.digest b.container == s.imageDigest k
    let code := if data.length ≠ p2.toNat then some codeFormat else savedCode data same
    match code with
    | some c => s.refuseCtx r k c
    | none =>
      if s.cclass k ≠ 2 then s.refuse r STATE_CONFLICT
      else
        match s.keepContainer k b.container with
        | none => s.refuseCtx r k codeNoDram
        | some s => (s.setSaved k b.area).complete r 0 0

def execCtxRestore (iss : Issuer) (p0 _p1 p2 : BitVec 64) (data : List Byte) (s : State) : Host.Outcome State Fault Refusal :=
  .next (runCommand iss true (.creator (pctx p0)) stPOSM (p0.toNat < 64) (ctxRestore (pctx p0) p2 data) s.fresh)

/-! ### Windows (R238, R239) -/

/-- Whether a context's windows can be opened and closed. -/
def State.windowState (s : State) (k : Nat) : Bool :=
  csRunning ≤ s.cstate k && s.cstate k ≤ csFinished && s.cget k 0x08 < 8 && !s.isFenced (s.cget k 0x08 / 2)

def windowOpen (k w : Nat) (p2 p3 : BitVec 64) (r : HRef) (s : State) : State :=
  if !s.windowState k then s.refuse r STATE_CONFLICT
  else
    let c := s.cget k 0x08
    let e : BitVec 128 := p3 ++ p2
    if s.openBad k c w e then (s.rep codeWinDecl (ucCore c)).complete r codeWinDecl 0
    else
      let s := s.openWindow k c w e
      s.complete r 0 (wnGen (s.win c w))

def execWindowOpen (iss : Issuer) (p0 p1 p2 p3 : BitVec 64) (s : State) : Host.Outcome State Fault Refusal :=
  .next (runCommand iss true (.creator (pctx p0)) stPOSM (p0.toNat < 64 && p1.toNat < 64) (windowOpen (pctx p0) p1.toNat p2 p3) s.fresh)

def windowClose (k w : Nat) (r : HRef) (s : State) : State :=
  if !s.windowState k then s.refuse r STATE_CONFLICT
  else
    let c := s.cget k 0x08
    if !(s.ctx k).heldWins.contains w then s.refuse r NOT_OWNER
    else if !wnOpen (s.win c w) then s.complete r 0 (wnGen (s.win c w))
    else s.closeWindow k c w (some r)

def execWindowClose (iss : Issuer) (p0 p1 : BitVec 64) (s : State) : Host.Outcome State Fault Refusal :=
  .next (runCommand iss true (.creator (pctx p0)) stPOSM (p0.toNat < 64 && p1.toNat < 64) (windowClose (pctx p0) p1.toNat) s.fresh)

def execCloseTakesEffect (core : Fin 8) (win : Fin 64) (t : Nat) (s : State) : Host.Outcome State Fault Refusal :=
  .next ((s.fresh.atTime t).closeDue core.val win.val)

end Sys2Proof.Machine
end

