-- ==== Sys2Proof/Machine/Sched.lean ====
section
/-! DEFINITION. The scheduling of contexts: frame programs (R182, R188, R322, R323), slices and switches (R324–R328), slot
clearing (R346). -/

namespace Sys2Proof.Machine

/-! ### Frame programs -/

/-- An LC context that its frame program leaves running: placed, not held, not in teardown. -/
def State.lcReady (s : State) (k : Nat) : Bool :=
  s.cstate k == csRunning && s.isLC k && (s.ctx k).move == .still && (s.ctx k).ready

/-- The frame program is aborted: units and arrays stop, answers to its operations are no longer waited for (R322).
DEDUCED, log entry 72. -/
def State.abortLC (s : State) (k : Nat) : State :=
  let x := s.ctx k
  let c := s.ccore k
  let s := foldS x.pairsOf (fun s q =>
    let p := s.pair c q
    let stop (t : Strm) : Strm := { t with ops := [], atEnd := true }
    let s := s.setPair c q { p with sa := stop p.sa, sx := stop p.sx, outstanding := [] }
    foldS (List.range 16) (fun s i => s.setSlot c q i { s.slot c q i with closing := none }) s) s
  let s := foldS x.owned (fun s o => s.mapGroup c o.1 o.2.1 (fun g => { g with jobs := [], loading := none, waiting := none })) s
  s.setCtx k { s.ctx k with started := false, endedFrame := true }

/-- Words left in a queue are discarded, counted and reported (R182). -/
def State.residue (s : State) (k q n : Nat) : State :=
  if n = 0 then s
  else
    let unit := ucPair (s.ccore k) q k
    let s := s.cset k 0x36 ((s.cget k 0x36 + n) % 2 ^ 32)
    (s.reportCtx k 0x200D unit unit []).ctxFault k 0x200D false

/-- A stream at position 0 with its counters, comparators and count zero (R188, R199). -/
def Strm.restart (t : Strm) (len : Nat) (beat : Nat) : Strm :=
  { t with pos := 0, k0 := 0, k1 := 0, k2 := 0, k3 := 0, p0 := .zero, p1 := .zero, count := 0, atEnd := len == 0,
           stopped := false, waited := false, startBeat := beat }

/-- The frame program of an LC context starts (R182, R188, R288, R322, R388). DESIGN CHOICE, log entry 75. -/
def State.startFrame (s : State) (k : Nat) : State :=
  let s := s.setCtx k { s.ctx k with fp32Seen := [] }
  if !s.lcReady k || s.cget k 0x40 == 2 then s
  else
    let s := if s.allEnd k then s else (s.abortLC k).cbump k 0x1A
    let x := s.ctx k
    let c := s.ccore k
    let v := x.variant s.variantNow
    let s := (s.cset k 0x18 v.deadline).cset k 0x1E s.variantNow
    let s := foldS x.pairsOf (fun s q =>
      let p := s.pair c q
      let s := [p.oq0, p.oq1, p.oq2, p.oq3, p.rq0, p.rq1].foldl (fun s l => s.residue k q l.length) s
      let beat := s.dget 0x2900 (0x0C + c / 2)
      s.setPair c q { p with oq0 := [], oq1 := [], oq2 := [], oq3 := [], rq0 := [], rq1 := [],
                             sa := p.sa.restart (nth (0, 0) x.programs (x.streamIx q .a)).2 beat,
                             sx := p.sx.restart (nth (0, 0) x.programs (x.streamIx q .x)).2 beat }) s
    let vf := s.cget k 0x20
    let s := if vf < 128 then s else foldS [0, 1, 2, 3] (fun s p => s.putFlag c (vf % 32 + p) (bitAt s.outSet p)) s
    let s := s.cset k 0x40 0
    s.setCtx k { s.ctx k with started := true, endedFrame := false, stall := 0, seed := s.cget k 0x81, reuse := s.cget k 0x82,
                              marks := (List.range 8).map (fun i => s.cget k (0x38 + i)) }

/-- At a tick every context's per-frame counts start again, and a skip limit takes effect (R198, R201, R278). -/
def State.frameCounts (s : State) : State :=
  foldS (allCtx.filter (fun k => s.cstate k != csFree)) (fun s k =>
    ((s.cset k 0x31 0).cset k 0x83 0).setCtx k { s.ctx k with skipLimit := s.cget k 0x30, fp32Seen := [] }) s

/-- The deadline of an LC context passes before every stream is at END (R323), or in any frame while it is stopped at mark (R200). -/
def State.frameDeadline (s : State) (k : Nat) : State :=
  if s.dev = dsOp && s.lcReady k && (((s.ctx k).started && !s.allEnd k) || s.cget k 0x40 = 2) then
    ((s.report 0x20A3 (ucCtx k) (ucCtx k) [] true).ctxFault k 0x20A3 false).cbump k 0x19
  else s

def execFrameDeadline (ctx : Fin 64) (s : State) : Host.Outcome State Fault Refusal := .next (s.fresh.frameDeadline ctx.val)

/-! ### Slices (R324) -/

/-- Running BE contexts on cores the predicate takes. -/
def State.runningBE (s : State) (p : Nat → Bool) : List Nat :=
  allCtx.filter (fun k => s.cstate k == csRunning && !s.isLC k && (s.ctx k).move == .still && p (s.ccore k) && s.allotUp k)

/-- Contexts leave their places and join the tail of the queue (R324, R325). -/
def State.leave (s : State) (l : List Nat) : State :=
  (foldS l (fun s k => s.setCtx k { s.ctx k with move := .switchingOut }) s).setWaiting (s.waiting ++ l)

/-- Whether a waiting context may be dispatched to a core now (R281, R316, R324, R346). DEDUCED, log entry 70. -/
def State.mayDispatch (s : State) (k c : Nat) : Bool :=
  let home := s.cget k 0x08
  s.placeFree k c false (c == home) && !s.clearing.getLsbD c && !(s.part (c / 2)).underTest && s.allotUp k
    && (!s.strict || c == home)

/-- The walk of the queue from its head. -/
def walkQueue : List Nat → State → State
  | [], s => s
  | k :: r, s =>
    match allCores.find? (fun c => s.mayDispatch k c) with
    | none => walkQueue r s
    | some c =>
      let x := s.ctx k
      let s := s.setCtx k { x with dest := some c, move := if s.cstate k = csWaiting then .switchingIn else x.move }
      walkQueue r (s.setWaiting (s.waiting.filter (· != k)))

/-- DEDUCED, log entry 68. -/
def State.sliceBoundary (s : State) : State :=
  if s.dev ≠ dsOp && s.dev ≠ dsMaint then s
  else
    let run := s.runningBE (fun _ => true)
    let out := if s.waiting.isEmpty then [] else run.filter (fun k => 1 ≤ (s.ctx k).ranSlices && s.cget k 0x40 != 2)
    let s := foldS run (fun s k => s.setCtx k { s.ctx k with ranSlices := (s.ctx k).ranSlices + 1 }) s
    let s := s.leave out
    walkQueue s.waiting s

def execSliceBoundary (t : Nat) (s : State) : Host.Outcome State Fault Refusal := .next ((s.fresh.atTime t).sliceBoundary)

/-! ### Switches (R325–R327) -/

/-- A switch-out: saved, its place released, late arrivals applied; at END it is finished, and dispatched already it comes back. -/
def State.switchOut (s : State) (k : Nat) : State :=
  let c := s.ccore k
  let dest := (s.ctx k).dest
  let s := s.saveOut k
  let s :=
    if s.cstate k = csFinished then (s.setWaiting (s.waiting.filter (· != k))).setCtx k { s.ctx k with dest := none }
    else if dest.isSome then s.setCtx k { s.ctx k with move := .switchingIn }
    else s
  s.releaseLate c

/-- A switch-in, once whoever held the place has left it. A core in slot clearing lets it go at once (R346).
DEDUCED, log entry 71. -/
def State.switchIn (s : State) (k c : Nat) : State :=
  let held := allCtx.any (fun m => m != k && s.ccore m == c && !s.compatible c k m
    && ((s.cstate m == csRunning && (s.ctx m).move == .switchingOut) || s.cstate m == csTearing))
  if held || s.isFenced (c / 2) || !s.allotUp k then s
  else
    let last := (s.ctx k).lastCore
    let s := (s.restoreIn k c).cbump k 0x15
    let s := if last ≠ 0 && last ≠ c + 1 then s.choice k 2 else s
    let s := s.releaseLate c
    if s.clearing.getLsbD c then s.leave [k] else s.finishCheck k

def State.switch (s : State) (k : Nat) : State :=
  match (s.ctx k).move, (s.ctx k).dest with
  | .switchingOut, _ => if s.cstate k = csRunning && s.allotUp k && !s.isFenced (s.ccore k / 2) then s.switchOut k else s
  | .switchingIn, some c => s.switchIn k c
  | _, _ => s

def execSwitch (ctx : Fin 64) (s : State) : Host.Outcome State Fault Refusal := .next (s.fresh.switch ctx.val)

/-! ### Slot clearing (R346) -/

/-- DEDUCED, log entry 69. -/
def State.slotClearing (s : State) (c : Nat) : State :=
  let s := { s with clearing := s.clearing ||| BitVec.ofNat 8 (2 ^ c) }
  s.leave (s.runningBE (fun d => d == c))

def execSlotClearing (core : Fin 8) (s : State) : Host.Outcome State Fault Refusal := .next (s.fresh.slotClearing core.val)

end Sys2Proof.Machine
end

