-- ==== Sys2Proof/Machine/Recovery.lean ====
section
/-! DEFINITION. Fences, holds and the steps of a partition reset (R377–R387, R397), the commands that start one, and what ends
in one. -/

namespace Sys2Proof.Machine

def codeSelfTest : Nat := 0x5042
def codeRetired : Nat := 0x5043
def codeReload : Nat := 0x5044
def codeReloadTimeout : Nat := 0x5045
def codeDramTrain : Nat := 0x504A
def codeLinkFail : Nat := 0x300F
def codeLinkDegraded : Nat := 0x300E

/-! ### Contexts on a fenced partition (R380) -/

/-- Every window a context holds closes, after any wait for its spacing (R239). -/
def State.closeHeld (s : State) (k : Nat) : State :=
  let c := s.cget k 0x08
  if 8 ≤ c then s else foldS (s.ctx k).heldWins (fun s w => if wnOpen (s.win c w) then s.closeWindow k c w none else s) s

/-- An LC context is held: steps 1 to 4 of R332; its place, number, windows and allotment stay its own (R380). -/
def State.holdLC (s : State) (k : Nat) : State :=
  let c := s.ccore k
  let s := (s.closeHeld k).clearUnits k c
  s.setCtx k { s.ctx k with move := .heldByReset, ready := false, started := false, endedFrame := true }

/-- The contexts that a partition holds: a home core or a present place on it. -/
def State.onPart (s : State) (p k : Nat) : Bool :=
  let core (c : Nat) : Bool := decide (c < 8) && c / 2 == p
  s.cstate k != csFree && s.cstate k != csTearing && (core (s.ccore k) || core (s.cget k 0x08))

/-- BE contexts that a dispatch has chosen a place for on a partition, and that are not on it. -/
def State.boundFor (s : State) (p : Nat) : List Nat :=
  allCtx.filter (fun k => !s.onPart p k && s.cstate k != csFree && s.cstate k != csTearing
    && (match (s.ctx k).dest with | some c => c / 2 == p | none => false))

/-- BE contexts on their way to a partition lose the place and wait at the head of the queue. DEDUCED, log entry 185. -/
def State.turnBack (s : State) (p : Nat) : State :=
  let l := s.boundFor p
  (foldS l (fun s k => s.loseDest k) s).setWaiting (l ++ s.waiting.filter (fun k => !l.contains k))

/-- BE contexts of the partition are torn down, placed LC contexts held (R380). -/
def State.clearPart (s : State) (p : Nat) : State :=
  foldS (allCtx.filter (s.onPart p)) (fun s k =>
    if s.isLC k then (if s.cstate k = csRunning && (s.ctx k).move = .still then s.holdLC k else s)
    else (s.rep codePartReset (ucCtx k)).startTeardown k codePartReset) (s.turnBack p)

/-! ### The end of a reset -/

/-- The partition returns to service (R381 step 9, R351, R352). -/
def State.returnPart (s : State) (p : Nat) : State :=
  let x := s.part p
  let s := s.setPart p { x with fenced := false, resetStep := 0, handles := [], step8At := none, safeCause := false, underTest := false,
                                linkHit := false, returning := false }
  let s := (s.setPstate p psIn).setOut p false
  let s := foldS (s.runningLC.filter (fun k => s.ccore k / 2 == p && (s.ctx k).move == .heldByReset)) (fun s k =>
    s.setCtx k { s.ctx k with move := .still, ready := true }) s
  let s := foldS [2 * p, 2 * p + 1] (fun s c => { s.dset 0x2700 (0x13 + c) 0 with disagreements := KV.set [] s.disagreements c [] }) s
  let s := s.dset 0x2700 0x1B (s.dget 0x2700 0x1B ||| (3 * 4 ^ p))
  foldS x.handles (fun s r => s.complete r 0 0) s

/-- At a tick every partition whose step 8 lies a frame period back returns. -/
def State.returnDue (s : State) : State :=
  foldS allParts (fun s p =>
    match (s.part p).step8At with
    | some t => if (s.part p).resetStep = 8 && t + s.periodNs ≤ s.timeNs then s.returnPart p else s
    | none => s) s

/-! ### Steps of R381 -/

/-- The two ring links of a bed. -/
def ringNext (p : Nat) : Nat := 4 + p
def ringPrev (p : Nat) : Nat := 4 + (p + 3) % 4

/-- A link's rate after training (R253, R377). -/
def State.trainLink (s : State) (l : Nat) (r : LinkTrain) : State :=
  let bad := s.dget 0x2500 0x0F
  let ok (s : State) : State := s.dset 0x2500 0x0F (if bitAt bad l then bad - 2 ^ l else bad)
  match r with
  | .failed => ((s.dset 0x2500 0x0F (bad ||| 2 ^ l)).dset 0x2500 (0x10 + l) 0).rep codeLinkFail (ucLink l)
  | .half => ((ok s).dset 0x2500 (0x10 + l) 16).rep codeLinkDegraded (ucLink l)
  | .repaired => ((ok s).dset 0x2500 (0x10 + l) 32).rep codeLinkDegraded (ucLink l)
  | .full => (ok s).dset 0x2500 (0x10 + l) 32

/-- Whether a partition has had its retire count of resets within the retire window (R384). DEDUCED, log entry 90. -/
def State.retired (s : State) (p : Nat) : Bool :=
  let n := s.dget 0x2500 0x0A
  let recent := (s.part p).resets.filter (fun t => decide (s.timeNs ≤ t + s.dget 0x2500 0x0B * 60000000000))
  n != 0 && decide (n ≤ recent.length)

/-- The step before which a partition reset stands. -/
def partStepIx : PartStep → Nat
  | .contexts => 1
  | .hold => 2
  | .selfTest _ => 3
  | .links _ _ _ => 4
  | .dram _ => 5
  | .verify _ _ => 6
  | .replace => 7

def State.setStep (s : State) (p n : Nat) : State := s.setPart p { s.part p with resetStep := n }

/-- The held LC contexts of a partition in state 3. -/
def State.heldOn (s : State) (p : Nat) (m : CtxMove) : List Nat :=
  s.runningLC.filter (fun k => s.ccore k / 2 == p && (s.ctx k).move == m)

/-- Block `n` of a partition: block n / 8 of its channel n mod 8, whose seven data granules of 256 bytes lie 2,048 bytes apart
(R256, R257). -/
def blockGranules (p n : Nat) : List Nat := (List.range 7).map (fun i => dramBase p + 2048 * (7 * (n / 8) + i) + 256 * (n % 8))
/-- The block of a byte of a partition. -/
def blockOf (u : Nat) : Nat := 8 * (u / 2048 / 7) + u / 256 % 8

/-- Step 7: damaged blocks are rewritten with zeros and the containers of held contexts verified (R381, R383).
DESIGN CHOICE, log entry 92. -/
def State.verifyPart (s : State) (p : Nat) (blocks : List Nat) (bad : List (Fin 64)) : State :=
  let own := (s.ecc.filter (fun e => e.2 == 2 && s.regionOf (8 * e.1) == .dram p)).map (fun e => blockOf (8 * e.1 - dramBase p))
  let s := foldS (blocks ++ own) (fun s b => foldS (blockGranules p b) (fun s a => s.zeroRange a 256) s) s
  foldS (s.heldOn p .heldByReset) (fun s k =>
    if bad.any (fun b => b.val == k) || !Cont.digestOk (s.container k) || Cont.digest (s.container k) != s.imageDigest k then
      let s := (s.rep codeReload (ucCtx k)).setCtx k { s.ctx k with move := .reloadWait }
      (s.setPstate p psReload).statusCreator k codeReload (ucCtx k) []
    else s) s

/-- Step 8: once the closes of R380 have taken effect, the held contexts with intact containers are placed again and their creators told;
a retired partition stays out. -/
def State.replacePart (s : State) (p : Nat) : State :=
  if (s.heldOn p .heldByReset).any (fun k => (s.ctx k).heldWins.any (fun w => (KV.get none s.closing (winKey (s.cget k 0x08) w)).isSome)) then s
  else if s.retired p then (s.rep codeRetired (ucPart p)).endOut p codeRetired
  else
    let s := s.rep codeReturned (ucPart p)
    let s := foldS (s.heldOn p .heldByReset) (fun s k => s.replaceHeld p k) s
    let x := s.part p
    s.setPart p { x with resetStep := 8, step8At := if s.heldOn p .reloadWait = [] then some s.timeNs else none }

/-- A ring starts; in a low-power state it starts at the exit (R270, R462). -/
def State.startRing (s : State) (d : Nat) : State :=
  let one := BitVec.ofNat 5 (2 ^ d)
  if s.dget 0x2100 1 = 0 then { s with ringsOn := s.ringsOn ||| one } else { s with lpRings := s.lpRings ||| one }

/-- A bed's ring stops at once, and no exit from low power starts it (R270, R381). -/
def State.stopRing (s : State) (d : Nat) : State :=
  let rest := ~~~(BitVec.ofNat 5 (2 ^ d))
  { s with ringsOn := s.ringsOn &&& rest, lpRings := s.lpRings &&& rest }

def State.partStep (s : State) (p : Nat) (step : PartStep) : State :=
  if (s.part p).resetStep ≠ partStepIx step then s
  else
    match step with
    | .contexts => (s.clearPart p).setStep p 2
    | .hold => ((s.stopRing p).dset 0x2900 (0x0C + p) 0).setStep p 3
    | .selfTest ok =>
      let s := foldS [2 * p, 2 * p + 1] (fun s c => s.zeroRange (spmBase c) 0x3000000) s
      if ok then (s.startRing p).setStep p 4
      else (s.rep codeSelfTest (ucPart p)).endOut p codeSelfTest
    | .links b n q =>
      let s := ((s.trainLink p b).trainLink (ringNext p) n).trainLink (ringPrev p) q
      if b = .failed || (s.part p).failCode ≠ 0 then s.endOut p codeLinkFail else s.setStep p 5
    | .dram ok => if ok then s.setStep p 6 else (s.rep codeDramTrain (ucPart p)).endOut p codeDramTrain
    | .verify blocks bad => (s.verifyPart p blocks bad).setStep p 7
    | .replace => s.replacePart p

def execPartitionResetSequence (part : Fin 4) (step : PartStep) (t : Nat) (s : State) : Host.Outcome State Fault Refusal :=
  .next ((s.fresh.atTime t).partStep part.val step)

/-- No container came within the reload timeout (R383). -/
def State.reloadTimeout (s : State) (k : Nat) : State :=
  if s.cstate k = csRunning && (s.ctx k).move = .reloadWait then
    let p := s.ccore k / 2
    let s := (s.rep codeReloadTimeout (ucCtx k)).startTeardown k codeReloadTimeout
    s.reloadEnd p
  else s

def execReloadTimeout (ctx : Fin 64) (s : State) : Host.Outcome State Fault Refusal := .next (s.fresh.reloadTimeout ctx.val)

/-! ### Commands (R379, R385, R386) -/

def partOk (p0 : BitVec 64) : Bool := p0.toNat < 4

def partitionReset (p : Nat) (r : HRef) (s : State) : State := s.startPartReset p codeResetCommanded false (some r) r.1

def execPartitionReset (iss : Issuer) (p0 : BitVec 64) (s : State) : Host.Outcome State Fault Refusal :=
  .next (runCommand iss true .confHosts stPOM (partOk p0) (partitionReset p0.toNat) s.fresh)

def partitionOut (p : Nat) (r : HRef) (s : State) : State :=
  if (s.part p).resetting then s.refuse r STATE_CONFLICT
  else if bitAt s.outSet p then s.complete r 0 0
  else (((s.fence p).clearPart p).setPstate p psOut).complete r 0 0

def execPartitionOut (iss : Issuer) (p0 : BitVec 64) (s : State) : Host.Outcome State Fault Refusal :=
  .next (runCommand iss true .confHosts stPOM (partOk p0) (partitionOut p0.toNat) s.fresh)

/-- DEDUCED, log entry 93. -/
def partitionIn (p : Nat) (r : HRef) (s : State) : State :=
  if (s.part p).resetting then s.refuse r STATE_CONFLICT
  else if !bitAt s.outSet p then s.complete r 0 0
  else s.startPartReset p codeResetCommanded false (some r) r.1

def execPartitionIn (iss : Issuer) (p0 : BitVec 64) (s : State) : Host.Outcome State Fault Refusal :=
  .next (runCommand iss true .confHosts stPOM (partOk p0) (partitionIn p0.toNat) s.fresh)

/-! ### Links, beat rates, patrol scrub (R260, R268, R377) -/

/-- The adapter of a die link gave up on a flit (R377). -/
def State.flitRetryFailure (s : State) (l : Nat) : State := if s.linkFailed l then s else s.linkFail l

def execFlitRetryFailure (link : Fin 8) (s : State) : Host.Outcome State Fault Refusal := .next (s.fresh.flitRetryFailure link.val)

/-- A bed's beat rate stayed more than 2 % below its cap for 1 ms (R268): counted once until the bed is at its cap again; under a stress
test not reported (R394).
DEDUCED, log entry 94. -/
def State.beatSlow (s : State) (b : Nat) : State :=
  if s.slowHeld.getLsbD b then s
  else
  let s := { s.dbump 0x2900 (0x11 + b) with slowHeld := s.slowHeld ||| BitVec.ofNat 4 (2 ^ b) }
  if (s.part b).underTest && (match s.activity with | some a => a.code == 1 | none => false) then s else s.rep 0x5030 (ucBed b)

def execBeatSlow (bed : Fin 4) (s : State) : Host.Outcome State Fault Refusal := .next (s.fresh.beatSlow bed.val)

/-- Granules of a channel: in each block seven of data and the check granule (R257, R395). -/
def State.granules (s : State) : Nat := s.usable / 14336 * 8

/-- The address of 8-byte data part `d` of block `j` of a channel (R256, R257). -/
def partAddr (ch j d : Nat) : Nat := dramBase (ch / 8) + 2048 * (7 * j + d / 32) + 256 * (ch % 8) + 8 * (d % 32)

/-- The data part that finding `x` in granule `n` of a channel concerns: the part itself, or the part of a check byte (R257). -/
def findingAddr (ch n x : Nat) : Nat := partAddr ch (n / 8) (if n % 8 < 7 then 32 * (n % 8) + x % 32 else x)

/-- Whether a partition's DRAM is scrubbed: in RUN, in no reset (R260). -/
def State.scrubs (s : State) (p : Nat) : Bool := s.dget 0x2100 1 == 0 && s.devReset == 0 && !(s.part p).resetting

/-- A scrub access of a channel: its errors corrected or reported, the position moved on (R260, R261). -/
def State.patrolScrub (s : State) (ch : Nat) (f : EccFinding) : State :=
  if !s.scrubs (ch / 8) || s.granules == 0 then s
  else
    let n := KV.get 0 s.scrubPos ch
    let next := (n + 1) % s.granules
    let s := { s with scrubPos := KV.set 0 s.scrubPos ch next }
    let s := if n % 8 < 7 then foldS (List.range 8) (fun s i => s.touch (findingAddr ch n (4 * i))) s else s
    match f with
    | .clean => s
    | .corrected x => s.corrected (findingAddr ch n x.val)
    | .uncorrectable x => s.uncorrectable (findingAddr ch n x.val)

def execPatrolScrub (channel : Fin 32) (finding : EccFinding) (s : State) : Host.Outcome State Fault Refusal :=
  .next (s.fresh.patrolScrub channel.val finding)

end Sys2Proof.Machine
end

