-- ==== Sys2Proof/Machine/Boot.lean ====
section
/-! DEFINITION. Device reset, boot, the reset pins, and attestation (R389–R391, R447–R458, R472, R480). -/

namespace Sys2Proof.Machine

def codeDeviceReset : Nat := 0x5046
def codeTrust : Nat := 0x5007
def codeThermal : Nat := 0x5012
def codeBootQspi : Nat := 0x5006

/-! ### The firmware image (R448, R449) -/

def allZero (l : List Byte) : Bool := l.all (· == 0)

/-- The body of an image, as its header measures it. -/
def fwBodyLen (d : List Byte) : Nat := fieldAt d 16 4
def fwBody (d : List Byte) : List Byte := slice d 1024 (fwBodyLen d)

/-- Check 1 of R449; `d` is what holds the image. -/
def fwFormatOk (d : List Byte) : Bool :=
  decide (1024 ≤ d.length) && slice d 0 4 == ascii "VXFW" && fieldAt d 4 2 == 1 && allZero (slice d 7 1) && allZero (slice d 14 2)
    && fieldAt d 13 1 / 16 == 0 && allZero (slice d 20 12) && allZero (slice d 452 188)
    && decide (1 ≤ fwBodyLen d) && decide (fwBodyLen d ≤ 8387584) && decide (1024 + fwBodyLen d ≤ d.length)

/-- Check 2: the modulus and exponent hash to the fused hash of the index, which is not revoked. -/
def State.fwKeyOk (s : State) (d : List Byte) : Bool :=
  let i := fieldAt d 6 1
  decide (i < 4) && sha256 (slice d 64 388) == bytesOf 32 (s.fuse (575 + 256 * i) (320 + 256 * i)) && !bitAt (s.fuse 1347 1344) i

/-- The first failing check of R449, if any. -/
def State.bootCode (s : State) (d : List Byte) : Option Nat :=
  if !fwFormatOk d then some 0x5001
  else if !s.fwKeyOk d then some 0x5002
  else if !pssVerify (slice d 64 384) 65537 (ascii "VXFB" ++ slice d 0 640) (slice d 640 384) then some 0x5003
  else if fieldAt d 12 1 < s.rollback then some 0x5004
  else if sha256 (fwBody d) != slice d 32 32 then some 0x5005
  else none

/-! ### The trust record (R457) -/

/-- The integrator root key of a trust record, or nothing where the record is not accepted: modulus and exponent. -/
def State.trustOf (s : State) (r : List Byte) : List Byte :=
  let fused := bytesOf 32 (s.fuse 1667 1412)
  if slice r 0 4 == ascii "VXTR" && fieldAt r 4 2 == 1 && decide (404 ≤ r.length) && !allZero fused && sha256 (slice r 16 388) == fused
  then slice r 16 388 else []

/-! ### The event log across a reset (R389, R391, R451 step 6) -/

/-- The records kept in always-on memory open the log, closed. -/
def State.restoreLog (s : State) : State :=
  let n := s.aonLog.length / 64
  let s := foldS (List.range n) (fun s i =>
    let r := slice s.aonLog (64 * i) 64
    s.writeBytes (logBaseAddr + 64 * i) (setAt r 2 (nth 0 r 2 &&& 0xFE))) s
  { (s.dset 0x2800 1 n).dset 0x2800 2 n with aonLog := [] }

/-- The codes held in always-on memory are reported (R459, R480, R389). -/
def State.reportHeld (s : State) : State :=
  foldS s.aonCodes (fun s c => s.rep c (if c = 0x4004 || c = 0x4005 then ucSm else ucDevice)) { s with aonCodes := [] }

/-! ### Steps of a device reset (R389) -/

/-- A handle generation after a loss, a CAN reset or a device reset (R419). -/
def nextGen (g : Nat) : Nat := if 255 ≤ g then 1 else g + 1
def State.raiseGen (s : State) (i : Nat) : State := s.dset 0x2500 (0x45 + i) (nextGen (s.dget 0x2500 (0x45 + i)))

/-- A port's registers at their defaults; what the link and the pin are stays. -/
def PortState.cleared (h : HostPort) (p : PortState) : PortState :=
  { PortState.reset h with linkUp := p.linkUp, busMaster := p.busMaster, perst := p.perst }

/-- Entries that a device reset carries over: resets counted, handle generations, the device state, and a safe state in force
until a valid FIW (R363, R391, R419). -/
def State.carryDict (s t : State) : State :=
  let t := foldS [0x0E, 0x40, 0x45, 0x46, 0x47] (fun t i => t.dset 0x2500 i (s.dget 0x2500 i)) t
  if s.safeState = 0 then t else (t.setSafe 2).dset 0x2700 0x05 (s.dget 0x2700 0x05)

/-- Everything but always-on memory, fuses, pins and what lies outside the device is at its reset value (R391).
DEDUCED, log entry 97. -/
def State.heldInReset (s : State) : State :=
  let t : State := { State.reset with
    pending := s.pending, timeNs := s.timeNs, sent := s.sent, hostMem := s.hostMem, freeIx := s.freeIx, life := s.life,
    fuses := s.fuses, aonLog := s.aonLog, aonCodes := s.aonCodes, devReset := 3, devCause := s.devCause, devLater := s.devLater,
    resetCause := s.resetCause, laterCauses := s.laterCauses, poresetN := s.poresetN, thermalHold := s.thermalHold,
    pwrGood := s.pwrGood, rateAt := s.timeNs, portA := s.portA.cleared .a, portB := s.portB.cleared .b,
    owedReset := [0, 1].filter (fun h => s.admitted h || s.owedReset.contains h) }
  foldS [0, 1, 2] (fun t i => t.raiseGen i) (s.carryDict t)

/-- The firmware of an accepted image starts: in RECOVERING after a device reset (R451 step 6). -/
def State.startFirmware (s : State) (src : Nat) (d : List Byte) : State :=
  let s := { s with romWait := false, bootDue := false, bootDigest := sha256 (slice d 0 1024 ++ fwBody d), imageLevel := fieldAt d 12 1,
                    imageRevoke := fieldAt d 13 1 % 16, romSource := src, fuseBlowDue := s.fuseBlowDue || s.devReset != 0,
                    aonCodes := if s.trustKey = [] then s.aonCodes ++ [codeTrust] else s.aonCodes }
  let s := ((s.dset 0x2000 0x05 (fieldAt d 8 4)).dset 0x2000 0x07 src).dset 0x2000 0x0D (fieldAt d 6 1)
  let s := s.dset 0x100A 0 (natOf (hexDigits (fieldAt d 8 4)))
  if s.devReset = 0 then s
  else
    let s := { s with devReset := 4 }.dset 0x2500 0x40 dsRecovering
    { s.restoreLog.reportHeld with ringsOn := 0x10 }

/-- The boot ROM and what it finds in the flash (R451, R453): the image starts, or the ROM waits for a host.
DEDUCED, log entry 103. -/
def State.bootFlash (s : State) (flash : List Byte) : State :=
  let s := { s with trustKey := s.trustOf (flash.drop 0x800000) }
  match if flash.isEmpty then some codeBootQspi else s.bootCode flash with
  | some c => { s with romWait := true, aonCodes := s.aonCodes ++ [c] }
  | none => s.startFirmware 0 flash

/-- A partition that a step of the device reset leaves out of service (R384). -/
def State.leaveOut (s : State) (p : Nat) : State := (s.fence p).setPstate p psOut

/-- Steps 4 and 5: beds tested, die links trained. -/
def State.resetTest (s : State) (ok : List Bool) (links : List LinkTrain) : State :=
  let s := foldS allParts (fun s p =>
    if nth true ok p then s.startRing p else (s.rep codeSelfTest (ucPart p)).leaveOut p) s
  let s := foldS (List.range 8) (fun s l => s.trainLink l (nth .full links l)) s
  foldS allParts (fun s p => if s.linkFailed p && !s.isFenced p then s.leaveOut p else s) s

/-- Step 5: the channels of each partition train, at one rate. -/
def State.resetDram (s : State) (ok : List Bool) (rate : DramRate) (fitted : DramSize) : State :=
  let s := foldS allParts (fun s p =>
    if nth true ok p || s.isFenced p then s else (s.rep codeDramTrain (ucPart p)).leaveOut p) s
  { (s.dset 0x2500 0x22 rate.mts).dset 0x2500 0x23 fitted.gib with fitted := fitted.gib }

/-- Step 6: DRAM is zero, the device is in PRE-OPERATIONAL, host states follow the links (R402). DEDUCED, log entry 96. -/
def State.resetDone (s : State) : State :=
  let s := foldS allParts (fun s p => s.zeroRange (dramBase p) s.usable) s
  let s := { s with devReset := 0 }.dset 0x2500 0x40 dsPreOp
  let s := foldS [0, 1] (fun s h => s.setHostState h (if (s.port (portOf h)).linkUp then 1 else 0)) s
  let s := (s.dset 0x2500 0x0D s.devCause).dset 0x2700 0x1B 0xFF
  s.report codeDeviceReset ucDevice ucDevice (bytesOf 2 s.devCause ++ bytesOf 2 s.resetCause)

def State.devStep (s : State) (step : DevStep) : State :=
  match step with
  | .record => if s.devReset = 1 then { s with devReset := 2 } else s
  | .resetHold => if s.devReset = 2 then s.heldInReset else s
  | .boot flash => if (s.devReset = 3 || s.bootDue) && s.poresetN && !s.thermalHold && !s.romWait then s.bootFlash flash else s
  | .selfTest ok links => if s.devReset = 4 then { s.resetTest ok links with devReset := 5 } else s
  | .dram ok rate fitted => if s.devReset = 5 then { s.resetDram ok rate fitted with devReset := 6 } else s
  | .clear => if s.devReset = 6 then s.resetDone else s

def execDeviceResetSequence (step : DevStep) (t : Nat) (s : State) : Host.Outcome State Fault Refusal :=
  .next ((s.fresh.atTime t).devStep step)

/-- DEVICE_RESET (R389): complete on acceptance, its record written before the reset begins. -/
def deviceReset (r : HRef) (s : State) : State := (s.complete r 0 0).startDevReset codeResetCommanded false r.1

def execDeviceReset (iss : Issuer) (s : State) : Host.Outcome State Fault Refusal :=
  .next (runCommand iss true .confHosts stAll true deviceReset s.fresh)

/-! ### A boot from a host (R452, R453) -/

/-- The image buffer of the boot ROM: what BAR2 offsets write to. DESIGN CHOICE, log entry 100. -/
def romBuffer : Nat := lsBase

/-- Go from a port: the buffer is verified, and its image starts or is refused. DESIGN CHOICE, log entry 98. -/
def State.go (s : State) (h : Nat) : State :=
  if !s.romWait then s
  else
    let p := s.port (portOf h)
    let d := s.readBytes romBuffer p.romLength.toNat
    match s.bootCode d with
    | some c => { s with aonCodes := s.aonCodes ++ [c] }.setPort (portOf h) { p with romState := 4, romCode := c }
    | none => s.startFirmware (h + 1) d

def execGo (port : HostPort) (s : State) : Host.Outcome State Fault Refusal := .next (s.fresh.go (hostIx port))

/-! ### Pins of the reset (R363, R389, R472, R480) -/

/-- What PORESET_N or a thermal trip does: a safe-state cause without a code; a device reset starts again from step 1. -/
def State.powerOnReset (s : State) : State := s.enterSafe 0 .device true

def execPoresetN (s : State) : Host.Outcome State Fault Refusal := .next { s.fresh.powerOnReset with poresetN := false }

/-- PORESET_N high, with the always-on domain powered: the boot ROM can start (R389 step 2, R472). -/
def execPoresetNRelease (s : State) : Host.Outcome State Fault Refusal :=
  .next (if s.pwrEn = 0 && s.dev ≠ dsLowPower then s.fresh else { s.fresh with poresetN := true })

def execThermalTrip (s : State) : Host.Outcome State Fault Refusal :=
  let t := s.fresh.powerOnReset
  .next { t with thermalHold := true, aonCodes := t.aonCodes ++ [codeThermal] }

def execThermalRelease (s : State) : Host.Outcome State Fault Refusal := .next { s.fresh with thermalHold := false }

/-- VAON applied: the state right after reset, with the fuses as they were blown (R414, R447). -/
def State.poweredUp (s : State) : State :=
  { State.reset with pending := s.pending, timeNs := s.timeNs, hostMem := s.hostMem, freeIx := s.freeIx, fuses := s.fuses }

def execVaonApplied (s : State) : Host.Outcome State Fault Refusal := .next s.poweredUp

/-- VAON removed: always-on memory and all else is lost; no output is driven (R54, R391). -/
def execVaonRemoved (s : State) : Host.Outcome State Fault Refusal := .next { s.poweredUp with pwrEn := 0 }

/-! ### Attestation (R455, R456) -/

def quoteBuffer (i : Nat) : Nat := lsBase + 0x3D00000 + 1024 * i

/-- The digest over the image digests of the contexts in states 2 to 5. -/
def State.contextDigest (s : State) : List Byte :=
  sha256 ((allCtx.filter (fun k => csLoaded ≤ s.cstate k && s.cstate k ≤ csFinished)).flatMap (fun k => bytesOf 1 k ++ s.imageDigest k))

/-- Bytes 0 to 255 of a quote. DESIGN CHOICE, log entry 99. -/
def State.quoteBody (s : State) (q : Quote) : List Byte :=
  padTo 256 (ascii "VXAQ" ++ bytesOf 2 1 ++ bytesOf 1 q.issuer ++ [0] ++ bytesOf 8 (s.fuse 63 0) ++ bytesOf 4 s.frameNo ++ bytesOf 8 s.timeNs
    ++ bytesOf 4 q.hword ++ padTo 32 q.nonce ++ bytesOf 32 Config.romDigest.toNat ++ padTo 32 s.bootDigest ++ bytesOf 4 (s.dget 0x2000 0x05)
    ++ bytesOf 4 0 ++ bytesOf 8 s.rollback ++ bytesOf 1 (s.dget 0x2000 0x0D) ++ bytesOf 1 (s.dget 0x2000 0x07) ++ bytesOf 1 s.dev ++ [0]
    ++ bytesOf 4 (s.dget 0x2500 0x0E) ++ sha256 (bytesOf 256 s.fuses.toNat) ++ s.contextDigest)

/-- A quote waits for the signature engine, in order of acceptance. -/
def attest (nonce : List Byte) (r : HRef) (s : State) : State :=
  { s with quotes := s.quotes ++ [Quote.mk r.1 r (s.hslot r).handle.toNat nonce] }

def execAttest (iss : Issuer) (p0 p1 p2 p3 : BitVec 64) (s : State) : Host.Outcome State Fault Refusal :=
  .next (runCommand iss true .any stPOSM true
    (attest ([p0, p1, p2, p3].flatMap (fun p => bytesOf 8 p.toNat))) s.fresh)

/-- The engine finishes the oldest quote; the signature is a free value. DESIGN CHOICE, log entry 60. -/
def State.quoteComplete (s : State) : State :=
  match s.quotes with
  | [] => s
  | q :: r =>
    let sig := (List.range 384).map (Config.freeByte s.freeIx)
    let a := quoteBuffer q.issuer
    ({ s with quotes := r }.freeStep.writeBytes a (s.quoteBody q ++ sig)).complete q.handle 0 a

def execQuoteComplete (t : Nat) (s : State) : Host.Outcome State Fault Refusal := .next ((s.fresh.atTime t).quoteComplete)

end Sys2Proof.Machine
end

