-- ==== Sys2Proof/Machine/Views.lean ====
section
/-! DEFINITION. The tables of the tensoriser: pipe records, view records, tone curves and calibration sections, the checks of a
transition to OPERATIONAL, and the meshes of the Trellis engine (R66–R72, R80–R85). -/

namespace Sys2Proof.Machine

/-! ### Records (R66, R69, R70) -/

def pipeBase : Nat := 0x3E00000
def viewBase : Nat := 0x3E10000
def toneBase : Nat := 0x3E30000
def calBase : Nat := 0x3E80000

/-- A record of the device's own copy of the tables, by offset in Lodestar SRAM (R67). -/
def State.tblBytes (s : State) (off n : Nat) : List Byte := (List.range n).map (fun i => KV.get memDefault s.tables (off + i))
def State.pipeRec (s : State) (e : Nat) : List Byte := s.tblBytes (pipeBase + 128 * e) 128
def State.viewRec (s : State) (v : Nat) : List Byte := s.tblBytes (viewBase + 128 * v) 128

/-- An FP32 field. -/
def f32At (d : List Byte) (off : Nat) : F32 := BitVec.ofNat 32 (fieldAt d off 4)

abbrev PipeRec := List Byte
def PipeRec.retained (d : PipeRec) (l : Nat) : Nat := fieldAt d (4 + 2 * l) 2
def PipeRec.mountR (d : PipeRec) (i j : Nat) : F32 := f32At d (24 + 4 * (3 * i + j))
def PipeRec.mountT (d : PipeRec) (i : Nat) : F32 := f32At d (60 + 4 * i)

abbrev ViewRec := List Byte
def ViewRec.kind (d : ViewRec) : Nat := fieldAt d 0 1
def ViewRec.level (d : ViewRec) : Nat := fieldAt d 1 1
def ViewRec.cell (d : ViewRec) : Nat := fieldAt d 2 1
def ViewRec.width (d : ViewRec) : Nat := fieldAt d 4 2
def ViewRec.height (d : ViewRec) : Nat := fieldAt d 6 2
def ViewRec.fmt (d : ViewRec) : Nat := fieldAt d 8 1
def ViewRec.pack (d : ViewRec) : Nat := fieldAt d 9 1
def ViewRec.stripe (d : ViewRec) : Nat := fieldAt d 10 1
def ViewRec.ring (d : ViewRec) : Nat := fieldAt d 11 1
def ViewRec.core (d : ViewRec) : Nat := fieldAt d 12 1
def ViewRec.win (d : ViewRec) : Nat := fieldAt d 13 1
def ViewRec.flag (d : ViewRec) : Nat := fieldAt d 14 1
def ViewRec.flags (d : ViewRec) : Nat := fieldAt d 15 1
def ViewRec.off (d : ViewRec) : Nat := fieldAt d 16 4
def ViewRec.pad (d : ViewRec) : Nat := fieldAt d 20 2
def ViewRec.param (d : ViewRec) (i : Nat) : F32 := f32At d (64 + 4 * i)
/-- Columns of channel blocks, stripes of the view (R92). -/
def ViewRec.wp (d : ViewRec) : Nat := cdiv (ViewRec.width d) (max 1 (ViewRec.pack d))
def ViewRec.stripes (d : ViewRec) : Nat := cdiv (ViewRec.height d) (max 1 (ViewRec.stripe d))
def ViewRec.warp (d : ViewRec) : Bool := ViewRec.kind d == 2 || ViewRec.kind d == 3 || ViewRec.kind d == 4
/-- Mesh columns and rows (R81). -/
def ViewRec.meshW (d : ViewRec) : Nat := cdiv (ViewRec.width d) (2 ^ ViewRec.cell d) + 1
def ViewRec.meshH (d : ViewRec) : Nat := cdiv (ViewRec.height d) (2 ^ ViewRec.cell d) + 1

/-! ### Endpoint facts -/

def State.eclass (s : State) (e : Nat) : Nat := s.eget e 0x08
def State.ewidth (s : State) (e : Nat) : Nat := s.eget e 0x0A
def State.eheight (s : State) (e : Nat) : Nat := s.eget e 0x0B
/-- The source size at a level (R77). -/
def State.srcW (s : State) (e l : Nat) : Nat := cdiv (s.ewidth e) (2 ^ l)
def State.srcH (s : State) (e l : Nat) : Nat := cdiv (s.eheight e) (2 ^ l)

/-- The channel set of an endpoint; a YUV head has RGB (R69). -/
def chanSet (cls : Nat) (d : PipeRec) : Nat := if cls = 2 then 0 else fieldAt d 0 1 % 4
/-- Channels of a view (R71). -/
def viewChannels (cls kind : Nat) (d : PipeRec) : Nat :=
  if kind = 5 then 2 else if kind = 6 then 6 else if cls = 4 then 2
  else match chanSet cls d with
    | 0 => 3
    | 1 => 4
    | _ => 1

/-- Ring bytes per pixel (R73). -/
def ringBytes (cls : Nat) (d : PipeRec) : Nat :=
  if cls = 3 then 0 else if cls = 4 then 4
  else match chanSet cls d with
    | 0 => 4
    | 1 => 8
    | _ => 2
def State.epRing (s : State) (e : Nat) (d : PipeRec) : Nat :=
  ((List.range 4).map (fun l => PipeRec.retained d l * s.srcW e l * ringBytes (s.eclass e) d)).foldl (· + ·) 0

/-! ### The checks of a transition (R68) -/

/-- VIEW_SHAPE for one view record. -/
def State.viewBad (s : State) (e : Nat) (p : PipeRec) (d : ViewRec) : Bool :=
  let k := ViewRec.kind d
  let cls := s.eclass e
  let ch := viewChannels cls k p
  let nParams := if k = 2 then 13 else if k = 3 then 5 else if k = 5 then 1 else if k = 6 then 4 else 0
  let within (lo hi v : Nat) : Bool := decide (lo ≤ v) && decide (v ≤ hi)
  !(within 1 6 k && within 0 3 (ViewRec.level d) && within 3 6 (ViewRec.cell d) && within 0 1 (fieldAt d 3 1)
      && within 16 4096 (ViewRec.width d) && within 16 4096 (ViewRec.height d) && within 1 5 (ViewRec.fmt d)
      && [1, 2, 4, 8, 16].contains (ViewRec.pack d) && [8, 16, 32, 64].contains (ViewRec.stripe d) && within 2 64 (ViewRec.ring d)
      && within 0 7 (ViewRec.core d) && within 0 63 (ViewRec.win d) && within 0 31 (ViewRec.flag d) && within 1 32 (ViewRec.flags d)
      && (cls == 4 || within 0 1023 (ViewRec.pad d)))
    || !fFinite (f32At d 24) || (List.range 8).any (fun i => !fFinite (f32At d (32 + 4 * i)))
    || (List.range nParams).any (fun i => !fFinite (ViewRec.param d i))
    || (if cls = 3 then decide (k < 5) else decide (5 ≤ k))
    || decide ((if ViewRec.fmt d = 5 then 16 else 32) < ch * ViewRec.pack d)
    || decide (32 < ViewRec.flag d + ViewRec.flags d)
    || (decide (k ≤ 4) && PipeRec.retained p (ViewRec.level d) == 0)
    || (k == 1 && !(ViewRec.width d == s.srcW e (ViewRec.level d) && ViewRec.height d == s.srcH e (ViewRec.level d)))
    || ((decide (5 ≤ k) || cls == 4) && ViewRec.fmt d != 5)

def meshLimit : Nat := 4194304
def ringLimit : Nat := 20971520

/-- The first failure in entry order: code and entry. Vertices and ring bytes are summed in entry order, every endpoint's rings with its
first entry; a sum too great counts against the entry of a view where it is, or if only endpoints without views follow, against the last
one. DESIGN CHOICE, log entry 181. -/
def State.viewChecks (s : State) (m : List Host.Cell) : List Nat → Nat → Nat → Option Nat → Option (Nat × Nat)
  | [], _, ring, last => if ringLimit < ring then last.map (fun v => (0x1016, v)) else none
  | v :: r, mesh, ring, last =>
    let rd (off n : Nat) : List Byte := (List.range n).map (fun i => KV.get memDefault m (off + i))
    let e := v / 4
    let p := rd (pipeBase + 128 * e) 128
    let d := rd (viewBase + 128 * v) 128
    let ring' := if v % 4 = 0 then ring + s.epRing e p else ring
    let mesh' := if ViewRec.warp d then mesh + ViewRec.meshW d * ViewRec.meshH d else mesh
    if ViewRec.kind d = 0 then s.viewChecks m r mesh ring' last
    else if s.viewBad e p d then some (0x1017, v)
    else if ViewRec.warp d && meshLimit < mesh' then some (0x1015, v)
    else if ringLimit < ring' then some (0x1016, v)
    else s.viewChecks m r mesh' ring' (some v)

/-- The tables as memory holds them now, by offset in Lodestar SRAM. -/
def State.tablesNow (s : State) : List Host.Cell :=
  (s.mem.filter (fun c => decide (lsBase + pipeBase ≤ c.1) && decide (c.1 < lsBase + toneBase + 0x4000))).map (fun c => (c.1 - lsBase, c.2))

/-- The failure that refuses a transition to OPERATIONAL, if any. -/
def State.viewFailure (s : State) : Option (Nat × Nat) := s.viewChecks s.tablesNow (List.range 768) 0 0 none

/-- Every tensoriser report also stands in object 0x2400:0A. DEDUCED, log entry 126. -/
def State.tsrReport (s : State) (code unit : Nat) : State := (s.rep code unit).dset 0x2400 0x0A code
/-- A sensor report: the endpoint is its unit and holds the code (R64). -/
def State.epReport (s : State) (e code : Nat) : State := (s.rep code (ucEndpoint e)).eset e 0x18 code

/-! ### The tables taken at a transition (R67, R81) -/

/-- First vertices of the meshes, in entry order, and how many vertices they take. -/
def meshPlan (s : State) : List Nat → Nat → List (Nat × Nat) × Nat
  | [], n => ([], n)
  | v :: r, n =>
    let d := s.viewRec v
    if ViewRec.warp d then
      let rest := meshPlan s r (n + ViewRec.meshW d * ViewRec.meshH d)
      ((v, n) :: rest.1, rest.2)
    else meshPlan s r n

/-- The device takes its copy of the tables, reserves meshes, and writes the vertex base of every host mesh. -/
def State.takeTables (s : State) : State :=
  let s := { s with tables := s.tablesNow }
  let plan := meshPlan s (List.range 768) 0
  let s := { s with meshBase := plan.1.filter (fun e => e.2 != 0) }
  let rings := ((List.range 192).map (fun e => s.epRing e (s.pipeRec e))).foldl (· + ·) 0
  let s := (s.dset 0x2400 0x01 plan.2).dset 0x2400 0x02 rings
  foldS plan.1 (fun s x =>
    if ViewRec.kind (s.viewRec x.1) = 4 then
      let a := viewBase + 128 * x.1 + 64
      let s := s.writeBytes (lsBase + a) (bytesOf 4 x.2)
      { s with tables := writeCells s.tables a (bytesOf 4 x.2) }
    else s) s

/-! ### Calibration sections (R72) -/

/-- Section types kept of a calibration record: the retained ones in `calib`, the lens mesh beside them for the builds of later
transitions (R85). A section is stored under 16 × endpoint + type. DEDUCED, log entry 188. -/
def calKey (e ty : Nat) : Nat := 16 * e + ty
def State.calSec (s : State) (e ty : Nat) : List Byte := KV.get [] s.calib (calKey e ty)
def State.lens (s : State) (e : Nat) : List Byte := KV.get [] s.lensMesh e

/-! ### Mesh vertices (R80–R82) -/

structure Vertex where
  x : Int
  y : Int
  valid : Bool
  deriving DecidableEq, Repr

def vertexOf (v : Nat) : Vertex := { x := signed 24 (bits v 23 0), y := signed 24 (bits v 47 24), valid := bitAt v 48 }
def vertexBits (v : Vertex) : Nat :=
  (v.x % 2 ^ 24).toNat + (v.y % 2 ^ 24).toNat * 2 ^ 24 + (if v.valid then 2 ^ 48 else 0)

/-- Vertex `n` of the mesh store. -/
def State.vertex (s : State) (n : Nat) : Vertex := vertexOf (natOf (s.readBytes (lsBase + 8 * n) 8))
/-- Vertex (i, j) of a view's mesh. -/
def State.viewVertex (s : State) (v i j : Nat) : Vertex :=
  s.vertex (KV.get 0 s.meshBase v + j * ViewRec.meshW (s.viewRec v) + i)

/-- A row of three products, summed left to right. -/
def dot3 (a b c x y z : F32) : F32 := fAdd (fAdd (fMul a x) (fMul b y)) (fMul c z)

/-- Direction in the sensor frame of a view pixel (R82 step 1). -/
def viewDir (p : PipeRec) (d : ViewRec) (x y : Nat) : F32 × F32 × F32 :=
  let fx := fOfInt x
  let fy := fOfInt y
  let q := ViewRec.param d
  if ViewRec.kind d = 2 then
    let a := fDiv (fSub fx (q 2)) (q 0)
    let b := fDiv (fSub fy (q 3)) (q 1)
    let row (i : Nat) : F32 := dot3 (q (4 + 3 * i)) (q (5 + 3 * i)) (q (6 + 3 * i)) a b fOne
    (row 0, row 1, row 2)
  else
    let g0 := fSub (fAdd (q 0) (fMul fx (q 2))) (PipeRec.mountT p 0)
    let g1 := fSub (fAdd (q 1) (fMul fy (q 3))) (PipeRec.mountT p 1)
    let g2 := fSub (q 4) (PipeRec.mountT p 2)
    let row (i : Nat) : F32 := dot3 (PipeRec.mountR p 0 i) (PipeRec.mountR p 1 i) (PipeRec.mountR p 2 i) g0 g1 g2
    (row 0, row 1, row 2)

/-- Lens vertex (i, j) of a lens mesh section. -/
def lensVertex (l : List Byte) (i j : Nat) : Vertex := vertexOf (fieldAt l (20 + 8 * (j * fieldAt l 0 2 + i)) 8)

/-- A 14.10 value as binary32. -/
def fOfFix (v : Int) : F32 := fOfScaled v (-10)

/-- Bilinear interpolation in binary32, terms in the order of R83. -/
def fBilinear (a b p00 p10 p01 p11 : F32) : F32 :=
  let a' := fSub fOne a
  let b' := fSub fOne b
  fAdd (fAdd (fAdd (fMul (fMul a' b') p00) (fMul (fMul a b') p10)) (fMul (fMul a' b) p01)) (fMul (fMul a b) p11)

/-- Level scaling and conversion to 14.10 (R82 steps 4 and 5). -/
def toLevel (v : F32) (l : Nat) : Option Int :=
  let w := fSub (fScale (fAdd v 0x3F000000) (-(l : Int))) 0x3F000000
  if !fFinite w then none
  else
    let r := fRne (fScale w 10)
    if -(2 ^ 23 : Int) ≤ r && r < 2 ^ 23 then some r else none

def badVertex : Vertex := { x := 0, y := 0, valid := false }

/-- The vertex of a device-built mesh at view pixel (x, y) (R82). -/
def buildVertex (p : PipeRec) (d : ViewRec) (l : List Byte) (x y : Nat) : Vertex :=
  let q := viewDir p d x y
  let n := fSqrt (fAdd (fAdd (fMul q.1 q.1) (fMul q.2.1 q.2.1)) (fMul q.2.2 q.2.2))
  let sz := fAdd n q.2.2
  if !fLt 0 sz then badVertex
  else
    let gu := fDiv (fSub (fDiv q.1 sz) (f32At l 12)) (f32At l 4)
    let gv := fDiv (fSub (fDiv q.2.1 sz) (f32At l 16)) (f32At l 8)
    if !fFinite gu || !fFinite gv then badVertex
    else
      let iu := fFloor gu
      let iv := fFloor gv
      if iu < 0 || iv < 0 || (fieldAt l 0 2 : Int) - 2 < iu || (fieldAt l 2 2 : Int) - 2 < iv then badVertex
      else
        let a := fSub gu (fOfInt iu)
        let b := fSub gv (fOfInt iv)
        let w (di dj : Nat) : Vertex := lensVertex l (iu.toNat + di) (iv.toNat + dj)
        if !((w 0 0).valid && (w 1 0).valid && (w 0 1).valid && (w 1 1).valid) then badVertex
        else
          let f (g : Vertex → Int) : F32 := fBilinear a b (fOfFix (g (w 0 0))) (fOfFix (g (w 1 0))) (fOfFix (g (w 0 1))) (fOfFix (g (w 1 1)))
          match toLevel (f Vertex.x) (ViewRec.level d), toLevel (f Vertex.y) (ViewRec.level d) with
          | some x, some y => { x := x, y := y, valid := true }
          | _, _ => badVertex

/-! ### Span (R84) -/

/-- Whether the taps of a view are nearest samples: asked for, or a time-of-flight view (R70). -/
def nearest (cls : Nat) (d : ViewRec) : Bool := fieldAt d 3 1 == 1 || cls == 4

/-- The vertices of the cells that stripe `i` of a view touches. -/
def State.stripeVertices (s : State) (v i : Nat) : List Vertex :=
  let d := s.viewRec v
  let c := 2 ^ ViewRec.cell d
  let y0 := i * ViewRec.stripe d
  let y1 := min (ViewRec.height d) (y0 + ViewRec.stripe d) - 1
  (List.range (ViewRec.meshH d)).flatMap (fun j =>
    if y0 / c ≤ j && j ≤ y1 / c + 1 then (List.range (ViewRec.meshW d)).map (fun i => s.viewVertex v i j) else [])

/-- Lowest and highest source row of a stripe, held inside the source; none where no vertex is valid. -/
def State.stripeRows (s : State) (v i : Nat) : Option (Nat × Nat) :=
  let d := s.viewRec v
  let e := v / 4
  let near := nearest (s.eclass e) d
  let h : Int := (s.srcH e (ViewRec.level d) : Int) - 1
  let rows := ((s.stripeVertices v i).filter (·.valid)).map (fun x =>
    if near then (asr (x.y + 512) 10, asr (x.y + 512) 10) else (asr x.y 10, asr x.y 10 + 1))
  match rows with
  | [] => none
  | r :: rs =>
    let lo := rs.foldl (fun a x => min a x.1) r.1
    let hi := rs.foldl (fun a x => max a x.2) r.2
    some ((clampInt 0 h lo).toNat, (clampInt 0 h hi).toNat)

/-- Source rows that must have entered before stripe `i`: the largest over the stripes up to it. -/
def State.readyRow (s : State) (v i : Nat) : Nat :=
  let d := s.viewRec v
  if ViewRec.kind d = 1 then min (ViewRec.height d) ((i + 1) * ViewRec.stripe d)
  else ((List.range (i + 1)).map (fun j => match s.stripeRows v j with | some r => r.2 + 1 | none => 0)).foldl max 0

/-- Whether a mesh has too great a span. -/
def State.spanTooGreat (s : State) (v : Nat) : Bool :=
  let d := s.viewRec v
  let keep := PipeRec.retained (s.pipeRec (v / 4)) (ViewRec.level d)
  (List.range (ViewRec.stripes d)).any (fun i => match s.stripeRows v i with
    | some r => decide (keep + r.1 < s.readyRow v i + 1)
    | none => false)

/-- The span of a view's mesh is checked and reported. DEDUCED, log entry 127. -/
def State.checkSpan (s : State) (v : Nat) : State :=
  let bad := s.spanTooGreat v
  let s := s.setView v { s.view v with spanBad := bad }
  if bad then s.tsrReport 0x1018 (ucEndpoint (v / 4)) else s

/-! ### Mesh build (R82, R84, R85) -/

/-- One device-built mesh is written to the store. -/
def State.buildMesh (s : State) (v : Nat) : State :=
  let d := s.viewRec v
  let e := v / 4
  let p := s.pipeRec e
  let l := s.lens e
  let c := 2 ^ ViewRec.cell d
  let base := KV.get 0 s.meshBase v
  let s := foldS (List.range (ViewRec.meshH d)) (fun s j =>
    foldS (List.range (ViewRec.meshW d)) (fun s i =>
      s.writeBytes (lsBase + 8 * (base + j * ViewRec.meshW d + i)) (bytesOf 8 (vertexBits (buildVertex p d l (i * c) (j * c))))) s) s
  s.checkSpan v

/-- The meshes of the head at the front of the queue are built; a head in discovery can be admitted at the next tick. -/
def State.meshStep (s : State) : State :=
  match s.meshQueue with
  | [] => s
  | e :: r =>
    let s := { s with meshQueue := r }
    let s := foldS [0, 1, 2, 3] (fun s i =>
      let v := 4 * e + i
      if ViewRec.kind (s.viewRec v) = 2 || ViewRec.kind (s.viewRec v) = 3 then s.buildMesh v else s) s
    if (s.ep e).disc = .meshWait then (s.setEp e { s.ep e with disc := .admitNext }).eset e 0x15 4 else s

/-- A head's meshes are built in turn (R85). -/
def execMeshBuild (s : State) : Host.Outcome State Fault Refusal := .next s.fresh.meshStep

end Sys2Proof.Machine
end

