-- ==== Sys2Proof/Machine/Pipe.lean ====
section
/-! DEFINITION. Camera and depth images: the packet checks (R33, R34, R45, R79), the raw pipe from samples to tone values
(R73–R78), clarity and the cleaning request (R57, R58). Lines are kept as sample codes; tone values are computed from them. -/

namespace Sys2Proof

/-! ### Datagrams (R35) -/

/-- A big-endian field of a frame. -/
def Datagram.field (d : Datagram) (off n : Nat) : Nat := Machine.natOfBE (Machine.slice d.frame off n)
def vlanType (n : Nat) : Bool := n == 0x8100 || n == 0x88A8
/-- 802.1Q tags before the type of the frame. -/
def Datagram.tags (d : Datagram) : Nat := if vlanType (d.field 12 2) then (if vlanType (d.field 16 2) then 2 else 1) else 0
/-- Where the IPv4 header begins, its length, and where the UDP header begins. -/
def Datagram.ipAt (d : Datagram) : Nat := 14 + 4 * d.tags
def Datagram.ipLen (d : Datagram) : Nat := 4 * (d.field d.ipAt 1 % 16)
def Datagram.udpAt (d : Datagram) : Nat := d.ipAt + d.ipLen
/-- Whether the frame carries UDP over IPv4. -/
def Datagram.isUdp (d : Datagram) : Bool :=
  d.field (d.ipAt - 2) 2 == 0x0800 && d.field d.ipAt 1 / 16 == 4 && 20 ≤ d.ipLen && d.field (d.ipAt + 9) 1 == 17 && decide (d.udpAt + 8 ≤ d.frame.length)
def Datagram.srcIp (d : Datagram) : BitVec 32 := BitVec.ofNat 32 (d.field (d.ipAt + 12) 4)
def Datagram.dstIp (d : Datagram) : BitVec 32 := BitVec.ofNat 32 (d.field (d.ipAt + 16) 4)
def Datagram.udpPort (d : Datagram) : BitVec 16 := BitVec.ofNat 16 (d.field (d.udpAt + 2) 2)
def Datagram.udpLen (d : Datagram) : Nat := d.field (d.udpAt + 4) 2
def Datagram.payload (d : Datagram) : List Byte := Machine.slice d.frame (d.udpAt + 8) (d.udpLen - 8)

/-- The sum of the 16-bit words of some bytes, a byte left over as a high half. -/
def wordSum : List Byte → Nat
  | [] => 0
  | [a] => a.toNat * 256
  | a :: b :: r => a.toNat * 256 + b.toNat + wordSum r
/-- A one's complement sum that checks. -/
def sumOk (n : Nat) : Bool := n != 0 && n % 65535 == 0

/-- The header checksum. -/
def Datagram.ipSum (d : Datagram) : Bool := sumOk (wordSum (Machine.slice d.frame d.ipAt d.ipLen))
/-- The UDP checksum over pseudo header and datagram, where there is one. -/
def Datagram.udpSum (d : Datagram) : Bool :=
  d.field (d.udpAt + 6) 2 == 0
    || sumOk (wordSum (Machine.slice d.frame (d.ipAt + 12) 8) + 17 + d.udpLen + wordSum (Machine.slice d.frame d.udpAt d.udpLen))
/-- Unicast to the port's address, or multicast to a group listed for it. -/
def Datagram.forPort (d : Datagram) : Bool := d.dstIp == Config.portIp d.port.val || Config.portGroup d.port.val d.dstIp

/-- The checks of R35: frame limit with the check sequence, one tag, no options, no fragment, lengths that agree, both checksums, the
address. DEDUCED, log entry 189. -/
def Datagram.checksOk (d : Datagram) : Bool :=
  decide (d.frame.length + 4 ≤ 9018) && decide (d.tags ≤ 1) && d.ipLen == 20 && d.field (d.ipAt + 6) 2 % 0x4000 == 0
    && d.field (d.ipAt + 2) 2 == d.ipLen + d.udpLen && decide (8 ≤ d.udpLen) && decide (d.udpAt + d.udpLen ≤ d.frame.length)
    && d.ipSum && d.udpSum && d.forPort

end Sys2Proof

namespace Sys2Proof.Machine

/-! ### Sample formats (R33, R74, R78) -/

/-- Bits of a sample in CSI-2 packing, by data type. -/
def csiBits (dt : Nat) : Nat :=
  if dt = 0x2B then 10 else if dt = 0x2C then 12 else if dt = 0x2D then 14 else if dt = 0x2E then 16 else if dt = 0x2F then 20
  else if dt = 0x1E then 16 else if dt = 0x30 then 24 else if dt = 0x31 then 16 else 0

/-- Bytes of a sample in a line datagram (R78). -/
def lineBytes (dt : Nat) : Nat := if dt = 0x2F then 4 else if dt = 0x30 then 3 else 2

/-- N of a raw data type (R73). -/
def sampleBits (dt : Nat) : Nat := if csiBits dt = 0 then 20 else csiBits dt

def csiAccepted (dt : Nat) : Bool := csiBits dt != 0 || dt == 0x37

/-- A byte of a line, as a number. -/
def lb (d : List Byte) (i : Nat) : Nat := (nth 0 d i).toNat

/-- The code of pixel `x` of a CSI-2 line. PRESUMED, log entry 111. -/
def csiCode (dt : Nat) (d : List Byte) (x : Nat) : Nat :=
  if dt = 0x2B then
    let b := x / 4 * 5
    lb d (b + x % 4) * 4 + bits (lb d (b + 4)) (2 * (x % 4) + 1) (2 * (x % 4))
  else if dt = 0x2C then
    let b := x / 2 * 3
    lb d (b + x % 2) * 16 + bits (lb d (b + 2)) (4 * (x % 2) + 3) (4 * (x % 2))
  else if dt = 0x2D then
    let b := x / 4 * 7
    lb d (b + x % 4) * 64 + bits (fieldAt d (b + 4) 3) (6 * (x % 4) + 5) (6 * (x % 4))
  else if dt = 0x2E then lb d (2 * x) * 256 + lb d (2 * x + 1)
  else
    let b := x / 2 * 5
    let i := x % 2
    let low := lb d (b + 4)
    lb d (b + 2 * i) * 4096 + bits low (4 * i + 1) (4 * i) * 1024 + lb d (b + 2 * i + 1) * 4 + bits low (4 * i + 3) (4 * i + 2)

/-- What a line of `w` pixels is kept as: one code a pixel; for depth 0x30 depth and confidence in turn; for YUV422 its bytes.
PRESUMED, log entry 112. -/
def csiLine (dt w : Nat) (d : List Byte) : List Nat :=
  if dt = 0x1E then (List.range (2 * w)).map (lb d)
  else if dt = 0x30 then (List.range w).flatMap (fun x => [fieldAt d (3 * x) 2, lb d (3 * x + 2)])
  else if dt = 0x31 then (List.range w).flatMap (fun x => [fieldAt d (2 * x) 2, 255])
  else (List.range w).map (csiCode dt d)

/-- The same of a line in a datagram. -/
def ethLine (dt w : Nat) (d : List Byte) : List Nat :=
  if dt = 0x1E || dt = 0x30 || dt = 0x31 then csiLine dt w d
  else (List.range w).map (fun x => fieldAt d (lineBytes dt * x) (lineBytes dt) % 2 ^ sampleBits dt)

def rawKey (e k row : Nat) : Nat := (4 * e + k) * 65536 + row
def State.rawAt (s : State) (e k row i : Nat) : Nat := nth 0 (KV.get [] s.raw (rawKey e k row)) i

/-! ### The raw pipe (R73, R74, R76, R77) -/

/-- Transfer of a raw head, and how many exposures it has (R74). -/
def State.transfer (s : State) (e : Nat) : Nat := if s.eclass e = 1 then fieldAt (s.calSec e 1) 2 1 else 0
def State.exposures (s : State) (e : Nat) : Nat :=
  if s.transfer e = 2 then 2 else if s.transfer e = 3 then 3 else 1

def State.cfa (s : State) (e : Nat) : Nat := fieldAt (s.calSec e 1) 0 1

/-- Colours: 0 R, 1 G, 2 B, 3 IR, 4 the single channel of a mono mosaic. -/
def bayer (p y x : Nat) : Nat :=
  let q := 2 * (y % 2) + x % 2
  let row := if p = 1 then [0, 1, 1, 2] else if p = 2 then [1, 0, 2, 1] else if p = 3 then [1, 2, 0, 1] else [2, 1, 1, 0]
  nth 0 row q
def rgbIr : List Nat := [2, 1, 0, 1, 1, 3, 1, 3, 0, 1, 2, 1, 1, 3, 1, 3]
def State.colourAt (s : State) (e y x : Nat) : Nat :=
  let p := s.cfa e
  if p = 0 then 4
  else if p ≤ 4 then bayer p y x
  else
    let ph := fieldAt (s.calSec e 1) 1 1
    nth 0 rgbIr (4 * ((y + bits ph 3 2) % 4) + (x + bits ph 1 0) % 4)

/-- Black level and gain of exposure `k` at a pixel. -/
def State.codeAt (s : State) (e k y x : Nat) : Nat :=
  let d := s.calSec e 1
  let n := sampleBits (s.eget e 0x09)
  let p := s.cfa e
  let i := if p = 0 then 0 else if p ≤ 4 then 2 * (y % 2) + x % 2 else s.colourAt e y x
  min (2 ^ n - 1) (((s.rawAt e k y x - fieldAt d (4 + 2 * i) 2) * fieldAt d (12 + 2 * i) 2) >>> 12)

/-- Knot `i` of the companded transfer. -/
def knotCode (d : List Byte) (i : Nat) : Nat := fieldAt d (32 + 6 * i) 2
def knotLin (d : List Byte) (i : Nat) : Nat := fieldAt d (34 + 6 * i) 4

/-- The companded transfer; a code below knot 0 gives its value. DEDUCED, log entry 114. -/
def companded (d : List Byte) (c : Nat) : Nat :=
  match ((List.range 17).reverse).find? (fun i => decide (knotCode d i ≤ c)) with
  | none => knotLin d 0
  | some 16 => knotLin d 16
  | some i =>
    (((knotLin d i : Int) + (((c : Int) - knotCode d i) * ((knotLin d (i + 1) : Int) - knotLin d i)).tdiv
      ((knotCode d (i + 1) : Int) - knotCode d i))).toNat

/-- The sum of the shifts for exposures longer than `k`. -/
def hdrShift (d : List Byte) (k : Nat) : Nat :=
  if k = 0 then fieldAt d 20 1 + fieldAt d 21 1 else if k = 1 then fieldAt d 21 1 else 0

/-- The linear value at a pixel. Of two exposures, exposure 1 is the shortest: its sum is 0. DEDUCED, log entry 113. -/
def State.linAt (s : State) (e y x : Nat) : Nat :=
  let d := s.calSec e 1
  let n := sampleBits (s.eget e 0x09)
  let tr := s.transfer e
  if tr = 0 then s.codeAt e 0 y x <<< (24 - n)
  else if tr = 1 then companded d (s.codeAt e 0 y x)
  else
    let m := s.exposures e
    let k := ((List.range m).find? (fun k => decide (16 * s.codeAt e k y x < 15 * 2 ^ n))).getD (m - 1)
    s.codeAt e k y x <<< (24 - n - hdrShift d k)

/-- A coordinate mirrored about the edge pixel. -/
def mirror (n : Nat) (v : Int) : Nat :=
  if v < 0 then (-v).toNat else if (n : Int) ≤ v then (2 * (n : Int) - 2 - v).toNat else v.toNat

/-- The samples of a colour at Chebyshev distance `d` from a pixel. -/
def State.samplesAt (s : State) (e y x col d : Nat) : List Nat :=
  let span : List Int := (List.range (2 * d + 1)).map (fun (i : Nat) => (i : Int) - (d : Int))
  (span.flatMap (fun dy => span.map (fun dx => (dy, dx)))).filterMap (fun o =>
    if max o.1.natAbs o.2.natAbs = d then
      let yy := mirror (s.eheight e) ((y : Int) + o.1)
      let xx := mirror (s.ewidth e) ((x : Int) + o.2)
      if s.colourAt e yy xx = col then some (s.linAt e yy xx) else none
    else none)

/-- Demosaic: the mean over the nearest samples of a colour; a colour the mosaic lacks reads 0. DEDUCED, log entry 116. -/
def State.demosaic (s : State) (e y x col : Nat) : Nat :=
  match [0, 1, 2].find? (fun d => !(s.samplesAt e y x col d).isEmpty) with
  | none => 0
  | some d => let l := s.samplesAt e y x col d; l.foldl (· + ·) 0 / l.length

/-- A linear channel after IR subtraction and the colour matrix: channel 0 R, 1 G, 2 B, 3 IR. -/
def State.linChannel (s : State) (e y x ch : Nat) : Nat :=
  let d := s.calSec e 1
  let set := chanSet (s.eclass e) (s.pipeRec e)
  if s.cfa e = 0 then s.linAt e y x
  else if set = 2 then s.demosaic e y x 3
  else if set = 3 then s.linAt e y x
  else
    let ir := s.demosaic e y x 3
    if ch = 3 then ir
    else
      let sub (j : Nat) : Int := max 0 ((s.demosaic e y x j : Int) - ((fieldAt d (134 + 2 * j) 2 * ir) >>> 12 : Nat))
      let m (j : Nat) : Int := signed 16 (fieldAt d (140 + 2 * (3 * ch + j)) 2)
      (clampInt 0 (2 ^ 24 - 1) (asr (m 0 * sub 0 + m 1 * sub 1 + m 2 * sub 2) 12)).toNat

/-- Knot `i` of tone curve `c`; knot 385 is knot 384. -/
def State.toneKnot (s : State) (c i : Nat) : Int := (natOf (s.tblBytes (toneBase + 1024 * c + 2 * min i 384) 2) % 1024 : Nat)

/-- The logarithmic position of a linear value (R76). -/
def toneL (x : Nat) : Nat :=
  let k := Nat.log2 (x + 1)
  let r := x + 1 - 2 ^ k
  2048 * k + (if k ≤ 11 then r <<< (11 - k) else r >>> (k - 11))

/-- Tone. -/
def State.tone (s : State) (c x : Nat) : Int :=
  let l := toneL x
  let i := l >>> 7
  s.toneKnot c i + asr ((s.toneKnot c (i + 1) - s.toneKnot c i) * ((l % 128 : Nat) : Int)) 7

/-- BT.709 limited range scaled to 0–1,023, with the error of its FP32 evaluation, truncated and clamped. DESIGN CHOICE, log entry 115. -/
def bt709 (y cb cr ch : Nat) : Int :=
  let yy : Int := (y : Int) - 16
  let b : Int := (cb : Int) - 128
  let r : Int := (cr : Int) - 128
  -- over the common denominator 219 × 224 × 10,000 × 7,152
  let num : Int := yy * 224 * 10000 * 7152 +
    (if ch = 0 then r * 219 * 15748 * 7152
     else if ch = 2 then b * 219 * 18556 * 7152
     else -(b * 219 * (2 * 722 * 9278)) - r * 219 * (2 * 2126 * 7874))
  let den : Int := 219 * 224 * 10000 * 7152
  clampInt 0 1023 ((1024 * (1023 * num) + den * (((Config.bt709Error y cb cr ch).val : Int) - 32)).tdiv (1024 * den))

/-- Channel `ch` of level 0: a tone value, or depth and confidence of a time-of-flight head. -/
def State.level0 (s : State) (e y x ch : Nat) : Int :=
  let cls := s.eclass e
  let p := s.pipeRec e
  if cls = 4 then
    let conf := s.rawAt e 0 y (2 * x + 1)
    if ch = 1 then conf
    else if conf < fieldAt p 2 1 then 0
    else clampInt (-32768) 32767 (fTrunc (fMul (fOfInt (s.rawAt e 0 y (2 * x))) (f32At (s.calSec e 5) 0)))
  else if cls = 2 then
    bt709 (s.rawAt e 0 y (2 * x + 1)) (s.rawAt e 0 y (x / 2 * 4)) (s.rawAt e 0 y (x / 2 * 4 + 2)) ch
  else s.tone (fieldAt p 1 1 % 16) (s.linChannel e y x ch)

/-- Channel `ch` of level `l` (R77). -/
def State.levelAt (s : State) (e : Nat) : Nat → Nat → Nat → Nat → Int
  | 0, y, x, ch => s.level0 e y x ch
  | l + 1, y, x, ch =>
    if s.eclass e = 4 then s.levelAt e l (2 * y) (2 * x) ch
    else
      let y1 := min (2 * y + 1) (s.srcH e l - 1)
      let x1 := min (2 * x + 1) (s.srcW e l - 1)
      (s.levelAt e l (2 * y) (2 * x) ch + s.levelAt e l (2 * y) x1 ch + s.levelAt e l y1 (2 * x) ch + s.levelAt e l y1 x1 ch) / 4

/-! ### Clarity (R57, R58, R77) -/

def State.luma (s : State) (e y x : Nat) : Int :=
  let cls := s.eclass e
  if cls = 1 && (2 ≤ chanSet cls (s.pipeRec e) || s.cfa e == 0) then s.level0 e y x 0
  else asr (s.level0 e y x 0 + 2 * s.level0 e y x 1 + s.level0 e y x 2) 2

def sumRange (n : Nat) (f : Nat → Int) : Int := (List.range n).foldl (fun a i => a + f i) 0

/-- The gradient at a pixel; a neighbour beyond the edge adds nothing. DEDUCED, log entry 117. -/
def State.gradient (s : State) (e y x : Nat) : Int :=
  let c := s.luma e y x
  (if x + 1 < s.ewidth e then ((s.luma e y (x + 1) - c).natAbs : Int) else 0)
    + (if y + 1 < s.eheight e then ((s.luma e (y + 1) x - c).natAbs : Int) else 0)

/-- The clarity figure, where one is computed: not of a dark image, nor of one without a whole tile. -/
def State.clarity (s : State) (e : Nat) : Option Nat :=
  let w := s.ewidth e
  let h := s.eheight e
  let total := sumRange h (fun y => sumRange w (fun x => s.luma e y x))
  let tw := w / 64
  let tiles := tw * (h / 64)
  if total * 100 < 4 * 1023 * (w * h : Nat) || tiles = 0 then none
  else
    let clear (i : Nat) : Bool :=
      decide (2 * 1023 * 4096 < 100 * sumRange 64 (fun a => sumRange 64 (fun b => s.gradient e (64 * (i / tw) + a) (64 * (i % tw) + b))))
    some (255 * ((List.range tiles).filter clear).length / tiles)

def codeClean : Nat := 0x100F

/-- The cleaning request is set where the figure has stayed low long enough. -/
def State.requestCleaning (s : State) (e : Nat) : State :=
  if s.eget e 0x13 ≤ (s.ep e).lowClarity && s.eget e 0x12 ≠ 0 && s.eget e 0x1A = 0 then
    (s.eset e 0x1A 1).epReport e codeClean
  else s

/-- A valid camera image is evaluated. -/
def State.evaluate (s : State) (e : Nat) : State :=
  if s.eclass e ≠ 1 && s.eclass e ≠ 2 then s
  else
    match s.clarity e with
    | none => s
    | some c =>
      let s := s.eset e 0x19 c
      let x := s.ep e
      let low := if c < s.eget e 0x12 then min 65535 (x.lowClarity + 1) else 0
      (s.setEp e { x with lowClarity := low }).requestCleaning e

/-! ### Images (R34, R75) -/

def codeCsiEcc : Nat := 0x1010
def codeCsiCrc : Nat := 0x1011
def codeShape : Nat := 0x1012
def codeDgram : Nat := 0x1013
def codeOverrun : Nat := 0x1019

/-- The image in delivery is invalid. -/
def State.invalidate (s : State) (e : Nat) : State :=
  let x := s.ep e
  if x.image.isOpen then s.setEp e { x with image := { x.image with valid := false } } else s

/-- The image in delivery is invalid; a report goes with it. -/
def State.spoil (s : State) (e code : Nat) : State := (s.epReport e code).invalidate e

/-- Images of an endpoint enter the pipe: in OPERATIONAL, from an admitted head (R53). -/
def State.pipeOn (s : State) (e : Nat) : Bool := s.dev == dsOp && decide ((s.ep e).disc = .admitted)

/-- The gPTP time of the trigger of the present frame: as it was fixed, or where none was, as it would be (R42). -/
def State.triggerTime (s : State) (e : Nat) : Nat :=
  match s.triggers.find? (fun x => x.1 == e && x.2.1 == s.frameNo) with
  | some x => x.2.2.1
  | none => s.tickNs + s.eget e 0x0D * 1000

/-- The frame that an image started at `t` belongs to: for a triggered endpoint, the present one once its trigger has fired; an
image before it, or without one, belongs to the frame before (R42, R53). DEDUCED, log entry 118. -/
def State.imageFrame (s : State) (e t : Nat) : Nat :=
  if s.eget e 0x0C = 1 && !(s.triggers.any (fun x => x.1 == e && x.2.1 == s.frameNo && decide (x.2.2.1 ≤ t)))
  then (s.frameNo + 2 ^ 32 - 1) % 2 ^ 32 else s.frameNo

def State.slotDone (s : State) (e : Nat) : Bool := nth false s.frame.delivered e

/-- An image opens: its lines and views begin anew. -/
def State.openImage (s : State) (e k : Nat) (number : BitVec 16) (t : Nat) : State :=
  let f := s.imageFrame e t
  if s.eget e 0x0C = 1 && (f ≠ s.frameNo || s.slotDone e) then s
  else
    let s := { s with raw := s.raw.filter (fun x => x.1 / 65536 / 4 != e) }
    let im : Image := { Image.zero with isOpen := true, began := setAt Image.zero.began k true, number := number, stamp := t, frame := f, valid := true }
    let s := s.setEp e { s.ep e with image := im }
    foldS [0, 1, 2, 3] (fun s i =>
      let v := s.view (4 * e + i)
      s.setView (4 * e + i) { v with stripe := 0, valid := true, done := false }) s

/-- The image closes; a valid camera image is evaluated. -/
def State.closeImage (s : State) (e : Nat) : State :=
  let x := s.ep e
  let s := s.setEp e { x with image := { x.image with isOpen := false } }
  if x.image.valid then s.evaluate e else s

/-- A Frame Start of exposure `k` (R34, R75). DEDUCED, log entry 108. -/
def State.frameBegin (s : State) (e k : Nat) (number : BitVec 16) (t : Nat) : State :=
  if s.exposures e ≤ k then s
  else
    let x := s.ep e
    let jump := k = 0 && x.haveNumber && number ≠ x.lastNumber + 1
    let s := if jump then { s with skipped := KV.set 0 s.skipped e (KV.get 0 s.skipped e + 1) } else s
    let s := if k = 0 then s.setEp e { s.ep e with haveNumber := true, lastNumber := number } else s
    let im := (s.ep e).image
    if im.isOpen && !nth false im.began k then
      let im := { im with began := setAt im.began k true }
      s.setEp e { s.ep e with image := if k = 0 then { im with number := number, stamp := t } else im }
    else
      let s := if im.isOpen then (s.spoil e codeShape).closeImage e else s
      s.openImage e k number t

/-- A Frame End of exposure `k`; the image closes when every exposure has ended. -/
def State.frameFinish (s : State) (e k : Nat) : State :=
  let im := (s.ep e).image
  if !(im.isOpen && nth false im.began k && !nth false im.ended k) then s
  else
    let s := if nth 0 im.got k = s.eheight e then s else s.spoil e codeShape
    let x := s.ep e
    let im := { x.image with ended := setAt x.image.ended k true }
    let s := s.setEp e { x with image := im }
    if (List.range (s.exposures e)).all (fun k => nth false im.ended k) then s.closeImage e else s

/-- A line of exposure `k` enters; exposures more than 64 lines apart close the image invalid. DEDUCED, log entry 110. -/
def State.takeLine (s : State) (e k : Nat) (codes : List Nat) : State :=
  let x := s.ep e
  let im := x.image
  if !(im.isOpen && nth false im.began k && !nth false im.ended k) then s
  else
    let row := nth 0 im.got k
    let s := if row < s.eheight e then { s with raw := KV.set [] s.raw (rawKey e k row) codes } else s
    let got := setAt im.got k (row + 1)
    let s := s.setEp e { x with image := { im with got := got } }
    let m := s.exposures e
    if (List.range m).any (fun j => decide (nth 0 got (m - 1) + 64 < nth 0 got j)) then (s.spoil e codeShape).closeImage e else s

/-! ### CSI-2 packets -/

def bump (m : KV Nat) (k : Nat) : KV Nat := KV.set 0 m k (KV.get 0 m k + 1)

/-- A check of one packet failed: reported for an enabled endpoint (R34, R38). -/
def State.packetFault (s : State) (e code : Nat) : State := if s.eget e 0x01 = 1 then s.epReport e code else s

/-- The header check: the state after it, and whether the packet stays. -/
def State.header (s : State) (e : Nat) (info : CsiInfo) : State × Bool :=
  if info.ecc = 2 then ((s.packetFault e codeCsiEcc).invalidate e, false)
  else if info.ecc = 1 then ({ s with eccFixed := bump s.eccFixed (s.eget e 0x03) }, true)
  else (s, true)

/-- DEDUCED, log entry 109. -/
def State.frameStart (s : State) (e : Nat) (info : CsiInfo) (number : BitVec 16) (t : Nat) : State :=
  match s.header e info with
  | (s, false) => s
  | (s, true) => if s.pipeOn e then s.frameBegin e info.exposure.val number t else s

def execFrameStart (ep : Fin 192) (info : CsiInfo) (number : BitVec 16) (t : Nat) (s : State) : Host.Outcome State Fault Refusal :=
  .next ((s.fresh.atTime t).frameStart ep.val info number t)

def State.frameEnd (s : State) (e : Nat) (info : CsiInfo) : State :=
  match s.header e info with
  | (s, false) => s
  | (s, true) => if s.pipeOn e then s.frameFinish e info.exposure.val else s

def execFrameEnd (ep : Fin 192) (info : CsiInfo) (s : State) : Host.Outcome State Fault Refusal := .next (s.fresh.frameEnd ep.val info)

/-- Line data that the pipe does not accept is dropped (R97). -/
def State.overrun (s : State) (e k : Nat) : State :=
  (((s.tsrReport codeOverrun (ucEndpoint e)).invalidate e).dbump 0x2400 0x04).takeLine e k []

/-- Whether a line of exposure `k` belongs to the image in delivery. -/
def State.inImage (s : State) (e k : Nat) : Bool :=
  let im := (s.ep e).image
  im.isOpen && nth false im.began k && !nth false im.ended k

/-- Whether a long packet is a line of the endpoint: of its data type, as long as its width asks. A line of another accepted type is a
FRAME_SHAPE too. DESIGN CHOICE, log entry 173. -/
def State.lineFits (s : State) (e dt : Nat) (d : List Byte) : Bool :=
  dt == s.eget e 0x09 && 8 * d.length == s.ewidth e * csiBits (s.eget e 0x09)

/-- A long packet of image data, after its checks. -/
def State.imageLine (s : State) (e : Nat) (info : CsiInfo) (dt : Nat) (d : List Byte) (accepted : Bool) : State :=
  let k := info.exposure.val
  if !s.pipeOn e || !s.inImage e k then s
  else if !accepted then s.overrun e k
  else
    let s := if info.crcOk && s.lineFits e dt d then s else s.invalidate e
    s.takeLine e k (csiLine (s.eget e 0x09) (s.ewidth e) d)

/-- The checks of a long packet's payload: CRC-16, and of image data the length. -/
def State.lineChecks (s : State) (e : Nat) (info : CsiInfo) (dt : Nat) (d : List Byte) : State :=
  let s := if info.crcOk then s else s.packetFault e codeCsiCrc
  if dt = 0x37 || s.lineFits e dt d then s else s.packetFault e codeShape

def State.longPacket (s : State) (e : Nat) (info : CsiInfo) (dt : Nat) (d : List Byte) (accepted : Bool) : State :=
  match s.header e info with
  | (s, false) => s
  | (s, true) =>
    if !csiAccepted dt then { s with discards := bump s.discards (s.eget e 0x03) }
    else
      let s := s.lineChecks e info dt d
      if dt = 0x37 then s else s.imageLine e info dt d accepted

def execLongPacket (ep : Fin 192) (info : CsiInfo) (dataType : BitVec 6) (payload : List Byte) (accepted : Bool) (s : State) :
    Host.Outcome State Fault Refusal := .next (s.fresh.longPacket ep.val info dataType.toNat payload accepted)

/-! ### Ethernet (R35, R38, R79) -/

/-- Whether a datagram belongs to an enabled endpoint's location. -/
def State.ownsDatagram (s : State) (d : Datagram) (e : Nat) : Bool :=
  d.isUdp && s.eget e 0x01 == 1 && s.eget e 0x02 == 2 && s.eget e 0x03 == d.port.val && s.eget e 0x04 == d.pos.val
    && s.eget e 0x06 == d.srcIp.toNat && s.eget e 0x07 == d.udpPort.toNat

/-- The endpoint that a datagram belongs to: the lowest at its location. -/
def State.datagramEp (s : State) (d : Datagram) : Option Nat := (List.range 192).find? (s.ownsDatagram d)

/-- A datagram dropped by the checks of R35. -/
def State.dropDatagram (s : State) (e : Nat) : State := { s.epReport e codeDgram with dgramDrops := bump s.dgramDrops e }

def lineMagic : List Byte := ascii "VXLN"

/-- The lines of a datagram in order. -/
def State.takeLines (s : State) (e k : Nat) (d : List Byte) (n : Nat) : State :=
  let dt := s.eget e 0x09
  let w := s.ewidth e
  let b := w * lineBytes dt
  foldS (List.range n) (fun s i => s.takeLine e k (ethLine dt w (slice d (12 + i * b) b))) s

/-- A line datagram of an admitted image head. -/
def State.lineData (s : State) (e : Nat) (d : List Byte) (t : Nat) (accepted : Bool) : State :=
  let k := fieldAt d 10 1
  let fl := fieldAt d 11 1
  let n := fieldAt d 8 2
  if d.length < 12 || slice d 0 4 ≠ lineMagic || 2 < k || s.exposures e ≤ k then s.spoil e codeShape
  else
    let s := if bitAt fl 0 then s.frameBegin e k (BitVec.ofNat 16 (fieldAt d 4 2)) t else s
    let im := (s.ep e).image
    if !(im.isOpen && nth false im.began k && !nth false im.ended k) then s
    else
      let s := if fieldAt d 6 2 = nth 0 im.got k && 1 ≤ n then s else s.spoil e codeShape
      let s := if d.length = 12 + n * (s.ewidth e * lineBytes (s.eget e 0x09)) then s else s.spoil e codeShape
      let s := if accepted then s.takeLines e k d n else foldS (List.range n) (fun s _ => s.overrun e k) s
      if bitAt fl 1 then s.frameFinish e k else s

def State.lineDatagram (s : State) (d : Datagram) (t : Nat) (accepted : Bool) : State :=
  match s.datagramEp d with
  | none => s
  | some e =>
    if s.eclass e = 3 then s
    else if !d.checksOk then s.dropDatagram e
    else if s.pipeOn e then s.lineData e d.payload t accepted else s

def execLineDatagram (d : Datagram) (t : Nat) (accepted : Bool) (s : State) : Host.Outcome State Fault Refusal :=
  .next ((s.fresh.atTime t).lineDatagram d t accepted)

end Sys2Proof.Machine
end

