-- ==== Sys2Proof/Machine/Points.lean ====
section
/-! DEFINITION. The point pipe: lidar datagrams, sweeps and the point buffer (R86, R87, R95), motion records (R89), and the pixels
of range images and pillars (R88, R90). -/

namespace Sys2Proof.Machine

/-! ### Deliveries into a window (R94, R95, R187) -/

/-- A delivery is refused at its destination: reported there and counted (R242, R245). -/
def State.deliveryNack (s : State) (code c w : Nat) : State :=
  (s.report code (ucWindow c w) (if code = codePartFenced then ucPart (c / 2) else ucWindow c w) []).dbump 0x2500 0x2E

def codeDelivery : Nat := 0x101A

/-- The generation that addresses a frame's deliveries: that read already, or the one the window has now. -/
def State.deliveryGen (s : State) (key c w : Nat) : Option Nat :=
  match (s.view key).gen with
  | some g => some g
  | none => if s.isFenced (c / 2) || !wnOpen (s.win c w) then none else some (wnGen (s.win c w))

/-- A frame's deliveries for a view or point buffer end (R95, R367). DEDUCED, log entry 124. -/
def State.endDelivery (s : State) (key e c w : Nat) : State :=
  let v := s.view key
  let s := s.setView key { v with ended := true, valid := false }
  let s := s.report codeDelivery (ucEndpoint e) (if s.isFenced (c / 2) then ucPart (c / 2) else ucWindow c w) []
  (s.dset 0x2400 0x0A codeDelivery).dbump 0x2400 0x06

/-- A put of consecutive words by the tensoriser, addressed with the frame's generation: refused and ended, or applied to the
window owner's current copy (R330). `none` where it was refused. DEDUCED, log entry 125. -/
def State.tsrPut (s : State) (key e c w off : Nat) (ws : List SWord) : State × Bool :=
  match s.deliveryGen key c w with
  | none => (s.endDelivery key e c w, false)
  | some g =>
    let s := s.setView key { s.view key with gen := some g }
    match s.windowCheck c w g 8 [rPut] off ws.length with
    | some code => ((s.deliveryNack code c w).endDelivery key e c w, false)
    | none =>
      let k := wnOwner (s.win c w)
      let s := foldS (List.range (cdiv ws.length 8)) (fun s _ => s.noteSaved k) s
      (s.putWords k (wnBase (s.win c w) + off) ws false, true)

/-! ### Sine and cosine (R88) -/

/-- π × 2^160, rounded down. -/
def piFix : Nat := 4591442807048218921384805199743311128454155024418

/-- The Taylor terms of the sine in units of 2^-160, from one term on. -/
def sinGo : Nat → Int → Int → Nat → Int → Int
  | 0, _, _, _, acc => acc
  | f + 1, th, term, n, acc => sinGo f th (-(term * th / 2 ^ 160 * th / 2 ^ 160 / ((2 * n) * (2 * n + 1) : Nat))) (n + 1) (acc + term)

/-- S[k]: sin(2πk / 65,536) as binary32. -/
def sinTable (k : Nat) : F32 :=
  if k = 0 then 0
  else if k = 16384 then fOne
  else
    let th : Int := (piFix * k / 32768 : Nat)
    fOfScaled (sinGo 40 th th 1 0) (-160)

def sin16 (a : Nat) : F32 :=
  let q := a / 16384 % 4
  let k := a % 16384
  if q = 0 then sinTable k else if q = 1 then sinTable (16384 - k) else if q = 2 then fNegate (sinTable k) else fNegate (sinTable (16384 - k))
def cos16 (a : Nat) : F32 := sin16 ((a + 16384) % 65536)

/-! ### Datagrams (R86) -/

/-- A field spec at `off` of the point descriptor, applied from `base` of a datagram. -/
def specAt (d : List Byte) (off : Nat) (dg : List Byte) (base : Nat) : Nat :=
  let n := fieldAt d (off + 2) 1 / 8
  let l := slice dg (base + fieldAt d off 2) n
  if bitAt (fieldAt d (off + 3) 1) 0 then natOfBE l else natOf l

def specWidth (d : List Byte) (off : Nat) : Nat := fieldAt d (off + 2) 1

/-- Blocks of a datagram, or nothing where its length does not match. DEDUCED, log entry 123. -/
def blocksOf (d dg : List Byte) : Option Nat :=
  let h := fieldAt d 0 2
  let b := fieldAt d 2 2
  let n := fieldAt d 4 2
  if n = 0 then (if b = 0 || dg.length < h || (dg.length - h) % b ≠ 0 then none else some ((dg.length - h) / b))
  else if dg.length = h + n * b then some n else none

/-- Points per block: 0 stands for 256. DESIGN CHOICE, log entry 122. -/
def pointsPerBlock (d : List Byte) : Nat := let n := fieldAt d 6 1; if n = 0 then 256 else n

/-- Channel `j` of the channel table. -/
def chanCos (t : List Byte) (j : Nat) : F32 := f32At t (16 * j)
def chanSin (t : List Byte) (j : Nat) : F32 := f32At t (16 * j + 4)
def chanAz (t : List Byte) (j : Nat) : Int := signed 16 (fieldAt t (16 * j + 8) 2)
def chanFire (t : List Byte) (j : Nat) : Int := signed 32 (fieldAt t (16 * j + 12) 4)

/-- A point of a block, with its time, where its range code is not zero. -/
def readPoint (d t dg : List Byte) (blk j stamp : Nat) : Option (Point × Int) :=
  let b := fieldAt d 0 2 + blk * fieldAt d 2 2
  let p := b + fieldAt d 8 2 + j * fieldAt d 7 1
  let code := specAt d 32 dg p
  if code = 0 then none
  else
    let az := specAt d 24 dg b
    let full := fieldAt d 40 4
    let a16 := (((az * 65536 / max 1 full : Nat) : Int) + chanAz t j) % 65536
    let time : Int := (if fieldAt d 10 1 = 1 then (specAt d 28 dg b : Int) else (stamp : Int)) + chanFire t j
    let inten := specAt d 36 dg p >>> (specWidth d 36 - 8)
    some ({ code := code, a16 := a16.toNat, channel := j, intensity := inten, offset := 0 }, time)

/-! ### Sweeps (R87) -/

def codePointLoss : Nat := 0x1020
def codePointFormat : Nat := 0x101C

/-- Where the half of the point buffer for the sweep of frame `n` keeps its generation and its end (R95). -/
def pointKey (e n : Nat) : Nat := 1000 + 2 * e + n % 2

def State.sweep (s : State) (e : Nat) (prev : Bool) : Sweep := KV.get .zero (if prev then s.sweepsPrev else s.sweeps) e
def State.setSweep (s : State) (e : Nat) (prev : Bool) (x : Sweep) : State :=
  if prev then { s with sweepsPrev := KV.set .zero s.sweepsPrev e x } else { s with sweeps := KV.set .zero s.sweeps e x }

/-- A sweep is invalid. -/
def State.spoilSweep (s : State) (e : Nat) (prev : Bool) : State := s.setSweep e prev { s.sweep e prev with valid := false }

/-- A lost point. -/
def State.pointLoss (s : State) (e : Nat) (prev : Bool) : State :=
  ((s.tsrReport codePointLoss (ucEndpoint e)).dbump 0x2400 0x07).spoilSweep e prev

/-- The record of a point. -/
def Point.bits (p : Point) : Nat := p.code % 65536 + p.a16 * 2 ^ 16 + p.channel * 2 ^ 32 + p.intensity * 2 ^ 40 + p.offset * 2 ^ 48

/-- A record is written to its half of the point buffer. -/
def State.writePoint (s : State) (e : Nat) (prev : Bool) (i : Nat) (p : Point) : State :=
  let r := s.pipeRec e
  let n := (s.sweep e prev).frame
  let key := pointKey e n
  if (s.view key).ended then s.spoilSweep e prev
  else
    let c := fieldAt r 12 1
    let w := fieldAt r 13 1
    let at8 := n % 2 * fieldAt r 20 4 + i
    let off := fieldAt r 16 4 + at8 / 4
    let old := (s.kWord (wnOwner (s.win c w)) (wnBase (s.win c w) + off)).1
    let word := wordOfBytes (slice (bytesOfWord old) 0 (8 * (at8 % 4)) ++ bytesOf 8 p.bits ++ (bytesOfWord old).drop (8 * (at8 % 4) + 8))
    match s.tsrPut key e c w off [word] with
    | (s, true) => s
    | (s, false) => s.spoilSweep e prev

/-- A point joins its sweep: that of the present frame until it closes, else the one collected now. A point of an older sweep is lost
without effect on these, its own being gone (R87). -/
def State.takePoint (s : State) (e : Nat) (p : Point) (t : Int) : State :=
  let tick : Int := s.tickNs
  let prev := decide (t < tick)
  let start : Int := if prev then s.tickPrev else s.tickNs
  let x := s.sweep e prev
  let off := (t - start) / 2000
  let cap := fieldAt (s.pipeRec e) 20 4
  if t < start then (s.tsrReport codePointLoss (ucEndpoint e)).dbump 0x2400 0x07
  else if (prev && x.closed) || cap ≤ x.points.length || 65535 < off then s.pointLoss e prev
  else
    let p := { p with offset := off.toNat }
    let i := x.points.length
    (s.setSweep e prev { x with points := x.points ++ [p] }).writePoint e prev i p

/-- A lidar datagram that passed R35. -/
def State.pointData (s : State) (e : Nat) (dg : List Byte) (t : Nat) : State :=
  let d := s.calSec e 3
  let ch := s.calSec e 4
  let magicOk := specAt d 12 dg 0 == fieldAt d 16 8 % 2 ^ specWidth d 12
  match if magicOk then blocksOf d dg else none with
  | none => (s.tsrReport codePointFormat (ucEndpoint e)).spoilSweep e false
  | some n =>
    let ps := (List.range n).flatMap (fun b => (List.range (pointsPerBlock d)).filterMap (fun j => readPoint d ch dg b j t))
    foldS ps (fun s p => s.takePoint e p.1 p.2) s

def State.pointDatagram (s : State) (d : Datagram) (t : Nat) : State :=
  match s.datagramEp d with
  | none => s
  | some e =>
    if s.eclass e ≠ 3 then s
    else if !d.checksOk then (s.dropDatagram e).spoilSweep e false
    else if s.pipeOn e then s.pointData e d.payload t else s

def execPointDatagram (d : Datagram) (t : Nat) (s : State) : Host.Outcome State Fault Refusal :=
  .next ((s.fresh.atTime t).pointDatagram d t)

/-- The views of an endpoint begin a sweep's delivery. -/
def State.beginViews (s : State) (e kind : Nat) : State :=
  foldS [0, 1, 2, 3] (fun s i =>
    let key := 4 * e + i
    if ViewRec.kind (s.viewRec key) = kind then
      let v := s.view key
      s.setView key { v with stripe := 0, valid := true, done := false }
    else s) s

/-- Sweep n closes 1 ms after tick n; its range images start (R87, R90). -/
def State.sweepClose (s : State) (e t : Nat) : State :=
  let x := s.sweep e true
  if s.pipeOn e && s.eclass e = 3 && x.frame = s.frameNo && !x.closed && s.tickNs + 1000000 ≤ t then
    (s.setSweep e true { x with closed := true }).beginViews e 5
  else s

def execSweepClose (ep : Fin 192) (t : Nat) (s : State) : Host.Outcome State Fault Refusal :=
  .next ((s.fresh.atTime t).sweepClose ep.val t)

/-! ### Motion (R89) -/

/-- The frame after another. -/
def nextFrame (f : Nat) : Nat := (f + 1) % 2 ^ 32

/-- Frames whose motion record may still be taken: the one before, whose deadline may lie behind the tick, the present one, and the next. -/
def State.motionFrame (s : State) (f : Nat) : Bool := (s.ticked && nextFrame f == s.frameNo) || f == s.frameNo || f == nextFrame s.frameNo

/-- The motion deadline of such a frame; the next tick is taken as predicted. -/
def State.motionDeadline (s : State) (f : Nat) : Nat :=
  (if f = s.frameNo then s.tickNs else if f = nextFrame s.frameNo then s.tickNs + s.periodNs else s.tickPrev) + s.dget 0x2400 0x03 * 1000

/-- A commit of the values held: taken for its frame, or ignored and counted. -/
def State.motionCommit (s : State) : State :=
  let f := s.dget 0x2400 0x10
  let vals := [0x11, 0x12, 0x13, 0x14, 0x15, 0x16].map (fun i => s.dget 0x2400 i)
  let inTime := s.motionFrame f && s.timeNs < s.motionDeadline f && !s.egoLate.contains f
  if inTime && KV.get [] s.motion f = [] then { s with motion := KV.set [] s.motion f vals } else s.dbump 0x2400 0x09

/-- Enabled endpoints with a pillar view. -/
def State.pillarEps (s : State) : List Nat :=
  (List.range 192).filter (fun e => s.eget e 0x01 == 1 && s.eclass e == 3
    && [0, 1, 2, 3].any (fun i => ViewRec.kind (s.viewRec (4 * e + i)) == 6))

/-- No record of a frame was taken by its deadline: reported with the endpoints that have pillar views, or where none has with the
tensoriser; the pillar views of its sweep have validity 0. DEDUCED, log entry 190. -/
def State.noEgo (s : State) (f : Nat) : State :=
  if s.dev = dsOp && (f = s.frameNo || (s.ticked && nextFrame f = s.frameNo)) && KV.get [] s.motion f = [] && !s.egoLate.contains f then
    let s := { s with egoLate := s.egoLate ++ [f] }
    let s := if s.pillarEps.isEmpty then s.tsrReport 0x101B ucTensor else foldS s.pillarEps (fun s e => s.tsrReport 0x101B (ucEndpoint e)) s
    if f = s.frameNo then foldS (List.range 192) (fun s e => if s.eclass e = 3 && s.pipeOn e then s.beginViews e 6 else s) s else s
  else s

def execEgoLate (frame : Nat) (s : State) : Host.Outcome State Fault Refusal := .next (s.fresh.noEgo frame)

/-- Deskew of the sweep of the present frame: its pillar views start (R90). -/
def State.deskew (s : State) (e : Nat) : State :=
  let x := s.sweep e true
  if s.pipeOn e && x.frame = s.frameNo && x.closed && !x.deskewed && KV.get [] s.motion x.frame ≠ [] then
    (s.setSweep e true { x with deskewed := true }).beginViews e 6
  else s

def execDeskew (ep : Fin 192) (s : State) : Host.Outcome State Fault Refusal := .next (s.fresh.deskew ep.val)

/-! ### Geometry and pixels (R88, R90) -/

/-- 10⁻⁶ in binary32. -/
def fMicro : F32 := 0x358637BD

def rangeM (d : List Byte) (p : Point) : F32 := fMul (fOfInt p.code) (fMul (fOfInt (fieldAt d 44 4)) fMicro)

/-- What a view may depend on beside its records: the lines of its image, or the points of its sweep and for pillars its motion (R65). -/
def State.viewInput (s : State) (v : Nat) : List (Nat × List Nat) :=
  let e := v / 4
  if s.eclass e = 3 then
    let x := s.sweep e true
    (0, if ViewRec.kind (s.viewRec v) = 6 then KV.get [] s.motion x.frame else [])
      :: x.points.map (fun p => (1, [p.code, p.a16, p.channel, p.intensity, p.offset]))
  else (s.raw.filter (fun x => x.1 / 65536 / 4 == e)).map (fun x => (x.1 % (4 * 65536), x.2))

/-- A value of a view that the spec leaves open, a function of what R65 lets the view depend on. -/
def State.viewOpen (s : State) (v : Nat) (at' : List Nat) : Nat :=
  Config.viewFree (s.viewRec v ++ s.pipeRec (v / 4) ++ ([1, 3, 4, 5].map (s.calSec (v / 4))).flatten) (s.viewInput v) at'

/-- A value truncated and saturated; of a NaN nothing is stated, and `free` stands for it. DESIGN CHOICE, log entry 47. -/
def satTrunc (lo hi : Int) (v : F32) (free : Nat) : Int :=
  if fIsNaN v then lo + (free % (hi - lo + 1).toNat : Nat) else clampInt lo hi (fTrunc v)

/-- Pixel (x, y) of a range image: range and intensity of the nearest point. -/
def State.rangePixel (s : State) (e v x y free : Nat) : List Int :=
  let d := s.viewRec v
  let cal := s.calSec e 3
  let here := (s.sweep e true).points.filter (fun p => p.channel == y && p.a16 * ViewRec.width d / 65536 == x)
  match here with
  | [] => [0, 0]
  | p :: r =>
    let q := r.foldl (fun a b => if b.code < a.code then b else a) p
    [satTrunc 0 32767 (fDiv (fMul (rangeM cal q) 0x447A0000) (ViewRec.param d 0)) free, q.intensity]

/-- A point of the vehicle frame, moved to the tick. -/
def State.movedPoint (s : State) (e : Nat) (p : Point) : F32 × F32 × F32 :=
  let cal := s.calSec e 3
  let tab := s.calSec e 4
  let rec8 := s.pipeRec e
  let r := rangeM cal p
  let rc := fMul r (chanCos tab p.channel)
  let x := fMul rc (cos16 p.a16)
  let y := fMul rc (sin16 p.a16)
  let z := fMul r (chanSin tab p.channel)
  let veh (i : Nat) : F32 := fAdd (dot3 (PipeRec.mountR rec8 i 0) (PipeRec.mountR rec8 i 1) (PipeRec.mountR rec8 i 2) x y z) (PipeRec.mountT rec8 i)
  let m := KV.get [] s.motion (s.sweep e true).frame
  let mv (i : Nat) : F32 := BitVec.ofNat 32 (nth 0 m i)
  let dt := fDiv (fOfInt ((s.tickNs : Int) - s.tickPrev - 2000 * (p.offset : Int))) 0x4E6E6B28
  let px := veh 0
  let py := veh 1
  let pz := veh 2
  let cross0 := fSub (fMul (mv 4) pz) (fMul (mv 5) py)
  let cross1 := fSub (fMul (mv 5) px) (fMul (mv 3) pz)
  let cross2 := fSub (fMul (mv 3) py) (fMul (mv 4) px)
  (fSub px (fMul dt (fAdd (mv 0) cross0)), fSub py (fMul dt (fAdd (mv 1) cross1)), fSub pz (fMul dt (fAdd (mv 2) cross2)))

/-- The cell of a moved point in one direction. -/
def cellOf (p base step : F32) : Option Int :=
  let q := fDiv (fSub p base) step
  if fFinite q then some (fFloor q) else none

/-- Pixel (x, y) of a pillar view: count, greatest, least and mean z in mm, greatest and mean intensity. -/
def State.pillarPixel (s : State) (e v x y free : Nat) : List Int :=
  let d := s.viewRec v
  let here := (s.sweep e true).points.filterMap (fun p =>
    let m := s.movedPoint e p
    if cellOf m.1 (ViewRec.param d 0) (ViewRec.param d 2) = some (x : Int) && cellOf m.2.1 (ViewRec.param d 1) (ViewRec.param d 3) = some (y : Int) then
      some (satTrunc (-32768) 32767 (fMul m.2.2 0x447A0000) free, (p.intensity : Int))
    else none)
  match here with
  | [] => [0, 0, 0, 0, 0, 0]
  | h :: _ =>
    let n : Int := here.length
    let zs := here.map (·.1)
    let is := here.map (·.2)
    [min 32767 n, zs.foldl max h.1, zs.foldl min h.1, (zs.foldl (· + ·) 0).tdiv n, is.foldl max h.2, (is.foldl (· + ·) 0).tdiv n]

end Sys2Proof.Machine
end

