-- ==== Sys2Proof/Machine/Delivery.lean ====
section
/-! DEFINITION. Views: pixels of the Trellis engine (R83), normalisation and layout (R91–R93), stripes and zero tensors (R59, R84,
R94–R96). -/

namespace Sys2Proof.Machine

/-! ### Pixels (R83) -/

/-- A channel of a source pixel in 1/256ths. -/
def State.tap (s : State) (v : Nat) (y x : Nat) (ch : Nat) : Int := 256 * s.levelAt (v / 4) (ViewRec.level (s.viewRec v)) y x ch

/-- The source coordinates of output pixel (x, y), or none where a vertex of its cell is invalid. -/
def State.warpAt (s : State) (v x y : Nat) : Option (Int × Int) :=
  let d := s.viewRec v
  let lc := ViewRec.cell d
  let c := 2 ^ lc
  let v00 := s.viewVertex v (x / c) (y / c)
  let v10 := s.viewVertex v (x / c + 1) (y / c)
  let v01 := s.viewVertex v (x / c) (y / c + 1)
  let v11 := s.viewVertex v (x / c + 1) (y / c + 1)
  if !(v00.valid && v10.valid && v01.valid && v11.valid) then none
  else
    let i : Int := (x % c : Nat)
    let j : Int := (y % c : Nat)
    let k : Int := (c : Nat)
    let mix (f : Vertex → Int) : Int :=
      asr (f v00 * ((k - i) * (k - j)) + f v10 * (i * (k - j)) + f v01 * ((k - i) * j) + f v11 * (i * j)) (2 * lc)
    some (mix Vertex.x, mix Vertex.y)

/-- The sample of channel `ch` at output pixel (x, y) in 1/256ths, or none for padding. -/
def State.viewSample (s : State) (v x y ch : Nat) : Option Int :=
  let d := s.viewRec v
  let e := v / 4
  let w := s.srcW e (ViewRec.level d)
  let h := s.srcH e (ViewRec.level d)
  if ViewRec.kind d = 1 then some (s.tap v y x ch)
  else
    match s.warpAt v x y with
    | none => none
    | some (xx, yy) =>
      let near := nearest (s.eclass e) d
      let xi := if near then asr (xx + 512) 10 else asr xx 10
      let yi := if near then asr (yy + 512) 10 else asr yy 10
      if xi < 0 || yi < 0 || (w : Int) ≤ xi || (h : Int) ≤ yi then none
      else if near then some (s.tap v yi.toNat xi.toNat ch)
      else
        let fx := asr xx 2 % 256
        let fy := asr yy 2 % 256
        let x1 := min (xi.toNat + 1) (w - 1)
        let y1 := min (yi.toNat + 1) (h - 1)
        let t (b a : Nat) : Int := s.levelAt e (ViewRec.level d) b a ch
        some (asr ((256 - fx) * (256 - fy) * t yi.toNat xi.toNat + fx * (256 - fy) * t yi.toNat x1
          + (256 - fx) * fy * t y1 xi.toNat + fx * fy * t y1 x1) 8)

/-! ### Normalisation (R91) -/

def clampFmt (fmt : Nat) (v : Int) : Int :=
  if fmt = 1 then clampInt 0 255 v else if fmt = 2 then clampInt (-128) 127 v else clampInt (-32768) 32767 v

/-- The code of a value in a view's format; of a NaN nothing is stated. DESIGN CHOICE, log entry 121. -/
def viewCode (fmt : Nat) (v : F32) (free : Nat) : Nat :=
  let m : Nat := if fmt = 5 then 65536 else 256
  if fIsNaN v then free % m
  else if fmt = 3 || fmt = 4 then fp8Rne fmt v
  else (clampFmt fmt (fTrunc v) % (m : Int)).toNat

/-- The code of channel `ch` at pixel (x, y). The confidence of a padding pixel of a time-of-flight view is not stated. -/
def State.pixelCode (s : State) (v x y ch : Nat) : Nat :=
  let d := s.viewRec v
  let cls := s.eclass (v / 4)
  let free := s.viewOpen v [x, y, ch]
  let a : F32 := match s.viewSample v x y ch with
    | some q => fOfScaled q (-8)
    | none => if cls = 4 && ch = 1 then fOfInt (free % 256) else fOfInt (ViewRec.pad d)
  viewCode (ViewRec.fmt d) (fMul (fSub a (f32At d (32 + 8 * ch))) (f32At d (36 + 8 * ch))) free

/-- The codes of all channels at pixel (x, y) of a view. -/
def State.viewPixel (s : State) (v x y : Nat) : List Nat :=
  let d := s.viewRec v
  let e := v / 4
  let code (l : List Int) : List Nat := l.map (fun i => (i % 65536).toNat)
  if ViewRec.kind d = 5 then code (s.rangePixel e v x y (s.viewOpen v [x, y]))
  else if ViewRec.kind d = 6 then code (s.pillarPixel e v x y (s.viewOpen v [x, y]))
  else (List.range (viewChannels (s.eclass e) (ViewRec.kind d) (s.pipeRec e))).map (s.pixelCode v x y)

/-! ### Layout (R92, R93) -/

/-- The word of a column group in a row; zero codes where `zero` asks for them. DEDUCED, log entry 120. -/
def State.groupWord (s : State) (v g y : Nat) (zero : Bool) : SWord :=
  let d := s.viewRec v
  let p := ViewRec.pack d
  let px := ((List.range p).map (fun i => g * p + i)).filter (fun x => decide (x < ViewRec.width d))
  let codes := if zero then [] else px.flatMap (fun x => s.viewPixel v x y)
  wordOfBytes (padTo 32 (codes.flatMap (fun c => bytesOf (if ViewRec.fmt d = 5 then 2 else 1) c)))

/-- Rows of stripe `i`. -/
def stripeRowsOf (d : ViewRec) (i : Nat) : Nat := min (ViewRec.stripe d) (ViewRec.height d - i * ViewRec.stripe d)

def State.stripeWords (s : State) (v i : Nat) (zero : Bool) : List SWord :=
  let d := s.viewRec v
  (List.range (stripeRowsOf d i)).flatMap (fun r =>
    (List.range (ViewRec.wp d)).map (fun g => s.groupWord v g (i * ViewRec.stripe d + r) zero))

/-- Word offset of a stripe's ring slot within the window. -/
def stripeOff (d : ViewRec) (i : Nat) : Nat :=
  ViewRec.off d + 1 + i % ViewRec.ring d * ViewRec.stripe d * ViewRec.wp d

/-- The descriptor word. -/
def State.descriptor (s : State) (v n : Nat) (valid zero : Bool) (time : List Byte) : SWord :=
  let d := s.viewRec v
  let ch := viewChannels (s.eclass (v / 4)) (ViewRec.kind d) (s.pipeRec (v / 4))
  wordOfBytes (bytesOf 4 n ++ bytesOf 1 (v / 4) ++ bytesOf 1 (v % 4)
    ++ bytesOf 1 ((if valid then 1 else 0) + (if zero then 2 else 0)) ++ bytesOf 1 (ViewRec.fmt d)
    ++ bytesOf 2 (ViewRec.width d) ++ bytesOf 2 (ViewRec.height d) ++ bytesOf 1 ch ++ bytesOf 1 (ViewRec.pack d)
    ++ bytesOf 1 (ViewRec.stripe d) ++ bytesOf 1 (ViewRec.ring d) ++ padTo 8 time ++ slice d 24 4 ++ bytesOf 4 0)

/-! ### Stripes (R94, R95) -/

def codeStripeOverrun : Nat := 0x101F

/-- The signalled put of a stripe sets its flag; one set already is an overrun. -/
def State.stripeFlag (s : State) (v i : Nat) : State :=
  let d := s.viewRec v
  let c := ViewRec.core d
  let w := ViewRec.win d
  match s.deliveryGen v c w with
  | none => s.endDelivery v (v / 4) c w
  | some g =>
    match s.windowCheck c w g 8 [rPut, rFlag] (stripeOff d i) 1 with
    | some code => (s.deliveryNack code c w).endDelivery v (v / 4) c w
    | none =>
      let k := wnOwner (s.win c w)
      let f := 32 + (ViewRec.flag d + i % ViewRec.flags d) % 32
      let s := if s.kFlag k f then (s.tsrReport codeStripeOverrun (ucEndpoint (v / 4))).dbump 0x2400 0x05 else s
      s.kSetFlag k f

/-- Whether every flag that a view record names lies in the remote mask of the context that owns its window (R183). -/
def State.viewFlagsOk (s : State) (v : Nat) : Bool :=
  let d := s.viewRec v
  let x := s.ctx (wnOwner (s.win (ViewRec.core d) (ViewRec.win d)))
  (List.range (ViewRec.flags d)).all (fun i => x.hasFlag (32 + ViewRec.flag d + i))

/-- Whether a view's delivery takes no further stripe in this frame. -/
def State.viewEnded (s : State) (v : Nat) : Bool := (s.view v).ended

/-- One stripe's puts and its flag; with the last, the descriptor word goes before the flag. A record that names flags of another context is
inconsistent: its deliveries end (R183). DEDUCED, log entry 191. -/
def State.putStripe (s : State) (v i : Nat) (ws : List SWord) (desc : Option SWord) : State :=
  let d := s.viewRec v
  let c := ViewRec.core d
  let w := ViewRec.win d
  let e := v / 4
  if s.viewEnded v then s.setView v { s.view v with valid := false }
  else if (s.deliveryGen v c w).isSome && !s.viewFlagsOk v then s.endDelivery v e c w
  else
    match s.tsrPut v e c w (stripeOff d i) ws with
    | (s, false) => s
    | (s, true) =>
      match desc with
      | none => s.stripeFlag v i
      | some x =>
        match s.tsrPut v e c w (ViewRec.off d) [x] with
        | (s, false) => s
        | (s, true) => s.stripeFlag v i

/-! ### What a slot delivered (R59, R62, R96) -/

/-- The views of an endpoint. -/
def State.viewsOf (s : State) (e : Nat) : List Nat := [4 * e, 4 * e + 1, 4 * e + 2, 4 * e + 3].filter (fun v => ViewRec.kind (s.viewRec v) != 0)

/-- The slot's tensor of frame `n` is delivered, with a validity: counted, and noted for the FIW of its frame. -/
def State.slotDelivered (s : State) (e n : Nat) (valid : Bool) : State :=
  let s := s.ebump e (if valid then 0x1E else 0x1F)
  if s.frame.isOpen && s.frame.n = n then
    { s with frame := { s.frame with valid := setAt s.frame.valid e valid, delivered := setAt s.frame.delivered e true } }
  else s

/-- A view is done; when all views of its slot are, the tensor is complete. A free-running image completes for the next tick (R25). -/
def State.viewDone (s : State) (v n : Nat) : State :=
  let s := s.setView v { s.view v with done := true }
  let e := v / 4
  let vs := s.viewsOf e
  if vs.all (fun u => (s.view u).done) then
    let valid := vs.all (fun u => (s.view u).valid && !(s.view u).spanBad) && (s.eclass e == 3 || (s.ep e).image.valid)
    if n = s.frameNo then s.slotDelivered e n valid else s.setEp e { s.ep e with complete := some (n, valid) }
  else s

/-! ### Camera and time-of-flight stripes (R84) -/

/-- How many more lines a tone value needs below its own (R74). -/
def State.reach (s : State) (e : Nat) : Nat :=
  if s.eclass e ≠ 1 then 0 else if s.cfa e = 0 then 0 else if s.cfa e ≤ 4 then 1 else 2

/-- Lines of level 0 that stripe `i` needs. -/
def State.linesNeeded (s : State) (v i : Nat) : Nat :=
  let e := v / 4
  let r := s.readyRow v i
  if r = 0 then 0 else min (s.eheight e) (r * 2 ^ ViewRec.level (s.viewRec v) + s.reach e)

/-- Lines of every exposure that have entered. -/
def State.linesIn (s : State) (e : Nat) : Nat :=
  ((List.range (s.exposures e)).map (fun k => nth 0 (s.ep e).image.got k)).foldl min 65536

/-- Whether an image has begun since the transition. -/
def Image.any (im : Image) : Bool := im.began.any (fun b => b)

/-- The frame whose tensor an image becomes: a triggered image's own, a free-running one's the next tick's (R25). -/
def State.inputFrame (s : State) (e : Nat) : Nat :=
  if s.eget e 0x0C = 1 then (s.ep e).image.frame else (s.frameNo + 1) % 2 ^ 32

/-- Whether an image is valid for the frame it would be delivered to (R59). -/
def State.imageValid (s : State) (e : Nat) : Bool :=
  let im := (s.ep e).image
  im.valid && !im.isOpen && s.eget e 0x01 == 1 && decide ((s.ep e).disc = .admitted)
    && (s.eget e 0x0C == 1 || im.frame == s.frameNo)

/-- The next stripe of a view of an image in delivery; the last waits until the image has closed. -/
def State.imageStripe (s : State) (v : Nat) (force : Bool) : State :=
  let e := v / 4
  let im := (s.ep e).image
  let d := s.viewRec v
  let x := s.view v
  let i := x.stripe
  let last := i + 1 == ViewRec.stripes d
  let inRing := decide (s.linesNeeded v i ≤ s.linesIn e)
  if !im.any || x.done || (!force && !(if im.isOpen then inRing && !last else true)) then s
  else
    let zero := force || !inRing
    let n := s.inputFrame e
    let valid := s.imageValid e && x.valid && !x.spanBad && !x.ended && !force
    let desc := if last then some (s.descriptor v n valid false (bytesOf 8 im.stamp)) else none
    let s := s.putStripe v i (s.stripeWords v i zero) desc
    let s := s.setView v { s.view v with stripe := i + 1, valid := (s.view v).valid && (!last || valid) }
    if last then s.viewDone v n else s

/-! ### Range and pillar stripes (R90) -/

/-- Whether a lidar view is in delivery: its sweep has closed, for pillars deskewed (R90). -/
def State.sweepReady (s : State) (v : Nat) : Bool :=
  let sw := s.sweep (v / 4) true
  sw.frame == s.frameNo && sw.closed && (ViewRec.kind (s.viewRec v) == 5 || sw.deskewed) && !(s.view v).done

/-- The next stripe of a lidar view; where forced, of zeros. -/
def State.sweepStripe (s : State) (v : Nat) (force : Bool) : State :=
  let e := v / 4
  let x := s.view v
  let d := s.viewRec v
  if !s.sweepReady v then s
  else
    let i := x.stripe
    let last := i + 1 == ViewRec.stripes d
    let valid := (s.sweep e true).valid && x.valid && !x.ended && !force
    let desc := if last then some (s.descriptor v s.frameNo valid false (bytesOf 8 s.tickNs)) else none
    let s := s.putStripe v i (s.stripeWords v i force) desc
    let s := s.setView v { s.view v with stripe := i + 1, valid := (s.view v).valid && (!last || valid) }
    if last then s.viewDone v s.frameNo else s

/-- Whether an endpoint's meshes are built: all of them now, and of a triggered one at the tick (R85). -/
def State.built (s : State) (e : Nat) : Bool :=
  !s.meshQueue.contains e && !(s.eget e 0x0C == 1 && s.frame.unbuilt.contains e)

def State.stripeDelivery (s : State) (v : Nat) : State :=
  let k := ViewRec.kind (s.viewRec v)
  if k = 0 || !s.pipeOn (v / 4) || !s.built (v / 4) then s
  else if 5 ≤ k then s.sweepStripe v false
  else s.imageStripe v false

def execStripeDelivery (ep : Fin 192) (view : Fin 4) (s : State) : Host.Outcome State Fault Refusal :=
  .next (s.fresh.stripeDelivery (4 * ep.val + view.val))

/-! ### Missing streams (R59, R60) -/

/-- What is left of the image in delivery goes out as zeros, with validity 0 (R60). -/
def State.finishZeros (s : State) (e : Nat) : State :=
  let im := (s.ep e).image
  if !im.any then s
  else
    let s := s.setEp e { s.ep e with image := { im with isOpen := false, valid := false } }
    let s := foldS (s.viewsOf e) (fun s v =>
      foldS (List.range (ViewRec.stripes (s.viewRec v) - (s.view v).stripe)) (fun s _ => s.imageStripe v true) s) s
    s.setEp e { s.ep e with image := .zero }

/-- What is left of a lidar's views in delivery goes out as zeros, with validity 0 (R60). -/
def State.finishSweep (s : State) (e : Nat) : State :=
  foldS ((s.viewsOf e).filter (fun v => 5 ≤ ViewRec.kind (s.viewRec v) && s.sweepReady v)) (fun s v =>
    foldS (List.range (ViewRec.stripes (s.viewRec v) - (s.view v).stripe)) (fun s _ => s.sweepStripe v true) s) s

/-- A zero tensor of one view. -/
def State.zeroView (s : State) (v : Nat) : State :=
  let d := s.viewRec v
  let time := if 5 ≤ ViewRec.kind d then bytesOf 8 s.tickNs else (List.range 8).map (Config.freeByte s.freeIx)
  let n := ViewRec.stripes d
  let s := foldS (List.range n) (fun s i =>
    s.putStripe v i (s.stripeWords v i true) (if i + 1 = n then some (s.descriptor v s.frameNo false true time) else none)) s
  -- the image in delivery of a camera view goes on
  if 5 ≤ ViewRec.kind d then (s.setView v { s.view v with stripe := n, valid := false, done := true }).freeStep else s.freeStep

/-- Whether a slot has no input for the present frame, so that a zero tensor stands in for it. DEDUCED, log entry 119. -/
def State.inputMissing (s : State) (e t : Nat) : Bool :=
  let x := s.ep e
  if s.eclass e = 3 && s.pipeOn e && (s.sweep e true).frame = s.frameNo then
    -- pillar views without motion
    s.egoLate.contains s.frameNo
  else if s.eget e 0x0C = 1 then
    s.triggerTime e + 1000000 ≤ t && !(s.pipeOn e && s.built e && x.image.any && x.image.frame == s.frameNo)
  else true

def State.zeroTensor (s : State) (e t : Nat) : State :=
  if s.dev = dsOp && s.frame.isOpen && s.frame.n = s.frameNo && !s.slotDone e && s.viewsOf e != [] && s.inputMissing e t then
    let vs := (s.viewsOf e).filter (fun v =>
      if s.eclass e = 3 then !(s.view v).done && (ViewRec.kind (s.viewRec v) == 6 || !(s.pipeOn e && (s.sweep e true).frame == s.frameNo)) else true)
    let s := foldS vs (fun s v => s.zeroView v) s
    if (s.viewsOf e).all (fun v => vs.contains v || (s.view v).done) then s.slotDelivered e s.frameNo false else s
  else s

/-- A slot without an input for the frame delivers zeros: at the tick, or 1 ms after the trigger time. -/
def execZeroTensor (ep : Fin 192) (t : Nat) (s : State) : Host.Outcome State Fault Refusal :=
  .next ((s.fresh.atTime t).zeroTensor ep.val t)

end Sys2Proof.Machine
end

