-- ==== Sys2Proof/Machine/Heads.lean ====
section
/-! DEFINITION. Sensor heads: discovery (R38, R41, R46–R52), life counters (R54–R56), links and admission (R53, R60, R61), triggers
(R42, R43), and the Ethernet ports' ARP and gPTP (R35, R36, R44). -/

namespace Sys2Proof.Machine

def codeLinkDown : Nat := 0x1001
def codeUnbound : Nat := 0x1002
def codeIdTimeout : Nat := 0x1003
def codeCert : Nat := 0x1004
def codeAuthFail : Nat := 0x1005
def codeAuthTimeout : Nat := 0x1006
def codeCalTimeout : Nat := 0x1007
def codeCalDigest : Nat := 0x1008
def codeClass : Nat := 0x1009
def codeSerial : Nat := 0x100A
def codeLocation : Nat := 0x100B
def codeLifeRegress : Nat := 0x100C
def codeWorn : Nat := 0x100D
def codeExpired : Nat := 0x100E
def codeGptpUnlocked : Nat := 0x1014
def codeCalContent : Nat := 0x101D

/-! ### Messages (R46) -/

/-- A request: type, endpoint, payload length, payload. -/
def State.request (s : State) (e ty : Nat) (payload : List Byte) : State :=
  s.send (.head e (bytesOf 1 ty ++ bytesOf 1 e ++ bytesOf 2 payload.length ++ payload))

def State.setDisc (s : State) (e : Nat) (d : Disc) : State := s.setEp e { s.ep e with disc := d }

/-- Step 2 begins. -/
def State.askCert (s : State) (e : Nat) : State := ((s.setDisc e .certSent).eset e 0x15 1).request e 0x01 []

/-! ### Challenges (R48, R51) -/

def allEps : List Nat := List.range 192

def State.outstandingChallenges (s : State) : Nat := (allEps.filter (fun e => (s.ep e).disc == .challengeSent)).length

/-- A challenge goes out with a fresh nonce. -/
def State.sendChallenge (s : State) (e : Nat) : State :=
  let nonce := (List.range 32).map (Config.freeByte s.freeIx)
  ((s.setEp e { s.ep e with disc := .challengeSent, nonce := nonce }).freeStep).request e 0x02 nonce

/-- Heads that wait are challenged in endpoint order while fewer than 64 challenges are outstanding. -/
def State.challengeWaiting (s : State) : State :=
  foldS allEps (fun s e =>
    if (s.ep e).disc = .challengeWait && s.outstandingChallenges < 64 then s.sendChallenge e else s) s

/-! ### Failures (R52) -/

/-- A failure that is retried from step 2. -/
def State.retryLater (s : State) (e code : Nat) : State :=
  let s := { s with meshQueue := s.meshQueue.filter (· != e), fetched := s.fetched.filter (· != e) }.setDisc e .retryWait
  (((s.epReport e code).ebump e 0x20).eset e 0x15 1).challengeWaiting

/-- A failure that waits for the link to go down. -/
def State.refuseHead (s : State) (e code : Nat) : State :=
  let s := { s with meshQueue := s.meshQueue.filter (· != e), fetched := s.fetched.filter (· != e) }.setDisc e .refused
  (((s.epReport e code).ebump e 0x20).eset e 0x15 6).challengeWaiting

/-- CAL_CONTENT: a tensoriser code that refuses the head (R72, R75). -/
def State.refuseContent (s : State) (e : Nat) (retry : Bool) : State :=
  let s := s.setEp e { s.ep e with disc := .refused, enableRetry := retry }
  (((s.tsrReport codeCalContent (ucEndpoint e)).ebump e 0x20).eset e 0x15 6).challengeWaiting

/-! ### Locations (R38, R41, R75) -/

/-- Whether a location is that of endpoint `e`; and whether its traffic belongs to it. -/
def State.placeOf (s : State) (l : Location) (e : Nat) : Bool :=
  s.eget e 0x02 == l.kind && s.eget e 0x03 == l.port && s.eget e 0x04 == l.pos
    && (if l.kind = 1 then s.eget e 0x05 == l.vc else s.eget e 0x06 == l.ip.toNat && s.eget e 0x07 == l.udp.toNat)
def State.atLocation (s : State) (l : Location) (e : Nat) : Bool := s.eget e 0x01 == 1 && s.placeOf l e

/-- Virtual channels of an endpoint's location: those of its exposures, once its head's record is known (R75). -/
def State.channels (s : State) (e : Nat) : Nat := if s.fetched.contains e then s.exposures e else 1

/-- Whether two enabled endpoints share a location; the virtual channels of further exposures count. DEDUCED, log entry 128. -/
def State.sameLocation (s : State) (e f : Nat) : Bool :=
  s.eget e 0x01 == 1 && s.eget f 0x01 == 1 && s.eget e 0x02 == s.eget f 0x02 && s.eget e 0x03 == s.eget f 0x03
    && s.eget e 0x04 == s.eget f 0x04
    && (if s.eget e 0x02 = 1 then
          decide (s.eget e 0x05 < s.eget f 0x05 + s.channels f) && decide (s.eget f 0x05 < s.eget e 0x05 + s.channels e)
        else s.eget e 0x06 == s.eget f 0x06 && s.eget e 0x07 == s.eget f 0x07)

def State.conflict (s : State) (e : Nat) : Bool := (List.range e).any (fun f => s.sameLocation e f)

/-- Endpoints of a port that discovery has taken up leave no place for another: a port carries four on A-PHY, eight on Ethernet (R37).
DESIGN CHOICE, log entry 192. -/
def State.portFull (s : State) (e : Nat) : Bool :=
  let kind := s.eget e 0x02
  decide ((if kind = 1 then 4 else 8) ≤
    (allEps.filter (fun f => f != e && decide ((s.ep f).disc ≠ .idle) && s.eget f 0x02 == kind && s.eget f 0x03 == s.eget e 0x03)).length)

/-- An admitted head is released at the next tick, and refused. DEDUCED, log entry 131. -/
def State.releaseLater (s : State) (e code : Nat) : State :=
  let s := (s.epReport e code).ebump e 0x20
  s.setEp e { s.ep e with releaseNext := 2 }

/-- The heads of higher-numbered endpoints at an endpoint's location are refused (R41). DEDUCED, log entry 193. -/
def State.claim (s : State) (e : Nat) : State :=
  foldS (allEps.filter (fun f => decide (e < f) && s.sameLocation e f && decide ((s.ep f).disc ≠ .idle) && decide ((s.ep f).disc ≠ .refused)
    && (s.ep f).releaseNext != 2)) (fun s f =>
      if (s.ep f).disc = .admitted then s.releaseLater f codeLocation else s.refuseHead f codeLocation) s

/-- Step 1 is done for an endpoint: step 2, or LOCATION_CONFLICT. -/
def State.linkIsUp (s : State) (e : Nat) : State :=
  let s := (s.setEp e { s.ep e with linkUp := true }).eset e 0x15 1
  if s.conflict e then s.refuseHead e codeLocation else if s.portFull e then s else s.askCert e

/-- An endpoint's location was written: the conflicts there are settled anew (R41). -/
def State.relocate (s : State) (e : Nat) : State :=
  if s.eget e 0x01 ≠ 1 then s
  else
    let s := s.claim e
    if s.conflict e && decide ((s.ep e).disc ≠ .idle) && decide ((s.ep e).disc ≠ .refused) && (s.ep e).releaseNext != 2 then
      (if (s.ep e).disc = .admitted then s.releaseLater e codeLocation else s.refuseHead e codeLocation)
    else s

/-- A head announces itself at a location. An unbound head has no endpoint: the device reports it, once for the location while its state
lasts, with the device as unit (R38, R64). DESIGN CHOICE, log entry 179; DEDUCED, log entry 180. -/
def State.linkUpAt (s : State) (l : Location) : State :=
  match allEps.filter (s.atLocation l) with
  | [] =>
    let s := if s.unbound.contains l then s else { s with unbound := s.unbound ++ [l] }
    if s.announced.contains l then s else { s with announced := s.announced ++ [l] }.rep codeUnbound ucDevice
  | es => foldS es (fun s e => if (s.ep e).linkUp then s else s.linkIsUp e) s

def execLinkUp (loc : Location) (s : State) : Host.Outcome State Fault Refusal := .next (s.fresh.linkUpAt loc)

/-! ### Certificates (R47) -/

/-- Layout of a certificate. Its reserved bytes have a value in R47 and must hold it, unlike those of other records (R6).
DEDUCED, log entry 170. -/
def certLayout (d : List Byte) : Bool :=
  decide (d.length = 1024) && slice d 0 4 == ascii "VXHC" && fieldAt d 4 2 == 1 && fieldAt d 7 1 == 0
    && slice d 400 4 == [0x00, 0x01, 0x00, 0x01] && allZeroBytes (slice d 404 236)
where allZeroBytes (l : List Byte) : Bool := l.all (· == 0)

/-- The root signature, by the integrator root key of the trust record. -/
def State.certSigned (s : State) (d : List Byte) : Bool :=
  !s.trustKey.isEmpty && pssVerify (s.trustKey.take 384) (natOfBE (s.trustKey.drop 384)) (slice d 0 640) (slice d 640 384)

/-- DEDUCED, log entry 129. -/
def State.certResponse (s : State) (e : Nat) (d : List Byte) : State :=
  if (s.ep e).disc ≠ .certSent then s
  else if s.conflict e then s.refuseHead e codeLocation
  else if !certLayout d then s.refuseHead e codeCert
  else if fieldAt d 6 1 ≠ s.eclass e then s.refuseHead e codeClass
  else if !s.certSigned d then s.refuseHead e codeCert
  else if s.eget e 0x0E ≠ 0 && s.eget e 0x0E ≠ fieldAt d 8 8 then s.refuseHead e codeSerial
  else
    let s := s.setEp e { s.ep e with disc := .challengeWait, modulus := slice d 16 384 }
    ((s.eset e 0x15 2).eset e 0x17 (fieldAt d 8 8)).challengeWaiting

def execGetCertResponse (ep : Fin 192) (payload : List Byte) (s : State) : Host.Outcome State Fault Refusal :=
  .next (s.fresh.certResponse ep.val payload)

/-! ### Life counters (R54–R56) -/

/-- Three counters of a report. -/
def lifeOf (d : List Byte) (off : Nat) : Nat × Nat × Nat := (fieldAt d off 4, fieldAt d (off + 4) 4, fieldAt d (off + 8) 4)

/-- Whether a counter went backwards for the same serial. -/
def State.regress (s : State) (e : Nat) (l : Nat × Nat × Nat) : Bool :=
  match KV.get none s.life e with
  | some x => x.1 == s.eget e 0x17 && (decide (l.1 < x.2.1) || decide (l.2.1 < x.2.2.1) || decide (l.2.2 < x.2.2.2))
  | none => false

/-- The life state that counters and thresholds give. -/
def lifeState (c t : List Nat) : Nat :=
  let z := c.zip t
  if z.any (fun x => x.2 != 0 && decide (x.2 ≤ x.1)) then 2
  else if z.any (fun x => x.2 != 0 && decide (x.2 * 80 / 100 ≤ x.1)) then 1
  else 0

/-- An accepted report: stored, shown, and the life state evaluated; it never returns to Fresh for the same serial, so that an Expired head
whose counters give Fresh is Worn, and is reported so; nor is it remembered where the object or the serial was lost.
DEDUCED, log entry 174; DESIGN CHOICE, log entry 175. -/
def State.takeLife (s : State) (e : Nat) (l : Nat × Nat × Nat) : State :=
  let serial := s.eget e 0x17
  let same := match KV.get none s.life e with | some x => x.1 == serial | none => false
  let s := { s with life := KV.set none s.life e (some (serial, l.1, l.2.1, l.2.2)) }
  let s := ((s.eset e 0x1B l.1).eset e 0x1C l.2.1).eset e 0x1D l.2.2
  let old := if same then s.eget e 0x16 else 0
  let new := lifeState [l.1, l.2.1, l.2.2] [s.eget e 0x0F, s.eget e 0x10, s.eget e 0x11]
  let new := if new = 0 && old ≠ 0 then 1 else new
  let s := s.eset e 0x16 new
  if new = old then s
  else if new = 1 then s.epReport e codeWorn
  else if new = 2 then s.epReport e codeExpired
  else s

/-- The head policy refuses Expired heads (R56). -/
def State.refusePolicy (s : State) : Bool := s.fuse 1991 1991 == 1

/-! ### Authentication (R48) -/

/-- What the CHALLENGE signature covers. -/
def State.challengeText (s : State) (e : Nat) (d : List Byte) : List Byte :=
  ascii "VXHA" ++ (s.ep e).nonce ++ bytesOf 32 (s.fuse 319 64) ++ slice d 0 44 ++ bytesOf 1 e

/-- Bytes of one GET_CAL request (R46). -/
def State.calChunk (s : State) (e : Nat) : Nat := if s.eget e 0x02 = 1 then 61440 else 8192

def State.askCal (s : State) (e off n : Nat) : State :=
  (s.setEp e { s.ep e with disc := .calFetch, calAsked := n }).request e 0x03 (bytesOf 4 off ++ bytesOf 4 n)

/-- DEDUCED, log entry 130. -/
def State.authResponse (s : State) (e : Nat) (d : List Byte) : State :=
  if (s.ep e).disc ≠ .challengeSent then s
  else if d.length ≠ 428 || !pssVerify (s.ep e).modulus 65537 (s.challengeText e d) (slice d 44 384) then s.refuseHead e codeAuthFail
  else if s.regress e (lifeOf d 32) then s.refuseHead e codeLifeRegress
  else
    let s := (s.takeLife e (lifeOf d 32)).eset e 0x15 3
    let s := s.setEp e { s.ep e with calDigest := slice d 0 32, cal := [], calLen := 0 }
    (s.askCal e 0 (s.calChunk e)).challengeWaiting

def execChallengeResponse (ep : Fin 192) (payload : List Byte) (s : State) : Host.Outcome State Fault Refusal :=
  .next (s.fresh.authResponse ep.val payload)

/-! ### Calibration content (R72–R75) -/

/-- Directory entry `k` of a calibration record: type, offset, length. -/
def calEntry (d : List Byte) (k : Nat) : Nat × Nat × Nat :=
  (fieldAt d (16 + 12 * k) 2, fieldAt d (20 + 12 * k) 4, fieldAt d (24 + 12 * k) 4)
def calEntries (d : List Byte) : List (Nat × Nat × Nat) := (List.range (fieldAt d 10 1)).map (calEntry d)
def calSection (d : List Byte) (ty : Nat) : List Byte :=
  match (calEntries d).find? (fun x => x.1 == ty) with
  | some x => slice d x.2.1 x.2.2
  | none => []

def between (lo hi v : Nat) : Bool := decide (lo ≤ v) && decide (v ≤ hi)

/-- A raw pipe section's fields; `n` is the sample width. -/
def rawOk (r : List Byte) (n : Nat) : Bool :=
  let tr := fieldAt r 2 1
  let s1 := fieldAt r 20 1
  let s2 := fieldAt r 21 1
  decide (r.length = 158) && between 0 5 (fieldAt r 0 1) && between 0 15 (fieldAt r 1 1)
    && (fieldAt r 0 1 == 5 || fieldAt r 1 1 == 0) && between 0 3 tr
    && (tr != 1 || (List.range 16).all (fun i => decide (knotCode r i < knotCode r (i + 1))))
    && (tr != 2 || (between 1 8 s1 && s2 == 0 && decide (n + s1 ≤ 24)))
    && (tr != 3 || (between 1 8 s1 && between 1 8 s2 && decide (n + s1 + s2 ≤ 24)))

def lensOk (l : List Byte) : Bool :=
  between 2 257 (fieldAt l 0 2) && between 2 257 (fieldAt l 2 2) && decide (l.length = 20 + 8 * (fieldAt l 0 2 * fieldAt l 2 2))
    && [4, 8, 12, 16].all (fun o => fFinite (f32At l o))

def pointOk (d : List Byte) : Bool :=
  decide (d.length = 64) && between 0 1 (fieldAt d 10 1)
    && [12, 24, 28, 32, 36].all (fun o => [8, 16, 24, 32, 64].contains (specWidth d o) && decide (fieldAt d (o + 3) 1 ≤ 1))
    && decide (specWidth d 32 ≤ 16) && fieldAt d 40 4 != 0

def channelsOk (d t : List Byte) : Bool :=
  decide (t.length = 16 * pointsPerBlock d) && (List.range (pointsPerBlock d)).all (fun j => fFinite (chanCos t j) && fFinite (chanSin t j))

def depthOk (d : List Byte) : Bool := decide (d.length = 8) && fFinite (f32At d 0)

/-- Sections neither overlap nor leave the record. -/
def calPlaced (d : List Byte) : Bool :=
  let l := calEntries d
  l.all (fun x => decide (x.2.1 + x.2.2 ≤ d.length) && decide (16 + 12 * l.length ≤ x.2.1))
    && l.Pairwise (fun a b => a.1 ≠ b.1 ∧ (a.2.1 + a.2.2 ≤ b.2.1 ∨ b.2.1 + b.2.2 ≤ a.2.1))

/-- Whether a record's content is as R72 to R75 define it for the endpoint. -/
def State.calOk (s : State) (e : Nat) (d : List Byte) : Bool :=
  let cls := s.eclass e
  let need := if cls = 1 then [1, 2] else if cls = 2 then [2] else if cls = 3 then [3, 4] else [2, 5]
  let has (ty : Nat) : Bool := (calEntries d).any (fun x => x.1 == ty)
  slice d 4 4 == ascii "VXCR" && fieldAt d 8 2 == 1 && between 1 8 (fieldAt d 10 1) && decide (16 + 12 * fieldAt d 10 1 ≤ d.length)
    && (calEntries d).all (fun x => between 1 5 x.1) && calPlaced d && need.all has
    && decide ((((calEntries d).filter (fun x => x.1 != 2)).map (fun x => x.2.2)).foldl (· + ·) 0 ≤ 8192)
    && (!has 1 || rawOk (calSection d 1) (sampleBits (s.eget e 0x09))) && (!has 2 || lensOk (calSection d 2))
    && (!has 3 || pointOk (calSection d 3)) && (!has 4 || channelsOk (calSection d 3) (calSection d 4))
    && (!has 5 || depthOk (calSection d 5))

/-- Whether the exposures of an HDR head fit above the endpoint's virtual channel (R75). -/
def State.hdrFits (s : State) (e : Nat) (d : List Byte) : Bool :=
  let tr := if s.eclass e = 1 then fieldAt (calSection d 1) 2 1 else 0
  s.eget e 0x02 != 1 || (if tr = 2 then decide (s.eget e 0x05 ≤ 14) else if tr = 3 then decide (s.eget e 0x05 ≤ 13) else true)

/-- Sections are kept; the retained entry's layout is the device's own, so its bytes are free values (R66, R72).
DESIGN CHOICE, log entry 132. -/
def State.keepCal (s : State) (e : Nat) (d : List Byte) : State :=
  let s := { s with calib := [1, 3, 4, 5].foldl (fun m ty => KV.set [] m (calKey e ty) (calSection d ty)) s.calib,
                    lensMesh := KV.set [] s.lensMesh e (calSection d 2) }
  (s.writeBytes (lsBase + calBase + 8192 * e) ((List.range 8192).map (Config.freeByte s.freeIx))).freeStep

/-- A record is complete: digest, content, the location that its exposures take (R75), then the mesh build (R50 step 4, R85). -/
def State.calComplete (s : State) (e : Nat) : State :=
  let x := s.ep e
  if sha256 x.cal ≠ x.calDigest then s.retryLater e codeCalDigest
  else if !s.calOk e x.cal then s.refuseContent e false
  else if !s.hdrFits e x.cal then s.refuseContent e true
  else
    let s := { s.keepCal e x.cal with fetched := s.fetched.filter (· != e) ++ [e] }
    if s.conflict e then s.refuseHead e codeLocation
    else
      let s := s.claim e
      { s with meshQueue := s.meshQueue ++ [e] }.setEp e { s.ep e with disc := .meshWait, cal := [] }

/-- A GET_CAL response of the length asked for, or of the rest of the record; any other is as if not received. -/
def State.calResponse (s : State) (e : Nat) (d : List Byte) : State :=
  let x := s.ep e
  let total := if x.cal.isEmpty then fieldAt d 0 4 else x.calLen
  if x.disc ≠ .calFetch || d.length ≠ min x.calAsked (total - x.cal.length) || d.isEmpty then s
  else if 2 * 1024 * 1024 < total then s.refuseContent e false
  else
    let cal := x.cal ++ d
    let s := s.setEp e { x with cal := cal, calLen := total }
    if cal.length = total then s.calComplete e else s.askCal e cal.length (min (s.calChunk e) (total - cal.length))

def execGetCalResponse (ep : Fin 192) (payload : List Byte) (s : State) : Host.Outcome State Fault Refusal :=
  .next (s.fresh.calResponse ep.val payload)

/-! ### Life reports (R54) -/

/-- A GET_LIFE response; the type under its signature is the response's, 0x84. DESIGN CHOICE, log entry 176. -/
def State.lifeResponse (s : State) (e : Nat) (d : List Byte) : State :=
  let x := s.ep e
  if x.disc ≠ .admitted || !x.lifePending then s
  else
    let s := s.setEp e { x with lifePending := false }
    if d.length ≠ 396 || !pssVerify x.modulus 65537 (bytesOf 1 0x84 ++ bytesOf 1 e ++ slice d 0 12) (slice d 12 384) then
      s.releaseLater e codeAuthFail
    else if s.regress e (lifeOf d 0) then s.releaseLater e codeLifeRegress
    else
      let s := s.takeLife e (lifeOf d 0)
      if s.eget e 0x16 = 2 && s.refusePolicy then s.setEp e { s.ep e with releaseNext := 2 } else s

def execGetLifeResponse (ep : Fin 192) (payload : List Byte) (s : State) : Host.Outcome State Fault Refusal :=
  .next (s.fresh.lifeResponse ep.val payload)

/-- The device asks an admitted head for its counters. -/
def State.lifePoll (s : State) (e : Nat) : State :=
  if (s.ep e).disc = .admitted then (s.setEp e { s.ep e with lifePending := true }).request e 0x04 [] else s

def execLifePoll (ep : Fin 192) (s : State) : Host.Outcome State Fault Refusal := .next (s.fresh.lifePoll ep.val)

/-! ### Time limits (R50, R52) -/

/-- DESIGN CHOICE, log entry 5. -/
def execIdTimeout (ep : Fin 192) (s : State) : Host.Outcome State Fault Refusal :=
  .next (if (s.ep ep.val).disc = .certSent then s.fresh.retryLater ep.val codeIdTimeout else s.fresh)

def execAuthTimeout (ep : Fin 192) (s : State) : Host.Outcome State Fault Refusal :=
  .next (if (s.ep ep.val).disc = .challengeSent then s.fresh.retryLater ep.val codeAuthTimeout else s.fresh)

def execCalTimeout (ep : Fin 192) (s : State) : Host.Outcome State Fault Refusal :=
  .next (if (s.ep ep.val).disc = .calFetch || (s.ep ep.val).disc = .meshWait then s.fresh.retryLater ep.val codeCalTimeout else s.fresh)

/-- DESIGN CHOICE, log entry 133. -/
def execDiscoveryRetry (ep : Fin 192) (s : State) : Host.Outcome State Fault Refusal :=
  .next (if (s.ep ep.val).disc = .retryWait then s.fresh.askCert ep.val else s.fresh)

/-! ### Links down, Enable (R60, R61) -/

/-- A head goes: what the device holds of the present one ends; its calibration stays until another is admitted. -/
def State.forgetHead (s : State) (e : Nat) (linkUp : Bool) (d : Disc) : State :=
  let x := s.ep e
  { s with meshQueue := s.meshQueue.filter (· != e), fetched := s.fetched.filter (· != e) }.setEp e
    { x with linkUp := linkUp, disc := d, releaseNext := 0, enableRetry := false, lifePending := false, cal := [], haveNumber := false, lowClarity := 0,
             image := .zero, complete := none }

/-- The stream of a head that leaves is completed invalid. -/
def State.endStream (s : State) (e : Nat) : State :=
  let s := s.finishZeros e
  if s.eclass e = 3 then (s.finishSweep e).spoilSweep e false |>.spoilSweep e true else s

def State.linkGone (s : State) (e : Nat) : State :=
  let s := { s with unbound := s.unbound.filter (fun l => !s.placeOf l e) }
  if !(s.ep e).linkUp then s
  else
    let was := (s.ep e).disc == .admitted
    let s := if was then (s.epReport e codeLinkDown).endStream e else s
    ((s.forgetHead e false .idle).eset e 0x15 0).challengeWaiting

def execLinkDown (ep : Fin 192) (s : State) : Host.Outcome State Fault Refusal := .next (s.fresh.linkGone ep.val)

/-- A head with its link up starts discovery, where its endpoint is enabled. -/
def State.startDiscovery (s : State) (e : Nat) : State :=
  if s.eget e 0x01 = 1 && (s.ep e).linkUp && (s.ep e).disc = .idle then s.linkIsUp e else s

/-- Whether a head is present at an endpoint's location: one of no endpoint, or another endpoint's there. -/
def State.present (s : State) (e : Nat) : Bool :=
  s.unbound.any (fun l => s.atLocation l e) || allEps.any (fun f => f != e && (s.ep f).linkUp && s.sameLocation e f)

/-- What a change of Enable does (R61): discovery starts, at a location where a head is present too; or the head is released at the next
tick, and a discovery ends. A refused head stays refused until its link goes down (R50, R52). DEDUCED, log entry 178. -/
def State.enableChanged (s : State) (e old new : Nat) : State :=
  if old = new then s
  else if new = 1 then
    let s := s.claim e
    let s := if s.present e then { s with unbound := s.unbound.filter (fun l => !s.atLocation l e) }.setEp e { s.ep e with linkUp := true } else s
    s.startDiscovery e
  else
    let x := s.ep e
    if x.disc = .admitted then s.setEp e { x with releaseNext := max 1 x.releaseNext }
    else if x.disc = .refused && !x.enableRetry then s
    else if x.disc = .idle then s
    else ((s.forgetHead e x.linkUp .idle).eset e 0x15 0).challengeWaiting

/-! ### Ticks (R42, R50 step 5, R53, R54, R56, R61) -/

/-- Heads due are released. -/
def State.releaseHeads (s : State) : State :=
  foldS (allEps.filter (fun e => (s.ep e).releaseNext != 0)) (fun s e =>
    let r := (s.ep e).releaseNext
    let s := s.endStream e
    if r = 2 then (s.forgetHead e true .refused).eset e 0x15 6
    else ((s.forgetHead e true .idle).eset e 0x15 0).startDiscovery e) s

/-- Heads that have completed step 4 are admitted, or refused with HEAD_EXPIRED where Expired under the refuse policy, reported here as the
failure of step 5 beside the report of the change (R50, R55). DEDUCED, log entry 177. -/
def State.admitHeads (s : State) : State :=
  foldS (allEps.filter (fun e => (s.ep e).disc == .admitNext)) (fun s e =>
    if s.eget e 0x16 = 2 && s.refusePolicy then s.refuseHead e codeExpired
    else (s.setEp e { s.ep e with disc := .admitted, admittedFrame := s.frameNo, image := .zero, complete := none, haveNumber := false, lowClarity := 0 }).eset e 0x15 5) s

/-- The triggers of the next frame are fixed for the heads admitted now (R42). -/
def State.fixTriggers (s : State) : State :=
  let next := (s.frameNo + 1) % 2 ^ 32
  let keep := s.triggers.filter (fun x => x.2.1 == s.frameNo)
  let new := (allEps.filter (fun e => s.eget e 0x0C == 1 && (s.ep e).disc == .admitted && s.eget e 0x01 == 1)).map (fun e =>
    (e, next, s.tickNs + s.periodNs + s.eget e 0x0D * 1000, false))
  { s with triggers := keep ++ new }

/-- A trigger goes out: an edge on A-PHY, the port's tunnelling latency early, or a message on Ethernet. DESIGN CHOICE, log entry 196. -/
def State.sendTrigger (s : State) (e : Nat) : State :=
  match s.triggers.find? (fun x => x.1 == e && !x.2.2.2) with
  | none => s
  | some x =>
    let t := x.2.2.1
    let s := { s with triggers := s.triggers.map (fun y => if y = x then (x.1, x.2.1, t, true) else y) }
    if s.eget e 0x02 = 2 then s.request e 0x05 (bytesOf 6 (t / 1000000000) ++ bytesOf 4 (t % 1000000000)) else s.send (.gpio e (t - Config.tunnelLatency (s.eget e 0x03) t))

def execTrigger (ep : Fin 192) (s : State) : Host.Outcome State Fault Refusal := .next (s.fresh.sendTrigger ep.val)

/-! ### Ethernet ports (R35, R36, R44, R442) -/

/-- DESIGN CHOICE, log entry 135. -/
def execArpRequest (port : Fin 16) (target : BitVec 32) (senderMac : BitVec 48) (senderIp : BitVec 32) (s : State) :
    Host.Outcome State Fault Refusal :=
  .next (if target = Config.portIp port.val then s.fresh.send (.arpReply port.val senderMac senderIp) else s.fresh)

/-- A port's role: 0 disabled, 1 master, 2 slave. -/
def State.role (s : State) (q : Nat) : Nat := bits (s.dget 0x2401 0x04) (2 * q + 1) (2 * q)
def State.hasSlave (s : State) : Bool := (List.range 16).any (fun q => s.role q == 2)

/-- A sync on the slave port: the time base follows the master's time and never runs back. DEDUCED, log entry 134. -/
def State.gptp (s : State) (q : Nat) (i : GptpInfo) : State :=
  match i with
  | .other => s
  | .sync m => if s.role q = 2 then { s with timeNs := max s.timeNs m, gptpSync := true }.dset 0x2401 0x05 1 else s

def execGptpMessage (port : Fin 16) (info : GptpInfo) (t : Nat) (s : State) : Host.Outcome State Fault Refusal :=
  .next ((s.fresh.atTime t).gptp port.val info)

/-- The slave port has lost sync for 3 s; the unit is the device. DESIGN CHOICE, log entry 179. -/
def execGptpUnlocked (s : State) : Host.Outcome State Fault Refusal :=
  .next (if s.hasSlave && s.dget 0x2401 0x05 ≠ 2 then ({ s.fresh with gptpSync := false }.dset 0x2401 0x05 2).rep codeGptpUnlocked ucDevice
    else s.fresh)

/-- Every 125 ms each master port sends its sync. -/
def execSyncInterval (s : State) : Host.Outcome State Fault Refusal :=
  .next (foldS ((List.range 16).filter (fun q => s.role q == 1)) (fun s q => s.send (.gptp q s.timeNs)) s.fresh)

/-- The roles are written: without a slave the device is grandmaster; with one it is unlocked until a sync comes. -/
def State.rolesWritten (s : State) : State :=
  if !s.hasSlave then { s with gptpSync := false }.dset 0x2401 0x05 0
  else s.dset 0x2401 0x05 (if s.gptpSync then 1 else 2)

/-- The lock source gave nothing for two frame periods (R442). -/
def execSyncLost (s : State) : Host.Outcome State Fault Refusal :=
  .next (if s.dget 0x2401 0x02 ≠ 0 && s.lockGood then ({ s.fresh with lockGood := false }.dbump 0x2401 0x09).rep 0x1021 ucDevice else s.fresh)

/-- The pulse of the present tick. -/
def execFrameSyncOutPulse (s : State) : Host.Outcome State Fault Refusal :=
  .next (s.fresh.send (.syncOut (s.tickNs + s.dget 0x2401 0x03 * 1000)))

end Sys2Proof.Machine
end

