-- ==== Sys2Proof/Machine/Power.lean ====
section
/-! DEFINITION. Power states (R460–R468), wake events, rails and the voltage control interface (R473, R474), temperatures (R440),
and host contexts whose grace has ended (R334). -/

namespace Sys2Proof.Machine

/-! ### Entry (R461–R464) -/

/-- The low-power state in force: 0 RUN. -/
def State.power (s : State) : Nat := s.dget 0x2100 1

/-- LOW-POWER begins: the wake latch is armed (R461, R466), and the rings are noted that go on at its exit (R270). -/
def State.lpBegin (s : State) (lvl : Nat) : State :=
  let s := { s with lpFrom := s.dev, wakeMask := BitVec.ofNat 8 (s.dget 0x2100 0x12), wakeTimer := s.dget 0x2100 0x13, wake := none,
                    lpExitBegun := false, lpRails := false, lpStuck := false, lpRings := s.ringsOn }
  (s.dset 0x2500 0x40 dsLowPower).dset 0x2100 1 lvl

/-- Admitted heads are released, their links stay up (R463). -/
def State.releaseAllHeads (s : State) : State :=
  foldS (allEps.filter (fun e => (s.ep e).disc == .admitted)) (fun s e => ((s.endStream e).forgetHead e true .idle).eset e 0x15 1) s

/-- STANDBY: FAULT_N, heads, bed rings, PWR_EN[4:0] (R463). -/
def State.standbyEntry (s : State) : State :=
  let s := { s with safeOk := false, faultN := false }.releaseAllHeads
  { s with ringsOn := s.ringsOn &&& 0x10, pwrEn := s.pwrEn &&& 0xE0, pwrGood := s.pwrGood &&& 0xE0 }

/-- What SLEEP leaves: always-on memory, fuses, retained entries; everything else is lost (R464, R465). -/
def State.sleepEntry (s : State) : State :=
  let t : State := { State.reset with
    pending := s.pending, timeNs := s.timeNs, sent := s.sent, hostMem := s.hostMem, freeIx := s.freeIx, life := s.life, fuses := s.fuses,
    aonCodes := s.aonCodes, fuseBlowDue := s.fuseBlowDue, poresetN := s.poresetN, thermalHold := s.thermalHold, devReset := 0, pwrEn := 0, pwrGood := 0, fitted := s.fitted,
    portA := { s.portA.cleared .a with linkUp := false, busMaster := false },
    portB := { s.portB.cleared .b with linkUp := false, busMaster := false },
    lpFrom := s.lpFrom, wake := s.wake, wakeMask := s.wakeMask, wakeTimer := s.wakeTimer, dict := s.keepDict 3 }
  foldS [(0x2500, 0x0E), (0x2500, 0x40), (0x2500, 0x45), (0x2500, 0x46), (0x2500, 0x47), (0x2100, 1), (0x2100, 0x14)]
    (fun t i => t.dset i.1 i.2 (s.dget i.1 i.2)) t

/-- Whether an entry to a low-power state is refused (R30, R385). -/
def State.lpRefused (s : State) (lvl : Nat) : Bool :=
  (decide (2 ≤ lvl) && allCtx.any (fun k => s.cstate k != csFree)) || allParts.any (fun p => (s.part p).resetStep != 0)

/-- POWER into a state: the whole entry; POWER completes at its end, in SLEEP before the links go down. -/
def powerEntry (lvl : Nat) (r : HRef) (s : State) : State :=
  if s.lpRefused lvl then s.refuse r STATE_CONFLICT
  else
    let s := s.lpBegin lvl
    if lvl = 1 then { s with ringsOn := 0, safeOk := false }.complete r 0 0
    else if lvl = 2 then s.standbyEntry.complete r 0 0
    else ({ s with safeOk := false, faultN := false }.complete r 0 0).sleepEntry

def stPS : List Nat := [dsPreOp, dsStopped]

def execPowerIdle (iss : Issuer) (s : State) : Host.Outcome State Fault Refusal :=
  .next (runCommand iss true .conf stPS true (powerEntry 1) s.fresh)
def execPowerStandby (iss : Issuer) (s : State) : Host.Outcome State Fault Refusal :=
  .next (runCommand iss true .conf stPS true (powerEntry 2) s.fresh)
def execPowerSleep (iss : Issuer) (s : State) : Host.Outcome State Fault Refusal :=
  .next (runCommand iss true .conf stPS true (powerEntry 3) s.fresh)

/-! ### Wake events (R466, R467) -/

/-- The first event latches; object 0x2100:14 shows it. DEDUCED, log entry 163. -/
def State.latchWake (s : State) (v : Nat) : State :=
  if s.dev = dsLowPower && s.wake = none && !s.lpExitBegun then { s with wake := some v }.dset 0x2100 0x14 v else s

/-- An event of an enabled source. -/
def State.wakeSource (s : State) (b : Nat) : State := if s.wakeMask.getLsbD b then s.latchWake (b + 1) else s

def execWakeCan (s : State) : Host.Outcome State Fault Refusal := .next (s.fresh.wakeSource 0)
def execWakeN (s : State) : Host.Outcome State Fault Refusal := .next (s.fresh.wakeSource 1)
def execPerstDeassert (port : HostPort) (s : State) : Host.Outcome State Fault Refusal :=
  .next ((s.fresh.setPort port { s.port port with perst := false }).wakeSource 2)
def execWakeTimer (s : State) : Host.Outcome State Fault Refusal := .next (if s.wakeTimer = 0 then s.fresh else s.fresh.wakeSource 3)

/-- POWER with P0 = 0: a wake event of its own. -/
def powerExit (r : HRef) (s : State) : State := (s.latchWake 0).complete r 0 0

def execPowerExit (iss : Issuer) (s : State) : Host.Outcome State Fault Refusal :=
  .next (runCommand iss true .conf [dsLowPower] true powerExit s.fresh)

/-! ### Lost hosts (R334) -/

def codeHostLost : Nat := 0x20A4

/-- The grace of a lost host has ended: its contexts that are not persistent are torn down. -/
def State.endGrace (s : State) (h : Nat) : State :=
  if s.admitted h then s
  else
    foldS (allCtx.filter (fun k => s.cstate k != csFree && s.cget k 0x03 == h + 1 && s.cget k 0x05 == 0)) (fun s k =>
      if s.cstate k = csTearing then s else (s.report codeHostLost (ucCtx k) (ucHost h) [] (s.tearFaults k)).startTeardown k codeHostLost) s

/-- In IDLE the teardowns start at exit (R468). -/
def execHostLossGrace (port : HostPort) (s : State) : Host.Outcome State Fault Refusal :=
  let h := hostIx port
  .next (if s.hostState h = 2 || s.asleep then s.fresh
    else if s.dev = dsLowPower then { s.fresh with graceDue := s.graceDue.filter (· != h) ++ [h] }
    else s.fresh.endGrace h)

/-! ### Exit (R462–R464, R467) -/

/-- The device is back in RUN, its rings go on (R270); entries not retained through the state read their defaults (R431). -/
def State.lpLeave (s : State) (lvl : Nat) : State :=
  let s := { s with dict := s.keepDict lvl, disagreements := [], ringsOn := s.lpRings, wake := none, lpExitBegun := false, lpRails := false }
  let s := foldS [0, 1] (fun s h => s.setPort (portOf h) { s.port (portOf h) with heartbeat := s.timeNs }) s
  (s.dclear 0x2100 1).dset 0x2500 0x40 s.lpFrom

/-- The end of IDLE; teardowns that fell due in it start. -/
def State.idleExit (s : State) : State :=
  let due := s.graceDue
  foldS due (fun s h => s.endGrace h) { s.lpLeave 1 with graceDue := [] }

/-- The end of STANDBY: heads are discovered again, every core's full test is due. -/
def State.standbyExit (s : State) : State :=
  let due := s.graceDue
  let s := { s.lpLeave 2 with graceDue := [] }.dset 0x2700 0x1B 0xFF
  let s := foldS allEps (fun s e => s.startDiscovery e) s
  foldS due (fun s h => s.endGrace h) s

/-- The end of SLEEP. -/
def State.sleepExit (s : State) : State :=
  let s := { s with ringsOn := 0x1F, wake := none, lpExitBegun := false, lpRails := false,
                    canParams := [0x4A, 0x4B, 0x4C, 0x4D].map (fun i => s.dget 0x2500 i) }
  let s := (s.dclear 0x2100 1).dset 0x2500 0x40 dsPreOp
  let s := foldS [0, 1, 2] (fun s i => s.raiseGen i) s
  let s := foldS (List.range 8) (fun s l => s.dset 0x2500 (0x10 + l) 32) s
  let s := (foldS [0, 1] (fun s h => s.setHostState h (if (s.port (portOf h)).linkUp then 1 else 0)) s).dset 0x2700 0x1B 0xFF
  s.reportHeld

/-- One step of the exit. -/
def State.lpStep (s : State) (step : ExitStep) : State :=
  let lvl := s.power
  if s.dev ≠ dsLowPower || s.wake = none || s.lpStuck then s
  else
    match step with
    | .begin =>
      if s.lpExitBegun then s
      else if lvl = 1 then s.idleExit
      else { s with lpExitBegun := true, pwrEn := 0xFF }
    | .rails =>
      if !s.lpExitBegun || s.lpRails || lvl < 2 then s
      else
        let s := { s with lpRails := true, pwrGood := 0xFF }
        if lvl = 2 then
          let s := foldS allCores (fun s c => s.zeroRange (spmBase c) 0x3000000) s
          foldS allParts (fun s p => s.dset 0x2900 (0x0C + p) 0) s
        else { s with bootDue := true }
    | .finish =>
      if !s.lpRails then s
      else if lvl = 2 then s.standbyExit
      else if s.bootDue || s.romWait then s
      else s.sleepExit

def execLowPowerExit (step : ExitStep) (t : Nat) (s : State) : Host.Outcome State Fault Refusal :=
  .next ((s.fresh.atTime t).lpStep step)

/-! ### Rails and voltage control (R473, R474) -/

def codeRail : Nat := 0x5010
def codeVctl : Nat := 0x5011

/-- A group that should be good is not; during an exit this abandons it. DESIGN CHOICE, log entry 164. -/
def State.railFault (s : State) (g : Nat) : State :=
  if !s.pwrEn.getLsbD g then s
  else
    let s := s.report codeRail ucDevice ucDevice (bytesOf 1 g)
    let s := { s with pwrGood := s.pwrGood &&& ~~~(BitVec.ofNat 8 (2 ^ g)) }
    if s.dev = dsLowPower && s.lpExitBegun then
      { s with lpStuck := true, pwrEn := if s.power = 2 then s.pwrEn &&& 0xE0 else 0 }
    else s

def execRailFault (group : Fin 8) (s : State) : Host.Outcome State Fault Refusal := .next (s.fresh.railFault group.val)

/-- PMB_ALERT_N low: what STATUS_WORD of the bed's stage reads. The row without one stands for any transaction that the stage left
unanswered three times; its last acknowledged setpoint stands. DESIGN CHOICE, log entry 138. -/
def State.pmbAlert (s : State) (b : Nat) (st : Option (BitVec 16)) : State :=
  match st with
  | none => s.rep codeVctl (ucBed b)
  | some v => if v = 0 then s else s.report codeRail (ucBed b) (ucBed b) (bytesOf 2 v.toNat)

def execPmbAlert (bed : Fin 4) (status : Option (BitVec 16)) (s : State) : Host.Outcome State Fault Refusal :=
  .next (s.fresh.pmbAlert bed.val status)

/-- The setpoints from one voltage to another in steps of 10 mV. -/
def voutSteps : Nat → Nat → Nat → List Nat
  | 0, _, _ => []
  | n + 1, a, b => if a = b then [] else
    let c := if a < b then min b (a + 10) else max b (a - 10)
    c :: voutSteps n c b

/-- The setpoint of a bed is sent to its stage, which acknowledges it (R440, R474). DEDUCED, log entry 139. -/
def State.sendVout (s : State) (b mv : Nat) : State :=
  let now := KV.get 680 s.vset b
  let s := foldS (voutSteps 64 now mv) (fun s v => s.send (.vout b v)) s
  { s with vset := KV.set 680 s.vset b mv }

/-! ### Temperatures (R440) -/

def State.temps (s : State) : List Int := [6, 7, 8, 9, 0x0A].map (fun i => signed 16 (s.dget 0x2100 i))

/-- TEMP_HIGH once, and again only after every die has been 5 °C below the threshold for 1 s. -/
def State.tempCheck (s : State) : State :=
  let thr := signed 16 (s.dget 0x2100 0x0F)
  let l := s.temps
  if s.tempHeld then
    if l.all (fun t => decide (t ≤ thr - 5)) then
      match s.tempBelow with
      | none => { s with tempBelow := some s.timeNs }
      | some t0 => if t0 + 1000000000 ≤ s.timeNs then { s with tempHeld := false, tempBelow := none } else s
    else { s with tempBelow := none }
  else if l.any (fun t => decide (thr ≤ t)) then
    { (s.rep 0x5031 ucDevice).dbump 0x2100 0x10 with tempHeld := true, tempBelow := none }
  else s

/-- The dies' temperatures are read: beds 0 to 3, then the Lodestar. -/
def State.setTemps (s : State) (l : List (BitVec 16)) : State :=
  let s := foldS ((List.range 5).zip l) (fun s x => s.dset 0x2100 (6 + x.1) x.2.toNat) s
  let high := (l.take 5).foldl (fun a t => max a t.toInt) (signed 16 (s.dget 0x2100 0x0B))
  (s.dset 0x2100 0x0B (high % 65536).toNat).tempCheck

def execTemperatureRefresh (temps : List (BitVec 16)) (s : State) : Host.Outcome State Fault Refusal :=
  .next (if s.devReset ≠ 0 && s.devReset < 4 then s.fresh else s.fresh.setTemps temps)

end Sys2Proof.Machine
end

