-- ==== Sys2Proof/Machine/Device.lean ====
section
/-! DEFINITION. Commands without a unit of their own (R405, R421), the device states (R414–R416), and the CAN controllers (R410–R413). -/

namespace Sys2Proof.Machine

/-! ### NOP and HOST_ATTACH -/

def execNopCommand (iss : Issuer) (s : State) : Host.Outcome State Fault Refusal :=
  .next (runCommand iss true .any stAll true (fun r s => s.complete r 0 0) s.fresh)

def powerOfTwo (n : Nat) : Bool := n != 0 && 2 ^ Nat.log2 n == n

/-- The conditions of R405. -/
def PortState.attachOk (p : PortState) : Bool :=
  p.linkUp && p.busMaster && powerOfTwo p.logSize.toNat && decide (16 ≤ p.logSize.toNat) && decide (p.logSize.toNat ≤ 32768) && p.consumer == 0

/-- A host is admitted: its log begins anew with this command's record; a device reset it has not heard of follows (R389 step 6). -/
def hostAttach (r : HRef) (s : State) : State :=
  let h := r.1
  let p := s.port (portOf h)
  if !p.attachOk then s.refuse r CMD_PARAM
  else
    let s := s.setPort (portOf h) { p with producer := 0, ringBase := p.logBase.toNat / 4096 * 4096, ringSize := p.logSize.toNat,
                                           lostSince := 0, heartbeat := s.timeNs }
    let s := (s.setHostState h 2).complete r 0 0
    if s.owedReset.contains h then
      { s with owedReset := s.owedReset.filter (· != h) }.statusTo h codeDeviceReset ucDevice
        (bytesOf 2 (s.dget 0x2500 0x0D) ++ bytesOf 2 s.resetCause)
    else s

def execHostAttach (iss : Issuer) (s : State) : Host.Outcome State Fault Refusal :=
  .next (runCommand iss false .hosts stAll true hostAttach s.fresh)

/-! ### STATE (R415, R416) -/

def State.setDev (s : State) (d : Nat) : State := s.dset 0x2500 0x40 d

/-- A command that has a handle completes; an NMT command has none. -/
def State.doneWith (s : State) (r : Option HRef) (code : Nat) : State :=
  match r with
  | some r => s.complete r code 0
  | none => s

/-- A refusal with a code, logged against the issuer. -/
def State.deny (s : State) (r : Option HRef) (i code : Nat) : State := (s.rep code (ucIssuer i)).doneWith r code

/-- LC frame programs are aborted and running BE contexts switched out, to the queue's head in number order (R416). -/
def State.leaveRun (s : State) : State :=
  let s := foldS (allCtx.filter (fun k => s.lcReady k && !s.allEnd k)) (fun s k => (s.abortLC k).cbump k 0x1A) s
  let incoming := allCtx.filter (fun k => s.cstate k == csWaiting && (s.ctx k).move == .switchingIn)
  let s := foldS incoming (fun s k => s.setCtx k { s.ctx k with move := .still, dest := none }) s
  let leaving := allCtx.filter (fun k => s.cstate k == csRunning && !s.isLC k && s.allotUp k && !s.isFenced (s.ccore k / 2))
  let s := foldS leaving (fun s k =>
    let c := s.ccore k
    let s := s.saveOut k
    (s.setCtx k { s.ctx k with dest := none }).releaseLate c) s
  let rest := s.waiting.filter (fun k => !leaving.contains k && !incoming.contains k)
  s.setWaiting (incoming ++ rest ++ leaving.filter (fun k => s.cstate k == csWaiting))

/-- A waiting transition is given up: its commands are refused. DEDUCED, log entry 162. -/
def State.cancelWait (s : State) : State :=
  match s.stateWait with
  | none => s
  | some l => foldS l (fun s r => s.refuse r STATE_CONFLICT) { s with stateWait := none }

/-- CRC of the SRDO's parameters: EN 50325-5 defines it, the spec does not; a free function of them (R411).
DESIGN CHOICE, log entry 87. -/
def State.srdoCrc (s : State) : Nat :=
  (Config.srdoChecksum (s.dget 0x1301 2) (s.dget 0x1301 3) (s.dget 0x1301 5) (s.dget 0x1301 6)).toNat

def codeSrdo : Nat := 0x4009

/-- The check of a transition to OPERATIONAL that fails first, with the unit that reports it (R68, R411). -/
def State.opFailure (s : State) (i : Nat) : Option (Nat × Nat) :=
  match s.viewFailure with
  | some f => some (f.1, ucView f.2)
  | none => if s.dget 0x13FE 0 ≠ 0xA5 || s.dget 0x13FF 1 ≠ s.srdoCrc then some (codeSrdo, ucIssuer i) else none

/-- The report of a check that failed. -/
def State.opReport (s : State) (f : Nat × Nat) : State := if f.1 = codeSrdo then s.rep f.1 f.2 else s.tsrReport f.1 f.2

/-- STATE with target OPERATIONAL: checked now, in force at the next tick, where it is checked again. -/
def State.toOperational (s : State) (r : Option HRef) (i : Nat) : State :=
  match s.opFailure i with
  | some f => (s.opReport f).doneWith r f.1
  | none =>
    let l := match r with | some r => [r] | none => []
    { s with stateWait := some (s.stateWait.getD [] ++ l) }

/-- The transition at once, after what leaving the present state asks for. -/
def State.enterState (s : State) (d : Nat) : State :=
  let s := s.cancelWait
  let s := if s.dev = dsOp || s.dev = dsMaint then s.leaveRun else s
  let s := if d = dsOp then s else { s with safeOk := false }
  s.setDev d

/-- STATE: the table of R415. -/
def State.stateTo (s : State) (d : Nat) (r : Option HRef) (i : Nat) : State :=
  if s.dev = d then s.doneWith r 0
  else if d = dsOp then (if s.dev = dsMaint then s.deny r i STATE_CONFLICT else s.toOperational r i)
  else if d = dsPreOp then
    if s.dev = dsMaint && s.activity.isSome then (s.dbump 0x2A00 0x11).deny r i MAINT_BUSY else (s.enterState d).doneWith r 0
  else if d = dsStopped then (if s.dev = dsMaint then s.deny r i STATE_CONFLICT else (s.enterState d).doneWith r 0)
  else (if s.dev = dsPreOp then (s.enterState d).doneWith r 0 else s.deny r i STATE_CONFLICT)

def stateCommand (d : Nat) (r : HRef) (s : State) : State := s.stateTo d (some r) r.1

def execStatePreOperational (iss : Issuer) (s : State) : Host.Outcome State Fault Refusal :=
  .next (runCommand iss true .conf stPOSM true (stateCommand dsPreOp) s.fresh)
def execStateOperational (iss : Issuer) (s : State) : Host.Outcome State Fault Refusal :=
  .next (runCommand iss true .conf stPOSM true (stateCommand dsOp) s.fresh)
def execStateStopped (iss : Issuer) (s : State) : Host.Outcome State Fault Refusal :=
  .next (runCommand iss true .conf stPOSM true (stateCommand dsStopped) s.fresh)
def execStateMaintenance (iss : Issuer) (s : State) : Host.Outcome State Fault Refusal :=
  .next (runCommand iss true .conf stPOSM true (stateCommand dsMaint) s.fresh)

/-! ### NMT on CAN-A (R413) -/

/-- An NMT command that asks for a state. -/
def State.nmt (s : State) (d : Nat) : State :=
  if s.asleep then s
  else if !s.inConf 2 then s.rep NOT_OWNER (ucIssuer 2)
  else if !stPOSM.contains s.dev then s.rep STATE_CONFLICT (ucIssuer 2)
  else s.stateTo d none 2

def execNmtStart (s : State) : Host.Outcome State Fault Refusal := .next (s.fresh.nmt dsOp)
def execNmtStop (s : State) : Host.Outcome State Fault Refusal := .next (s.fresh.nmt dsStopped)
def execNmtEnterPreOperational (s : State) : Host.Outcome State Fault Refusal := .next (s.fresh.nmt dsPreOp)

/-- A CAN frame goes out unless its controller is bus-off. -/
def State.canSend (s : State) (c : CanCtl) (f : CanFrame) : State :=
  if (match c with | .canA => s.busOffA | .canB => s.busOffB) then s else s.send (.can c f)

def State.canParam (s : State) (i : Nat) : Nat := nth 0 s.canParams i

/-- The CAN parameters held take effect (R428). DEDUCED, log entry 161. -/
def State.takeCanParams (s : State) : State := { s with canParams := [0x4A, 0x4B, 0x4C, 0x4D].map (fun i => s.dget 0x2500 i) }

/-- CAN-A's protocol stack restarts: boot-up message, a new handle generation. -/
def State.nmtReset (s : State) : State :=
  if s.asleep || s.dev = dsInit || s.dev = dsRecovering then s
  else
    let s := s.takeCanParams
    (s.canSend .canA (CanFrame.mk (0x700 + s.canParam 0) [0])).raiseGen 2

def execNmtResetNode (s : State) : Host.Outcome State Fault Refusal := .next s.fresh.nmtReset
def execNmtResetCommunication (s : State) : Host.Outcome State Fault Refusal := .next s.fresh.nmtReset

/-! ### Frames on the buses (R410, R412, R413) -/

/-- The NMT state byte of a heartbeat. -/
def nmtByte (d : Nat) : Byte :=
  if d = dsOp || d = dsMaint then 0x05 else if d = dsStopped then 0x04 else if d = dsPreOp then 0x7F else 0x00

def State.heartbeat (s : State) : State :=
  if s.asleep || s.dget 0x1017 0 = 0 then s
  else
    let b := nmtByte s.devForWrites
    (s.canSend .canA (CanFrame.mk (0x700 + s.canParam 0) [b])).canSend .canB (CanFrame.mk (0x700 + s.canParam 2) [b])

def execProducerHeartbeat (s : State) : Host.Outcome State Fault Refusal := .next s.fresh.heartbeat

/-- The oldest EMCY leaves the queue; in STOPPED, asleep or with CAN-A bus-off it waits. -/
def State.emcyOut (s : State) : State :=
  match s.emcy with
  | [] => s
  | f :: r => if s.busOffA || s.asleep || s.devForWrites = dsStopped then s else { s with emcy := r }.send (.can .canA f)

def execEmcyTransmit (s : State) : Host.Outcome State Fault Refusal := .next s.fresh.emcyOut

def State.busOff (s : State) (c : CanCtl) : State :=
  let was := match c with | .canA => s.busOffA | .canB => s.busOffB
  if was then s
  else
    let s := match c with
      | .canA => { s with busOffA := true, busOffRecent := true }
      | .canB => { s with busOffB := true, busOffRecent := true }
    s.rep 0x5051 ucDevice

def execCanBusOff (ctl : CanCtl) (s : State) : Host.Outcome State Fault Refusal := .next (s.fresh.busOff ctl)

/-- The controller rejoins its bus. -/
def execBusOffRecovery (ctl : CanCtl) (s : State) : Host.Outcome State Fault Refusal :=
  .next (match ctl with
    | .canA => { s.fresh with busOffA := false }
    | .canB => { s.fresh with busOffB := false })

end Sys2Proof.Machine
end

