-- ==== Sys2Proof/Machine/Maint.lean ====
section
/-! DEFINITION. Maintenance activities (R392–R397, R399) and provisioning (R458). -/

namespace Sys2Proof.Machine

def codeStress : Nat := 0x5047
def codeMargin : Nat := 0x5048
def codeFuse : Nat := 0x5008
def codeProvLocked : Nat := 0x5009
def codeBootDigest : Nat := 0x5005

/-! ### Starts (R392, R393, R385) -/

/-- A request while an activity runs (R392). -/
def State.maintBusy (s : State) (r : HRef) : State := (s.dbump 0x2A00 0x11).refuse r MAINT_BUSY

def State.setActivity (s : State) (a : Activity) : State :=
  ({ s with activity := some a }.dset 0x2A00 0x01 a.code).dset 0x2A00 0x02 (if a.code = 4 then 255 else a.part)

/-- BE contexts that run on a partition, in ascending number. -/
def State.beOn (s : State) (p : Nat) : List Nat :=
  allCtx.filter (fun k => s.cstate k == csRunning && !s.isLC k && decide (s.ccore k < 8) && s.ccore k / 2 == p)

/-- Before a fencing activity the BE contexts on the partition that no fence of it tears down, or keeps from a switch-out, are switched out to
the queue's tail (R324, R380). DEDUCED, log entry 184. -/
def State.beOut (s : State) (p : Nat) : State :=
  let l := (s.beOn p).filter (fun k => s.cget k 0x08 / 2 != p && s.allotUp k)
  let s := foldS l (fun s k => s.saveOut k) s
  s.setWaiting (s.waiting ++ l.filter (fun k => s.cstate k == csWaiting))

/-- A partition goes under a fencing activity: fenced, its contexts switched out, torn down or held. -/
def State.underMaint (s : State) (p : Nat) : State :=
  let s := (((s.beOut p).fence p).clearPart p).setPstate p psMaint
  s.setPart p { s.part p with underTest := true }

/-- An activity on one partition. -/
def maintPart (code : Nat) (fences : Bool) (p : Nat) (r : HRef) (s : State) : State :=
  if s.activity.isSome then s.maintBusy r
  else if (s.part p).resetStep ≠ 0 then s.refuse r codePartFenced
  else
    let out := s.isFenced p
    let s := s.setActivity
      { code := code, part := p, handle := r, erased := false, image := [], prov := [], wasOut := out,
        start := s.dget 0x2A00 0x03, floor := s.dget 0x2A00 0x04, margin := s.dget 0x2A00 0x09 }
    -- a stress test holds the bed to its own cap (R287, R394); a sweep's BE contexts leave at their next boundary and may come back (R395)
    let s := if code = 1 then { s with testCap := KV.set none s.testCap p (some (s.dget 0x2A00 0x05)) } else s
    if fences then s.underMaint p
    else s.leave ((s.beOn p).filter (fun k => (s.ctx k).move == .still && s.allotUp k))

def execMaintStressTest (iss : Issuer) (p1 : BitVec 64) (s : State) : Host.Outcome State Fault Refusal :=
  .next (runCommand iss true .confHosts [dsMaint] (partOk p1) (maintPart 1 true p1.toNat) s.fresh)
def execMaintRetraining (iss : Issuer) (p1 : BitVec 64) (s : State) : Host.Outcome State Fault Refusal :=
  .next (runCommand iss true .confHosts [dsMaint] (partOk p1) (maintPart 2 true p1.toNat) s.fresh)
def execMaintScrubSweep (iss : Issuer) (p1 : BitVec 64) (s : State) : Host.Outcome State Fault Refusal :=
  .next (runCommand iss true .confHosts [dsMaint] (partOk p1) (maintPart 3 false p1.toNat) s.fresh)

/-! ### Firmware update and provisioning (R396, R458) -/

def provLen : Nat := 4176

/-- The provisioning record behind an image, if its magic stands there. -/
def State.provAt (s : State) (a : Nat) : List Byte :=
  if s.readBytes a 4 == ascii "VXPR" then s.readBytes a provLen else []

/-- The fuse bits that a provisioning record asks for (R447, R458). -/
def provFuses (d : List Byte) : BitVec 2048 :=
  BitVec.ofNat 2048 (fieldAt d 4 32 * 2 ^ 1412 + fieldAt d 36 32 * 2 ^ 1668 + bits (fieldAt d 76 1) 2 0 * 2 ^ 1924
    + fieldAt d 68 8 * 2 ^ 1927 + bits (fieldAt d 76 1) 4 3 * 2 ^ 1991 + bits (fieldAt d 77 1) 2 0 * 2 ^ 1993)

/-- Whether a whole range lies in the DRAM of one partition in service. -/
def State.dramRange (s : State) (a n : Nat) : Bool :=
  match s.regionOf a, s.regionOf (a + n - 1) with
  | .dram p, .dram q => p == q && !s.isFenced p
  | _, _ => false

/-- What refuses a range that does not lie whole in the DRAM of a partition in service: ADDR_UNMAPPED where it leaves the map (R22),
PARTITION_FENCED where it lies behind a fence. DEDUCED, log entry 102. -/
def State.rangeCode (s : State) (a n : Nat) : Option Nat :=
  if s.dramRange a n then none
  else
    match s.regionOf a, s.regionOf (a + n - 1) with
    | .unmapped, _ => some ADDR_UNMAPPED
    | _, .unmapped => some ADDR_UNMAPPED
    | .dram p, .dram q => some (if p = q then codePartFenced else CMD_PARAM)
    | _, _ => some CMD_PARAM

/-- The image is verified; what passes is erased into and programmed (R396). DEDUCED, log entry 102. -/
def maintFirmware (a : Nat) (r : HRef) (s : State) : State :=
  let n := 1024 + fwBodyLen (s.readBytes a 1024)
  if s.activity.isSome then s.maintBusy r
  else match (s.rangeCode a 1024).orElse (fun _ => s.rangeCode a n) with
  | some c => s.refuse r c
  | none =>
    let img := s.readBytes a n
    match s.bootCode img with
    | some c => (s.rep c ucDevice).complete r c 0
    | none =>
      let prov := s.provAt (a + n)
      if !prov.isEmpty && s.fuse 1996 1996 = 1 then (s.rep codeProvLocked ucDevice).complete r codeProvLocked 0
      else if !prov.isEmpty && !bitAt (fieldAt prov 77 1) 0 then s.refuse r CMD_PARAM
      else
        let s := s.setActivity
          { code := 4, part := 4, handle := r, erased := true, image := img, prov := prov, wasOut := false,
            start := 0, floor := 0, margin := 0 }
        (s.dset 0x2A00 0x10 2).send .flashErase

def execMaintFirmwareUpdate (iss : Issuer) (_p1 p2 : BitVec 64) (s : State) : Host.Outcome State Fault Refusal :=
  .next (runCommand iss true .confHosts [dsMaint] true (maintFirmware p2.toNat) s.fresh)

/-! ### Ends (R393–R397) -/

/-- The partition of a fencing activity goes back: through steps 7 to 9 of R381, or, out of service before, it stays so.
DEDUCED, log entry 105. -/
def State.maintReturn (s : State) (a : Activity) : State :=
  let s := s.setPart a.part { s.part a.part with underTest := false }
  if a.wasOut then s.setPstate a.part psOut
  else s.setPart a.part { s.part a.part with resetStep := 6, step8At := none, failCode := 0, returning := true }

/-- MAINT_ABORT: everything but an update whose erasing has begun. DESIGN CHOICE, log entry 106. -/
def maintAbort (r : HRef) (s : State) : State :=
  match s.activity with
  | none => s.refuse r STATE_CONFLICT
  | some a =>
    if a.erased then s.maintBusy r
    else
      let s := (s.rep codeMaintAborted (if a.code = 4 then ucDevice else ucPart a.part)).endActivity codeMaintAborted true
      let s := if a.code ≤ 2 then s.maintReturn a else s
      s.complete r 0 0

def execMaintAbort (iss : Issuer) (s : State) : Host.Outcome State Fault Refusal :=
  .next (runCommand iss true .confHosts [dsMaint] true maintAbort s.fresh)

/-- The VBED of a stress test's last step: the floor, or where a signature failed there, one step below the lowest that passed (R394). -/
def Activity.lastStep (a : Activity) (lowest : Nat) : Nat := if lowest ≤ a.floor then a.floor else min a.start (lowest - 10)

/-- The setpoints that the stage of the bed under test was sent: up or down to the start value, down to the last step, and back to the
operating one (R394, R474). DESIGN CHOICE, log entry 107. -/
def State.stressVout (s : State) (a : Activity) (lowest : Nat) : State :=
  ((s.sendVout a.part a.start).sendVout a.part (a.lastStep lowest)).sendVout a.part (s.dget 0x2100 (2 + a.part))

/-- A stress test ends (R394). DEDUCED, log entry 104. -/
def State.stressEnd (s : State) (a : Activity) (step0 : Bool) (lowest : Nat) (temp : BitVec 16) : State :=
  let s := (s.dset 0x2A00 0x0C temp.toNat).dset 0x2A00 0x0D a.part
  if !step0 then
    let s := ((s.dset 0x2A00 0x0A 4).dset 0x2A00 0x0B 0).rep codeStress (ucPart a.part)
    (s.endActivity codeStress false).endOut a.part codeStress
  else
    let s := s.stressVout a lowest
    let low := decide (s.dget 0x2100 (2 + a.part) < lowest + a.margin)
    let s := s.dset 0x2A00 0x0B lowest
    let s := s.dset 0x2A00 0x0A (if low then 3 else if lowest ≤ a.floor then 1 else 2)
    let s := if low then s.rep codeMargin (ucPart a.part) else s
    (s.endActivity (if low then codeMargin else 0) false).maintReturn a

/-- A retraining ends (R395). -/
def State.retrainEnd (s : State) (a : Activity) (ok : Bool) : State :=
  let code := if ok then 0 else codeDramTrain
  let s := s.dset 0x2A00 0x0E code
  if ok then (s.endActivity 0 false).maintReturn a
  else ((s.rep code (ucPart a.part)).endActivity code false).endOut a.part code

/-- Fuses that blow stay blown. DEDUCED, log entry 101. -/
def State.blow (s : State) (want : BitVec 2048) (stuck : List Nat) : State :=
  let bad : BitVec 2048 := stuck.foldl (fun a i => a ||| BitVec.ofNat 2048 (2 ^ i)) 0
  { s with fuses := s.fuses ||| (want &&& ~~~bad) }

/-- A provisioning record is blown; the lock only where every field reads as asked. -/
def State.provision (s : State) (d : List Byte) (stuck : List Nat) : State × Nat :=
  let want := provFuses d
  let s := (s.blow want stuck).send (.trustProgram (slice d 80 4096))
  -- the fields of R458: every bit from 1412 to 1995
  let field : BitVec 2048 := BitVec.ofNat 2048 (2 ^ 1996 - 2 ^ 1412)
  if s.fuses &&& field = want &&& field then (s.blow (BitVec.ofNat 2048 (2 ^ 1996)) [], 0)
  else (s.rep codeFuse ucDevice, codeFuse)

/-- An update ends: read back as programmed, or not (R396). -/
def State.updateEnd (s : State) (a : Activity) (readBackOk : Bool) (stuck : List Nat) : State :=
  let s := s.send (.flashProgram a.image)
  if !readBackOk then ((s.rep codeBootDigest ucDevice).dset 0x2A00 0x10 0).endActivity codeBootDigest false
  else
    let r := if a.prov.isEmpty then (s, 0) else s.provision a.prov stuck
    (r.1.dset 0x2A00 0x10 5).endActivity r.2 false

/-- The running activity ends as the outcome says; an outcome of another activity is no such end. -/
def State.maintEnd (s : State) (out : MaintOutcome) : State :=
  match s.activity, out with
  | some a, .stress ok low temp => if a.code = 1 then s.stressEnd a ok low temp else s
  | some a, .retrain ok => if a.code = 2 then s.retrainEnd a ok else s
  | some a, .sweep n => if a.code = 3 then (s.dset 0x2A00 0x0F n).endActivity 0 false else s
  | some a, .update ok stuck => if a.code = 4 then s.updateEnd a ok stuck else s
  | none, _ => s

def execMaintActivityEnd (out : MaintOutcome) (s : State) : Host.Outcome State Fault Refusal := .next (s.fresh.maintEnd out)

end Sys2Proof.Machine
end

