-- ==== Sys2Proof/Machine/Almanac.lean ====
section
/-! DEFINITION. The passes of an Almanac slot and of a full test, and the signatures that a core's groups are judged by (R348–R350). -/

namespace Sys2Proof.Machine

/-! ### Passes (R348, R349) -/

/-- A CEU path set of R349: activation code, output formats, operand formats, and what else its records ask for. -/
structure CeuPath where
  act : Nat
  outs : List Nat
  actFmt : Nat
  weightFmt : Nat
  zc : Bool
  /-- random bits of a stochastic narrowing; 0 rounds toward zero or to nearest as the record's default -/
  draws : Nat
  blockScales : Bool
  bounds : Bool
  deriving DecidableEq, Repr

/-- The further mode of r and its activation format. -/
def furtherMode (r : Nat) : Nat × Nat :=
  nth (modeSad, fmtU8) [(modeSad, fmtU8), (modeSsd, fmtI16), (modeHam, fmtBin8), (modeMin, fmtI16), (modeMax, fmtI8), (modeCmp, fmtU8)] r

def ceuPlain : CeuPath :=
  { act := 0, outs := [fmtI8], actFmt := fmtI8, weightFmt := fmtI8, zc := false, draws := 0, blockScales := false, bounds := false }

/-- The CEU path set of r; activation codes are those of R133. -/
def ceuPath (r : Nat) : CeuPath :=
  nth ceuPlain
    [{ ceuPlain with act := 1 }, { ceuPlain with act := 2, outs := [fmtU8], zc := true }, { ceuPlain with act := 3, outs := [fmtI16] },
     { ceuPlain with act := 4, outs := [fmtE4M3], draws := 8 },
     { ceuPlain with outs := [fmtE5M2], actFmt := fmtE4M3, weightFmt := fmtE5M2, blockScales := true },
     { ceuPlain with outs := [fmtF32, fmtI32], bounds := true }] r

/-- A pass of the kernel set: MAC patterns A and B, a further mode, a CEU path set. -/
inductive KatPass where
  | patternA
  | patternB
  | further (mode fmt : Nat)
  | ceu (p : CeuPath)
  deriving DecidableEq, Repr

/-- The passes of the slot of a frame with rotation `r`, or of a full test, in order. -/
def katPasses (full : Bool) (r : Nat) : List KatPass :=
  let rs := if full then List.range 6 else [r]
  [.patternA, .patternB] ++ rs.map (fun r => .further (furtherMode r).1 (furtherMode r).2) ++ rs.map (fun r => .ceu (ceuPath r))

/-- A pass as numbers. -/
def KatPass.code : KatPass → List Nat
  | .patternA => [0]
  | .patternB => [1]
  | .further m f => [2, m, f]
  | .ceu p => [3, p.act, p.actFmt, p.weightFmt, p.draws, p.zc.toNat, p.blockScales.toNat, p.bounds.toNat] ++ p.outs

/-! ### Signatures -/

/-- Eight bits of the CRC-64 of ECMA-182, highest first. -/
def crc64Bits : Nat → BitVec 64 → BitVec 64
  | 0, c => c
  | n + 1, c => crc64Bits n (if c.getLsbD 63 then (c <<< 1) ^^^ 0x42F0E1EBA9EA3693 else c <<< 1)

/-- A group's signature over its output codes in emission order. DEDUCED, log entry 195. -/
def signature (codes : List Byte) : BitVec 64 :=
  codes.foldl (fun c b => crc64Bits 8 (c ^^^ ((b.setWidth 64 : BitVec 64) <<< (56 : Nat)))) 0

/-- The output codes of group `g` of a core in a run of passes without a fault: what the kernel set of an image gives. -/
def katCodes (image : List Byte) (passes : List KatPass) (g : Nat) : List Byte := passes.flatMap (fun p => Config.katCodes image p.code g)

/-- The passes of core `c` in the present frame. -/
def State.slotPasses (s : State) (c : Nat) : List KatPass := katPasses (s.fullNow.getLsbD c) (s.frame.n % 6)

/-- The known answer of group `g` of core `c` in the present frame, of the running image. -/
def State.knownAnswer (s : State) (c g : Nat) : BitVec 64 := signature (katCodes s.bootDigest (s.slotPasses c) g)

/-- The groups, 4 × array + group, whose signature differs from the known answer; `outs` holds the output codes of each. -/
def State.katFails (s : State) (c : Nat) (outs : List (List Byte)) : List Nat :=
  (List.range 8).filter (fun g => signature (nth [] outs g) != s.knownAnswer c g)

end Sys2Proof.Machine
end

