-- ==== Sys2Proof/Machine/Seal.lean ====
section
/-! DEFINITION. The safety manager: Almanac slots and the Orrery rotation (R345–R357), slot verdicts (R376), the seal of the frame
integrity word (R26, R342–R344, R352, R358–R361, R450), SAFE_OK and the causes of its own (R362, R363). -/

namespace Sys2Proof.Machine

def codeKat : Nat := 0x4001
def codeOrrery : Nat := 0x4002
def codePermanent : Nat := 0x4003
def codeLockstep : Nat := 0x4004
def codeWatchdog : Nat := 0x4005
def codeInvalid : Nat := 0x4006
def codeSlotAbort : Nat := 0x4007

/-- Device states in which a frame has a FIW (R361). -/
def State.sealing (s : State) : Bool := stPOSM.contains s.dev && s.devReset == 0

/-! ### Orrery instances (R355, R356) -/

/-- Checker class of the present frame. -/
def State.orreryClass (s : State) : Nat := s.frame.n % 24

/-- Instances of a class that each core carries; 0 where the class is none of a core's (R356). -/
def coreInstances (cls : Nat) : Nat :=
  if cls ≤ 6 then 8 else if cls = 7 then 4 else if cls = 8 then 192 else if cls = 11 || (14 ≤ cls && cls ≤ 16) then 1 else 0

/-- Unit code of instance `i` of a core's class: lanes, decompressors, else the core. -/
def coreInstance (cls c i : Nat) : Nat :=
  if cls ≤ 6 then ucLane c (i / 4) (i % 4) 0 else if cls = 7 then ucPair c i 0 else ucCore c

/-- Instances of a class that is none of a core's: the unit code, and the beds that it lies on. -/
def sharedInstances (cls : Nat) : List (Nat × List Nat) :=
  if cls = 9 then List.replicate 65 (ucDevice, [])
  else if cls = 10 then (List.range 32).map (fun ch => (ucChannel ch, [ch / 8]))
  else if cls = 12 || cls = 13 then
    (List.range 8).map (fun l => (ucLink l, if l < 4 then [l] else [l - 4, (l - 3) % 4]))
  else if cls = 17 || cls = 18 then [(ucSm, [])]
  else if cls = 19 then List.replicate 12 (ucDevice, [])
  else if cls = 20 then List.replicate 16 (ucDevice, [])
  else if cls = 21 || cls = 23 then [(ucSm, [])]
  else if cls = 22 then (List.range 4).map (fun b => (ucBed b, [b])) ++ [(ucTensor, [])]
  else []

/-- An instance of the present class: its index, its unit code, and what a miss resets (R357, R363). -/
structure OrreryInst where
  index : Nat
  unit : Nat
  reset : SafeReset
  deriving DecidableEq, Repr

/-- An injected error went undetected (R357): the class, and the instance by its unit code and, in the detail, by its index.
DEDUCED, log entry 81. -/
def State.orreryMiss (s : State) (x : OrreryInst) : State :=
  let s := (s.report codeOrrery (ucClass s.orreryClass) x.unit (bytesOf 1 s.orreryClass ++ bytesOf 2 x.index) true).dbump 0x2700 0x12
  let s := { s with frame := { s.frame with orreryOk := false } }.frameFault codeOrrery none false
  s.enterSafe codeOrrery x.reset

/-- The instances of a class that is none of a core's, on partitions in service at the tick, while they are untested in this frame. -/
def State.sharedDue (s : State) : List OrreryInst :=
  if s.frame.orreryDone then []
  else
    let l := sharedInstances s.orreryClass
    (((List.range l.length).zip l).filter (fun x => x.2.2.all (fun b => !s.frame.outSet.getLsbD b))).map (fun x =>
      { index := x.1, unit := x.2.1, reset := match x.2.2 with | b :: _ => .part b | [] => .device })

/-- The instances that a core's slot tests: a core's class its own; any other class every instance, in the frame's first slot with a
verdict of the arrays. DEDUCED, log entry 81. -/
def State.slotInstances (s : State) (c : Nat) : List OrreryInst :=
  let n := coreInstances s.orreryClass
  if n = 0 then s.sharedDue
  else if s.frame.outSet.getLsbD (c / 2) then []
  else (List.range n).map (fun i => { index := i, unit := coreInstance s.orreryClass c i, reset := .part (c / 2) })

/-- The instances are tested: those named in `missed` by their index left their error undetected (R355, R357). -/
def State.orreryTest (s : State) (inst : List OrreryInst) (missed : List Nat) : State :=
  let bad := inst.filter (fun x => missed.contains x.index)
  let s := s.dadd 0x2700 0x11 (inst.length - bad.length)
  let s := if coreInstances s.orreryClass = 0 then { s with frame := { s.frame with orreryDone := true } } else s
  foldS bad (fun s x => s.orreryMiss x) s

/-! ### Almanac slots (R346–R350) -/

/-- The slot reserves every array of the core: its sets are empty afterwards, its splits as they were (R348). -/
def State.clearSets (s : State) (c : Nat) : State :=
  foldS [(0, 0), (0, 1), (0, 2), (0, 3), (1, 0), (1, 1), (1, 2), (1, 3)] (fun s p =>
    s.mapGroup c p.1 p.2 (fun g => { g with active := none, shadow := none, loading := none, waiting := none })) s

/-- LC contexts not at END at the slot start are aborted (R347). -/
def State.slotAborts (s : State) (c : Nat) : State :=
  foldS (allCtx.filter (fun k => s.lcReady k && s.ccore k == c && (s.ctx k).started && !s.allEnd k)) (fun s k =>
    let s := (s.report codeSlotAbort (ucCtx k) (ucCtx k) [] true).ctxFault k codeSlotAbort false
    ((s.abortLC k).cbump k 0x1A).dbump 0x2700 0x0F) s

/-- A core's test failed: KAT_FAIL with array, group and step (R350, R376). -/
def State.katFail (s : State) (c a g step : Nat) : State :=
  let unit := ucLane c a g 0
  (s.report codeKat unit unit (bytesOf 1 c ++ bytesOf 1 a ++ bytesOf 1 g ++ bytesOf 1 step) true).frameFault codeKat (some c) true

/-- A core's verdict is in. -/
def State.slotVerdict (s : State) (c : Nat) (passed : Bool) : State :=
  let b := BitVec.ofNat 8 (2 ^ c)
  let f := s.frame
  let s := { s with frame := { f with slotDone := f.slotDone ||| b, slotPassed := if passed then f.slotPassed ||| b else f.slotPassed },
                    clearing := s.clearing &&& ~~~b }
  if passed then s else s.dbump 0x2700 0x0E

/-- A full test that a core passed ends its bar from joining groups, unless the replica was expelled in this very frame: the test of R303
is the next frame's (R306). -/
def State.passedFull (s : State) (c : Nat) : State :=
  if KV.get none s.barred c = some s.frame.n then s else { s with barred := KV.set none s.barred c none }

/-- Whether the verdict of a core's slot is awaited in the present frame. -/
def State.slotOpen (s : State) (c : Nat) : Bool :=
  s.sealing && s.frame.isOpen && !s.frame.slotDone.getLsbD c && !s.isFenced (c / 2)

/-- The slot of a core in the present frame (R347–R350): `outs` holds the output codes of the core's groups over the passes of the slot. A
core whose bed is fenced or without beats runs none. DESIGN CHOICE, log entry 85. -/
def State.almanacSlot (s : State) (c : Nat) (outs : List (List Byte)) (missed : List Nat) : State :=
  if !s.slotOpen c || !s.ringsOn.getLsbD (c / 2) then s
  else
    let full := s.fullNow.getLsbD c
    let fails := s.katFails c outs
    let s := (s.slotAborts c).clearSets c
    let s := (if full then s.dbump 0x2700 0x0D else s).dbump 0x2700 0x0C
    let s := foldS fails (fun s g => s.katFail c (g / 4) (g % 4) 8) s
    let s := s.slotVerdict c fails.isEmpty
    let s := if full && fails.isEmpty then s.passedFull c else s
    s.orreryTest (s.slotInstances c) missed

def execAlmanacSlot (core : Fin 8) (outs : List (List Byte)) (missed : List Nat) (s : State) : Host.Outcome State Fault Refusal :=
  .next (s.fresh.almanacSlot core.val outs missed)

/-- No verdict came by the slot start + 48 µs (R376): at the slot start the LC contexts were aborted and, where the bed has beats, the sets
cleared (R347, R348). DEDUCED, log entry 82. -/
def State.verdictTimeout (s : State) (c : Nat) : State :=
  if !s.slotOpen c then s
  else
    let s := s.slotAborts c
    let s := if s.ringsOn.getLsbD (c / 2) then s.clearSets c else s
    (s.katFail c 0 0 0).slotVerdict c false

def execSlotVerdictTimeout (core : Fin 8) (s : State) : Host.Outcome State Fault Refusal := .next (s.fresh.verdictTimeout core.val)

/-! ### Inputs and verdict (R343, R344) -/

def State.lcInputs (s : State) : Bool := s.runningLC.all (fun k => !(s.ctx k).started || s.allEnd k)
def State.slotInputs (s : State) : Bool := allCores.all (fun c => s.frame.slotDone.getLsbD c || s.isFenced (c / 2))
/-- DEDUCED, log entry 89. -/
def State.streamInputs (s : State) : Bool :=
  allEps.all (fun e => s.eget e 0x01 != 1 || (s.viewsOf e).isEmpty || nth false s.frame.delivered e)

/-- Whether every input of the frame is in; outside OPERATIONAL no program runs and no view is delivered.
DEDUCED, log entry 84. -/
def State.inputsIn (s : State) : Bool := s.slotInputs && (s.dev != dsOp || (s.lcInputs && s.streamInputs))

/-- A safe state in force whose reset has not ended (R343, R363). -/
def State.safeBlocks (s : State) : Bool :=
  s.safeState != 0 && (s.devReset != 0 || allParts.any (fun p => (s.part p).safeCause && (s.part p).resetStep != 0))

/-- Whether a core needs no slot: its partition is out of service under the variant in force. DEDUCED, log entry 83. -/
def State.slotExcused (s : State) (c : Nat) : Bool := s.frame.variant == c / 2 + 1

/-- The verdict of R343. -/
def State.verdictValid (s : State) : Bool :=
  s.frame.inOp && s.dev == dsOp && s.frame.faults.all (fun f => !f.invalid) && s.frame.orreryOk && !s.safeBlocks
    && allCores.all (fun c => s.frame.slotPassed.getLsbD c || s.slotExcused c)

/-! ### Disagreements (R351, R352) -/

/-- Core `c` raised a disagreement in the present frame. -/
def State.disagreed (s : State) (c : Nat) : Bool := s.frame.faults.any (fun f => f.disagree && f.invalid && f.core == some c)

/-- The disagreement frames of a core within the window, with the present frame if it is one. -/
def State.windowOf (s : State) (c : Nat) : List Nat :=
  let old := (KV.get [] s.disagreements c).filter (fun m => decide (s.frame.n < m + s.dget 0x2700 0x02))
  if s.disagreed c then s.frame.n :: old else old

/-- A core's count at the seal; at k the fault is permanent. -/
def State.countCore (s : State) (c : Nat) : State :=
  let l := s.windowOf c
  let dis := s.disagreed c
  let s := { s with disagreements := KV.set [] s.disagreements c l }.dset 0x2700 (0x13 + c) l.length
  let s := if dis then s.dset 0x2700 0x1B (s.dget 0x2700 0x1B ||| 2 ^ c) else s
  if dis && decide (s.dget 0x2700 0x01 ≤ l.length) then
    ((s.report codePermanent (ucCore c) (ucCore c) [] true).frameFault codePermanent (some c) false).enterSafe codePermanent (.part (c / 2))
  else s

/-! ### The frame integrity word (R358, R360) -/

def bitNum (b : Bool) (i : Nat) : Nat := if b then 2 ^ i else 0

/-- Enabled endpoints whose slot is invalid. -/
def State.invalidStreams (s : State) : Nat := (allEps.filter (fun e => s.eget e 0x01 == 1 && !nth false s.frame.valid e)).length

/-- Bytes 16 to 39. -/
def State.streamBits (s : State) : List Byte :=
  (List.range 24).map (fun i => BitVec.ofNat 8 (((List.range 8).map (fun j => bitNum (nth false s.frame.valid (8 * i + j)) j)).foldl (· + ·) 0))

/-- Byte 4. -/
def State.verdictByte (s : State) (valid late : Bool) : Nat :=
  bitNum valid 0 + bitNum (s.frame.degraded != 0 || s.frame.variant != 0) 1 + bitNum (s.safeState != 0 && !valid) 2
    + bitNum (s.dev == dsMaint) 3 + bitNum late 4

/-- Bytes 0 to 59. -/
def State.fiwBody (s : State) (valid late : Bool) : List Byte :=
  let f := s.frame
  let cores := (allCores.map (fun c => bitNum (f.faults.any (fun x => x.core == some c)) c)).foldl (· + ·) 0
  bytesOf 4 f.n ++ bytesOf 1 (s.verdictByte valid late) ++ bytesOf 1 f.variant ++ bytesOf 1 (f.n % 24) ++ bytesOf 1 (f.n % 6)
    ++ bytesOf 1 f.slotPassed.toNat ++ bytesOf 1 cores ++ bytesOf 1 (f.outSet.toNat + 16 * f.fencedSet.toNat)
    ++ bytesOf 1 s.invalidStreams ++ bytesOf 2 (match f.faults.find? (·.invalid) with | some x => x.code | none => 0) ++ bytesOf 2 (min 65535 f.faults.length)
    ++ s.streamBits ++ bytesOf 8 s.timeNs ++ bytesOf 4 f.degraded ++ bytesOf 4 f.truncations ++ bytesOf 4 0

/-- The 64 bytes. -/
def State.fiw (s : State) (valid late : Bool) : List Byte :=
  let b := s.fiwBody valid late
  b ++ bytesOf 4 (crc32 b).toNat

/-- The FIW summary. -/
def fiwSummary (f : List Byte) : List Byte :=
  slice f 0 2 ++ slice f 4 1 ++ slice f 8 1 ++ slice f 9 1 ++ slice f 11 1 ++ slice f 12 2

/-! ### The seal -/

/-- The fuses that the running image asks for are blown (R447, R450); which of them fail to blow is a free value. -/
def State.blowDue (s : State) : State :=
  let need := s.imageLevel - s.rollback
  let level := ((List.range 64).filter (fun i => !s.fuses.getLsbD (1348 + i))).take need
  let keys := (List.range 4).filter (fun i => bitAt s.imageRevoke i && i != s.dget 0x2000 0x0D && !s.fuses.getLsbD (1344 + i))
  let want := level.map (1348 + ·) ++ keys.map (1344 + ·)
  let s := { s with fuseBlowDue := false }
  if want.isEmpty then s
  else
    let stuck := want.filter (fun i => bitAt (Config.freeNat s.freeIx) i)
    let t := (s.blow (want.foldl (fun a i => a ||| BitVec.ofNat 2048 (2 ^ i)) 0) stuck).freeStep
    if stuck.isEmpty then t else t.rep codeFuse ucDevice

/-- A valid FIW ends the safe state, releases FAULT_N and lets the due fuses blow (R362, R363, R450). DEDUCED, log entry 80. -/
def State.sealedValid (s : State) : State :=
  let s := { s with faultN := true }.setSafe 0
  if s.fuseBlowDue then s.blowDue else s

/-- SRDO 1: the summary, and its inverse (R360). DEDUCED, log entry 86. -/
def State.sendSrdo (s : State) (sum : List Byte) : State :=
  if s.dev = dsOp || s.dev = dsMaint then
    (s.canSend .canB (CanFrame.mk (s.dget 0x1301 5) sum)).canSend .canB (CanFrame.mk (s.dget 0x1301 6) (sum.map (~~~ ·)))
  else s

/-- What a seal writes and sends (R359, R360). -/
def State.publish (s : State) (fiw : List Byte) : State :=
  let sum := fiwSummary fiw
  let s := (s.dset 0x2700 0x06 (natOf fiw)).dset 0x2700 0x07 (natOf sum)
  let s := (s.sendSrdo sum).hostRecord 0 0 0 2 ucSm 0 fiw
  s.hostRecord 1 0 0 2 ucSm 0 fiw

/-- The FIW of the present frame is sealed; what is raised from here on belongs to the next (R342). `ready` says that every input is in.
DEDUCED, log entry 79. -/
def State.sealFrame (s : State) (late ready : Bool) : State :=
  let s := s.orreryTest s.sharedDue []
  let s := foldS allCores (fun s c => s.countCore c) s
  let valid := ready && s.verdictValid
  let fiw := s.fiw valid late
  let s := s.dbump 0x2700 (if valid then 0x08 else 0x09)
  let s := if bitAt (s.verdictByte valid late) 1 then s.dbump 0x2700 0x0A else s
  let s := if late then s.dbump 0x2700 0x0B else s
  let s := s.publish fiw
  let s := { s with frame := { s.frame with isOpen := false, faults := [], degraded := 0, truncations := 0 } }
  if valid then s.sealedValid else s.report codeInvalid ucDevice ucDevice (slice fiw 0 32)

/-- FIW_SEAL: within 1 ms of the last input. -/
def State.sealNow (s : State) : State :=
  if s.sealing && s.frame.isOpen && s.inputsIn then s.sealFrame false true else s

def execFiwSeal (t : Nat) (s : State) : Host.Outcome State Fault Refusal := .next ((s.fresh.atTime t).sealNow)

/-! ### Pins and causes of the safety manager's own (R362, R363, R376) -/

/-- An edge on SAFE_OK in OPERATIONAL outside the safe state; at all other times it is low. -/
def execSafeOkToggle (s : State) : Host.Outcome State Fault Refusal :=
  .next { s.fresh with safeOk := s.dev == dsOp && s.safeState == 0 && s.devReset == 0 && !s.safeOk }

/-- Whether the safety manager runs: not while it is held in reset, nor asleep (R389 step 2, R463). -/
def State.smRuns (s : State) : Bool := s.devReset != 3 && !s.asleep

/-- The watchdog resets the device; its code is reported after the reset (R373), in one that runs it is counted (R389).
DEDUCED, log entry 88. -/
def State.watchdog (s : State) : State :=
  if !s.smRuns then s
  else
    let t := s.enterSafe codeWatchdog .device
    if s.devReset = 0 then { t with aonCodes := t.aonCodes ++ [codeWatchdog] } else t

def execSmWatchdog (s : State) : Host.Outcome State Fault Refusal := .next s.fresh.watchdog

/-- The safety manager's cores disagree. -/
def State.lockstep (s : State) : State :=
  if !s.smRuns then s
  else
    let t := if s.devReset = 0 then (s.report codeLockstep ucSm ucSm [] true).frameFault codeLockstep none false else s
    t.enterSafe codeLockstep .device

def execLockstepMismatch (s : State) : Host.Outcome State Fault Refusal := .next s.fresh.lockstep

end Sys2Proof.Machine
end

