-- ==== Sys2Proof/Machine/Adapt.lean ====
section
/-! DEFINITION. Teardown's end (R331, R332) and field adaptation: batches and their delivery (R297–R300), digests, verdicts and
joining replicas (R302–R306), promotion (R307, R308). -/

namespace Sys2Proof.Machine

def codeReplaced : Nat := 0x2091
def codeExpelled : Nat := 0x2092
def codeLag : Nat := 0x2093
def codeRollback : Nat := 0x2094
def codeDiverged : Nat := 0x2095
def codeNotAgreed : Nat := 0x2096
def codePromoted : Nat := 0x2097

/-! ### Accesses of the device's own units to a window (R242, R245) -/

/-- A refused access: logged at the destination and at the source, counted. -/
def State.accessNack (s : State) (code c w unit : Nat) : State :=
  (s.deliveryNack code c w).report code unit (if code = codePartFenced then ucPart (c / 2) else ucWindow c w) []

/-- The address of a context's word: in its scratchpad, or its allotment for a word of its save area (R326). -/
def State.smAddr (s : State) (k w : Nat) : Nat := if s.isLive k then spmAddr (s.ccore k) w else (s.ctx k).allotAt

/-- Words of a context read by the safety manager: a poisoned one is contained natively (R263). DEDUCED, log entry 30. -/
def State.smReadKs (s : State) (k : Nat) (ws : List Nat) : List (SWord × Bool) × State :=
  let x := s.readKs k ws
  (x.1, foldS ((ws.zip x.1).filter (fun p => p.2.2)) (fun s p => s.contain (s.smAddr k p.1)) x.2)

/-- Words read through a window at its present generation, or the code. -/
def State.winRead (s : State) (src c w off n : Nat) : Except Nat (List (SWord × Bool)) × State :=
  match s.windowCheck c w (wnGen (s.win c w)) src [rGet] off n with
  | some code => (.error code, s)
  | none =>
    let k := wnOwner (s.win c w)
    let ws := (List.range n).map (fun i => wnBase (s.win c w) + off + i)
    let x := if src = 9 then s.smReadKs k ws else s.readKs k ws
    (.ok x.1, x.2)

/-- Words written through a window packet by packet, the last as a signalled put where a flag is given; the code of a refused one. -/
def State.winWrite (src c w : Nat) (flag : Option Nat) : Nat → Nat → List SWord → State → State × Option Nat
  | 0, _, _, s => (s, none)
  | n + 1, off, ws, s =>
    let run := ws.take 8
    let rest := ws.drop 8
    let last := rest.isEmpty
    let rights := if last && flag.isSome then [rPut, rFlag] else [rPut]
    match s.windowCheck c w (wnGen (s.win c w)) src rights off run.length with
    | some code => (s, some code)
    | none =>
      let k := wnOwner (s.win c w)
      let s := (s.noteSaved k).putWords k (wnBase (s.win c w) + off) run false
      if last then (match flag with | some f => s.kSetFlag k (32 + f) | none => s, none)
      else State.winWrite src c w flag n (off + 8) rest s

/-! ### The windows and flags of a replica (R309) -/

def State.adWin (s : State) (k i : Nat) : Nat := bits (s.cget k 0x9F) (6 * i + 5) (6 * i)
def wSample : Nat := 0
def wReduce : Nat := 1
def wDigest : Nat := 2
def wCheck : Nat := 3
def wVerdict : Nat := 4
def State.batchFlag (s : State) (k : Nat) : Nat := bits (s.cget k 0xA0) 4 0
def State.verdictFlag (s : State) (k : Nat) : Nat := bits (s.cget k 0xA0) 12 8
def State.home (s : State) (k : Nat) : Nat := s.cget k 0x08

/-! ### Verdicts (R304) -/

/-- A window closes and opens again as it stands, its generation raised (R239). -/
def State.reopen (s : State) (k c w : Nat) : State :=
  let e := s.win c w
  if wnOpen e then (s.closeNow c w).openWindow k c w e else s

/-- The word that tells a replica a verdict. -/
def State.verdictWord (s : State) (g c outcome resume ix : Nat) : SWord :=
  let l := (s.adGroup g).replicas
  let gens := (List.range 3).flatMap (fun i => match l[i]? with
    | some m => bytesOf 1 (wnGen (s.win (s.home m) (s.adWin m wReduce)))
    | none => [0])
  wordOfBytes (padTo 32 (bytesOf 4 c ++ bytesOf 1 outcome ++ bytesOf 1 l.length ++ bytesOf 1 ix ++ [0] ++ bytesOf 4 resume ++ gens))

/-- Whether every reduction window of the receivers may close again (R239). -/
def State.verdictReady (s : State) (v : Verdict) : Bool :=
  v.outcome == 0 || v.dsts.all (fun m => s.spaced (s.home m) (s.adWin m wReduce))

/-- The receivers of a verdict that are still replicas are told; their reduction windows close and open again first unless it agrees. -/
def State.tell (s : State) (g : Nat) (v : Verdict) : State :=
  let dsts := v.dsts.filter (fun m => (s.adGroup g).replicas.contains m)
  let s := if v.outcome = 0 then s else foldS dsts (fun s m => s.reopen m (s.home m) (s.adWin m wReduce)) s
  foldS dsts (fun s m =>
    let w := s.adWin m wVerdict
    match State.winWrite 9 (s.home m) w (some (s.verdictFlag m)) 1 0 [s.verdictWord g v.checkpoint v.outcome v.resume (s.cget m 0x91)] s with
    | (s, none) => s
    | (s, some code) => s.accessNack code (s.home m) w ucSm) s

/-- Every replica in `dsts` is told, once its reduction window may close again: else the verdict waits for a later poll.
DEDUCED, log entry 145. -/
def State.sendVerdict (s : State) (g c outcome resume : Nat) (dsts : List Nat) : State :=
  let v : Verdict := { checkpoint := c, outcome := outcome, resume := resume, dsts := dsts }
  if s.verdictReady v then (s.setAdGroup g { s.adGroup g with due := none }).tell g v
  else s.setAdGroup g { s.adGroup g with due := some v }

/-- The replicas of a group take new indices in order, and batches not yet agreed are delivered again. -/
def State.regroup (s : State) (g : Nat) (l : List Nat) : State :=
  let x := s.adGroup g
  let s := s.setAdGroup g { x with replicas := l, batches := x.batches.map (fun b => { b with delivered := [] }),
                                   seen := [], judged := x.judged ++ x.seen }
  foldS ((List.range l.length).zip l) (fun s p => s.cset p.2 0x91 p.1) s

/-- A group that has lost its last replica: its batches complete with the cause. DEDUCED, log entry 144. -/
def State.endGroup (s : State) (g code : Nat) : State :=
  let x := s.adGroup g
  let s := s.setAdGroup g .zero
  foldS (x.batches.filter (fun b => !b.done)) (fun s b => s.complete b.handle code 0) s

/-! ### Losing, joining and rolling back (R303, R306, R380) -/

def State.first (s : State) (g : Nat) : Nat := nth 0 (s.adGroup g).replicas 0

/-- The host whose unit reads and writes a group's sample windows. -/
def State.groupHost (s : State) (g : Nat) : Nat := s.cget (s.first g) 0x03 - 1

/-- Batches up to an agreed checkpoint complete and are given up (R300). -/
def State.agree (s : State) (g c : Nat) : State :=
  let x := s.adGroup g
  let s := s.setAdGroup g { x with agreed := c, rollbacks := 0, batches := x.batches.filter (fun b => decide (c < b.number)) }
  let s := foldS x.replicas (fun s k => s.cset k 0x9B c) s
  foldS (x.batches.filter (fun b => decide (b.number ≤ c) && !b.done)) (fun s b => s.complete b.handle 0 0) s

/-- A core is due for an extra test, and barred from joining until it has passed it (R303, R306, R351). -/
def State.extraTest (s : State) (k : Nat) : State :=
  let c := if s.ccore k < 8 then s.ccore k else s.home k
  { s with barred := KV.set none s.barred c (some s.frame.n) }.dset 0x2700 0x1B (s.dget 0x2700 0x1B ||| 2 ^ c)

/-- A replica is expelled: torn down with a code, its core tested. -/
def State.expel (s : State) (g k code : Nat) : State :=
  let unit := ucReplica g (s.cget k 0x91)
  let s := ((s.report code unit unit []).extraTest k).startTeardown k code
  s.setAdGroup g { s.adGroup g with replicas := (s.adGroup g).replicas.filter (· != k) }

/-- Entries that a joining replica copies from replica 0: every writable one but the fixed core. DESIGN CHOICE, log entry 151. -/
def copiedSubs : List Nat := (objContext.filter (fun e => e.2.access == .rw && e.1 != 0x04)).map (·.1)

/-- The core that a joining replica would take. DEDUCED, log entry 147. -/
def State.joinCore (s : State) (g k : Nat) : Option Nat :=
  let x := s.adGroup g
  allCores.find? (fun c => !x.replicas.any (fun m => s.home m == c) && KV.get none s.barred c == none && s.placeFree k c true true)

/-- A third replica starts from the group's image, if a core, a context and an allotment are free. -/
def State.tryJoin (s : State) (g : Nat) : State :=
  let x := s.adGroup g
  let m := s.first g
  if x.replicas.length ≠ 2 || s.hostState (s.groupHost g) = 3 then s
  else
    match allCtx.find? (fun k => s.cstate k == csFree) with
    | none => s
    | some k =>
      let t := (s.clearObject (0x2600 + k)).setCtx k .zero
      let t := ((t.cset k 0x02 2).cset k 0x03 (s.cget m 0x03)).cset k 0x01 csCreated
      let t := foldS copiedSubs (fun t i => t.cset k i (s.cget m i)) t
      match t.keepContainer k (s.container m) with
      | none => s
      | some t =>
        match t.joinCore g k with
        | none => s
        | some c =>
          match t.startBE k c with
          | none => s
          | some t => (t.joinGroup k).cset k 0x9B x.agreed

/-- The replicas `l`, all that are left, go back to the last agreed checkpoint; at the third time without an agreement the group is torn
down (R303). `c` is the checkpoint that the verdict names. DEDUCED, log entry 146. -/
def State.rollBack (s : State) (g c : Nat) (l : List Nat) (join : Bool) : State :=
  let x := s.adGroup g
  let s := s.report codeRollback (ucReplica g 0) (ucReplica g 0) []
  let s := foldS l (fun s k => s.cbump k 0x9C) s
  if 2 ≤ x.rollbacks then
    let s := foldS l (fun s k => s.expel g k codeDiverged) s
    s.endGroup g codeDiverged
  else
    let s := (s.setAdGroup g { x with rollbacks := x.rollbacks + 1 }).regroup g l
    let s := if join then s.tryJoin g else s
    s.sendVerdict g c 2 x.agreed l

/-- A replica of a group is torn down: the others roll back to the last agreed checkpoint (R380). -/
def State.replicaGone (s : State) (k code : Nat) : State :=
  let g := s.cget k 0x90
  let x := s.adGroup g
  if !x.replicas.contains k then s
  else
    let l := x.replicas.filter (· != k)
    if l.isEmpty then s.endGroup g code else s.rollBack g x.agreed l false

/-! ### The end of a teardown (R332) -/

/-- Groups, places and numbers go; the creator learns the cause. -/
def State.freeCtx (s : State) (k : Nat) : State :=
  let x := s.ctx k
  let s := s.statusCreator k x.cause (ucCtx k) x.detail
  let s := foldS x.heldWins (fun s w => s.cset k (0xA1 + w) 0) s
  let s := s.setCtx k .zero
  let s := { s with overruns := s.overruns.filter (fun e => e.1 / 64 != k) }
  let s := ((((s.cset k 0x01 csFree).cset k 0x02 0).cset k 0x03 0).cset k 0x07 255).cset k 0x08 255
  foldS x.handles (fun s r => s.complete r 0 0) s

def State.teardown (s : State) (k : Nat) : State :=
  let home := s.home k
  if s.cstate k ≠ csTearing || !(s.ctx k).heldWins.all (fun w => s.spaced home w || !wnOpen (s.win home w)) then s
  else
    let s := s.closeHeld k
    let c := s.ccore k
    let s := if c < 8 then s.clearUnits k c else s
    let s := s.replicaGone k (s.ctx k).cause
    let s := s.freeCtx k
    foldS allCores (fun s c => if (KV.get [] s.late c).isEmpty then s else s.releaseLate c) s

def execTeardown (ctx : Fin 64) (t : Nat) (s : State) : Host.Outcome State Fault Refusal := .next ((s.fresh.atTime t).teardown ctx.val)

/-! ### Batches (R297, R298) -/

def State.areaBase (s : State) (g : Nat) : Nat := s.cget (s.first g) 0x94
def State.areaLen (s : State) (g : Nat) : Nat := s.cget (s.first g) 0x95
def State.batchSize (s : State) (g : Nat) : Nat := s.cget (s.first g) 0x93

/-- Bytes of a whole sample of the group's shape. -/
def State.sampleLen (s : State) (g : Nat) : Nat :=
  let k := s.first g
  32 + s.cget k 0x97 * s.cget k 0x98 * s.cget k 0x99 * (if s.cget k 0x96 = 5 then 2 else 1)

/-- Manifest entry `i` as it lies in the area. -/
def State.manifestAt (s : State) (g off i : Nat) : List Byte := s.readBytes (s.areaBase g + off + 32 * i) 32

/-- The bytes of the sample that an entry names. -/
def State.sampleOf (s : State) (g : Nat) (e : List Byte) : List Byte := s.readBytes (s.areaBase g + fieldAt e 0 8) (fieldAt e 8 4)

/-- Whether an entry's sample lies in the batch area, and in DRAM in service (R22). -/
def State.sampleThere (s : State) (g : Nat) (e : List Byte) : Bool :=
  decide (fieldAt e 0 8 + fieldAt e 8 4 ≤ s.areaLen g) && fieldAt e 0 8 % 32 == 0 && fieldAt e 8 4 != 0
    && s.dramRange (s.areaBase g + fieldAt e 0 8) (fieldAt e 8 4)

/-- The sample of an entry is read. -/
def State.touchSample (s : State) (g : Nat) (e : List Byte) : State :=
  if bitAt (fieldAt e 16 1) 0 && s.sampleThere g e then s.smTouch (s.areaBase g + fieldAt e 0 8) (fieldAt e 8 4) else s

/-- The status of an entry (R298). -/
def State.sampleStatus (s : State) (g : Nat) (e : List Byte) : Nat :=
  let k := s.first g
  if !bitAt (fieldAt e 16 1) 0 then 1
  else if !s.sampleThere g e then 3
  else
    let d := s.sampleOf g e
    if (crc32 d).toNat ≠ fieldAt e 12 4 then 2
    else if slice d 0 4 != ascii "VXSM" || fieldAt d 4 1 ≠ s.cget k 0x96 || fieldAt d 5 2 ≠ s.cget k 0x97 || fieldAt d 7 2 ≠ s.cget k 0x98
      || fieldAt d 9 2 ≠ s.cget k 0x99 || d.length ≠ s.sampleLen g then 3
    else if !bitAt (fieldAt d 11 1) 0 then 4
    else 0

/-- A host-given shift in its range. -/
def clampShift (b : Byte) : Byte := BitVec.ofInt 8 (clampInt (-15) 15 b.toInt)

/-- Host-given values outside their ranges. -/
def shiftsBad (e : List Byte) : Bool :=
  bitAt (fieldAt e 16 1) 1 && (clampShift (nth 0 e 21) != nth 0 e 21 || clampShift (nth 0 e 22) != nth 0 e 22)

/-- An entry as a replica receives it. -/
def deliveredEntry (e : List Byte) (status : Nat) : List Byte :=
  let e := setAt e 24 (BitVec.ofNat 8 status)
  if bitAt (fieldAt e 16 1) 1 then setAt (setAt e 21 (clampShift (nth 0 e 21))) 22 (clampShift (nth 0 e 22)) else e

/-- One entry checked: its status written, a replaced sample reported. -/
def State.checkEntry (s : State) (g num off i : Nat) : State :=
  let s := s.smTouch (s.areaBase g + off + 32 * i) 32
  let e := s.manifestAt g off i
  let s := s.touchSample g e
  let st := s.sampleStatus g e
  let s := if shiftsBad e then s.clamped else s
  let s := s.writeBytes (s.areaBase g + off + 32 * i + 24) (bytesOf 1 st)
  if st < 2 then s
  else
    let s := s.report codeReplaced (ucBatch num i) (ucBatch num 0) []
    foldS (s.adGroup g).replicas (fun s k => s.cbump k 0x9D) s

/-- ADAPT_BATCH: the entries are checked, and the batch is kept until it is agreed. DEDUCED, log entry 140. -/
def adaptBatch (g num off : Nat) (r : HRef) (s : State) : State :=
  if (s.adGroup g).replicas.isEmpty then s.refuse r STATE_CONFLICT
  else
    let n := s.batchSize g
    if s.areaLen g < off + 32 * n then s.refuse r CMD_PARAM
    else match s.rangeCode (s.areaBase g + off) (32 * n) with
    | some code => s.refuse r code
    | none =>
      let s := foldS (List.range n) (fun s i => s.checkEntry g num off i) s
      let st := (List.range n).map (fun i => fieldAt (s.manifestAt g off i) 24 1)
      let x := s.adGroup g
      s.setAdGroup g { x with batches := x.batches ++ [{ number := num, offset := off, handle := r, done := false, status := st, delivered := [] }] }

def groupOk (p : BitVec 64) : Bool := decide (1 ≤ p.toNat) && decide (p.toNat ≤ 8)

def execAdaptBatch (iss : Issuer) (p0 p1 p2 : BitVec 64) (s : State) : Host.Outcome State Fault Refusal :=
  .next (runCommand iss true (.groupCreator p0.toNat) stPOSM (groupOk p0 && decide (p1.toNat < 2 ^ 32))
    (adaptBatch p0.toNat p1.toNat p2.toNat) s.fresh)

/-! ### Delivery (R299, R300) -/

/-- The words of one half of a sample window: descriptor, entries, the shard's samples. DEDUCED, log entry 141. -/
def State.batchWords (s : State) (g : Nat) (b : Batch) (k r : Nat) : List SWord :=
  let n := b.status.length
  let ix := s.cget k 0x91
  let nr := (b.status.filter (· == 0)).length
  let entries := (List.range n).map (fun i => wordOfBytes (deliveredEntry (s.manifestAt g b.offset i) (nth 1 b.status i)))
  let shard := (List.range n).filter (fun i => i % r == ix)
  let sample (i : Nat) : List Byte :=
    if nth 1 b.status i = 0 then s.sampleOf g (s.manifestAt g b.offset i) else List.replicate (s.sampleLen g) 0
  let pad (l : List Byte) : List Byte := padTo (alignUp l.length 32) l
  let words (l : List Byte) : List SWord := (List.range (l.length / 32)).map (fun j => wordOfBytes (slice l (32 * j) 32))
  [Config.batchDescriptor b.number nr r ix] ++ entries ++ shard.flatMap (fun i => words (pad (sample i)))

/-- A batch whose delivery failed: its command completes, and every replica gets padding instead. DEDUCED, log entry 143. -/
def State.padBatch (s : State) (g : Nat) (b : Batch) (code : Nat) : State :=
  let x := s.adGroup g
  let b' := { b with done := true, status := b.status.map (fun _ => 1), delivered := [] }
  let s := s.setAdGroup g { x with batches := x.batches.map (fun y => if y.number = b.number then b' else y) }
  if b.done then s else s.complete b.handle code 0

/-- The last step that a replica has completed; the saturations of the gradients meanwhile, which its programs count, are open.
DESIGN CHOICE, log entry 151. -/
def State.noteStep (s : State) (k step : Nat) : State :=
  if s.cget k 0x9A = step then s else ((s.cset k 0x9A step).dadd (0x2600 + k) 0x9E (Config.freeNat s.freeIx)).freeStep

/-- The manifest and the samples of a batch are read for a delivery. -/
def State.touchBatch (s : State) (g : Nat) (b : Batch) : State :=
  let s := s.smTouch (s.areaBase g + b.offset) (32 * b.status.length)
  foldS ((List.range b.status.length).filter (fun i => nth 1 b.status i == 0)) (fun s i => s.touchSample g (s.manifestAt g b.offset i)) s

/-- Batch `num` goes to replica `k`, once the replica has completed step num − 2. -/
def State.deliverBatch (s : State) (g k num : Nat) : State :=
  let x := s.adGroup g
  match x.batches.find? (fun b => b.number == num && !b.delivered.contains k) with
  | none => s
  | some b =>
    let c := s.home k
    let w := s.adWin k wSample
    let src := 10 + s.groupHost g
    match s.winRead src c w 0 1 with
    | (.error code, s) => s.accessNack code c w (ucHost (s.groupHost g))
    | (.ok ws, s) =>
      let step := natOf (slice (bytesOfWord (nth (0, false) ws 0).1) 0 4)
      let s := s.noteStep k step
      if step + 2 < num then s
      else if !s.dramRange (s.areaBase g + b.offset) (32 * b.status.length) then s.padBatch g b codePartFenced
      else
        let s := s.touchBatch g b
        let half := 1 + num % 2 * ((wnLen (s.win c w) - 1) / 2)
        let ws := s.batchWords g b k x.replicas.length
        match State.winWrite src c w (some (s.batchFlag k)) ws.length half ws s with
        | (s, none) =>
          s.setAdGroup g { x with batches := x.batches.map (fun y => if y.number = num then { y with delivered := y.delivered ++ [k] } else y) }
        | (s, some code) => (s.accessNack code c w (ucHost (s.groupHost g))).padBatch g b code

/-- A poll of a group with a batch pending; a group of one replica runs no further step (R303). -/
def State.batchPoll (s : State) (g : Nat) : State :=
  let x := s.adGroup g
  if x.replicas.length < 2 || !s.sealing then s
  else foldS x.batches (fun s b => foldS x.replicas (fun s k => s.deliverBatch g k b.number) s) s

def execBatchPoll (group : Fin 9) (s : State) : Host.Outcome State Fault Refusal := .next (s.fresh.batchPoll group.val)

/-! ### Digest records (R302, R303) -/

/-- The complete digest record of a replica: step and digest. -/
def State.digestRecord (s : State) (g k : Nat) : State × Option (Nat × Nat) :=
  let c := s.home k
  let w := s.adWin k wDigest
  match s.winRead 9 c w 0 2 with
  | (.error code, s) => (s.accessNack code c w ucSm, none)
  | (.ok ws, s) =>
    let b := bytesOfWord (nth (0, false) ws 1).1
    (s, if nth 0 b 6 = 0xD1 && fieldAt b 4 1 = g && fieldAt b 5 1 = s.cget k 0x91 then some (fieldAt b 0 4, (nth (0, false) ws 0).1.toNat) else none)

/-- A replica's record is noted; one that has had its verdict waits for a change. -/
def State.noteRecord (s : State) (g k : Nat) : State :=
  let r := s.digestRecord g k
  let s := r.1
  let x := s.adGroup g
  let seen := x.seen.filter (fun e => e.1 != k)
  match r.2 with
  | none => s.setAdGroup g { x with seen := seen, judged := x.judged.filter (fun e => e.1 != k) }
  | some (n, d) =>
    if x.seen.contains (k, n, d) then s
    else if x.judged.contains (k, n, d) then s.setAdGroup g { x with seen := seen }
    else s.setAdGroup g { x with seen := seen ++ [(k, n, d)], judged := x.judged.filter (fun e => e.1 != k) }

/-! ### Polls and verdicts (R303–R305) -/

/-- Checkpoint c is agreed by all. -/
def State.agreedByAll (s : State) (g c : Nat) : State :=
  let x := s.adGroup g
  let s := s.agree g c
  let y := s.adGroup g
  let s := s.setAdGroup g { y with seen := [], judged := y.judged ++ y.seen }
  (s.tryJoin g).sendVerdict g c 0 c x.replicas

/-- Two of three agree: the odd one goes, the two continue. -/
def State.agreedByTwo (s : State) (g c odd : Nat) : State :=
  let s := (s.agree g c).expel g odd codeExpelled
  let l := (s.adGroup g).replicas
  ((s.regroup g l).tryJoin g).sendVerdict g c 1 c l

/-- The verdict once every replica presents one checkpoint. DEDUCED, log entry 145. -/
def State.judge (s : State) (g : Nat) : State :=
  let x := s.adGroup g
  match x.seen with
  | (k0, c, d0) :: r =>
    if x.seen.length ≠ x.replicas.length || !r.all (fun e => e.2.1 == c) then s
    else
      match r with
      | [] => s
      | [(_, _, d1)] => if d1 = d0 then s.agreedByAll g c else s.rollBack g c x.replicas true
      | (k1, _, d1) :: (k2, _, d2) :: _ =>
        if d0 = d1 && d1 = d2 then s.agreedByAll g c
        else if d0 = d1 then s.agreedByTwo g c k2
        else if d0 = d2 then s.agreedByTwo g c k1
        else if d1 = d2 then s.agreedByTwo g c k0
        else s.rollBack g c x.replicas false
  | [] => s

def State.digestPoll (s : State) (g : Nat) : State :=
  if !s.sealing then s
  else
    match (s.adGroup g).due with
    | some v => s.sendVerdict g v.checkpoint v.outcome v.resume v.dsts
    | none => (foldS (s.adGroup g).replicas (fun s k => s.noteRecord g k) s).judge g

def execDigestPoll (group : Fin 9) (s : State) : Host.Outcome State Fault Refusal := .next (s.fresh.digestPoll group.val)

/-- Ten seconds after the first replica presented a checkpoint, those that have not presented it are expelled, and the others roll back to
the last agreed one (R303, R380). DEDUCED, log entry 145. -/
def State.adaptLag (s : State) (g : Nat) : State :=
  let x := s.adGroup g
  match x.seen with
  | [] => s
  | (_, c, _) :: _ =>
    let late := x.replicas.filter (fun k => !x.seen.any (fun e => e.1 == k && e.2.1 == c))
    if late.isEmpty then s
    else
      let s := foldS late (fun s k => s.expel g k codeLag) s
      let l := (s.adGroup g).replicas
      if l.isEmpty then s.endGroup g codeLag else s.rollBack g c l (l.length == 2)

def execAdaptLag (group : Fin 9) (s : State) : Host.Outcome State Fault Refusal := .next (s.fresh.adaptLag group.val)

/-! ### Promotion (R307, R308) -/

/-- The working weights and scales that a replica keeps of the agreed checkpoint. -/
def State.agreedOf (s : State) (k c : Nat) : List SWord × State :=
  let e := s.win (s.home k) (s.adWin k wCheck)
  let x := s.smReadKs (wnOwner e) ((Config.agreedWords (s.cget k 0x1D) c).map (fun i => wnBase e + i))
  (x.1.map (·.1), x.2)

/-- The puts of a promotion go out, eight words each. DEDUCED, log entry 149. -/
def State.sendPromotion (s : State) (p : Promotion) (ws : List SWord) : State :=
  let n := cdiv ws.length 8
  let c := s.home p.ctx
  foldS (List.range n) (fun s i =>
    let d := (ws.drop (8 * i)).take 8
    s.sendPacket { kind := 0, srcUnit := 9, srcCtx := 0, ctxValid := false, srcPair := 0, dstUnit := BitVec.ofNat 5 c,
                   addr := winAddr p.window p.gen (p.offset + 8 * i), words := BitVec.ofNat 4 (d.length - 1), flag := 0,
                   seq := BitVec.ofNat 16 i, tag := BitVec.ofNat 16 (hKey p.handle.1 p.handle.2), status := 0, poison := false, data := d }) s

/-- DEDUCED, log entry 150. -/
def adaptPromote (g c k w off : Nat) (r : HRef) (s : State) : State :=
  let x := s.adGroup g
  let deny (s : State) : State := (s.rep codeNotAgreed (ucReplica g 0)).complete r codeNotAgreed 0
  if s.cclass k ≠ 1 then s.refuse r CMD_PARAM
  else if s.cstate k ≠ csRunning then s.refuse r STATE_CONFLICT
  else
    match x.replicas with
    | a :: b :: _ =>
      let wa := s.agreedOf a c
      let wb := wa.2.agreedOf b c
      let ws := wa.1
      if c ≠ x.agreed then deny s
      else if ws ≠ wb.1 then deny wb.2
      else
        let s := wb.2
        let p : Promotion := { group := g, checkpoint := c, ctx := k, window := w, gen := wnGen (s.win (s.home k) w), offset := off,
                               handle := r, digest := sha256 (ws.flatMap bytesOfWord), unanswered := List.range (cdiv ws.length 8), failed := none }
        let s := s.sendPromotion p ws
        { s with promotions := s.promotions ++ [{ p with offset := off + ws.length }] }
    | _ => deny s

def execAdaptPromote (iss : Issuer) (p0 p1 p2 p3 : BitVec 64) (s : State) : Host.Outcome State Fault Refusal :=
  .next (runCommand iss true (.groupCreator p0.toNat) [dsPreOp, dsOp]
    (groupOk p0 && decide (p1.toNat < 2 ^ 32) && decide (p2.toNat < 64) && decide (p3.toNat < 2 ^ 27))
    (adaptPromote p0.toNat p1.toNat (pctx p2) (bits p3.toNat 5 0) (bits p3.toNat 26 6)) s.fresh)

/-- At a tick the promotion word of each promotion whose words are all visible is written, and the promotion recorded. -/
def State.promotionWords (s : State) : State :=
  foldS (s.promotions.filter (fun p => p.unanswered.isEmpty && p.failed == none)) (fun s p =>
    let s := { s with promotions := s.promotions.filter (· != p) }
    let c := s.home p.ctx
    let word := wordOfBytes (padTo 32 (bytesOf 4 p.checkpoint ++ bytesOf 1 p.group ++ [0, 0, 0] ++ bytesOf 4 s.frameNo))
    match s.windowCheck c p.window p.gen 9 [rPut] p.offset 1 with
    | some code => (s.accessNack code c p.window ucSm).complete p.handle code 0
    | none =>
      let e := s.win c p.window
      let s := (s.noteSaved (wnOwner e)).putWords (wnOwner e) (wnBase e + p.offset) [word] false
      (s.report codePromoted (ucReplica p.group 0) (ucReplica p.group 0) p.digest).complete p.handle 0 0) s

end Sys2Proof.Machine
end

