-- ==== Sys2Proof/Machine/Hosts.lean ====
section
/-! DEFINITION. Host ports: host loss and links (R402, R406), BAR2 accesses (R403, R404, R200, R240, R452, R468), the export channels
(R408, R409). -/

namespace Sys2Proof.Machine

def codeHostDenied : Nat := 0x3015
def codeWinNone : Nat := 0x3007
def codeHostLoss : Nat := 0x5050
def codeLpAccess : Nat := 0x5013
def codeTsrProtected : Nat := 0x101E

/-! ### Links and host loss (R402, R406) -/

/-- An admitted host is lost. -/
def State.hostLoss (s : State) (h : Nat) : State :=
  if !s.admitted h then s
  else
    let s := (s.rep codeHostLoss (ucHost h)).setHostState h 3
    let p := s.port (portOf h)
    let s := s.setPort (portOf h) { p with trans := p.trans.map (fun w => w &&& ~~~1), channels := [] }
    s.raiseGen h

/-- The host state follows a link that goes down; a lost host stays lost. -/
def State.linkDownState (s : State) (h : Nat) : State := if s.hostState h = 1 then s.setHostState h 0 else s

/-- PRESUMED, log entry 152. -/
def State.perstAssert (s : State) (port : HostPort) : State :=
  let s := s.hostLoss (hostIx port)
  (s.setPort port { s.port port with perst := true, linkUp := false, busMaster := false }).linkDownState (hostIx port)

def execPerstAssert (port : HostPort) (s : State) : Host.Outcome State Fault Refusal := .next (s.fresh.perstAssert port)

def State.dlDown (s : State) (port : HostPort) : State :=
  let s := s.hostLoss (hostIx port)
  (s.setPort port { s.port port with linkUp := false }).linkDownState (hostIx port)

def execDlDown (port : HostPort) (s : State) : Host.Outcome State Fault Refusal := .next (s.fresh.dlDown port)

/-- A Function Level Reset: every register of R402 and the selectors at their defaults; the host state follows R406 alone. -/
def State.functionReset (s : State) (port : HostPort) : State :=
  let s := s.hostLoss (hostIx port)
  s.setPort port { (s.port port).cleared port with busMaster := false, romState := (s.port port).romState,
                                                   romCode := (s.port port).romCode, romLength := (s.port port).romLength }

def execFunctionLevelReset (port : HostPort) (s : State) : Host.Outcome State Fault Refusal := .next (s.fresh.functionReset port)

def execBusMasterEnableClear (port : HostPort) (s : State) : Host.Outcome State Fault Refusal :=
  let t := s.fresh.hostLoss (hostIx port)
  .next (t.setPort port { t.port port with busMaster := false })

/-- The link reaches L0; in SLEEP the links are down. -/
def State.pcieUp (s : State) (port : HostPort) (busMaster : Bool) : State :=
  if s.asleep then s
  else
    let s := s.setPort port { s.port port with linkUp := true, busMaster := busMaster }
    if s.hostState (hostIx port) = 0 then s.setHostState (hostIx port) 1 else s

def execPcieLinkUp (port : HostPort) (busMaster : Bool) (s : State) : Host.Outcome State Fault Refusal := .next (s.fresh.pcieUp port busMaster)

/-- A heartbeat restarts the host's watchdog. -/
def State.heartbeatIn (s : State) (port : HostPort) : State := s.setPort port { s.port port with heartbeat := s.timeNs }

def execHeartbeatWrite (port : HostPort) (t : Nat) (s : State) : Host.Outcome State Fault Refusal := .next ((s.fresh.atTime t).heartbeatIn port)

/-- The watchdog of an admitted host runs out; it is suspended in the low-power states (R462). -/
def State.heartbeatOut (s : State) (port : HostPort) : State :=
  let h := hostIx port
  if s.dev ≠ dsLowPower && (s.port port).heartbeat + s.dget 0x2500 (0x43 + h) * 1000000 ≤ s.timeNs then s.hostLoss h else s

def execHeartbeatTimeout (port : HostPort) (t : Nat) (s : State) : Host.Outcome State Fault Refusal :=
  .next ((s.fresh.atTime t).heartbeatOut port)

/-! ### What a BAR2 request meets (R403, R404) -/

/-- The translation register that a BAR2 offset falls under. -/
def PortState.transOf (p : PortState) (o : Nat) : BitVec 64 := nth 0 p.trans (o / 0x400000)

/-- The global byte address of a BAR2 offset. -/
def PortState.bar2Addr (p : PortState) (o : Nat) : Nat := bits (p.transOf o).toNat 47 22 * 2 ^ 22 + o % 0x400000

/-- The region of a request that lies whole in one. DEDUCED, log entry 153. -/
def State.spanRegion (s : State) (a n : Nat) : Region :=
  if n = 0 || s.regionOf a = s.regionOf (a + n - 1) then s.regionOf a else .unmapped

/-- Whether a range meets an allotment of a context that the host did not create. -/
def State.otherAllot (s : State) (h a n : Nat) : Bool :=
  allCtx.any (fun m => 2 ≤ s.cstate m && s.cget m 0x03 != h + 1
    && decide (a < (s.ctx m).allotAt + (s.ctx m).allotLen) && decide ((s.ctx m).allotAt < a + n))

/-- The unit that reports what stops a request: the host, but the device for an access in low power (R366, R481). -/
def bar2Unit (h code : Nat) : Nat := if code = codeLpAccess then ucDevice else ucHost h

/-- What stops a request before its target's own rules: `none` lets it through. -/
def State.bar2Stop (s : State) (h a n : Nat) (enabled : Bool) : Option (Nat × Nat) :=
  let u := ucHost h
  if !enabled then some (codeHostDenied, u)
  else
    match s.spanRegion a n with
    | .spm c => if s.dev = dsLowPower then some (codeLpAccess, u) else if s.isFenced (c / 2) then some (codePartFenced, ucPart (c / 2)) else none
    | .dram p =>
      if s.dev = dsLowPower then some (codeLpAccess, u)
      else if s.isFenced p then some (codePartFenced, ucPart p)
      else if s.otherAllot h a n then some (codeHostDenied, u) else none
    | .ls => none
    | _ => some (ADDR_UNMAPPED, u)

/-! ### Reads (R404) -/

/-- A context stopped at mark whose creator reads a word that it owns, or a word of its windows (R200). -/
def State.markRead (s : State) (h c w : Nat) : Option Nat :=
  allCtx.find? (fun k => s.cstate k == csRunning && s.cget k 0x40 == 2 && s.cget k 0x03 == h + 1 && s.ccore k == c
    && ((s.ctx k).pairsOf.contains (w / quarterWords)
      || (s.ctx k).heldWins.any (fun i => let e := s.win (s.home k) i
          wnOpen e && decide (wnBase e ≤ w) && decide (w < wnBase e + wnLen e))))

/-- Whether a part of a range is poisoned, or holds an error that cannot be corrected. -/
def State.rangeBad (s : State) (a n : Nat) : Bool :=
  (List.range (cdiv (a % 8 + n) 8)).any (fun i => KV.get false s.poison (a / 8 + i) || KV.get 0 s.ecc (a / 8 + i) == 2)

/-- One scratchpad word for a host, with its poison mark, or none where no window lets it. -/
def State.hostWord (s : State) (h c w : Nat) : Option ((SWord × Bool) × State) :=
  match s.matchedRead c (10 + h) w with
  | some x => some x
  | none => (s.markRead h c w).map (fun k => s.readK k w)

/-- The words of a range of a scratchpad, or none where one is refused. -/
def State.hostWords (s : State) (h c : Nat) : Nat → Nat → Option (List (SWord × Bool) × State)
  | 0, _ => some ([], s)
  | n + 1, w =>
    match s.hostWord h c w with
    | none => none
    | some x =>
      match State.hostWords x.2 h c n (w + 1) with
      | some r => some (x.1 :: r.1, r.2)
      | none => none

def State.bar2Read (s : State) (port : HostPort) (o n : Nat) : State :=
  let h := hostIx port
  let p := s.port port
  if s.romWait then s.send (.unsupported port)
  else if !s.portsServe then s
  else
    let a := p.bar2Addr o
    match s.bar2Stop h a n ((p.transOf o).getLsbD 0) with
    | some (code, origin) =>
      let s := s.report code (bar2Unit h code) origin []
      s.send (if code = codePartFenced then .completerAbort port else .unsupported port)
    | none =>
      match s.spanRegion a n with
      | .spm c =>
        let w := (a - spmBase c) / 32
        let k := cdiv (a % 32 + n) 32
        match s.hostWords h c k w with
        | none => (s.rep codeWinNone (ucCore c)).send (.unsupported port)
        | some (l, s) => s.send (.readData port (slice (l.flatMap (fun x => bytesOfWord x.1)) (a % 32) n) (l.any (fun x => x.2) || s.rangeBad a n))
      | _ =>
        let s := s.touchRange a n
        s.send (.readData port (s.readBytes a n) (s.rangeBad a n))

def execBar2Read (port : HostPort) (offset len : Nat) (s : State) : Host.Outcome State Fault Refusal := .next (s.fresh.bar2Read port offset len)

/-! ### Writes (R404) -/

/-- Bytes that fall on `old`, which lies from `base` up, put over it. -/
def mergeAt (old : List Byte) (base off : Nat) (data : List Byte) : List Byte :=
  ((List.range old.length).zip old).map (fun p =>
    if off ≤ base + p.1 && base + p.1 < off + data.length then nth p.2 data (base + p.1 - off) else p.2)

/-- A host's bytes merged into one word of a scratchpad through a window (R230, R240); a word not wholly written keeps its poison mark.
DEDUCED, log entry 28. -/
def State.hostPutWord (s : State) (h c w a : Nat) (data : List Byte) : State :=
  match s.matchWindow c (10 + h) rPut w with
  | none => s.rep codeWinNone (ucCore c)
  | some i =>
    let k := wnOwner (s.win c i)
    let s := s.noteSaved k
    let old := s.kWord k w
    let base := spmAddr c w
    let whole := decide (a ≤ base) && decide (base + 32 ≤ a + data.length)
    s.kSetWord k w (wordOfBytes (mergeAt (bytesOfWord old.1) base a data)) (old.2 && !whole)

/-- Bytes written to memory outside scratchpads; parts wholly written are clean. -/
def State.hostPutBytes (s : State) (a : Nat) (data : List Byte) : State :=
  let s := s.writeBytes a data
  let full (e : Nat) : Bool := decide (a ≤ 8 * e) && decide (8 * e + 8 ≤ a + data.length)
  { s with poison := s.poison.filter (fun e => !full e.1), ecc := s.ecc.filter (fun e => !full e.1) }

/-- The view whose mesh a range of Lodestar SRAM meets (R81), if any; with `built` one that the device builds. -/
def State.meshView (s : State) (o n : Nat) (built : Bool) : Option Nat :=
  (List.range 768).find? (fun v =>
    let d := s.viewRec v
    (ViewRec.kind d == 2 || ViewRec.kind d == 3 || (!built && ViewRec.kind d == 4))
      && (let b := 8 * KV.get 0 s.meshBase v
          decide (o < b + 8 * (ViewRec.meshW d * ViewRec.meshH d)) && decide (b < o + n)))

/-- Whether a range of Lodestar SRAM lies in the mesh store or in the tensoriser tables (R12, R66). -/
def tableRange (o n : Nat) : Bool :=
  decide (o + n ≤ 0x2000000) || (decide (pipeBase ≤ o) && decide (o + n ≤ toneBase + 0x4000))

/-- Whether a range meets the retained calibration entries, which the device owns (R66, R72). -/
def calRange (o n : Nat) : Bool := decide (calBase < o + n) && decide (o < calBase + 192 * 8192)

/-- The endpoint that a range of the tables or of the mesh store belongs to (R66, R99): unit of a TSR_PROTECTED report.
DEDUCED, log entry 126. -/
def State.tableUnit (s : State) (o n : Nat) : Nat :=
  if calBase ≤ o then ucEndpoint ((o - calBase) / 8192)
  else if toneBase ≤ o then ucTensor
  else if viewBase ≤ o then (if o < viewBase + 768 * 128 then ucEndpoint ((o - viewBase) / 512) else ucTensor)
  else if pipeBase ≤ o then (if o < pipeBase + 192 * 128 then ucEndpoint ((o - pipeBase) / 128) else ucTensor)
  else match s.meshView o n false with | some v => ucEndpoint (v / 4) | none => ucTensor

/-- A byte as the tables and the mesh store keep it: reserved bytes and bits of pipe records, view records and vertices read 0
(R6, R69, R70, R80). -/
def tableByte (o : Nat) (b : Byte) : Byte :=
  if o < 0x2000000 then (if o % 8 = 6 then b &&& 1 else if o % 8 = 7 then 0 else b)
  else if pipeBase ≤ o && o < pipeBase + 192 * 128 then (if o % 128 = 3 || o % 128 = 14 || o % 128 = 15 || 72 ≤ o % 128 then 0 else b)
  else if viewBase ≤ o && o < viewBase + 768 * 128 then (if o % 128 = 22 || o % 128 = 23 || (28 ≤ o % 128 && o % 128 ≤ 31) then 0 else b)
  else b

/-- A write into Lodestar SRAM outside the safety manager region. -/
def State.lsWrite (s : State) (h a : Nat) (data : List Byte) : State :=
  let o := a - lsBase
  let n := data.length
  if !tableRange o n && !calRange o n then s.clamped
  else if !s.inConf h || calRange o n || (s.meshView o n true).isSome then
    (s.tsrReport codeTsrProtected (s.tableUnit o n)).dbump 0x2400 0x08
  else s.hostPutBytes a (((List.range n).zip data).map (fun p => tableByte (o + p.1) p.2))

def State.bar2Write (s : State) (port : HostPort) (o : Nat) (data : List Byte) : State :=
  let h := hostIx port
  let p := s.port port
  let n := data.length
  if s.romWait then (if o + n ≤ 0x800000 then s.writeBytes (romBuffer + o) data else s)
  else if !s.portsServe then s
  else
    let a := p.bar2Addr o
    match s.bar2Stop h a n ((p.transOf o).getLsbD 0 && (p.transOf o).getLsbD 1) with
    | some (code, origin) => s.report code (bar2Unit h code) origin []
    | none =>
      match s.spanRegion a n with
      | .spm c => foldS (List.range (cdiv (a % 32 + n) 32)) (fun s i => s.hostPutWord h c ((a - spmBase c) / 32 + i) a data) s
      | .ls => s.lsWrite h a data
      | _ => s.hostPutBytes a data

def execBar2Write (port : HostPort) (offset : Nat) (data : List Byte) (s : State) : Host.Outcome State Fault Refusal :=
  .next (s.fresh.bar2Write port offset data)

/-! ### Export channels (R408, R409) -/

def State.setChannel (s : State) (h ch : Nat) (x : Option Export) : State :=
  let p := s.port (portOf h)
  s.setPort (portOf h) { p with channels := KV.set none p.channels ch x }

/-- EXPORT_OPEN's fields. -/
def exportOf (p0 p1 p2 : BitVec 64) : Export :=
  { ctx := bits p0.toNat 9 4, window := bits p0.toNat 15 10, ready := bits p1.toNat 20 0, words := bits p1.toNat 52 32, addr := p2.toNat,
    double := bitAt p0.toNat 16, last := none }

def exportParams (p0 p1 p2 : BitVec 64) : Bool :=
  decide (p0.toNat < 2 ^ 17) && decide (1 ≤ bits p1.toNat 52 32) && decide (bits p1.toNat 52 32 ≤ 1048576) && p2.toNat % 32 == 0

/-- DESIGN CHOICE, log entry 154. -/
def exportOpen (p0 p1 p2 : BitVec 64) (r : HRef) (s : State) : State :=
  let x := exportOf p0 p1 p2
  let e := s.win (s.home x.ctx) x.window
  if s.cget x.ctx 0x03 ≠ r.1 + 1 then s.refuse r NOT_OWNER
  else if !wnOpen e || wnOwner e ≠ x.ctx || !wnBit e rGet || !wnBit e (48 + 10 + r.1) then s.refuse r CMD_PARAM
  else (s.setChannel r.1 (bits p0.toNat 3 0) (some x)).complete r 0 0

def execExportOpen (iss : Issuer) (p0 p1 p2 : BitVec 64) (s : State) : Host.Outcome State Fault Refusal :=
  .next (runCommand iss true .hosts stPOSM (exportParams p0 p1 p2) (exportOpen p0 p1 p2) s.fresh)

def execExportClose (iss : Issuer) (p0 : BitVec 64) (s : State) : Host.Outcome State Fault Refusal :=
  .next (runCommand iss true .hosts stPOSM (decide (p0.toNat < 16)) (fun r s => (s.setChannel r.1 p0.toNat none).complete r 0 0) s.fresh)

/-- Words copied packet by packet until one is refused: the words read, and the code. -/
def State.exportWords (s : State) (src c w : Nat) : Nat → Nat → Nat → List SWord × Option Nat × State
  | 0, _, _ => ([], none, s)
  | f + 1, off, n =>
    if n = 0 then ([], none, s)
    else
      match s.winRead src c w off (min 8 n) with
      | (.error code, s) => ([], some code, s)
      | (.ok l, s) =>
        let rest := State.exportWords s src c w f (off + min 8 n) (n - min 8 n)
        (l.map (·.1) ++ rest.1, rest.2)

/-- A refused GET of a channel: logged at both ends, and a record for the host. DEDUCED, log entry 155. -/
def State.exportNack (s : State) (h code c w : Nat) : State :=
  (s.accessNack code c w (ucHost h)).statusTo h code (ucHost h) []

def State.exportPoll (s : State) (port : HostPort) (ch : Nat) : State :=
  let h := hostIx port
  match KV.get none (s.port port).channels ch with
  | none => s
  | some x =>
    if s.dev ≠ dsOp then s
    else
      let c := s.home x.ctx
      match s.winRead (10 + h) c x.window x.ready 1 with
      | (.error code, s) => s.exportNack h code c x.window
      | (.ok l, s) =>
        let b := bytesOfWord (nth (0, false) l 0).1
        let n := fieldAt b 0 4
        if nth 0 b 4 ≠ 0xE5 || x.last = some n then s
        else
          let s := s.setChannel h ch (some { x with last := some n })
          let a := x.addr + (if x.double then n % 2 * 32 * x.words else 0)
          let r := s.exportWords (10 + h) c x.window x.words (x.ready + 1) x.words
          let s := r.2.2.hostWrite h a (r.1.flatMap bytesOfWord)
          match r.2.1 with
          | some code => s.exportNack h code c x.window
          | none => s.hostRecord h 0 0 4 (ucHost h) 0 (bytesOf 1 ch ++ [0, 0, 0] ++ bytesOf 4 n ++ bytesOf 4 x.words ++ bytesOf 4 0 ++ bytesOf 8 a)

def execExportPoll (port : HostPort) (ch : Fin 16) (s : State) : Host.Outcome State Fault Refusal := .next (s.fresh.exportPoll port ch.val)

end Sys2Proof.Machine
end

