-- ==== Sys2Proof/Machine/Writes.lean ====
section
/-! DEFINITION. Writes of the dictionary (R407, R426, R427, R433, R436, R437) and what they set off: commands (R418, R421), handle
queries (R423, R445), and the entries with an effect of their own; writes of the host registers (R402, R452). -/

namespace Sys2Proof.Machine

/-- The state an outcome gives; every command of the block gives one. -/
def stateOr (s : State) : Host.Outcome State Fault Refusal → State
  | .next t => t
  | _ => s

/-! ### Execute (R418, R421) -/

/-- A parameter that the command does not define: refused after the checks before it (R422). -/
def badParam (iss : Issuer) (who : Who) (states : List Nat) (s : State) : Host.Outcome State Fault Refusal :=
  .next (runCommand iss true who states false (fun _ s => s) s.fresh)

/-- The command that the fields of a command object hold; `data` is what host memory holds at P1. -/
def runOpcode (iss : Issuer) (op : Nat) (p0 p1 p2 p3 : BitVec 64) (data : List Byte) (s : State) : Host.Outcome State Fault Refusal :=
  match op with
  | 0x01 => execNopCommand iss s
  | 0x02 => execHostAttach iss s
  | 0x10 => if p0 = 1 then execStatePreOperational iss s else if p0 = 2 then execStateOperational iss s
      else if p0 = 3 then execStateStopped iss s else if p0 = 4 then execStateMaintenance iss s else badParam iss .conf stPOSM s
  | 0x11 => if p0 = 0 then execPowerExit iss s else if p0 = 1 then execPowerIdle iss s else if p0 = 2 then execPowerStandby iss s
      else if p0 = 3 then execPowerSleep iss s else badParam iss .conf (stPS ++ [dsLowPower]) s
  | 0x12 => execDeviceReset iss s
  | 0x13 => execPartitionReset iss p0 s
  | 0x14 => execPartitionOut iss p0 s
  | 0x15 => execPartitionIn iss p0 s
  | 0x20 => if p0 = 1 then execMaintStressTest iss p1 s else if p0 = 2 then execMaintRetraining iss p1 s
      else if p0 = 3 then execMaintScrubSweep iss p1 s else if p0 = 4 then execMaintFirmwareUpdate iss p1 p2 s
      else badParam iss .confHosts [dsMaint] s
  | 0x21 => execMaintAbort iss s
  | 0x30 => execCtxCreate iss p0 s
  | 0x31 => execCtxLoad iss p0 p1 p2 data s
  | 0x32 => execCtxStart iss p0 s
  | 0x33 => execCtxTeardown iss p0 s
  | 0x34 => execCtxSave iss p0 p1 p2 s
  | 0x35 => execCtxRestore iss p0 p1 p2 data s
  | 0x38 => execWindowOpen iss p0 p1 p2 p3 s
  | 0x39 => execWindowClose iss p0 p1 s
  | 0x40 => execAdaptBatch iss p0 p1 p2 s
  | 0x41 => execAdaptPromote iss p0 p1 p2 p3 s
  | 0x48 => execExportOpen iss p0 p1 p2 s
  | 0x49 => execExportClose iss p0 s
  | 0x50 => execAttest iss p0 p1 p2 p3 s
  | _ => .next s

/-- Execute takes opcode and parameters as they stand. -/
def State.execute (s : State) (i : Nat) (data : List Byte) : State :=
  let obj := 0x5000 + i
  let p (k : Nat) : BitVec 64 := BitVec.ofNat 64 (s.dget obj k)
  stateOr s (runOpcode (issOf i) (s.dget obj 1) (p 2) (p 3) (p 4) (p 5) data s)

/-! ### Entries with an effect of their own -/

/-- The result of a query (R423, R445). -/
def State.queryResult (s : State) (i q : Nat) : Nat :=
  if q = 0 || bits q 31 30 ≠ i then 0
  else
    let h := s.hslot (i, bits q 21 14)
    if h.handle.toNat = q then h.code + 2 ^ 16 * h.st else 0

/-- Error log clear (R201): emptied; an entry of the same beat, which a full log has not stored, stays as the first. -/
def State.clearErrorLog (s : State) (k : Nat) (sameBeat : Bool) : State :=
  let n := s.cget k 0x33
  let s := foldS (List.range 64) (fun s i => s.dclear (0x2600 + k) (0x41 + i)) s
  let s := (s.cset k 0x33 0).cset k 0x34 0
  if sameBeat && n ≠ 0 then (s.cset k 0x41 (s.ctx k).lastSkip).cset k 0x33 1 else s

/-- Acknowledging a cleaning request (R58, R427): a setting in the same cycle wins. DEDUCED, log entry 18. -/
def State.ackCleaning (s : State) (e v : Nat) (sameBeat : Bool) : State :=
  if v = 1 then s
  else if sameBeat then (s.eset e 0x1A 1).dbump 0x2500 0x49 else s.eset e 0x1A 0

/-- A new link kind clamps the port and the position held (R40). -/
def State.linkKind (s : State) (e v : Nat) : State :=
  let s := s.eset e 0x02 v
  let port := clampNat 0 (if v = 2 then 15 else 47) (s.eget e 0x03)
  let pos := clampNat 0 (if v = 1 then 3 else 7) (s.eget e 0x04)
  let t := (s.eset e 0x03 port).eset e 0x04 pos
  if port ≠ s.eget e 0x03 || pos ≠ s.eget e 0x04 then t.clamped else t

/-- The swap region of a loaded context follows its offsets (R329, R337). -/
def State.swapNow (s : State) (k : Nat) : State :=
  let x := s.ctx k
  if s.cstate k = csLoaded then s.cset k 0x14 (s.swapRegion k x.footprint x.o x.n) else s

/-- A write to a parameter of SRDO 1 (R411, R438). -/
def State.srdoWritten (s : State) : State := s.dset 0x13FE 0 0

/-- What the write of value `v` to a writable entry does. -/
def State.applyWrite (s : State) (i index sub v : Nat) (data : List Byte) (sameBeat : Bool) : State :=
  if 0x5000 ≤ index && index ≤ 0x5002 && sub = 6 then (if v = 1 then s.execute i data else s)
  else if 0x2600 ≤ index && index < 0x2640 && sub = 0x35 then (if v = 1 then s.clearErrorLog (index - 0x2600) sameBeat else s)
  else if index = 0x2400 && sub = 0x17 then (if v = 1 then s.motionCommit else s)
  else if 0x2200 ≤ index && index < 0x22C0 && sub = 0x1A then s.ackCleaning (index - 0x2200) v sameBeat
  else if 0x2200 ≤ index && index < 0x22C0 && sub = 0x02 then (s.linkKind (index - 0x2200) v).relocate (index - 0x2200)
  else
    let old := s.dget index sub
    let s := s.dset index sub v
    if 0x2200 ≤ index && index < 0x22C0 && sub = 0x01 then s.enableChanged (index - 0x2200) old v
    else if index = 0x5100 then s.dset 0x5100 (sub + 1) (s.queryResult i v)
    else if index = 0x2401 && sub = 0x01 then (if old = v then s else (s.dset 0x1301 2 (cdiv v 1000)).srdoWritten)
    else if index = 0x2401 && sub = 0x02 then { s with lockGood := true }
    else if index = 0x2401 && sub = 0x04 then s.rolesWritten
    else if index = 0x1301 && sub = 5 then (s.dset 0x1301 6 (v + 1)).srdoWritten
    else if (index = 0x1301 && sub = 3) || index = 0x13FF then s.srdoWritten
    else if 0x2200 ≤ index && index < 0x22C0 && 2 ≤ sub && sub ≤ 7 then s.relocate (index - 0x2200)
    else if 0x2600 ≤ index && index < 0x2640 && 0x10 ≤ sub && sub ≤ 0x13 then s.swapNow (index - 0x2600)
    else if index = 0x2100 && 2 ≤ sub && sub ≤ 5 then s.sendVout (sub - 2) v
    else if index = 0x2100 && sub = 0x0F then s.tempCheck
    else s

/-! ### The checks of a write (R433) -/

/-- Whether an issuer is an owner of the entry (R407, R432). -/
def State.owns (s : State) (i index : Nat) : Owner → Bool
  | .any => false
  | .conf => s.inConf i
  | .hostA => i == 0
  | .hostB => i == 1
  | .can => i == 2
  | .creator => s.cget (index - 0x2600) 0x03 == i + 1 && s.cstate (index - 0x2600) != csFree
  | .everyone => true

/-- Whether the entry may change in the present state. -/
def State.changes (s : State) (index : Nat) : When → Bool
  | .always => true
  | .preOp => s.devForWrites == dsPreOp
  | .preOpMaint => s.devForWrites == dsPreOp || s.devForWrites == dsMaint
  | .ctxIdle => s.cstate (index - 0x2600) == csCreated || s.cstate (index - 0x2600) == csLoaded

/-- How a write fails. -/
inductive WriteFail where
  | resetting | noIndex | noSub | access | state | length
  deriving DecidableEq, Repr

/-- The first check that applies. -/
def State.writeFail (s : State) (i index sub n : Nat) : Option WriteFail :=
  if s.dev = dsInit || s.dev = dsRecovering then some .resetting
  else if (objOf index).isEmpty then some .noIndex
  else
    match entryOf index sub with
    | none => some .noSub
    | some e =>
      if e.access = .ro || e.access = .const || !s.owns i index e.owner then some .access
      else if !s.changes index e.when' then some .state
      else if i = 2 && n ≠ e.size then some .length
      else none

/-- The SDO abort code of a failure. -/
def abortCode : WriteFail → Nat
  | .resetting => 0x08000022
  | .noIndex => 0x06020000
  | .noSub => 0x06090011
  | .access => 0x06010002
  | .state => 0x08000022
  | .length => 0x06070010

/-- Entries that the spec calls reserved: what is written to them is ignored and counted nowhere (R6, R440). -/
def reservedEntry (index sub : Nat) : Bool := index == 0x2100 && decide (0x0C ≤ sub) && decide (sub ≤ 0x0E)

/-- A failed write: counted or logged, and over CAN-A aborted. DESIGN CHOICE, log entry 157. -/
def State.failWrite (s : State) (i index sub : Nat) (f : WriteFail) : State :=
  let s := match f with
    | .state => s.rep STATE_CONFLICT (ucIssuer i)
    | .length => s
    | _ => if f = .access && reservedEntry index sub then s
      else if i < 2 || f = .access || f = .resetting then s.clamped else s
  if i = 2 then s.send (.sdoAbort (abortCode f)) else s

/-- A write of an existing entry that no check stops: its bytes merged into the present value, clamped, applied. -/
def State.passWrite (s : State) (i index sub off : Nat) (e : Entry) (bytes data : List Byte) (sameBeat : Bool) : State :=
  let present := bytesOf e.size (if e.access = .wo then 0 else s.dget index sub)
  let v := natOf (if i = 2 then bytes else mergeAt present 0 off bytes)
  let w := s.clampOf index sub e v
  let nan := match e.range with | .real _ _ => fIsNaN (BitVec.ofNat 32 v) | _ => false
  let s := if s.clampCounts index sub e v then s.clamped else s
  (if nan then s.freeStep else s).applyWrite i index sub w data sameBeat

/-- A dictionary write. Over CAN-A in STOPPED nothing is served (R414), in SLEEP nothing at all. -/
def State.dictWrite (s : State) (i index sub off : Nat) (bytes data : List Byte) (sameBeat : Bool) : State :=
  if s.asleep || (i = 2 && s.devForWrites = dsStopped) then s
  else
    match s.writeFail i index sub bytes.length with
    | some f => s.failWrite i index sub f
    | none =>
      match entryOf index sub with
      | some e => if i < 2 && e.size ≤ off then s else s.passWrite i index sub off e bytes data sameBeat
      | none => s

def execDictionaryWrite (iss : Issuer) (index sub off : Nat) (data hostData : List Byte) (t : Nat) (s : State) :
    Host.Outcome State Fault Refusal :=
  .next ((s.fresh.atTime t).dictWrite (issIx iss) index sub off data hostData false)

def execHandleQuery (iss : Issuer) (handle : BitVec 32) (s : State) : Host.Outcome State Fault Refusal :=
  .next (s.fresh.dictWrite (issIx iss) 0x5100 (1 + 2 * issIx iss) 0 (bytesOf 4 handle.toNat) [] false)

def execMotionCommit (iss : Issuer) (t : Nat) (s : State) : Host.Outcome State Fault Refusal :=
  .next ((s.fresh.atTime t).dictWrite (issIx iss) 0x2400 0x17 0 [1] [] false)

def execErrorLogClear (iss : Issuer) (ctx : Fin 64) (sameBeat : Bool) (s : State) : Host.Outcome State Fault Refusal :=
  .next (s.fresh.dictWrite (issIx iss) (0x2600 + ctx.val) 0x35 0 [1] [] sameBeat)

def execCleaningRequestAck (iss : Issuer) (ep : Fin 192) (sameBeat : Bool) (s : State) : Host.Outcome State Fault Refusal :=
  .next (s.fresh.dictWrite (issIx iss) (0x2200 + ep.val) 0x1A 0 [0] [] sameBeat)

def execEnableSet (iss : Issuer) (ep : Fin 192) (s : State) : Host.Outcome State Fault Refusal :=
  .next (s.fresh.dictWrite (issIx iss) (0x2200 + ep.val) 0x01 0 [1] [] false)

def execEnableClear (iss : Issuer) (ep : Fin 192) (s : State) : Host.Outcome State Fault Refusal :=
  .next (s.fresh.dictWrite (issIx iss) (0x2200 + ep.val) 0x01 0 [0] [] false)

/-! ### Host registers (R402, R436, R452) -/

/-- A register's value with written bytes over it, and whether any byte of it was written. -/
def regMerge (base n old off : Nat) (data : List Byte) : Nat × Bool :=
  (natOf (mergeAt (bytesOf n old) base off data), decide (off < base + n) && decide (base < off + data.length))

/-- The registers of the boot ROM (R452). -/
def State.romWrite (s : State) (port : HostPort) (off : Nat) (data : List Byte) : State :=
  let p := s.port port
  let len := regMerge 0x08 4 p.romLength.toNat off data
  let s := if len.2 then s.setPort port { p with romLength := BitVec.ofNat 32 (clampNat 1025 8388608 len.1) } else s
  let s := if [(0, 4), (4, 1), (6, 2)].any (fun r => (regMerge r.1 r.2 0 off data).2) then s.clamped else s
  let go := regMerge 0x0C 4 0 off data
  if go.2 && go.1 % 2 = 1 then s.go (hostIx port) else s

/-- Translation windows: reserved bits read 0. -/
def transMask : Nat := 3 + (2 ^ 48 - 2 ^ 22)

def writeTrans (old : List (BitVec 64)) (off : Nat) (data : List Byte) : List (BitVec 64) :=
  ((List.range old.length).zip old).map (fun x => BitVec.ofNat 64 ((regMerge (0xC000 + 8 * x.1) 8 x.2.toNat off data).1 &&& transMask))

/-- Selectors of the three page windows. -/
def writeSelectors (old : List (BitVec 16)) (off : Nat) (data : List Byte) : List (BitVec 16) :=
  ((List.range old.length).zip old).map (fun x => BitVec.ofNat 16 (regMerge (0x4000 * x.1 + 0x3FC0) 2 x.2.toNat off data).1)

/-- Log base and log size: nothing but a count while the host is admitted. -/
def State.writeLogRegs (s : State) (port : HostPort) (off : Nat) (data : List Byte) : State :=
  let p := s.port port
  let base := regMerge 0xC100 8 p.logBase.toNat off data
  let size := regMerge 0xC108 2 p.logSize.toNat off data
  if !base.2 && !size.2 then s
  else if s.admitted (hostIx port) then s.clamped
  else s.setPort port { p with logBase := BitVec.ofNat 64 (base.1 / 4096 * 4096), logSize := BitVec.ofNat 16 size.1 }

/-- Whether a write touches a read-only register. -/
def touchesRo (off : Nat) (data : List Byte) : Bool :=
  [(0xC110, 2), (0xC114, 4), (0xC11C, 1)].any (fun r => (regMerge r.1 r.2 0 off data).2)

/-- MSI-X table bytes. -/
def msixBytes (m : List Host.Cell) (off : Nat) (data : List Byte) : List Host.Cell :=
  ((List.range data.length).zip data).foldl (fun m p =>
    if 0xD000 ≤ off + p.1 && off + p.1 < 0xD400 then KV.set 0 m (off + p.1) p.2 else m) m

/-- The slots of the dictionary mirror that a write covers, each one dictionary write (R434, R437): window, sub-index. -/
def mirrorSlots (off n : Nat) : List Nat :=
  if 0xC000 ≤ off then [] else (List.range ((min (off + n) 0xC000 + 63) / 64)).filter (fun k => decide (off / 64 ≤ k) && k % 256 != 255)

/-- DEDUCED, log entry 156. -/
def State.mirrorWrite (s : State) (port : HostPort) (off : Nat) (data hostData : List Byte) : State :=
  foldS (mirrorSlots off data.length) (fun s k =>
    let index := (nth 0 (s.port port).selectors (k / 256)).toNat
    let lo := max off (64 * k)
    let hi := min (off + data.length) (64 * k + 64)
    s.dictWrite (hostIx port) index (k % 256) (lo - 64 * k) (slice data (lo - off) (hi - lo)) hostData false) s

def State.registerWrite (s : State) (port : HostPort) (off : Nat) (data hostData : List Byte) : State :=
  if s.romWait then s.romWrite port off data
  else if !s.portsServe then s
  else
    let s := s.mirrorWrite port off data hostData
    let p := s.port port
    let s := s.setPort port { p with trans := writeTrans p.trans off data, selectors := writeSelectors p.selectors off data,
                                     consumer := BitVec.ofNat 16 (regMerge 0xC10C 2 p.consumer.toNat off data).1,
                                     msixTable := msixBytes p.msixTable off data }
    let s := s.writeLogRegs port off data
    let s := if (regMerge 0xC118 4 0 off data).2 then s.heartbeatIn port else s
    if touchesRo off data then s.clamped else s

def execRegisterWrite (port : HostPort) (offset : Nat) (data hostData : List Byte) (t : Nat) (s : State) : Host.Outcome State Fault Refusal :=
  .next ((s.fresh.atTime t).registerWrite port offset data hostData)

end Sys2Proof.Machine
end

