-- ==== Sys2Proof/Machine/Tick.lean ====
section
/-! DEFINITION. The Meridian's tick (R25, R26, R322, R369, R381 step 9, R387, R416, R441, R442) and the pin that can mark it (R476). -/

namespace Sys2Proof.Machine

/-! ### The seal of the frame that ends (R26, R361) -/

/-- The frame before the tick is sealed with the late-seal flag; a frame without a FIW ends as it is. -/
def State.endFrame (s : State) : State :=
  if s.sealing && s.frame.isOpen then s.sealFrame true s.inputsIn else { s with frame := { s.frame with isOpen := false } }

/-! ### The time entries (R42, R441) -/

/-- Number, time and deviation of the tick. The first tick after reset is that of frame 0. -/
def State.stamp (s : State) : State :=
  let n := if s.ticked then (s.frameNo + 1) % 2 ^ 32 else 0
  let dev : Int := if s.ticked then (s.timeNs : Int) - (s.tickPredicted : Int) else 0
  let s := { s with tickPrev := s.tickNs, tickPredicted := s.timeNs + s.periodNs, ticked := true }
  ((s.dset 0x2401 0x06 n).dset 0x2401 0x07 s.timeNs).dset 0x2401 0x08 (dev % 2 ^ 32).toNat

/-! ### OPERATIONAL begins (R67, R81, R84, R85, R321, R416) -/

/-- LC contexts whose timetable has another frame period than the device are torn down (R321). DEDUCED, log entry 76. -/
def State.periodCheck (s : State) : State :=
  foldS (allCtx.filter (fun k => s.isLC k && csLoaded ≤ s.cstate k && s.cstate k ≤ csFinished
    && (s.ctx k).period != s.dget 0x2401 0x01)) (fun s k => (s.report codeDecl (ucCtx k) (ucCtx k) [] (s.tearFaults k)).startTeardown k codeDecl) s

/-- Whether an endpoint has a mesh that the device builds. DEDUCED, log entry 136. -/
def State.hasMesh (s : State) (e : Nat) : Bool :=
  (s.viewsOf e).any (fun v => ViewRec.kind (s.viewRec v) == 2 || ViewRec.kind (s.viewRec v) == 3)

/-- Images, lines and views begin anew. -/
def State.clearImages (s : State) : State :=
  let s := { s with raw := [], views := [], sweeps := [], sweepsPrev := [] }
  let s := foldS allEps (fun s e => s.setEp e { s.ep e with image := .zero, complete := none }) s
  foldS (allEps.filter (fun e => s.eclass e == 3)) (fun s e => s.setSweep e false { Sweep.zero with frame := (s.frameNo + 1) % 2 ^ 32 }) s

/-- The tables are taken, the meshes of admitted heads queued in order of completion of step 4, those admitted at this tick too, and host
meshes checked (R85). -/
def State.takeViews (s : State) : State :=
  let s := s.clearImages.takeTables
  let due (e : Nat) : Bool := (decide ((s.ep e).disc = .admitted) || decide ((s.ep e).disc = .admitNext)) && s.hasMesh e
  let s := { s with meshQueue := s.fetched.filter (fun e => s.meshQueue.contains e || due e) }
  foldS ((List.range 768).filter (fun v => ViewRec.kind (s.viewRec v) == 4)) (fun s v => s.checkSpan v) s

/-- A transition that waits for its tick is checked on the tables as they are now, and takes effect; its commands complete (R67, R68, R416).
DEDUCED, log entry 194. -/
def State.enterOp (s : State) : State :=
  match s.stateWait with
  | none => s
  | some l =>
    if s.dev = dsPreOp || s.dev = dsStopped then
      match s.opFailure (l.headD (2, 0)).1 with
      | some f => foldS l (fun s r => s.complete r f.1 0) ({ s with stateWait := none }.opReport f)
      | none => foldS l (fun s r => s.complete r 0 0) ({ s.periodCheck.takeViews with stateWait := none }.setDev dsOp)
    else s.cancelWait

/-! ### The new frame -/

/-- Partitions fenced now. -/
def State.fencedNow (s : State) : List Nat := allParts.filter (fun p => s.isFenced p)

/-- The FIW record of the frame that begins (R342, R358). A partition fenced outside the variant in force invalidates it. -/
def State.newFrame (s : State) : FrameRec :=
  let v := s.variantNow
  let fenced := s.fencedNow.filter (fun p => v != p + 1)
  { FrameRec.zero with
    isOpen := s.sealing, n := s.frameNo, inOp := s.dev == dsOp, maint := s.dev == dsMaint, variant := v
    outSet := BitVec.ofNat 4 s.outSet, fencedSet := BitVec.ofNat 4 ((s.fencedNow.map (fun p => 2 ^ p)).foldl (· + ·) 0)
    faults := s.frame.faults ++ fenced.map (fun _ => FrameFault.mk codePartFenced none false true)
    degraded := s.frame.degraded, truncations := s.frame.truncations
    valid := List.replicate 192 false, delivered := List.replicate 192 false
    unbuilt := s.meshQueue.filter (fun e => decide ((s.ep e).disc = .admitted)) }

/-- The frame opens: its Orrery class shown, full tests due taken up (R351, R354). -/
def State.openFrame (s : State) : State :=
  let s := { s with frame := s.newFrame, clearing := 0 }.dset 0x2700 0x10 (s.frameNo % 24)
  if s.sealing then { s with fullNow := BitVec.ofNat 8 (s.dget 0x2700 0x1B) }.dset 0x2700 0x1B 0 else s

/-- A tensor complete in the windows at the tick is the input of the frame (R25). -/
def State.takeComplete (s : State) : State :=
  foldS allEps (fun s e =>
    match (s.ep e).complete with
    | none => s
    | some (n, v) =>
      let s := if n = s.frameNo then s.slotDelivered e n v else s
      s.setEp e { s.ep e with complete := none }) s

/-- No sweep collected for the frame: whatever comes for it is late. -/
def Sweep.missing (n : Nat) : Sweep := { Sweep.zero with frame := n, closed := true, valid := false }

/-- The sweep collected so far becomes that of the frame; the next begins (R53, R87). -/
def State.turnSweeps (s : State) : State :=
  let next := (s.frameNo + 1) % 2 ^ 32
  foldS (allEps.filter (fun e => s.eclass e == 3)) (fun s e =>
    let x := s.sweep e false
    let old := if s.pipeOn e && x.frame == s.frameNo && (s.ep e).admittedFrame != s.frameNo then x else Sweep.missing next
    (s.setSweep e true old).setSweep e false { Sweep.zero with frame := next }) s

/-- Each view reads its window's generation anew, and the half of a point buffer that the next sweep fills; a lidar's views wait for their
sweep; motion of frames gone is dropped (R89, R90, R95). -/
def State.turnViews (s : State) : State :=
  let s := foldS (s.views.map (fun (x : Nat × ViewState) => x.1)) (fun s v =>
    if v < 768 then
      let x := { s.view v with gen := none, ended := false }
      s.setView v (if s.eclass (v / 4) = 3 then { x with stripe := 0, valid := true, done := false } else x)
    else if v % 2 = nextFrame s.frameNo % 2 then s.setView v { s.view v with gen := none, ended := false }
    else s) s
  let near (f : Nat) : Bool := nextFrame f == s.frameNo || f == s.frameNo || f == nextFrame s.frameNo
  { s with motion := s.motion.filter (fun (x : Nat × List Nat) => near x.1), egoLate := s.egoLate.filter near }

/-- LC frame programs start (R322). -/
def State.startPrograms (s : State) : State :=
  if s.dev = dsOp then foldS (allCtx.filter (fun k => s.isLC k && s.cstate k == csRunning)) (fun s k => s.startFrame k) s else s

/-- Package power over the last frame, as the stages answer: a free value (R440, R474). DESIGN CHOICE, log entry 138. -/
def State.readPower (s : State) : State := (s.dset 0x2100 0x11 (Config.freeNat s.freeIx % 65536)).freeStep

/-- What a tick turns over in a device that runs. DESIGN CHOICE, log entry 77. -/
def State.turn (s : State) : State :=
  let s := { s.closeLog with busOffRecent := false }
  let s := s.enterOp.returnDue.releaseHeads.admitHeads
  let s := s.openFrame.takeComplete.turnSweeps.turnViews
  let s := s.frameCounts.promotionWords.startPrograms
  s.fixTriggers.tempCheck.readPower

/-- Whether the Meridian ticks: out of resets, and not in SLEEP (R361, R462). -/
def State.ticks (s : State) : Bool := stAll.contains s.dev && s.devReset == 0 && !s.asleep

def State.tick (s : State) : State := if s.ticks then s.endFrame.stamp.turn else s

def execTick (t : Nat) (s : State) : Host.Outcome State Fault Refusal := .next ((s.fresh.atTime t).tick)

/-- A rising edge: the tick, where the pin is the lock source; a source that was lost is followed again (R442, R476).
DEDUCED, log entry 137. -/
def State.syncIn (s : State) : State :=
  if s.dget 0x2401 0x02 ≠ 1 then s else if s.lockGood then s.tick else { s with lockGood := true }

def execFrameSyncIn (t : Nat) (s : State) : Host.Outcome State Fault Refusal := .next ((s.fresh.atTime t).syncIn)

end Sys2Proof.Machine
end

