-- ==== Sys2Proof/Machine/Dispatch.lean ====
section
/-! DEFINITION. The dispatch: one arm per constructor of Instr, each a direct call of its meaning. -/

namespace Sys2Proof.Machine

/-- The effect of a command on everything but the queue. -/
def exec (i : Instr) (s : State) : Host.Outcome State Fault Refusal :=
  match i with
  | .nopCommand iss => Sys2Proof.Machine.execNopCommand iss s
  | .hostAttach iss => Sys2Proof.Machine.execHostAttach iss s
  | .statePreOperational iss => Sys2Proof.Machine.execStatePreOperational iss s
  | .stateOperational iss => Sys2Proof.Machine.execStateOperational iss s
  | .stateStopped iss => Sys2Proof.Machine.execStateStopped iss s
  | .stateMaintenance iss => Sys2Proof.Machine.execStateMaintenance iss s
  | .powerIdle iss => Sys2Proof.Machine.execPowerIdle iss s
  | .powerStandby iss => Sys2Proof.Machine.execPowerStandby iss s
  | .powerSleep iss => Sys2Proof.Machine.execPowerSleep iss s
  | .powerExit iss => Sys2Proof.Machine.execPowerExit iss s
  | .deviceReset iss => Sys2Proof.Machine.execDeviceReset iss s
  | .partitionReset iss p0 => Sys2Proof.Machine.execPartitionReset iss p0 s
  | .partitionOut iss p0 => Sys2Proof.Machine.execPartitionOut iss p0 s
  | .partitionIn iss p0 => Sys2Proof.Machine.execPartitionIn iss p0 s
  | .maintStressTest iss p1 => Sys2Proof.Machine.execMaintStressTest iss p1 s
  | .maintRetraining iss p1 => Sys2Proof.Machine.execMaintRetraining iss p1 s
  | .maintScrubSweep iss p1 => Sys2Proof.Machine.execMaintScrubSweep iss p1 s
  | .maintFirmwareUpdate iss p1 p2 => Sys2Proof.Machine.execMaintFirmwareUpdate iss p1 p2 s
  | .maintAbort iss => Sys2Proof.Machine.execMaintAbort iss s
  | .maintActivityEnd out => Sys2Proof.Machine.execMaintActivityEnd out s
  | .ctxCreate iss p0 => Sys2Proof.Machine.execCtxCreate iss p0 s
  | .ctxLoad iss p0 p1 p2 data => Sys2Proof.Machine.execCtxLoad iss p0 p1 p2 data s
  | .ctxStart iss p0 => Sys2Proof.Machine.execCtxStart iss p0 s
  | .ctxTeardown iss p0 => Sys2Proof.Machine.execCtxTeardown iss p0 s
  | .ctxSave iss p0 p1 p2 => Sys2Proof.Machine.execCtxSave iss p0 p1 p2 s
  | .ctxRestore iss p0 p1 p2 data => Sys2Proof.Machine.execCtxRestore iss p0 p1 p2 data s
  | .windowOpen iss p0 p1 p2 p3 => Sys2Proof.Machine.execWindowOpen iss p0 p1 p2 p3 s
  | .windowClose iss p0 p1 => Sys2Proof.Machine.execWindowClose iss p0 p1 s
  | .closeTakesEffect core win t => Sys2Proof.Machine.execCloseTakesEffect core win t s
  | .adaptBatch iss p0 p1 p2 => Sys2Proof.Machine.execAdaptBatch iss p0 p1 p2 s
  | .adaptPromote iss p0 p1 p2 p3 => Sys2Proof.Machine.execAdaptPromote iss p0 p1 p2 p3 s
  | .exportOpen iss p0 p1 p2 => Sys2Proof.Machine.execExportOpen iss p0 p1 p2 s
  | .exportClose iss p0 => Sys2Proof.Machine.execExportClose iss p0 s
  | .attest iss p0 p1 p2 p3 => Sys2Proof.Machine.execAttest iss p0 p1 p2 p3 s
  | .quoteComplete t => Sys2Proof.Machine.execQuoteComplete t s
  | .nopInstruction core pair st => Sys2Proof.Machine.execNopInstruction core pair st s
  | .flagSet core pair st => Sys2Proof.Machine.execFlagSet core pair st s
  | .flagClear core pair st => Sys2Proof.Machine.execFlagClear core pair st s
  | .guardInstr core pair st => Sys2Proof.Machine.execGuardInstr core pair st s
  | .jump core pair st => Sys2Proof.Machine.execJump core pair st s
  | .cset core pair st => Sys2Proof.Machine.execCset core pair st s
  | .cadd core pair st => Sys2Proof.Machine.execCadd core pair st s
  | .ccopy core pair st => Sys2Proof.Machine.execCcopy core pair st s
  | .cmp core pair st => Sys2Proof.Machine.execCmp core pair st s
  | .endInstr core pair st => Sys2Proof.Machine.execEndInstr core pair st s
  | .ldq core pair => Sys2Proof.Machine.execLdq core pair s
  | .ldt core pair => Sys2Proof.Machine.execLdt core pair s
  | .ldz core pair => Sys2Proof.Machine.execLdz core pair s
  | .stq core pair => Sys2Proof.Machine.execStq core pair s
  | .stz core pair => Sys2Proof.Machine.execStz core pair s
  | .dld core pair => Sys2Proof.Machine.execDld core pair s
  | .dst core pair => Sys2Proof.Machine.execDst core pair s
  | .put core pair => Sys2Proof.Machine.execPut core pair s
  | .sput core pair => Sys2Proof.Machine.execSput core pair s
  | .getInstr core pair => Sys2Proof.Machine.execGetInstr core pair s
  | .aadd core pair => Sys2Proof.Machine.execAadd core pair s
  | .rflag core pair => Sys2Proof.Machine.execRflag core pair s
  | .fence core pair => Sys2Proof.Machine.execFence core pair s
  | .mfill core pair => Sys2Proof.Machine.execMfill core pair s
  | .mcopy core pair => Sys2Proof.Machine.execMcopy core pair s
  | .mtrans core pair => Sys2Proof.Machine.execMtrans core pair s
  | .mdigest core pair => Sys2Proof.Machine.execMdigest core pair s
  | .region core pair => Sys2Proof.Machine.execRegion core pair s
  | .wload core pair => Sys2Proof.Machine.execWload core pair s
  | .weightLoadStart core array group => Sys2Proof.Machine.execWeightLoadStart core array group s
  | .splitChange core array => Sys2Proof.Machine.execSplitChange core array s
  | .stream core pair => Sys2Proof.Machine.execStream core pair s
  | .narrow core pair => Sys2Proof.Machine.execNarrow core pair s
  | .elementThread core pair unit => Sys2Proof.Machine.execElementThread core pair unit s
  | .instructionComplete core pair st => Sys2Proof.Machine.execInstructionComplete core pair st s
  | .vectorSlot core array group => Sys2Proof.Machine.execVectorSlot core array group s
  | .columnSum core array group => Sys2Proof.Machine.execColumnSum core array group s
  | .tensorClose core pair slot => Sys2Proof.Machine.execTensorClose core pair slot s
  | .crossWait ctx => Sys2Proof.Machine.execCrossWait ctx s
  | .stopReached ctx => Sys2Proof.Machine.execStopReached ctx s
  | .putPacket p => Sys2Proof.Machine.execPutPacket p s
  | .sputData p => Sys2Proof.Machine.execSputData p s
  | .sputLast p => Sys2Proof.Machine.execSputLast p s
  | .getRequest p => Sys2Proof.Machine.execGetRequest p s
  | .getReply p => Sys2Proof.Machine.execGetReply p s
  | .aaddInt32 p => Sys2Proof.Machine.execAaddInt32 p s
  | .aaddFp32 p => Sys2Proof.Machine.execAaddFp32 p s
  | .flagPacket p => Sys2Proof.Machine.execFlagPacket p s
  | .ack p => Sys2Proof.Machine.execAck p s
  | .nack p => Sys2Proof.Machine.execNack p s
  | .hold p => Sys2Proof.Machine.execHold p s
  | .memoryWrite p => Sys2Proof.Machine.execMemoryWrite p s
  | .memoryReadRequest p => Sys2Proof.Machine.execMemoryReadRequest p s
  | .memoryReadReply p => Sys2Proof.Machine.execMemoryReadReply p s
  | .linkTimeout p t => Sys2Proof.Machine.execLinkTimeout p t s
  | .lateReplyPause core => Sys2Proof.Machine.execLateReplyPause core s
  | .tick t => Sys2Proof.Machine.execTick t s
  | .sliceBoundary t => Sys2Proof.Machine.execSliceBoundary t s
  | .switch ctx => Sys2Proof.Machine.execSwitch ctx s
  | .slotClearing core => Sys2Proof.Machine.execSlotClearing core s
  | .almanacSlot core outs missed => Sys2Proof.Machine.execAlmanacSlot core outs missed s
  | .slotVerdictTimeout core => Sys2Proof.Machine.execSlotVerdictTimeout core s
  | .frameDeadline ctx => Sys2Proof.Machine.execFrameDeadline ctx s
  | .fiwSeal t => Sys2Proof.Machine.execFiwSeal t s
  | .safeOkToggle => Sys2Proof.Machine.execSafeOkToggle s
  | .smWatchdog => Sys2Proof.Machine.execSmWatchdog s
  | .lockstepMismatch => Sys2Proof.Machine.execLockstepMismatch s
  | .teardown ctx t => Sys2Proof.Machine.execTeardown ctx t s
  | .hostLossGrace port => Sys2Proof.Machine.execHostLossGrace port s
  | .partitionResetSequence part step t => Sys2Proof.Machine.execPartitionResetSequence part step t s
  | .reloadTimeout ctx => Sys2Proof.Machine.execReloadTimeout ctx s
  | .deviceResetSequence step t => Sys2Proof.Machine.execDeviceResetSequence step t s
  | .poresetN => Sys2Proof.Machine.execPoresetN s
  | .thermalTrip => Sys2Proof.Machine.execThermalTrip s
  | .thermalRelease => Sys2Proof.Machine.execThermalRelease s
  | .beatSlow bed => Sys2Proof.Machine.execBeatSlow bed s
  | .patrolScrub channel finding => Sys2Proof.Machine.execPatrolScrub channel finding s
  | .frameSyncIn t => Sys2Proof.Machine.execFrameSyncIn t s
  | .syncLost => Sys2Proof.Machine.execSyncLost s
  | .linkUp loc => Sys2Proof.Machine.execLinkUp loc s
  | .getCertResponse ep payload => Sys2Proof.Machine.execGetCertResponse ep payload s
  | .challengeResponse ep payload => Sys2Proof.Machine.execChallengeResponse ep payload s
  | .getCalResponse ep payload => Sys2Proof.Machine.execGetCalResponse ep payload s
  | .getLifeResponse ep payload => Sys2Proof.Machine.execGetLifeResponse ep payload s
  | .idTimeout ep => Sys2Proof.Machine.execIdTimeout ep s
  | .authTimeout ep => Sys2Proof.Machine.execAuthTimeout ep s
  | .calTimeout ep => Sys2Proof.Machine.execCalTimeout ep s
  | .discoveryRetry ep => Sys2Proof.Machine.execDiscoveryRetry ep s
  | .lifePoll ep => Sys2Proof.Machine.execLifePoll ep s
  | .meshBuild => Sys2Proof.Machine.execMeshBuild s
  | .linkDown ep => Sys2Proof.Machine.execLinkDown ep s
  | .frameStart ep info number t => Sys2Proof.Machine.execFrameStart ep info number t s
  | .frameEnd ep info => Sys2Proof.Machine.execFrameEnd ep info s
  | .longPacket ep info dataType payload accepted => Sys2Proof.Machine.execLongPacket ep info dataType payload accepted s
  | .lineDatagram d t accepted => Sys2Proof.Machine.execLineDatagram d t accepted s
  | .pointDatagram d t => Sys2Proof.Machine.execPointDatagram d t s
  | .arpRequest port target senderMac senderIp => Sys2Proof.Machine.execArpRequest port target senderMac senderIp s
  | .gptpMessage port info t => Sys2Proof.Machine.execGptpMessage port info t s
  | .gptpUnlocked => Sys2Proof.Machine.execGptpUnlocked s
  | .trigger ep => Sys2Proof.Machine.execTrigger ep s
  | .sweepClose ep t => Sys2Proof.Machine.execSweepClose ep t s
  | .egoLate frame => Sys2Proof.Machine.execEgoLate frame s
  | .deskew ep => Sys2Proof.Machine.execDeskew ep s
  | .stripeDelivery ep view => Sys2Proof.Machine.execStripeDelivery ep view s
  | .zeroTensor ep t => Sys2Proof.Machine.execZeroTensor ep t s
  | .batchPoll group => Sys2Proof.Machine.execBatchPoll group s
  | .digestPoll group => Sys2Proof.Machine.execDigestPoll group s
  | .adaptLag group => Sys2Proof.Machine.execAdaptLag group s
  | .exportPoll port ch => Sys2Proof.Machine.execExportPoll port ch s
  | .bar2Read port offset len => Sys2Proof.Machine.execBar2Read port offset len s
  | .bar2Write port offset data => Sys2Proof.Machine.execBar2Write port offset data s
  | .heartbeatWrite port t => Sys2Proof.Machine.execHeartbeatWrite port t s
  | .heartbeatTimeout port t => Sys2Proof.Machine.execHeartbeatTimeout port t s
  | .perstAssert port => Sys2Proof.Machine.execPerstAssert port s
  | .dlDown port => Sys2Proof.Machine.execDlDown port s
  | .functionLevelReset port => Sys2Proof.Machine.execFunctionLevelReset port s
  | .busMasterEnableClear port => Sys2Proof.Machine.execBusMasterEnableClear port s
  | .pcieLinkUp port busMaster => Sys2Proof.Machine.execPcieLinkUp port busMaster s
  | .registerWrite port offset data hostData t => Sys2Proof.Machine.execRegisterWrite port offset data hostData t s
  | .dictionaryWrite iss index sub off data hostData t => Sys2Proof.Machine.execDictionaryWrite iss index sub off data hostData t s
  | .handleQuery iss handle => Sys2Proof.Machine.execHandleQuery iss handle s
  | .motionCommit iss t => Sys2Proof.Machine.execMotionCommit iss t s
  | .errorLogClear iss ctx sameBeat => Sys2Proof.Machine.execErrorLogClear iss ctx sameBeat s
  | .cleaningRequestAck iss ep sameBeat => Sys2Proof.Machine.execCleaningRequestAck iss ep sameBeat s
  | .enableSet iss ep => Sys2Proof.Machine.execEnableSet iss ep s
  | .enableClear iss ep => Sys2Proof.Machine.execEnableClear iss ep s
  | .go port => Sys2Proof.Machine.execGo port s
  | .emcyTransmit => Sys2Proof.Machine.execEmcyTransmit s
  | .producerHeartbeat => Sys2Proof.Machine.execProducerHeartbeat s
  | .canBusOff ctl => Sys2Proof.Machine.execCanBusOff ctl s
  | .busOffRecovery ctl => Sys2Proof.Machine.execBusOffRecovery ctl s
  | .nmtStart => Sys2Proof.Machine.execNmtStart s
  | .nmtStop => Sys2Proof.Machine.execNmtStop s
  | .nmtEnterPreOperational => Sys2Proof.Machine.execNmtEnterPreOperational s
  | .nmtResetNode => Sys2Proof.Machine.execNmtResetNode s
  | .nmtResetCommunication => Sys2Proof.Machine.execNmtResetCommunication s
  | .wakeCan => Sys2Proof.Machine.execWakeCan s
  | .wakeN => Sys2Proof.Machine.execWakeN s
  | .perstDeassert port => Sys2Proof.Machine.execPerstDeassert port s
  | .wakeTimer => Sys2Proof.Machine.execWakeTimer s
  | .lowPowerExit step t => Sys2Proof.Machine.execLowPowerExit step t s
  | .railFault group => Sys2Proof.Machine.execRailFault group s
  | .pmbAlert bed status => Sys2Proof.Machine.execPmbAlert bed status s
  | .flitRetryFailure link => Sys2Proof.Machine.execFlitRetryFailure link s
  | .frameSyncOutPulse => Sys2Proof.Machine.execFrameSyncOutPulse s
  | .syncInterval => Sys2Proof.Machine.execSyncInterval s
  | .poresetNRelease => Sys2Proof.Machine.execPoresetNRelease s
  | .vaonApplied => Sys2Proof.Machine.execVaonApplied s
  | .vaonRemoved => Sys2Proof.Machine.execVaonRemoved s
  | .temperatureRefresh temps => Sys2Proof.Machine.execTemperatureRefresh temps s

end Sys2Proof.Machine
end

