-- ==== Sys2Proof/Safety.lean ====
section
/-! DEFINITION. The terms in which statements about the block are made: what a command gives, which parts of the state
it leaves alone, when a command is accepted (R422) and when a stream can issue (R180), and the invariants of the state. -/

namespace Sys2Proof.Machine

/-! ### Outcomes and frames -/

/-- The command completes, and the next state is as `P` says. -/
def Gives (i : Instr) (s : State) (P : State → Prop) : Prop := ∃ t, exec i s = .next t ∧ P t

/-- The fields of State, for saying which ones a command leaves alone. -/
inductive Field where
  | pending | timeNs | sent | dict | mem | poison | ecc | hostMem | ringsOn | lpRings | freeIx | pairs | slots | splits
  | groups | accs | flags | overruns | windows | lastClose | closing | rounds | fabric | sputBad | late
  | timeouts | ctxs | waiting | clearing | fullNow | adapt | promotions | barred | handles | lastSlot | seqs
  | stateWait | portA | portB | emcy | busOffA | busOffB | busOffRecent | canParams | eps | life | unbound
  | announced | discards | eccFixed | skipped | dgramDrops | tables | meshBase | raw | views | sweeps
  | sweepsPrev | meshQueue | fetched | calib | lensMesh | motion | egoLate | triggers | gptpSync | ticked
  | tickPredicted | tickPrev | lockGood | frame | disagreements | logOpen | safeOk | faultN | poresetN
  | pwrEn | pwrGood | thermalHold | laterCauses | parts | devReset | devCause | devLater | aonLog | aonCodes
  | aonDict | resetCause | activity | lpFrom | wake | wakeMask | wakeTimer | lpExitBegun | lpRails | graceDue
  | lpStuck | testCap | rateAt | rateMark | slowHeld | fuses | fitted | safeState | romWait | bootDue
  | owedReset | romSource | bootDigest | imageLevel | imageRevoke | fuseBlowDue | trustKey | quotes
  | scrubPos | tempHeld | tempBelow | vset
  deriving DecidableEq, Repr

/-- Both states hold the same in a field. -/
def Field.same (f : Field) (s t : State) : Prop :=
  match f with
  | .pending => t.pending = s.pending
  | .timeNs => t.timeNs = s.timeNs
  | .sent => t.sent = s.sent
  | .dict => t.dict = s.dict
  | .mem => t.mem = s.mem
  | .poison => t.poison = s.poison
  | .ecc => t.ecc = s.ecc
  | .hostMem => t.hostMem = s.hostMem
  | .ringsOn => t.ringsOn = s.ringsOn
  | .lpRings => t.lpRings = s.lpRings
  | .freeIx => t.freeIx = s.freeIx
  | .pairs => t.pairs = s.pairs
  | .slots => t.slots = s.slots
  | .splits => t.splits = s.splits
  | .groups => t.groups = s.groups
  | .accs => t.accs = s.accs
  | .flags => t.flags = s.flags
  | .overruns => t.overruns = s.overruns
  | .windows => t.windows = s.windows
  | .lastClose => t.lastClose = s.lastClose
  | .closing => t.closing = s.closing
  | .rounds => t.rounds = s.rounds
  | .fabric => t.fabric = s.fabric
  | .sputBad => t.sputBad = s.sputBad
  | .late => t.late = s.late
  | .timeouts => t.timeouts = s.timeouts
  | .ctxs => t.ctxs = s.ctxs
  | .waiting => t.waiting = s.waiting
  | .clearing => t.clearing = s.clearing
  | .fullNow => t.fullNow = s.fullNow
  | .adapt => t.adapt = s.adapt
  | .promotions => t.promotions = s.promotions
  | .barred => t.barred = s.barred
  | .handles => t.handles = s.handles
  | .lastSlot => t.lastSlot = s.lastSlot
  | .seqs => t.seqs = s.seqs
  | .stateWait => t.stateWait = s.stateWait
  | .portA => t.portA = s.portA
  | .portB => t.portB = s.portB
  | .emcy => t.emcy = s.emcy
  | .busOffA => t.busOffA = s.busOffA
  | .busOffB => t.busOffB = s.busOffB
  | .busOffRecent => t.busOffRecent = s.busOffRecent
  | .canParams => t.canParams = s.canParams
  | .eps => t.eps = s.eps
  | .life => t.life = s.life
  | .unbound => t.unbound = s.unbound
  | .announced => t.announced = s.announced
  | .discards => t.discards = s.discards
  | .eccFixed => t.eccFixed = s.eccFixed
  | .skipped => t.skipped = s.skipped
  | .dgramDrops => t.dgramDrops = s.dgramDrops
  | .tables => t.tables = s.tables
  | .meshBase => t.meshBase = s.meshBase
  | .raw => t.raw = s.raw
  | .views => t.views = s.views
  | .sweeps => t.sweeps = s.sweeps
  | .sweepsPrev => t.sweepsPrev = s.sweepsPrev
  | .meshQueue => t.meshQueue = s.meshQueue
  | .fetched => t.fetched = s.fetched
  | .calib => t.calib = s.calib
  | .lensMesh => t.lensMesh = s.lensMesh
  | .motion => t.motion = s.motion
  | .egoLate => t.egoLate = s.egoLate
  | .triggers => t.triggers = s.triggers
  | .gptpSync => t.gptpSync = s.gptpSync
  | .ticked => t.ticked = s.ticked
  | .tickPredicted => t.tickPredicted = s.tickPredicted
  | .tickPrev => t.tickPrev = s.tickPrev
  | .lockGood => t.lockGood = s.lockGood
  | .frame => t.frame = s.frame
  | .disagreements => t.disagreements = s.disagreements
  | .logOpen => t.logOpen = s.logOpen
  | .safeOk => t.safeOk = s.safeOk
  | .faultN => t.faultN = s.faultN
  | .poresetN => t.poresetN = s.poresetN
  | .pwrEn => t.pwrEn = s.pwrEn
  | .pwrGood => t.pwrGood = s.pwrGood
  | .thermalHold => t.thermalHold = s.thermalHold
  | .laterCauses => t.laterCauses = s.laterCauses
  | .parts => t.parts = s.parts
  | .devReset => t.devReset = s.devReset
  | .devCause => t.devCause = s.devCause
  | .devLater => t.devLater = s.devLater
  | .aonLog => t.aonLog = s.aonLog
  | .aonCodes => t.aonCodes = s.aonCodes
  | .aonDict => t.aonDict = s.aonDict
  | .resetCause => t.resetCause = s.resetCause
  | .activity => t.activity = s.activity
  | .lpFrom => t.lpFrom = s.lpFrom
  | .wake => t.wake = s.wake
  | .wakeMask => t.wakeMask = s.wakeMask
  | .wakeTimer => t.wakeTimer = s.wakeTimer
  | .lpExitBegun => t.lpExitBegun = s.lpExitBegun
  | .lpRails => t.lpRails = s.lpRails
  | .graceDue => t.graceDue = s.graceDue
  | .lpStuck => t.lpStuck = s.lpStuck
  | .testCap => t.testCap = s.testCap
  | .rateAt => t.rateAt = s.rateAt
  | .rateMark => t.rateMark = s.rateMark
  | .slowHeld => t.slowHeld = s.slowHeld
  | .fuses => t.fuses = s.fuses
  | .fitted => t.fitted = s.fitted
  | .safeState => t.safeState = s.safeState
  | .romWait => t.romWait = s.romWait
  | .bootDue => t.bootDue = s.bootDue
  | .owedReset => t.owedReset = s.owedReset
  | .romSource => t.romSource = s.romSource
  | .bootDigest => t.bootDigest = s.bootDigest
  | .imageLevel => t.imageLevel = s.imageLevel
  | .imageRevoke => t.imageRevoke = s.imageRevoke
  | .fuseBlowDue => t.fuseBlowDue = s.fuseBlowDue
  | .trustKey => t.trustKey = s.trustKey
  | .quotes => t.quotes = s.quotes
  | .scrubPos => t.scrubPos = s.scrubPos
  | .tempHeld => t.tempHeld = s.tempHeld
  | .tempBelow => t.tempBelow = s.tempBelow
  | .vset => t.vset = s.vset

/-- Every field outside the list is as it was. -/
def SameBut (l : List Field) (s t : State) : Prop := ∀ f : Field, f ∉ l → f.same s t

/-- Every dictionary entry outside the list (index, sub-index) reads as it did. -/
def DictBut (l : List (Nat × Nat)) (s t : State) : Prop :=
  ∀ index sub, sub < 256 → (index, sub) ∉ l → t.dget index sub = s.dget index sub

/-- Every byte of memory outside the `n` bytes from `a` up reads as it did. -/
def MemBut (a n : Nat) (s t : State) : Prop := ∀ b, b < a ∨ a + n ≤ b → t.byteAt b = s.byteAt b

/-! ### Commands (R418–R424) -/

/-- The command reaches the device, finds a slot (R420) and passes the checks of R422; `r` is its slot, and `u` the state
with the slot taken. -/
def Accepted (iss : Issuer) (needAdmit : Bool) (who : Who) (states : List Nat) (paramsOk : Bool) (s : State)
    (r : HRef) (u : State) : Prop :=
  s.asleep = false ∧ (iss = .can → s.devForWrites ≠ dsStopped) ∧
    s.fresh.takeHandle (issIx iss) = (some r, u) ∧ u.cmdCheck r.1 needAdmit who states paramsOk = none

/-- The slot's command is complete with a code (R423). -/
def Completed (r : HRef) (code : Nat) (t : State) : Prop := (t.hslot r).st = 3 ∧ (t.hslot r).code = code

/-- The fields that taking a slot and completing a command change (R419, R423, R424). -/
def commandFields : List Field := [.handles, .lastSlot, .seqs, .dict, .sent, .hostMem, .portA, .portB]

/-- The dictionary entries that a command of an issuer changes beside its own effect: its handle word and code, and the
count of records discarded for a lost host (R420, R425). -/
def commandEntries (iss : Issuer) : List (Nat × Nat) :=
  [(0x5000 + issIx iss, 0x07), (0x5000 + issIx iss, 0x08), (0x2500, 0x32)]

/-- The fields and entries that a report changes: the event log, its counts, and the EMCY queue with its error register
(R369, R412); its bytes are the 256 KiB of the log. -/
def logFields : List Field := [.mem, .logOpen, .emcy, .dict]
def logEntries : List (Nat × Nat) :=
  [(0x2800, 0x01), (0x2800, 0x02), (0x2800, 0x03), (0x2800, 0x04), (0x2800, 0x05), (0x1001, 0), (0x2500, 0x4E)]

/-- Every entry of an object. -/
def objectEntries (index : Nat) : List (Nat × Nat) := (List.range 256).map (fun b => (index, b))

/-- Memory outside the event log reads as it did. -/
def LogOnly (s t : State) : Prop := MemBut logBaseAddr 0x40000 s t

/-- What reaches the device: nothing in SLEEP, and nothing over CAN in STOPPED (R414, R461). -/
def Reaches (iss : Issuer) (s : State) : Prop := s.asleep = false ∧ (iss = .can → s.devForWrites ≠ dsStopped)

/-- No head waits for the device's challenge (R51). -/
def State.noneWaits (s : State) : Prop := ∀ f < 192, (s.ep f).disc ≠ .challengeWait

/-- A dictionary entry whose write has no effect but its new value. -/
def plainEntry (index sub : Nat) : Bool :=
  !((0x5000 ≤ index && index ≤ 0x5002 && sub == 6) || (0x2600 ≤ index && index < 0x2640 && sub == 0x35)
    || (index == 0x2400 && sub == 0x17) || (0x2200 ≤ index && index < 0x22C0 && ((1 ≤ sub && sub ≤ 7) || sub == 0x1A))
    || (0x2600 ≤ index && index < 0x2640 && 0x10 ≤ sub && sub ≤ 0x13)
    || index == 0x5100 || (index == 0x2401 && (sub == 1 || sub == 2 || sub == 4)) || index == 0x1301 || index == 0x13FF
    || (index == 0x2100 && (decide (sub ≤ 5) || sub == 0x0F)))

/-! ### Stream issue (R180, R184–R189, R207) -/

/-- The stream stands at a legal instruction of the opcode, its fetch finds no error, its wait is met, its flags and queues are
its own; `z` is where it stands. -/
def Issues (s : State) (c q : Nat) (st : StreamId) (op : Nat) (z : Site) : Prop :=
  s.fresh.site c q st = some z ∧ s.fresh.fetchErrors z = (false, s.fresh) ∧ z.i.op = op ∧ z.i.illegal st = none ∧
    s.waitMet z = true ∧ s.commonChecks z = []

/-- The stream past the instruction, with its position and count moved on (R199, R204). -/
def Site.after (z : Site) (s : State) : Strm := z.t.passed z.len z.i.span (s.markOf z)

/-- A stream is as told, or stopped beside it where its context is stopping at the marks (R199). -/
def StrmKept (stopping : Bool) (t u : Strm) : Prop := t = u ∨ (stopping = true ∧ t = { u with stopped := true })

/-- A stream pair is as it was, but that its streams may have stopped at the marks. -/
def PairKept (stopping : Bool) (t u : Pair) : Prop :=
  t = { u with sa := t.sa, sx := t.sx } ∧ StrmKept stopping t.sa u.sa ∧ StrmKept stopping t.sx u.sx

/-- Whether a context is stopping at the marks (R201). -/
def State.stopping (s : State) (k : Nat) : Bool := s.cget k 0x40 == 1

/-- What an issue leaves alone: all fields but these, the dictionary but the stop state and the entries named, other stream
pairs, the pair's queues, its other stream, every flag but those named, and other contexts. -/
structure IssueFrame (s t : State) (c q : Nat) (z : Site) (fields : List Field) (entries : List (Nat × Nat)) (flags : List Nat) :
    Prop where
  fields : SameBut ([.sent, .pairs, .flags, .dict, .ctxs] ++ fields) s t
  entries : DictBut ((0x2600 + z.k, 0x40) :: entries) s t
  pairs : ∀ n, n ≠ pairKey c q → PairKept (t.stopping z.k) (KV.get Pair.zero t.pairs n) (KV.get Pair.zero s.pairs n)
  other : ∀ st, st ≠ z.st → StrmKept (t.stopping z.k) (t.strm c q st) (s.strm c q st)
  queues : ∀ n, (t.pair c q).oq n = (s.pair c q).oq n ∧ (t.pair c q).rq n = (s.pair c q).rq n
  flags : ∀ n, (∀ f ∈ flags, n ≠ flagKey c f) → KV.get false t.flags n = KV.get false s.flags n
  ctxs : ∀ j, j ≠ z.k → t.ctx j = s.ctx j

/-- The flag that the wait of an instruction clears (R207). -/
def Site.waitClears (z : Site) : List Nat := if z.i.waitKind = 2 then [z.i.waitFlag] else []

/-- A control instruction is complete as it issues: the stream holds `r`, and the operation retires at once, or waits behind
the unfinished ones before it (R185). -/
def ControlIssued (s t : State) (c q : Nat) (z : Site) (r : Strm) : Prop :=
  (z.t.ops = [] ∨ ∃ o rest, z.t.ops = o :: rest ∧ o.complete = false) →
    StrmKept (t.stopping z.k) (t.strm c q z.st) { r with
      ops := if z.t.ops = [] then [] else z.t.ops ++ [{ z.op z.t.nextSeq with ran := true, complete := true }]
      nextSeq := z.t.nextSeq + 1 } ∧
    IssueFrame s t c q z [.overruns] [(0x2600 + z.k, 0x37)] z.i.flags

/-- An operation joins the issued ones of its stream, which moves on. -/
def OpIssued (s t : State) (c q : Nat) (z : Site) (o : Op) : Prop :=
  StrmKept (t.stopping z.k) (t.strm c q z.st) { z.after s with ops := z.t.ops ++ [o], nextSeq := z.t.nextSeq + 1 }

/-- An instruction whose wait is met holds on its unit: the wait is over, a wait-clear has cleared its flag, and nothing else changes but
that a stream may stop at the marks (R184, R199, R207). -/
def Holds (s t : State) (c q : Nat) (z : Site) : Prop :=
  StrmKept (t.stopping z.k) (t.strm c q z.st) { z.t with waited := z.t.waited || z.i.waitKind != 0 } ∧
    (z.t.waited = false → z.i.waitKind = 2 → t.flag c z.i.waitFlag = false) ∧
    (∀ n, n ≠ pairKey c q → PairKept (t.stopping z.k) (KV.get Pair.zero t.pairs n) (KV.get Pair.zero s.pairs n)) ∧
    (∀ n, (∀ f ∈ z.waitClears, n ≠ flagKey c f) → KV.get false t.flags n = KV.get false s.flags n) ∧
    SameBut [.sent, .pairs, .flags] s t

/-! ### Invariants -/

/-- Both memories are in their canonical form. -/
def State.memWf (s : State) : Prop := KV.wf memDefault s.mem = true ∧ KV.wf memDefault s.hostMem = true

/-- What every command and every idle step keeps: memory's canonical form, the queue's rest, the time base running
forward (R45), and blown fuses (R447). -/
structure Kept (s t : State) : Prop where
  memWf : s.memWf → t.memWf
  pending : t.pending = s.pending
  time : s.timeNs ≤ t.timeNs
  fuses : s.fuses &&& t.fuses = s.fuses

end Sys2Proof.Machine
end

