-- ==== Sys2Proof/Certificates/Slice0/Obligations.lean ====
section
/-! DEFINITION. The statements about the block. In them `u` is the state an accepted command starts from, its slot taken
(see `Accepted`), and `t` the next state. -/

open Sys2Proof Sys2Proof.Machine

/-- A step runs the command at the front of the queue; an empty queue lets a nanosecond pass -/
def Obligations.StepRunsFrontCommand : Prop :=
  (∀ (c : Instr) (rest : List Instr) (s : State), s.pending = c :: rest → step s = exec c { s with pending := rest }) ∧
  (∀ s : State, s.pending = [] → ∃ t, step s = .next t ∧ t.timeNs = s.timeNs + 1 ∧ t.sent = [] ∧
    SameBut [.timeNs, .sent, .dict, .ctxs, .pairs, .rateAt, .rateMark, .slowHeld] s t ∧
    DictBut ((List.range 10).map (fun i => (0x2900, 0x07 + i)) ++ [(0x2900, 0x15)] ++
      allCtx.flatMap (fun k => [(0x2600 + k, 0x40), (0x2600 + k, 0x83), (0x2600 + k, 0x87)])) s t)

/-- The state when VAON is applied -/
def Obligations.ResetLeavesTheStatedValues : Prop :=
  State.reset.dev = dsInit ∧ State.reset.safeOk = false ∧ State.reset.faultN = false ∧ State.reset.pwrEn = 0xFF ∧
    State.reset.ringsOn = 0 ∧ (∀ k < 64, State.reset.cstate k = csFree) ∧ (∀ e < 192, State.reset.eget e 0x15 = 0) ∧
    State.reset.hostState 0 = 0 ∧ State.reset.hostState 1 = 0 ∧ State.reset.outSet = 0 ∧ State.reset.dget 0x2700 0x04 = 0 ∧
    State.reset.safeState = 0

/-- The memory and the queue at reset -/
def Obligations.ResetMemoryIsCanonical : Prop :=
  State.reset.memWf ∧ (∀ a, State.reset.byteAt a = 0) ∧ State.reset.poison = [] ∧ State.reset.pending = []

/-- Every step keeps device memory and host memory in canonical form -/
def Obligations.StepKeepsMemoryCanonical : Prop :=
  ∀ s t : State, s.memWf → step s = .next t → t.memWf

/-- No command touches the queue, turns the time base back, or clears a fuse -/
def Obligations.CommandsKeepQueueTimeAndFuses : Prop :=
  ∀ (c : Instr) (s t : State), exec c s = .next t →
    t.pending = s.pending ∧ s.timeNs ≤ t.timeNs ∧ s.fuses &&& t.fuses = s.fuses

/-- What an execute takes: the first free slot at or after the slot taken last -/
def Obligations.ExecuteTakesTheFirstFreeSlot : Prop :=
  ∀ (s : State) (i : Nat), i < 3 →
    (∀ (r : HRef) (u : State), s.takeHandle i = (some r, u) →
      ∃ d < 256, r = (i, (KV.get 0 s.lastSlot i + d) % 256) ∧ (s.hslot r).st ≠ 2 ∧
        (∀ e < d, (s.hslot (i, (KV.get 0 s.lastSlot i + e) % 256)).st = 2) ∧
        (u.hslot r).st = 2 ∧ u.dget (0x5000 + i) 0x07 = (u.hslot r).handle.toNat ∧ u.dget (0x5000 + i) 0x08 = 0 ∧
        KV.get 0 u.lastSlot i = r.2 ∧ (∀ j k, j < 3 → k < 256 → (j, k) ≠ r → u.hslot (j, k) = s.hslot (j, k))) ∧
    (∀ u : State, s.takeHandle i = (none, u) →
      (∀ k < 256, (s.hslot (i, k)).st = 2) ∧ u.dget (0x5000 + i) 0x07 = 0 ∧ u.dget (0x5000 + i) 0x08 = 0x0003 ∧
        SameBut [.dict, .mem, .logOpen] s u ∧ LogOnly s u ∧
        DictBut [(0x5000 + i, 0x07), (0x5000 + i, 0x08), (0x2800, 0x01), (0x2800, 0x02), (0x2800, 0x03), (0x2800, 0x04), (0x2800, 0x05), (0x1001, 0)] s u) ∧
    (∀ (r : HRef) (code result : Nat), ((s.complete r code result).hslot r).st = 3)

/-- A command that a check of R422 refuses: its code, and nothing but the handle, the log and their counters -/
def Obligations.RefusalChangesOnlyHandleAndLog : Prop :=
  (∀ (iss : Issuer) (na : Bool) (who : Who) (st : List Nat) (ok : Bool) (body : HRef → State → State) (s u : State) (r : HRef)
      (code : Nat), s.asleep = false → (iss = .can → s.devForWrites ≠ dsStopped) →
      s.takeHandle (issIx iss) = (some r, u) → u.cmdCheck r.1 na who st ok = some code →
      Completed r code (runCommand iss na who st ok body s) ∧ code < 0x100 ∧
        SameBut (.mem :: .logOpen :: commandFields) s (runCommand iss na who st ok body s) ∧
        LogOnly s (runCommand iss na who st ok body s) ∧
        DictBut ([(0x2800, 0x01), (0x2800, 0x02), (0x2800, 0x03), (0x2800, 0x04), (0x2800, 0x05), (0x1001, 0)] ++ commandEntries iss) s
          (runCommand iss na who st ok body s)) ∧
  (∀ (s : State) (i : Nat) (na : Bool) (who : Who) (st : List Nat) (ok : Bool),
    (s.cmdCheck i na who st ok = some HOST_NOT_ADMITTED ↔ na = true ∧ i < 2 ∧ s.admitted i = false) ∧
    ((na = true → i < 2 → s.admitted i = true) →
      (s.cmdCheck i na who st ok = some NOT_OWNER ↔ s.mayIssue i who = false) ∧
      (s.mayIssue i who = true →
        (s.cmdCheck i na who st ok = some STATE_CONFLICT ↔ s.dev ∉ st ∨ ∃ k, who = .creator k ∧ k < 64 ∧ s.cstate k = csFree) ∧
        (s.dev ∈ st → (∀ k, who = .creator k → k < 64 → s.cstate k ≠ csFree) →
          s.cmdCheck i na who st ok = if ok then none else some CMD_PARAM))))

/-- NOP completes with success and changes nothing else; HOST_ATTACH admits the host and starts its log anew -/
def Obligations.NopAndAttachComplete : Prop :=
  ∀ (iss : Issuer) (s u : State) (r : HRef),
    (Accepted iss true .any stAll true s r u →
      Gives (.nopCommand iss) s fun t => Completed r 0 t ∧ SameBut commandFields s t ∧ DictBut (commandEntries iss) s t) ∧
    (Accepted iss false .hosts stAll true s r u → (u.port (portOf r.1)).attachOk = true →
      Gives (.hostAttach iss) s fun t => Completed r 0 t ∧ t.admitted r.1 = true ∧
        (t.port (portOf r.1)).ringSize = (u.port (portOf r.1)).logSize.toNat ∧
        (t.port (portOf r.1)).ringBase = (u.port (portOf r.1)).logBase.toNat / 4096 * 4096 ∧
        (t.port (portOf r.1)).heartbeat = s.timeNs ∧ r.1 ∉ t.owedReset ∧
        SameBut (.owedReset :: commandFields) s t ∧ DictBut ((0x2500, 0x41 + r.1) :: commandEntries iss) s t)

/-- STATE: the table of R415, and where it waits for the tick -/
def Obligations.StateCommandsFollowTheTable : Prop :=
  ∀ (iss : Issuer) (s u : State) (r : HRef), Accepted iss true .conf stPOSM true s r u →
    (u.dev = dsMaint ∧ u.activity.isSome = true →
      Gives (.statePreOperational iss) s fun t => Completed r MAINT_BUSY t ∧ t.dev = dsMaint) ∧
    (¬ (u.dev = dsMaint ∧ u.activity.isSome = true) →
      Gives (.statePreOperational iss) s fun t => Completed r 0 t ∧ t.dev = dsPreOp ∧
        (s.dev = dsPreOp → SameBut commandFields s t ∧ DictBut (commandEntries iss) s t) ∧
        (s.dev = dsStopped → s.stateWait = none →
          SameBut (.safeOk :: commandFields) s t ∧ DictBut ((0x2500, 0x40) :: commandEntries iss) s t)) ∧
    (u.dev = dsMaint → Gives (.stateStopped iss) s fun t => Completed r STATE_CONFLICT t ∧ t.dev = dsMaint) ∧
    (u.dev ≠ dsMaint →
      Gives (.stateStopped iss) s fun t => Completed r 0 t ∧ t.dev = dsStopped ∧
        (s.dev = dsStopped → SameBut commandFields s t ∧ DictBut (commandEntries iss) s t) ∧
        (s.dev = dsPreOp → s.stateWait = none → t.safeOk = false ∧
          SameBut (.safeOk :: commandFields) s t ∧ DictBut ((0x2500, 0x40) :: commandEntries iss) s t)) ∧
    (u.dev = dsOp ∨ u.dev = dsStopped →
      Gives (.stateMaintenance iss) s fun t => Completed r STATE_CONFLICT t ∧ t.dev = u.dev) ∧
    (u.dev = dsPreOp ∨ u.dev = dsMaint →
      Gives (.stateMaintenance iss) s fun t => Completed r 0 t ∧ t.dev = dsMaint ∧
        (s.stateWait = none →
          SameBut (.safeOk :: commandFields) s t ∧ DictBut ((0x2500, 0x40) :: commandEntries iss) s t)) ∧
    (u.dev = dsMaint → Gives (.stateOperational iss) s fun t => Completed r STATE_CONFLICT t ∧ t.dev = dsMaint) ∧
    (u.dev = dsOp → Gives (.stateOperational iss) s fun t => Completed r 0 t ∧ t.dev = dsOp ∧
      SameBut commandFields s t ∧ DictBut (commandEntries iss) s t) ∧
    (u.dev = dsPreOp ∨ u.dev = dsStopped → u.opFailure r.1 = none →
      Gives (.stateOperational iss) s fun t => t.dev = u.dev ∧ t.stateWait = some (u.stateWait.getD [] ++ [r]) ∧
        (t.hslot r).st = 2 ∧ SameBut (.stateWait :: commandFields) s t ∧ DictBut (commandEntries iss) s t)

/-- NMT on CAN-A: the three state commands, and the two resets -/
def Obligations.NmtMovesTheStateWithoutAHandle : Prop :=
  ∀ s : State, s.asleep = false → s.inConf 2 = true →
    (s.dev = dsPreOp ∨ s.dev = dsStopped → s.fresh.opFailure 2 = none →
      Gives .nmtStart s fun t => t.stateWait = some (s.stateWait.getD []) ∧ t.dev = s.dev ∧
        SameBut [.sent, .stateWait] s t) ∧
    (s.dev = dsPreOp ∨ s.dev = dsOp ∨ s.dev = dsStopped → Gives .nmtStop s fun t => t.dev = dsStopped) ∧
    (s.dev = dsPreOp ∨ s.dev = dsOp ∨ s.dev = dsStopped ∨ (s.dev = dsMaint ∧ s.activity = none) →
      Gives .nmtEnterPreOperational s fun t => t.dev = dsPreOp) ∧
    (s.dev ≠ dsInit → s.dev ≠ dsRecovering → s.busOffA = false → ∀ c, c = .nmtResetNode ∨ c = .nmtResetCommunication →
      Gives c s fun t => t.canParams = [s.dget 0x2500 0x4A, s.dget 0x2500 0x4B, s.dget 0x2500 0x4C, s.dget 0x2500 0x4D] ∧
        Message.can .canA (CanFrame.mk (0x700 + s.dget 0x2500 0x4A) [0]) ∈ t.sent ∧ t.dev = s.dev ∧ t.devReset = s.devReset ∧
        t.dget 0x2500 0x47 = (if 255 ≤ s.dget 0x2500 0x47 then 1 else s.dget 0x2500 0x47 + 1) ∧
        SameBut [.sent, .canParams, .dict] s t ∧ DictBut [(0x2500, 0x47)] s t)

/-- Heartbeats, EMCY transmission, bus-off and its recovery -/
def Obligations.BusFramesAndBusOff : Prop :=
  ∀ s : State,
    (s.asleep = false → s.dget 0x1017 0 ≠ 0 → s.busOffA = false → s.busOffB = false →
      Gives .producerHeartbeat s fun t => SameBut [.sent] s t ∧
        t.sent = [.can .canA (CanFrame.mk (0x700 + s.canParam 0) [nmtByte s.devForWrites]),
                  .can .canB (CanFrame.mk (0x700 + s.canParam 2) [nmtByte s.devForWrites])]) ∧
    (∀ (f : CanFrame) (rest : List CanFrame), s.emcy = f :: rest → s.busOffA = false → s.asleep = false →
      s.devForWrites ≠ dsStopped →
      Gives .emcyTransmit s fun t => t.emcy = rest ∧ t.sent = [.can .canA f] ∧ SameBut [.sent, .emcy] s t) ∧
    (s.busOffA = false → Gives (.canBusOff .canA) s fun t => t.busOffA = true ∧ t.busOffRecent = true ∧ t.busOffB = s.busOffB ∧
      SameBut ([.sent, .busOffA, .busOffRecent] ++ logFields) s t ∧ DictBut logEntries s t ∧ LogOnly s t) ∧
    (s.busOffB = false → Gives (.canBusOff .canB) s fun t => t.busOffB = true ∧ t.busOffRecent = true ∧ t.busOffA = s.busOffA ∧
      SameBut ([.sent, .busOffB, .busOffRecent] ++ logFields) s t ∧ DictBut logEntries s t ∧ LogOnly s t) ∧
    (Gives (.busOffRecovery .canA) s fun t => t.busOffA = false ∧ SameBut [.sent, .busOffA] s t) ∧
    (Gives (.busOffRecovery .canB) s fun t => t.busOffB = false ∧ SameBut [.sent, .busOffB] s t)

/-- POWER: entry to IDLE, STANDBY and SLEEP, and the exit as a wake event -/
def Obligations.PowerCommandsEnterAndExit : Prop :=
  ∀ (iss : Issuer) (s u : State) (r : HRef),
    (Accepted iss true .conf stPS true s r u →
      (∀ c lvl, (c, lvl) ∈ [(Instr.powerIdle iss, 1), (Instr.powerStandby iss, 2), (Instr.powerSleep iss, 3)] →
        (u.lpRefused lvl = true → Gives c s fun t => Completed r STATE_CONFLICT t ∧ t.dev = s.dev) ∧
        (u.lpRefused lvl = false → Gives c s fun t => t.dev = dsLowPower ∧ t.dget 0x2100 1 = lvl ∧ t.lpFrom = s.dev ∧
          t.wake = none ∧ t.safeOk = false)) ∧
      (u.lpRefused 1 = false → Gives (.powerIdle iss) s fun t => Completed r 0 t ∧ t.ringsOn = 0 ∧ t.lpRings = s.ringsOn ∧
        SameBut ([.ringsOn, .lpRings, .safeOk, .lpFrom, .wakeMask, .wakeTimer, .wake, .lpExitBegun, .lpRails, .lpStuck] ++ commandFields) s t ∧
        DictBut ([(0x2500, 0x40), (0x2100, 1)] ++ commandEntries iss) s t) ∧
      (u.lpRefused 2 = false → Gives (.powerStandby iss) s fun t => Completed r 0 t ∧ t.faultN = false ∧
        t.ringsOn = s.ringsOn &&& 0x10 ∧ t.pwrEn = s.pwrEn &&& 0xE0) ∧
      (u.lpRefused 3 = false → Gives (.powerSleep iss) s fun t => t.faultN = false ∧ t.ringsOn = 0 ∧ t.pwrEn = 0 ∧ t.mem = [] ∧
        t.ctxs = [] ∧ t.eps = [] ∧ t.fuses = s.fuses ∧ t.life = s.life)) ∧
    (Accepted iss true .conf [dsLowPower] true s r u → s.wake = none → s.lpExitBegun = false →
      Gives (.powerExit iss) s fun t => Completed r 0 t ∧ t.wake = some 0 ∧ t.dget 0x2100 0x14 = 0 ∧
        SameBut (.wake :: commandFields) s t ∧ DictBut ((0x2100, 0x14) :: commandEntries iss) s t)

/-- Wake events latch once, and the exit runs through its steps to RUN -/
def Obligations.WakeSourcesLatchAndExitsProceed : Prop :=
  ∀ s : State,
    (s.dev = dsLowPower → s.wake = none → s.lpExitBegun = false →
      (∀ c b, (c, b) ∈ [(Instr.wakeCan, 0), (Instr.wakeN, 1), (Instr.perstDeassert .a, 2), (Instr.perstDeassert .b, 2)] →
        s.wakeMask.getLsbD b = true →
        Gives c s fun t => t.wake = some (b + 1) ∧ t.dget 0x2100 0x14 = b + 1 ∧
          SameBut [.sent, .wake, .dict, .portA, .portB] s t ∧ DictBut [(0x2100, 0x14)] s t) ∧
      (s.wakeMask.getLsbD 3 = true → s.wakeTimer ≠ 0 →
        Gives .wakeTimer s fun t => t.wake = some 4 ∧ t.dget 0x2100 0x14 = 4 ∧ SameBut [.sent, .wake, .dict] s t)) ∧
    (∀ c b, (c, b) ∈ [(Instr.wakeCan, 0), (Instr.wakeN, 1), (Instr.perstDeassert .a, 2), (Instr.perstDeassert .b, 2), (Instr.wakeTimer, 3)] →
      s.dev ≠ dsLowPower ∨ s.wake ≠ none ∨ s.lpExitBegun = true ∨ s.wakeMask.getLsbD b = false ∨ (c = .wakeTimer ∧ s.wakeTimer = 0) →
      Gives c s fun t => SameBut [.sent, .portA, .portB] s t ∧ (b ≠ 2 → t.portA = s.portA ∧ t.portB = s.portB)) ∧
    (∀ port : HostPort, Gives (.perstDeassert port) s fun t => t.port port = { s.port port with perst := false }) ∧
    (∀ (x : ExitStep) (n : Nat), s.dev ≠ dsLowPower ∨ s.wake = none ∨ s.lpStuck = true →
      Gives (.lowPowerExit x n) s fun t => SameBut [.sent, .timeNs] s t) ∧
    (s.dev = dsLowPower → s.wake ≠ none → s.lpStuck = false → ∀ n : Nat,
      (s.power = 1 → s.lpExitBegun = false → Gives (.lowPowerExit .begin n) s fun t => t.dev = s.lpFrom ∧ t.wake = none ∧
        (s.graceDue = [] → t.ringsOn = s.lpRings)) ∧
      (2 ≤ s.power → s.lpExitBegun = false → Gives (.lowPowerExit .begin n) s fun t => t.lpExitBegun = true ∧ t.pwrEn = 0xFF ∧
        SameBut [.sent, .timeNs, .lpExitBegun, .pwrEn] s t) ∧
      (s.power = 2 → s.lpExitBegun = true → s.lpRails = false → Gives (.lowPowerExit .rails n) s fun t =>
        t.lpRails = true ∧ t.pwrGood = 0xFF ∧ ∀ c < 8, ∀ w < spmWords, t.spm c w = 0) ∧
      (s.power = 3 → s.lpExitBegun = true → s.lpRails = false → Gives (.lowPowerExit .rails n) s fun t =>
        t.lpRails = true ∧ t.pwrGood = 0xFF ∧ t.bootDue = true ∧ SameBut [.sent, .timeNs, .lpRails, .pwrGood, .bootDue] s t) ∧
      (s.power = 3 → s.lpRails = true → s.bootDue = false → s.romWait = false → Gives (.lowPowerExit .finish n) s fun t =>
        t.dev = dsPreOp ∧ t.wake = none ∧ t.ringsOn = 0x1F) ∧
      (s.power = 2 → s.lpRails = true → Gives (.lowPowerExit .finish n) s fun t => t.dev = s.lpFrom ∧ t.wake = none))

/-- PORESET_N, the thermal trip and VAON: the safe state, and a device reset from step 1 -/
def Obligations.ResetPinsAndThermalTrip : Prop :=
  ∀ s : State,
    (∀ c, c = .poresetN ∨ c = .thermalTrip → Gives c s fun t =>
      t.devReset = 1 ∧ t.dev = dsInit ∧ t.safeOk = false ∧ t.faultN = false ∧ t.pwrEn = 0xFF ∧ t.aonLog = [] ∧
        (s.safeState ≤ 2 → t.safeState = 2) ∧ (s.safeState ≤ 1 → t.dget 0x2700 0x04 = 2) ∧ (c = .poresetN → t.poresetN = false) ∧
        (c = .thermalTrip → t.thermalHold = true ∧ 0x5012 ∈ t.aonCodes ∧ t.poresetN = s.poresetN)) ∧
    (Gives .thermalRelease s fun t => t.thermalHold = false ∧ SameBut [.sent, .thermalHold] s t) ∧
    (s.pwrEn ≠ 0 ∨ s.dev = dsLowPower → Gives .poresetNRelease s fun t => t.poresetN = true ∧ SameBut [.sent, .poresetN] s t) ∧
    (Gives .vaonApplied s fun t => t.fuses = s.fuses ∧ t.pending = s.pending ∧
      SameBut [.pending, .timeNs, .hostMem, .freeIx, .fuses] State.reset t) ∧
    (Gives .vaonRemoved s fun t => t.fuses = s.fuses ∧ t.pending = s.pending ∧ t.pwrEn = 0 ∧
      SameBut [.pending, .timeNs, .hostMem, .freeIx, .fuses, .pwrEn] State.reset t)

/-- DEVICE_RESET completes at acceptance and starts a device reset; a second cause is only counted -/
def Obligations.DeviceResetCommandBeginsARecovery : Prop :=
  ∀ (iss : Issuer) (s u : State) (r : HRef), Accepted iss true .confHosts stAll true s r u →
    (s.devReset = 0 → Gives (.deviceReset iss) s fun t => Completed r 0 t ∧ t.devReset = 1 ∧ t.devCause = 0x504B ∧
      t.resetCause = r.1 ∧ t.dev = dsRecovering ∧ t.safeOk = false ∧ t.faultN = false ∧ t.pwrEn = 0xFF ∧ t.activity = none ∧
      t.wake = none ∧ t.dget 0x2500 0x0E = (s.dget 0x2500 0x0E + 1) % 2 ^ 32 ∧
      SameBut ([.safeOk, .faultN, .devReset, .devCause, .resetCause, .activity, .pwrEn, .testCap, .wake, .lpExitBegun, .lpRails, .lpStuck,
        .bootDue, .aonLog] ++ commandFields) s t ∧
      DictBut ([(0x2500, 0x0E), (0x2500, 0x40), (0x2100, 1)] ++ commandEntries iss) s t) ∧
    (s.devReset ≠ 0 → Gives (.deviceReset iss) s fun t => Completed r 0 t ∧ t.devReset = s.devReset ∧
      t.devLater = s.devLater + 1 ∧
      (s.devReset < 4 → t.aonCodes = s.aonCodes ++ [0x504B] ∧
        SameBut ([.devLater, .aonCodes] ++ commandFields) s t ∧ DictBut (commandEntries iss) s t) ∧
      (4 ≤ s.devReset → t.dget 0x2800 0x03 = (s.dget 0x2800 0x03 + 1) % 2 ^ 32 ∧
        SameBut (.devLater :: logFields ++ commandFields) s t ∧ LogOnly s t ∧ DictBut (logEntries ++ commandEntries iss) s t))

/-- The steps of a device reset: record, hold, boot, self-test, DRAM, clear -/
def Obligations.DeviceResetStepsInOrder : Prop :=
  ∀ (s : State) (n : Nat),
    (s.devReset = 1 → Gives (.deviceResetSequence .record n) s fun t => t.devReset = 2 ∧ SameBut [.sent, .timeNs, .devReset] s t) ∧
    (s.devReset = 2 → Gives (.deviceResetSequence .resetHold n) s fun t => t.devReset = 3 ∧ t.mem = [] ∧ t.ctxs = [] ∧ t.eps = [] ∧
      t.handles = [] ∧ t.activity = none ∧ t.ringsOn = 0 ∧ t.fuses = s.fuses ∧ t.life = s.life ∧ t.aonLog = s.aonLog ∧ t.dev = s.dev ∧
      (∀ i < 3, t.dget 0x2500 (0x45 + i) = nextGen (s.dget 0x2500 (0x45 + i)))) ∧
    (∀ flash : List Byte, s.devReset = 3 → s.poresetN = true → s.thermalHold = false → s.romWait = false → flash ≠ [] →
      (s.bootCode flash = none → Gives (.deviceResetSequence (.boot flash) n) s fun t => t.devReset = 4 ∧ t.dev = dsRecovering ∧
        t.ringsOn = 0x10 ∧ t.romSource = 0 ∧ t.dget 0x2000 0x05 = fieldAt flash 8 4 ∧ t.aonCodes = [] ∧ t.aonLog = []) ∧
      (∀ c, s.bootCode flash = some c → Gives (.deviceResetSequence (.boot flash) n) s fun t => t.romWait = true ∧
        t.aonCodes = s.aonCodes ++ [c] ∧ SameBut [.sent, .timeNs, .romWait, .aonCodes, .trustKey] s t)) ∧
    (∀ flash : List Byte, s.poresetN = false ∨ s.thermalHold = true →
      Gives (.deviceResetSequence (.boot flash) n) s fun t => SameBut [.sent, .timeNs] s t) ∧
    (∀ (ok : List Bool) (links : List LinkTrain), s.devReset = 4 → Gives (.deviceResetSequence (.selfTest ok links) n) s fun t =>
      t.devReset = 5 ∧ ∀ p < 4, nth true ok p = false → t.isFenced p = true ∧ t.pstate p = psOut) ∧
    (∀ (ok : List Bool) (rate : DramRate) (fitted : DramSize), s.devReset = 5 → Gives (.deviceResetSequence (.dram ok rate fitted) n) s fun t =>
      t.devReset = 6 ∧ t.dget 0x2500 0x22 = rate.mts ∧ t.dget 0x2500 0x23 = fitted.gib ∧ t.usable = fitted.gib * 0x40000000 * 7 / 8) ∧
    (s.devReset = 6 → Gives (.deviceResetSequence .clear n) s fun t => t.devReset = 0 ∧ t.dev = dsPreOp ∧
      t.dget 0x2500 0x0D = s.devCause ∧ t.dget 0x2700 0x1B = 0xFF ∧ ∀ a p, p < 4 → s.regionOf a = .dram p → t.byteAt a = 0)

/-- PARTITION_RESET, PARTITION_OUT and PARTITION_IN -/
def Obligations.PartitionCommandsFenceAndReset : Prop :=
  ∀ (iss : Issuer) (p0 : BitVec 64) (s u : State) (r : HRef), Accepted iss true .confHosts stPOM (partOk p0) s r u →
    let p := p0.toNat
    let starts (t : State) : Prop := (t.part p).resetStep = 1 ∧ (t.part p).fenced = true ∧ r ∈ (t.part p).handles ∧
      (t.part p).cause = 0x504B ∧ t.pstate p = psResetting ∧ bitAt t.outSet p = true
    let plain (t : State) : Prop := Completed r 0 t ∧ SameBut commandFields s t ∧ DictBut (commandEntries iss) s t
    ((u.part p).resetting = false →
      (Gives (.partitionReset iss p0) s starts) ∧
      (bitAt u.outSet p = true → (Gives (.partitionIn iss p0) s starts) ∧ (Gives (.partitionOut iss p0) s plain)) ∧
      (bitAt u.outSet p = false → (Gives (.partitionIn iss p0) s plain) ∧
        (Gives (.partitionOut iss p0) s fun t => Completed r 0 t ∧ (t.part p).fenced = true ∧ t.pstate p = psOut ∧
          bitAt t.outSet p = true ∧ (∀ k < 64, u.onPart p k = true → u.isLC k = false → t.cstate k = csTearing)))) ∧
    ((u.part p).resetting = true →
      (Gives (.partitionReset iss p0) s fun t => r ∈ (t.part p).handles ∧ (t.part p).resetStep = (u.part p).resetStep ∧
        SameBut (.parts :: commandFields) s t ∧ DictBut (commandEntries iss) s t) ∧
      (Gives (.partitionOut iss p0) s fun t => Completed r STATE_CONFLICT t ∧ t.part p = u.part p) ∧
      (Gives (.partitionIn iss p0) s fun t => Completed r STATE_CONFLICT t ∧ t.part p = u.part p))

/-- The steps of a partition reset: contexts, hold, self-test, links, DRAM, verification, placing again -/
def Obligations.PartitionResetStepsInOrder : Prop :=
  ∀ (s : State) (q : Fin 4) (n : Nat), let p := q.val
    let at' (k : Nat) : Prop := (s.part p).resetStep = k
    let closing : Bool := (s.heldOn p .heldByReset).any fun k => (s.ctx k).heldWins.any fun w =>
      (KV.get none s.closing (winKey (s.cget k 0x08) w)).isSome
    (at' 1 → Gives (.partitionResetSequence q .contexts n) s fun t => (t.part p).resetStep = 2 ∧
      ∀ k < 64, s.onPart p k = true → s.isLC k = false → t.cstate k = csTearing) ∧
    (at' 2 → Gives (.partitionResetSequence q .hold n) s fun t => (t.part p).resetStep = 3 ∧ t.ringsOn.getLsbD p = false ∧
      t.dget 0x2900 (0x0C + p) = 0 ∧ SameBut [.sent, .timeNs, .ringsOn, .lpRings, .dict, .parts] s t ∧ DictBut [(0x2900, 0x0C + p)] s t) ∧
    (at' 3 → Gives (.partitionResetSequence q (.selfTest true) n) s fun t => (t.part p).resetStep = 4 ∧
      (∀ c w, c / 2 = p → w < spmWords → t.spm c w = 0) ∧ (s.dget 0x2100 1 = 0 → t.ringsOn.getLsbD p = true) ∧
      (s.dget 0x2100 1 ≠ 0 → t.lpRings.getLsbD p = true ∧ t.ringsOn = s.ringsOn) ∧
      SameBut [.sent, .timeNs, .mem, .poison, .ecc, .ringsOn, .lpRings, .parts] s t) ∧
    (at' 3 → Gives (.partitionResetSequence q (.selfTest false) n) s fun t => (t.part p).resetStep = 0 ∧ t.pstate p = psOut) ∧
    (∀ b x y : LinkTrain, at' 4 → b ≠ .failed → (s.part p).failCode = 0 →
      Gives (.partitionResetSequence q (.links b x y) n) s fun t => (t.part p).resetStep = 5) ∧
    (∀ x y : LinkTrain, at' 4 → Gives (.partitionResetSequence q (.links .failed x y) n) s fun t =>
      (t.part p).resetStep = 0 ∧ t.pstate p = psOut ∧ t.linkFailed p = true) ∧
    (at' 5 → Gives (.partitionResetSequence q (.dram true) n) s fun t => (t.part p).resetStep = 6 ∧
      SameBut [.sent, .timeNs, .parts] s t) ∧
    (at' 5 → Gives (.partitionResetSequence q (.dram false) n) s fun t => (t.part p).resetStep = 0 ∧ t.pstate p = psOut) ∧
    (∀ (bad : List Nat) (gone : List (Fin 64)), at' 6 →
      Gives (.partitionResetSequence q (.verify bad gone) n) s fun t => (t.part p).resetStep = 7) ∧
    (at' 7 → closing = false → (s.atTime n).retired p = false → Gives (.partitionResetSequence q .replace n) s fun t => (t.part p).resetStep = 8) ∧
    (at' 7 → closing = false → (s.atTime n).retired p = true → Gives (.partitionResetSequence q .replace n) s fun t =>
      (t.part p).resetStep = 0 ∧ t.pstate p = psOut) ∧
    (at' 7 → closing = true → Gives (.partitionResetSequence q .replace n) s fun t => SameBut [.sent, .timeNs] s t) ∧
    (∀ k : Fin 64, s.cstate k.val = csRunning → (s.ctx k.val).move = .reloadWait →
      Gives (.reloadTimeout k) s fun t => t.cstate k.val = csTearing)

/-- A failed die link, a slow beat ring, and the patrol scrub -/
def Obligations.LinksBeatsAndScrubs : Prop :=
  ∀ s : State,
    (∀ l : Fin 8, s.linkFailed l.val = false → Gives (.flitRetryFailure l) s fun t =>
      t.linkFailed l.val = true ∧ t.dget 0x2500 (0x10 + l.val) = 0 ∧
        (4 ≤ l.val → SameBut (.sent :: logFields) s t ∧ LogOnly s t ∧ DictBut ([(0x2500, 0x0F), (0x2500, 0x10 + l.val)] ++ logEntries) s t) ∧
        (l.val < 4 → (s.part l.val).resetting = false → (t.part l.val).resetStep = 1 ∧ t.isFenced l.val = true)) ∧
    (∀ b : Fin 4, s.slowHeld.getLsbD b.val = false → Gives (.beatSlow b) s fun t =>
      t.dget 0x2900 (0x11 + b.val) = (s.dget 0x2900 (0x11 + b.val) + 1) % 2 ^ 32 ∧ t.slowHeld.getLsbD b.val = true ∧
      SameBut (.sent :: .slowHeld :: logFields) s t ∧ LogOnly s t ∧ DictBut ((0x2900, 0x11 + b.val) :: logEntries) s t ∧
      ((s.part b.val).underTest = true → (∃ a, s.activity = some a ∧ a.code = 1) → SameBut [.sent, .slowHeld, .dict] s t)) ∧
    (∀ b : Fin 4, s.slowHeld.getLsbD b.val = true → Gives (.beatSlow b) s fun t => SameBut [.sent] s t) ∧
    (∀ (ch : Fin 32) (f : EccFinding), s.scrubs (ch.val / 8) = true → s.granules ≠ 0 → Gives (.patrolScrub ch f) s fun t =>
      KV.get 0 t.scrubPos ch.val = (KV.get 0 s.scrubPos ch.val + 1) % s.granules ∧
        (s.ecc = [] → f = .clean → SameBut [.sent, .scrubPos] s t) ∧
        (s.ecc = [] → (∃ x, f = .corrected x) → KV.get 0 s.scrubPos ch.val < s.granules → s.usable ≤ 0x400000000 →
          t.dget 0x2500 (0x24 + ch.val / 8) = (s.dget 0x2500 (0x24 + ch.val / 8) + 1) % 2 ^ 32 ∧
            SameBut ([.sent, .scrubPos, .ecc] ++ logFields) s t))

/-- MAINT_STRESS_TEST, MAINT_RETRAINING, MAINT_SCRUB_SWEEP and MAINT_FIRMWARE_UPDATE start one activity -/
def Obligations.MaintenanceActivitiesStart : Prop :=
  ∀ (iss : Issuer) (p1 p2 : BitVec 64) (s u : State) (r : HRef), let p := p1.toNat
    (Accepted iss true .confHosts [dsMaint] (partOk p1) s r u →
      ∀ c code, (c, code) ∈ [(Instr.maintStressTest iss p1, 1), (Instr.maintRetraining iss p1, 2), (Instr.maintScrubSweep iss p1, 3)] →
        (s.activity = none → (s.part p).resetStep = 0 → Gives c s fun t =>
          (∃ a, t.activity = some a ∧ a.code = code ∧ a.part = p ∧ a.handle = r ∧ a.erased = false) ∧
            t.dget 0x2A00 0x01 = code ∧ t.dget 0x2A00 0x02 = p ∧
            (code ≠ 3 → (t.part p).fenced = true ∧ (t.part p).underTest = true ∧ t.pstate p = psMaint) ∧
            (code = 1 → KV.get none t.testCap p = some (s.dget 0x2A00 0x05)) ∧
            (code = 3 → SameBut ([.activity, .ctxs, .waiting] ++ commandFields) s t ∧
              DictBut ([(0x2A00, 0x01), (0x2A00, 0x02), (0x2500, 0x33)] ++ commandEntries iss) s t ∧
              ∀ k < 64, s.cstate k = csRunning → s.isLC k = false → s.ccore k < 8 → s.ccore k / 2 = p → (s.ctx k).move = .still →
                s.allotUp k = true → (t.ctx k).move = .switchingOut ∧ k ∈ t.waiting)) ∧
        (s.activity ≠ none → Gives c s fun t => Completed r MAINT_BUSY t ∧ t.activity = s.activity ∧
          t.dget 0x2A00 0x11 = (s.dget 0x2A00 0x11 + 1) % 2 ^ 32)) ∧
    (Accepted iss true .confHosts [dsMaint] true s r u → s.activity = none → s.rangeCode p2.toNat 1024 = none →
      let img := s.readBytes p2.toNat (1024 + fwBodyLen (s.readBytes p2.toNat 1024))
      s.rangeCode p2.toNat (1024 + fwBodyLen (s.readBytes p2.toNat 1024)) = none → s.bootCode img = none → s.provAt (p2.toNat + (1024 + fwBodyLen (s.readBytes p2.toNat 1024))) = [] →
      Gives (.maintFirmwareUpdate iss p1 p2) s fun t =>
        (∃ a, t.activity = some a ∧ a.code = 4 ∧ a.handle = r ∧ a.erased = true ∧ a.image = img ∧ a.prov = []) ∧
          t.dget 0x2A00 0x01 = 4 ∧ t.dget 0x2A00 0x02 = 255 ∧ t.dget 0x2A00 0x10 = 2 ∧ Message.flashErase ∈ t.sent ∧
          SameBut (.activity :: commandFields) s t ∧
          DictBut ([(0x2A00, 0x01), (0x2A00, 0x02), (0x2A00, 0x10)] ++ commandEntries iss) s t)

/-- MAINT_ABORT and the ends of the four activities -/
def Obligations.MaintenanceActivitiesEnd : Prop :=
  (∀ (iss : Issuer) (s u : State) (r : HRef) (a : Activity), Accepted iss true .confHosts [dsMaint] true s r u →
      s.activity = some a → a.erased = false → a.part ≤ 4 →
      hKey a.handle.1 a.handle.2 ≠ hKey r.1 r.2 →
      Gives (.maintAbort iss) s fun t => Completed r 0 t ∧ t.activity = none ∧ t.dget 0x2A00 0x01 = 0 ∧ t.dget 0x2A00 0x02 = 255 ∧
        t.dget 0x2A00 0x14 = 0x5049 ∧ t.dget 0x2A00 0x13 = (s.dget 0x2A00 0x13 + 1) % 2 ^ 32 ∧ (t.hslot a.handle).code = 0x5049 ∧
        (a.code = 1 → t.dget 0x2A00 0x0A = 5) ∧ SameBut ([.activity, .testCap, .parts] ++ logFields ++ commandFields) s t ∧ LogOnly s t) ∧
  (∀ (s : State) (a : Activity), s.activity = some a → a.part ≤ 4 →
      let ends (code : Nat) (t : State) : Prop := t.activity = none ∧ t.dget 0x2A00 0x01 = 0 ∧ t.dget 0x2A00 0x14 = code ∧
        t.dget 0x2A00 0x12 = (s.dget 0x2A00 0x12 + 1) % 2 ^ 32 ∧ Completed a.handle code t
      (∀ n, a.code = 3 → Gives (.maintActivityEnd (.sweep n)) s fun t => ends 0 t ∧ t.dget 0x2A00 0x0F = n) ∧
      (a.code = 2 → Gives (.maintActivityEnd (.retrain true)) s fun t => ends 0 t ∧ t.dget 0x2A00 0x0E = 0 ∧
        (t.part a.part).underTest = false) ∧
      (a.code = 2 → Gives (.maintActivityEnd (.retrain false)) s fun t => ends 0x504A t ∧ t.dget 0x2A00 0x0E = 0x504A ∧
        t.pstate a.part = psOut) ∧
      (∀ lowest temp, a.code = 1 → a.floor < lowest → lowest + a.margin ≤ s.dget 0x2100 (2 + a.part) →
        Gives (.maintActivityEnd (.stress true lowest temp)) s fun t => ends 0 t ∧ t.dget 0x2A00 0x0A = 2 ∧
          t.dget 0x2A00 0x0B = lowest ∧ t.dget 0x2A00 0x0C = temp.toNat ∧ t.dget 0x2A00 0x0D = a.part) ∧
      (∀ lowest temp, a.code = 1 → Gives (.maintActivityEnd (.stress false lowest temp)) s fun t => ends 0x5047 t ∧
        t.dget 0x2A00 0x0A = 4 ∧ t.pstate a.part = psOut) ∧
      (a.code = 4 → a.prov = [] → Gives (.maintActivityEnd (.update true [])) s fun t => ends 0 t ∧ t.dget 0x2A00 0x10 = 5 ∧
        Message.flashProgram a.image ∈ t.sent ∧ t.fuses = s.fuses))

/-- ATTEST waits for the signature engine; the oldest quote completes with its body in the issuer's buffer -/
def Obligations.QuotesWaitForTheEngine : Prop :=
  (∀ (iss : Issuer) (p0 p1 p2 p3 : BitVec 64) (s u : State) (r : HRef), Accepted iss true .any stPOSM true s r u →
      Gives (.attest iss p0 p1 p2 p3) s fun t =>
        t.quotes = s.quotes ++ [Quote.mk (issIx iss) r (u.hslot r).handle.toNat ([p0, p1, p2, p3].flatMap fun p => bytesOf 8 p.toNat)] ∧
          (t.hslot r).st = 2 ∧ SameBut (.quotes :: commandFields) s t ∧ DictBut (commandEntries iss) s t) ∧
  (∀ (s : State) (n : Nat) (q : Quote) (rest : List Quote), s.quotes = q :: rest →
      Gives (.quoteComplete n) s fun t => t.quotes = rest ∧ Completed q.handle 0 t ∧
        t.readBytes (quoteBuffer q.issuer) 256 = (s.atTime n).quoteBody q ∧ MemBut (quoteBuffer q.issuer) 640 s t ∧
        SameBut ([.timeNs, .quotes, .freeIx, .mem] ++ commandFields) s t ∧ DictBut [(0x2500, 0x32)] s t)

/-- CTX_CREATE, CTX_LOAD and CTX_TEARDOWN on a context -/
def Obligations.ContextsAreCreatedLoadedAndTornDown : Prop :=
  ∀ (iss : Issuer) (p0 p1 p2 : BitVec 64) (data : List Byte) (s u : State) (r : HRef), let k := p0.toNat
    (Accepted iss true .hosts stPOSM (p0 == 1 || p0 == 2) s r u →
      (∀ j < 64, (∀ i < j, s.cstate i ≠ csFree) → s.cstate j = csFree → Gives (.ctxCreate iss p0) s fun t =>
        Completed r 0 t ∧ t.cstate j = csCreated ∧ t.cclass j = p0.toNat ∧ t.cget j 0x03 = r.1 + 1 ∧ t.ctx j = .zero ∧
          SameBut ([.ctxs, .overruns] ++ commandFields) s t ∧ DictBut (objectEntries (0x2600 + j) ++ commandEntries iss) s t) ∧
      ((∀ j < 64, s.cstate j ≠ csFree) → Gives (.ctxCreate iss p0) s fun t => Completed r CTX_FULL t)) ∧
    (Accepted iss true (.creator k) stPOSM (p0.toNat < 64) s r u →
      (s.cstate k = csCreated → data.length = p2.toNat → ∀ c, u.containerCode data (u.cclass k) = some c →
        Gives (.ctxLoad iss p0 p1 p2 data) s fun t => Completed r c t ∧ t.cget k 0x1B = c ∧ t.cstate k = csCreated) ∧
      (s.cstate k = csCreated → data.length = p2.toNat → u.containerCode data (u.cclass k) = none → u.declOk k data = true →
        ∀ a, u.findAllot (u.cget k 0x0B) (allotSize data.length (Cont.cls data) (u.cget k 0x0D)) = some a →
        Gives (.ctxLoad iss p0 p1 p2 data) s fun t => Completed r 0 t ∧ t.cstate k = csLoaded ∧ t.cget k 0x0C = a ∧
          t.readBytes a data.length = data ∧ t.cget k 0x1D = natOf (Cont.digest data) ∧ (t.ctx k).containerLen = data.length ∧
          MemBut a data.length s t ∧ SameBut ([.mem, .ctxs] ++ commandFields) s t ∧
          DictBut (objectEntries (0x2600 + k) ++ commandEntries iss) s t) ∧
      (s.cstate k ≠ csFree → s.cstate k ≠ csTearing → Gives (.ctxTeardown iss p0) s fun t => t.cstate k = csTearing ∧
        t.cget k 0x1B = 0x20A5 ∧ (t.ctx k).cause = 0x20A5 ∧ r ∈ (t.ctx k).handles ∧ k ∉ t.waiting ∧
        SameBut ([.ctxs, .waiting, .frame] ++ logFields ++ commandFields) s t ∧ LogOnly s t) ∧
      (s.cstate k = csTearing → Gives (.ctxTeardown iss p0) s fun t => Completed r 0 t ∧ t.cstate k = csTearing))

/-- CTX_START places an LC context on its core and queues a BE context behind its home core -/
def Obligations.ContextsStartAtTheirPlace : Prop :=
  ∀ (iss : Issuer) (p0 : BitVec 64) (s u : State) (r : HRef), let k := p0.toNat
    Accepted iss true (.creator k) stPOSM (p0.toNat < 64) s r u →
    (s.cstate k ≠ csLoaded → Gives (.ctxStart iss p0) s fun t => Completed r STATE_CONFLICT t ∧ t.cstate k = s.cstate k) ∧
    (s.cstate k = csLoaded → u.startDeclOk k = true →
      (∀ c < 8, u.isLC k = true → u.lcCore k = some c → u.slotRule k c = true → u.startLC k c ≠ none →
        (u.namedCore k ≠ 255 → u.slotRule k (u.namedCore k) = true) →
        Gives (.ctxStart iss p0) s fun t => Completed r 0 t ∧ t.cstate k = csRunning ∧ t.ccore k = c ∧ t.cget k 0x08 = c ∧
          (t.ctx k).placed = true ∧ (t.ctx k).move = .still) ∧
      (∀ c < 8, u.isLC k = false → u.beCore k = some c → u.cget k 0x90 = 0 → u.startBE k c ≠ none →
        Gives (.ctxStart iss p0) s fun t => Completed r 0 t ∧ t.cstate k = csWaiting ∧ t.cget k 0x08 = c ∧
          t.waiting = s.waiting ++ [k] ∧ t.dget 0x2500 0x33 = s.waiting.length + 1) ∧
      ((if u.isLC k then u.lcCore k else u.beCore k) = none → (u.isLC k = true → u.namedCore k ≠ 255 → u.slotRule k (u.namedCore k) = true) →
        Gives (.ctxStart iss p0) s fun t => Completed r codePlace t ∧ t.cstate k = csLoaded ∧ t.cget k 0x1B = codePlace))

/-- CTX_SAVE writes the saved image to host memory; CTX_RESTORE loads one -/
def Obligations.ContextsAreSavedAndRestored : Prop :=
  ∀ (iss : Issuer) (p0 p1 p2 : BitVec 64) (data : List Byte) (s u : State) (r : HRef), let k := p0.toNat
    Accepted iss true (.creator k) stPOSM (p0.toNat < 64) s r u →
    (s.cclass k = 2 → s.cstate k = csWaiting ∨ s.cstate k = csFinished →
      let img := savedImage (u.cget k 0x14) (Config.saveEncode (SavedBody.mk (u.container k) (u.saved k)))
      img.length ≤ p2.toNat → Gives (.ctxSave iss p0 p1 p2) s fun t => Completed r 0 t ∧
        SameBut commandFields s t ∧ DictBut (commandEntries iss) s t ∧
        (let port := u.port (portOf r.1)
          let slot := port.ringBase + 128 * (port.producer.toNat % port.ringSize)
          port.lostSince = 0 → ∀ (i : Nat) (h : i < img.length), p1.toNat + i < slot ∨ slot + 128 ≤ p1.toNat + i →
            KV.get memDefault t.hostMem (hostCell r.1 (p1.toNat + i)) = img[i])) ∧
    (s.cstate k = csCreated → s.cclass k = 2 → data.length = p2.toNat → savedCode data true = none → (u.ctx k).containerLen = 0 →
      let b := Config.saveDecode (data.drop 64)
      ∀ a, u.findAllot (u.cget k 0x0B) (allotSize b.container.length (Cont.cls b.container) (u.cget k 0x0D)) = some a →
        Gives (.ctxRestore iss p0 p1 p2 data) s fun t => Completed r 0 t ∧ t.cstate k = csLoaded ∧ t.cget k 0x0C = a ∧
          t.readBytes a b.container.length = b.container ∧ MemBut a b.container.length s t ∧
          SameBut ([.mem, .ctxs] ++ commandFields) s t ∧ DictBut (objectEntries (0x2600 + k) ++ commandEntries iss) s t)

/-- WINDOW_OPEN, WINDOW_CLOSE and the close that waits for its spacing -/
def Obligations.WindowsOpenAndClose : Prop :=
  ∀ (s : State),
    (∀ (iss : Issuer) (p0 p1 p2 p3 : BitVec 64) (u : State) (r : HRef), let k := p0.toNat; let w := p1.toNat; let c := s.cget k 0x08
      Accepted iss true (.creator k) stPOSM (p0.toNat < 64 && p1.toNat < 64) s r u → u.windowState k = true →
        (u.openBad k c w (p3 ++ p2) = false → Gives (.windowOpen iss p0 p1 p2 p3) s fun t => Completed r 0 t ∧
          wnOpen (t.win c w) = true ∧ wnGen (t.win c w) = wnGen (s.win c w) ∧ wnOwner (t.win c w) = k ∧
          wnBase (t.win c w) = wnBase (p3 ++ p2) ∧ wnLen (t.win c w) = wnLen (p3 ++ p2) ∧ w ∈ (t.ctx k).heldWins ∧
          t.cget k (0xA1 + w) = (t.win c w).toNat ∧
          SameBut ([.windows, .ctxs] ++ commandFields) s t ∧ DictBut ((0x2600 + k, 0xA1 + w) :: commandEntries iss) s t) ∧
        (u.openBad k c w (p3 ++ p2) = true → Gives (.windowOpen iss p0 p1 p2 p3) s fun t => Completed r codeWinDecl t ∧
          t.win c w = s.win c w) ∧
        (w ∉ (s.ctx k).heldWins → Gives (.windowClose iss p0 p1) s fun t => Completed r NOT_OWNER t ∧ t.win c w = s.win c w) ∧
        (w ∈ (s.ctx k).heldWins → wnOpen (s.win c w) = false → Gives (.windowClose iss p0 p1) s fun t => Completed r 0 t ∧
          SameBut commandFields s t ∧ DictBut (commandEntries iss) s t) ∧
        (w ∈ (s.ctx k).heldWins → wnOpen (s.win c w) = true → s.spaced c w = true → Gives (.windowClose iss p0 p1) s fun t =>
          Completed r 0 t ∧ wnOpen (t.win c w) = false ∧ wnGen (t.win c w) = (wnGen (s.win c w) + 1) % 256 ∧
            KV.get none t.lastClose (winKey c w) = some s.timeNs) ∧
        (w ∈ (s.ctx k).heldWins → wnOpen (s.win c w) = true → s.spaced c w = false → Gives (.windowClose iss p0 p1) s fun t =>
          wnOpen (t.win c w) = true ∧ (∃ x, KV.get none t.closing (winKey c w) = some x ∧ r ∈ x.handles) ∧
            SameBut (.closing :: commandFields) s t ∧ DictBut (commandEntries iss) s t)) ∧
    (∀ (c : Fin 8) (w : Fin 64) (n : Nat) (x : Closing), KV.get none s.closing (winKey c.val w.val) = some x →
      wnOpen (s.win c.val w.val) = true → (s.atTime n).spaced c.val w.val = true → Gives (.closeTakesEffect c w n) s fun t =>
        wnOpen (t.win c.val w.val) = false ∧ wnGen (t.win c.val w.val) = (wnGen (s.win c.val w.val) + 1) % 256 ∧
          KV.get none t.closing (winKey c.val w.val) = none ∧ ∀ h ∈ x.handles, Completed h 0 t)

/-- NOP, CSET, CADD, CCOPY, CMP and END: what they do to their stream -/
def Obligations.CounterInstructionsIssue : Prop :=
  ∀ (s : State) (c : Fin 8) (q : Fin 4) (st : StreamId) (z : Site), let h := z.i.head
    (Issues s c.val q.val st 0x00 z → Gives (.nopInstruction c q st) s fun t => ControlIssued s t c.val q.val z (z.after s)) ∧
    (Issues s c.val q.val st 0x04 z → Gives (.cset c q st) s fun t => ControlIssued s t c.val q.val z
      ((z.after s).setCounter (bits h 29 28) (BitVec.ofNat 32 (bits h 63 32)))) ∧
    (Issues s c.val q.val st 0x05 z → Gives (.cadd c q st) s fun t => ControlIssued s t c.val q.val z
      ((z.after s).setCounter (bits h 29 28) (z.t.counter (bits h 29 28) + BitVec.ofNat 32 (bits h 63 32)))) ∧
    (Issues s c.val q.val st 0x06 z → Gives (.ccopy c q st) s fun t => ControlIssued s t c.val q.val z
      ((z.after s).setCounter (bits h 29 28) (z.t.counter (bits h 31 30)))) ∧
    (Issues s c.val q.val st 0x07 z → Gives (.cmp c q st) s fun t => ControlIssued s t c.val q.val z
      (if bitAt h 28 then { z.after s with p1 := cmpSetting z.i } else { z.after s with p0 := cmpSetting z.i })) ∧
    (Issues s c.val q.val st 0x08 z → Gives (.endInstr c q st) s fun t => ControlIssued s t c.val q.val z
      { z.after s with atEnd := true })

/-- FLAG, GUARD and JUMP -/
def Obligations.FlagsGuardsAndJumps : Prop :=
  ∀ (s : State) (c : Fin 8) (q : Fin 4) (st : StreamId) (z : Site), let h := z.i.head; let f := bits h 35 30
    (Issues s c.val q.val st 0x01 z → z.t.ops = [] →
      (bits h 29 28 = 0 → Gives (.flagSet c q st) s fun t => ControlIssued s t c.val q.val z (z.after s) ∧ t.flag c.val f = true) ∧
      (bits h 29 28 = 1 → (z.i.setOn = true → z.i.setFlag ≠ f) →
        Gives (.flagClear c q st) s fun t => ControlIssued s t c.val q.val z (z.after s) ∧ t.flag c.val f = false)) ∧
    (Issues s c.val q.val st 0x02 z → z.t.ops = [] → s.boundary z (guardTarget z) = true →
      Gives (.guardInstr c q st) s fun t => ControlIssued s t c.val q.val z
        (if (s.takeWait z).kFlag z.k (bits h 33 28) then z.after s
         else { z.after s with pos := (guardTarget z).toNat, atEnd := (guardTarget z).toNat == z.len })) ∧
    (Issues s c.val q.val st 0x02 z → z.t.ops ≠ [] → s.boundary z (guardTarget z) = true →
      Gives (.guardInstr c q st) s fun t => Holds s t c.val q.val z) ∧
    (Issues s c.val q.val st 0x03 z → s.boundary z (jumpTarget z) = true →
      Gives (.jump c q st) s fun t => ControlIssued s t c.val q.val z
        (if jumpTaken z then { z.after s with pos := (jumpTarget z).toNat, atEnd := (jumpTarget z).toNat == z.len }
         else z.after s)) ∧
    (Issues s c.val q.val st 0x03 z → s.boundary z (jumpTarget z) = false → s.cget z.k 0x31 < (s.ctx z.k).skipLimit →
      Gives (.jump c q st) s fun t => StrmKept (t.stopping z.k) (t.strm c.val q.val st) (z.after s) ∧
        t.cget z.k 0x31 = min 65535 (s.cget z.k 0x31 + 1))

/-- LDQ, LDZ, STQ, STZ, MFILL, MCOPY, MTRANS and MDIGEST issue to their unit -/
def Obligations.AccessInstructionsIssue : Prop :=
  ∀ (s : State) (c : Fin 8) (q : Fin 4) (z : Site), let C := c.val; let Q := q.val; let w1 := z.i.w 1
    let issues (cmd : Instr) : Prop := Gives cmd s fun t => OpIssued s t C Q z (z.op z.t.nextSeq) ∧ IssueFrame s t C Q z [] [] z.waitClears
    let holds (cmd : Instr) : Prop := Gives cmd s fun t => Holds s t C Q z
    let row (cmd : Instr) (op : Nat) (u : UnitId) (bad : Bool) : Prop :=
      Issues s C Q .a op z → bad = false → (z.t.unitBusy u = false → issues cmd) ∧ (z.t.unitBusy u = true → holds cmd)
    row (.ldq c q) 0x10 .loader (nestRange 0 z) ∧
    row (.ldz c q) 0x12 .loader (decide (spmWords < ldzBase z.i + ldzPitch z.i * ldzTiles z.i) || (ldzTarget z.i &&
      decide (spmWords < ldzDest z.i + (ldzTiles z.i - 1) * bits w1 54 46 + bits w1 63 55))) ∧
    row (.stq c q) 0x13 .storer (nestRange 0 z) ∧
    row (.stz c q) 0x14 .storer (decide (spmWords < ldzBase z.i + ldzPitch z.i * ldzTiles z.i)) ∧
    row (.mfill c q) 0x24 .engine (nestRange 0 z) ∧
    row (.mcopy c q) 0x25 .engine (nestRange 0 z || nestRange 1 z) ∧
    row (.mtrans c q) 0x26 .engine (!z.localOk 0 ((mtBlock z.i - 1) * mtSrcPitch z.i) ||
      !z.localOk 1 ((mtBlock z.i - 1) * mtDstPitch z.i) || tooMany z) ∧
    row (.mdigest c q) 0x27 .engine (nestRange 0 z || !wordOk (bits w1 20 0))

/-- DLD, DST, PUT, SPUT, GET, AADD, RFLAG and FENCE issue to their unit -/
def Obligations.StagingAndRemoteInstructionsIssue : Prop :=
  ∀ (s : State) (c : Fin 8) (q : Fin 4) (z : Site), let C := c.val; let Q := q.val
    (∀ cmd op, (cmd, op) ∈ [(Instr.dld c q, 0x18), (Instr.dst c q, 0x19)] → Issues s C Q .a op z → z.t.unitBusy .stager = false →
      stagingChecks z s = [] →
      ((s.strict && s.isLC z.k) = false → Gives cmd s fun t => OpIssued s t C Q z (z.op z.t.nextSeq) ∧
        IssueFrame s t C Q z [] [] z.waitClears) ∧
      ((s.strict && s.isLC z.k) = true → Gives cmd s fun t => OpIssued s t C Q z { z.op z.t.nextSeq with held := true } ∧
        t.dget 0x2900 0x16 = (s.dget 0x2900 0x16 + 1) % 2 ^ 32 ∧ IssueFrame s t C Q z [] [(0x2900, 0x16)] z.waitClears)) ∧
    (∀ cmd op, (cmd, op) ∈ [(Instr.put c q, 0x1C), (Instr.sput c q, 0x1D), (Instr.getInstr c q, 0x1E), (Instr.aadd c q, 0x1F),
        (Instr.rflag c q, 0x20)] → ∀ tg : Target, Issues s C Q .a op z → z.t.unitBusy .remote = false → remoteCheck z s.fresh = [] →
      s.fresh.targetPoison z = false → s.fresh.targetOf z = some tg → s.ecc = [] →
      (tgtSource z.i.tgt = true → (s.fresh.localRead z.k C (bits z.i.tgt 38 18)).2 = s.fresh) →
      Gives cmd s fun t => OpIssued s t C Q z { z.op z.t.nextSeq with target := tg } ∧
        IssueFrame s t C Q z [.sputBad] [] z.waitClears) ∧
    (Issues s C Q .a 0x21 z → z.t.unitBusy .remote = false →
      (z.t.remoteDone z.t.nextSeq = true → Gives (.fence c q) s fun t => ControlIssued s t C Q z (z.after s)) ∧
      (z.t.remoteDone z.t.nextSeq = false → Gives (.fence c q) s fun t => OpIssued s t C Q z (z.op z.t.nextSeq) ∧
        IssueFrame s t C Q z [] [] z.waitClears))

/-- LDT and REGION read their record at issue; a bad record skips them late -/
def Obligations.RecordInstructionsReadTheirRecordOnce : Prop :=
  ∀ (s : State) (c : Fin 8) (q : Fin 4) (z : Site) (r : SWord), let C := c.val; let Q := q.val; let a := bits (z.i.w 1) 20 0
    s.ecc = [] → wordOk a = true → s.consumeRead z.k C a = (some r, s) → (s.ctx z.k).ownsWord a = true →
    (Issues s C Q .a 0x11 z → z.t.unitBusy .loader = false →
      (tapBad r z.i = false → Gives (.ldt c q) s fun t => OpIssued s t C Q z { z.op z.t.nextSeq with record := r } ∧
        IssueFrame s t C Q z [] [] z.waitClears) ∧
      (tapBad r z.i = true → s.cget z.k 0x31 < (s.ctx z.k).skipLimit → Gives (.ldt c q) s fun t =>
        (t.strm C Q .a).pos = (z.after s).pos ∧ t.cget z.k 0x31 = min 65535 (s.cget z.k 0x31 + 1))) ∧
    (Issues s C Q .a 0x28 z → z.t.unitBusy .region = false →
      (∀ l : SWord, regionBad r = false → (s.ctx z.k).ownsWord (rgList r) = true → s.consumeRead z.k C (rgList r) = (some l, s) →
        Gives (.region c q) s fun t => OpIssued s t C Q z { z.op z.t.nextSeq with record := r, aux := (w32 l 0).toNat } ∧
          IssueFrame s t C Q z [] [] z.waitClears) ∧
      (regionBad r = true → s.cget z.k 0x31 < (s.ctx z.k).skipLimit → Gives (.region c q) s fun t =>
        (t.strm C Q .a).pos = (z.after s).pos ∧ t.cget z.k 0x31 = min 65535 (s.cget z.k 0x31 + 1)))

/-- WLOAD, STREAM and NARROW issue to their group -/
def Obligations.ArrayInstructionsIssue : Prop :=
  ∀ (s : State) (c : Fin 8) (q : Fin 4) (z : Site), let C := c.val; let Q := q.val; let A := z.i.arr
    (Issues s C Q .x 0x40 z → wloadChecks z s.fresh = [] →
      let busy := laneBusy z 0x40 A (wlGroup z.i) || (s.group C A (wlGroup z.i)).waiting.isSome
      (busy = true → Gives (.wload c q) s fun t => Holds s t C Q z) ∧
      (busy = false → Gives (.wload c q) s fun t => OpIssued s t C Q z (z.op z.t.nextSeq) ∧
        (t.group C A (wlGroup z.i)).waiting = some (WLoad.mk Q z.t.nextSeq (wlK z.i) (wlFmt z.i) (wlSplit z.i)
          (bits z.i.head 49 48) (s.cget z.k 0x06 == 1)) ∧
        IssueFrame s t C Q z [.groups] [] z.waitClears)) ∧
    (Issues s C Q .x 0x41 z → streamChecks z s.fresh = [] →
      let busy := laneBusy z 0x41 A (smGroup z.i) || !s.fresh.xOrdered z (s.fresh.streamWords z)
      (busy = true → Gives (.stream c q) s fun t => Holds s t C Q z) ∧
      (∀ (r cols tb : List Byte) (st1 st2 : BitVec 8) (sw x : F32) (w : Nat), busy = false →
        (s.group C A (smGroup z.i)).formatFor (smSwap z.i) = some w →
        let v := ((s.fresh.takeWait z).advance z).pushOp z id
        v.recordAt z (bits (z.i.w 1) 20 0) 3 = (some r, v) → v.streamLate z r w = none →
        v.statusOf z (if Rec.immScale r then none else some (Rec.scaleWord r)) = (some st1, sw, v) →
        v.statusOf z (Rec.status2 r) = (some st2, x, v) → v.recordAt z (Rec.params r) (cdiv (2 * smN z.i) 8) = (some cols, v) →
        (if Rec.act r = 4 && !Rec.bypassed r then v.recordAt z (Rec.table r) 32 else (some [], v)) = (some tb, v) →
        Gives (.stream c q) s fun t => OpIssued s t C Q z (z.op z.t.nextSeq) ∧
          (∃ j : Job, (t.group C A (smGroup z.i)).jobs = (s.group C A (smGroup z.i)).jobs ++ [j] ∧ j.pair = Q ∧ j.seq = z.t.nextSeq ∧
            j.mode = smMode z.i ∧ j.fmt = smFmt z.i ∧ j.swap = smSwap z.i ∧ j.n = smN z.i ∧ j.slots = z.threads ∧ j.record = r ∧ j.inject = 0) ∧
          (Rec.opens r = true → (t.slot C Q (Rec.slot r)).isOpen = true) ∧
          (Rec.closes r = true → (t.slot C Q (Rec.slot r)).closing.isSome = true) ∧
          IssueFrame s t C Q z [.groups, .slots] [] z.waitClears)) ∧
    (Issues s C Q .x 0x42 z → narrowChecks z s.fresh = [] →
      let ready := s.fresh.xOrdered z (s.fresh.narrowWordsRead z)
      (ready = false → Gives (.narrow c q) s fun t => Holds s t C Q z) ∧
      (∀ (r l : List Byte) (w : SWord), ready = true → s.ecc = [] → (∀ o ∈ z.t.ops, o.seq ≠ z.t.nextSeq) →
        let v := ((s.fresh.takeWait z).advance z).pushOp z id
        v.recordAt z (bits (z.i.w 1) 20 0) 3 = (some r, v) → narrowLate r = none →
        (if nrFromWord z.i then v.consumeRead z.k C (nrWord z.i) else (some 0, v)) = (some w, v) →
        v.recordAt z (Rec.staging r) (cdiv (nrElements z.i) 16) = (some l, v) →
        let sc := if nrFromWord z.i then w32 w 24 else (s.slot C Q (nrSlot z.i)).closedScale
        let cs := (List.range (nrElements z.i)).map fun h =>
          stagedCode r (s.ctx z.k).seed (s.ctx z.k).reuse (fDiv fOne sc) h (fieldAt l (2 * h) 2)
        let ws := narrowWords r (cs.map (·.1))
        let dest := ws.map fun p => nrDest z.i + p.1
        Gives (.narrow c q) s fun t => OpIssued s t C Q z { z.op z.t.nextSeq with ran := true } ∧
          ((∀ x ∈ cs, x.2 = false) → (Rec.outWord r :: dest).Nodup → (∀ a ∈ Rec.outWord r :: dest, (s.ctx z.k).ownsWord a = true) →
            (∀ p ∈ ws, t.spm C (nrDest z.i + p.1) = p.2) ∧ w32 (t.spm C (Rec.outWord r)) 24 = sc ∧
            (∀ i < 32, i < 24 ∨ 28 ≤ i → t.byteAt (spmAddr C (Rec.outWord r) + i) = s.byteAt (spmAddr C (Rec.outWord r) + i)) ∧
            (∀ b, (∀ a ∈ Rec.outWord r :: dest, b < spmAddr C a ∨ spmAddr C a + 32 ≤ b) → t.byteAt b = s.byteAt b) ∧
            IssueFrame s t C Q z [.mem, .poison] [] z.waitClears)))

/-- An illegal or inconsistent instruction is skipped, logged and counted; an unmet wait holds -/
def Obligations.SkipsMoveOnAndAreCounted : Prop :=
  ∀ (s : State) (c q : Nat) (st : StreamId) (want : Insn → StreamId → Bool) (checks : Site → State → List Nat)
    (busy : Site → State → Bool) (body : Site → State → State) (z : Site), c < 8 → q < 4 →
    s.site c q st = some z → want z.i st = true → s.fetchErrors z = (false, s) → z.t.pos < 2 ^ 32 →
    let t := s.issue c q st want checks busy body
    let n := s.cget z.k 0x33
    let skipped (code : Nat) : Prop := StrmKept (t.stopping z.k) (t.strm c q st) (z.after s) ∧ t.cstate z.k = csRunning ∧
      t.cget z.k 0x31 = min 65535 (s.cget z.k 0x31 + 1) ∧ t.cget z.k 0x32 = (s.cget z.k 0x32 + 1) % 2 ^ 32 ∧
      (n < 64 → t.cget z.k 0x33 = n + 1 ∧ bits (t.cget z.k (0x41 + n)) 79 64 = code)
    (∀ code, z.i.illegal st = some code → s.cget z.k 0x31 < (s.ctx z.k).skipLimit → skipped code) ∧
    (z.i.illegal st = none → s.waitMet z = true → s.cget z.k 0x31 < (s.ctx z.k).skipLimit →
      ∀ code, code < 2 ^ 16 → code ∈ s.commonChecks z ++ checks z s → (∀ d ∈ s.commonChecks z ++ checks z s, code ≤ d) → skipped code) ∧
    (z.i.illegal st = none → s.waitMet z = false → (t.strm c q st).pos = z.t.pos ∧ (t.strm c q st).count = z.t.count ∧
      SameBut [.pairs, .dict] s t)

/-- ELEMENT_THREAD: a unit's oldest unfinished operation moves words and goes on where it stopped -/
def Obligations.ElementThreadsMoveWords : Prop :=
  ∀ (s : State) (c : Fin 8) (q : Fin 4) (u : UnitId) (k : Nat) (o : Op), let C := c.val; let Q := q.val
    s.runner C Q = some k → (s.strm C Q .a).ops.find? (fun o => unitOf (Insn.op o.words) == some u && !o.ran) = some o → s.ecc = [] →
    let ref := bits (Insn.head o.words) 31 28
    let lim := if u = .loader || u = .storer then (s.strm C Q .a).orderLimit o else none
    let w : Work := { k := k, c := C, q := Q, o := o, lim := lim }
    let kept (t : State) (x : Op) : Prop := StrmKept (t.stopping k) (t.strm C Q .a) ((s.strm C Q .a).mapOp o.seq fun _ => x)
    let own (a n : Nat) : Prop := ∀ i < n, (s.ctx k).ownsWord (a + i) = true
    ((o.held = true ∧ s.allEnd k = false) ∨ lim = some 0 → Gives (.elementThread c q u) s fun t => SameBut [.sent] s t) ∧
    (o.held = false →
      (Insn.op o.words = 0x10 → let n := w.cap (min (o.wpt - o.sub) (s.oqRoom w ref))
        n ≠ 0 → own (o.addr 0 + o.sub) n → Gives (.elementThread c q u) s fun t =>
          (t.pair C Q).oq ref = (s.pair C Q).oq ref ++ (wordRun (o.addr 0 + o.sub) n).map (fun a =>
            plainWord (s.spm C a) (s.spmPoison C a) (spmAddr C a)) ∧
          kept t (o.moved n) ∧ SameBut [.sent, .pairs, .ctxs] s t) ∧
      (Insn.op o.words = 0x13 → let n := w.cap (min (o.wpt - o.sub) ((s.pair C Q).rq ref).length)
        n ≠ 0 → own (o.addr 0 + o.sub) n → Gives (.elementThread c q u) s fun t =>
          (t.pair C Q).rq ref = ((s.pair C Q).rq ref).drop n ∧
          (∀ i < n, ∀ x, ((s.pair C Q).rq ref)[i]? = some x → t.spm C (o.addr 0 + o.sub + i) = x.data) ∧
          kept t (o.moved n) ∧
          SameBut [.sent, .pairs, .ctxs, .mem, .poison] s t ∧ MemBut (spmAddr C (o.addr 0 + o.sub)) (32 * n) s t) ∧
      (Insn.op o.words = 0x24 → own (o.addr 0) o.wpt → Gives (.elementThread c q u) s fun t =>
          (∀ i < o.wpt, ∀ j < 4, (t.spm C (o.addr 0 + i)).extractLsb' (64 * j) 64 = BitVec.ofNat 64 (Insn.w o.words 1) ∧
            t.spmPoison C (o.addr 0 + i) = false) ∧
          kept t (o.moved o.wpt) ∧
          SameBut [.sent, .pairs, .ctxs, .mem, .poison] s t ∧ MemBut (spmAddr C (o.addr 0)) (32 * o.wpt) s t) ∧
      (Insn.op o.words = 0x20 → s.portRoom w ≠ 0 → Gives (.elementThread c q u) s fun t =>
          (∃ p : Packet, t.fabric = s.fabric ++ [p] ∧ p.kind = 7 ∧ p.seq = (s.pair C Q).rseq ∧ p.dstUnit = BitVec.ofNat 5 o.target.core) ∧
          (t.pair C Q).rseq = (s.pair C Q).rseq + 1 ∧ SameBut [.sent, .pairs, .ctxs, .fabric] s t))

/-- INSTRUCTION_COMPLETE: effects visible, done flag and set field in program order; cross waits and stop marks -/
def Obligations.InstructionsCompleteAndSetTheirFlags : Prop :=
  ∀ (s : State),
    (∀ (c : Fin 8) (q : Fin 4) (k : Nat) (o : Op), let C := c.val; let Q := q.val
      s.runner C Q = some k → (s.strm C Q .a).ops = [o] → o.ran = true → o.complete = false → o.skipped = false →
      (s.pair C Q).outstanding = [] → Insn.op o.words ≠ 0x01 →
      Gives (.instructionComplete c q .a) s fun t => (t.strm C Q .a).ops = [] ∧
        (∀ f, Insn.doneFlag o.words = some f → t.flag C f = true) ∧
        (Insn.setOn o.words = true → t.flag C (Insn.setFlag o.words) = true) ∧
        (Insn.op o.words = 0x27 → (s.ctx k).ownsWord (bits (Insn.w o.words 1) 20 0) = true →
          t.spm C (bits (Insn.w o.words 1) 20 0) = wordOfBytes (sha256 ((o.buf.map fun x => bytesOfWord x.data).flatten))) ∧
        (Insn.op o.words ≠ 0x27 → SameBut [.sent, .pairs, .flags, .overruns, .dict, .ctxs] s t)) ∧
    (∀ (k : Fin 64), let K := k.val; let C := s.ccore K
      s.cstate K = csRunning → s.runner C (s.ctx K).o = some K →
      (s.cget K 0x40 ≠ 2 → stallLimit ≤ (s.ctx K).stall → s.crossBlocked K = true → Gives (.crossWait k) s fun t => t.cstate K = csTearing ∧ t.cget K 0x1B = 0x200A) ∧
      (s.cget K 0x40 = 2 ∨ (s.ctx K).stall < stallLimit ∨ s.crossBlocked K = false → Gives (.crossWait k) s fun t => SameBut [.sent] s t) ∧
      (let live := (s.ctx K).streams.filter (fun p => !(s.strm C p.1 p.2).stopped);
        s.cget K 0x40 = 1 → live.length ≤ 1 → (∀ p ∈ live, (s.holdOf C p.1 p.2).isSome = true) → s.quiet K = true →
        s.groupsBlocked K = true → s.accessBlocked K = true → s.closesBlocked K = true → Gives (.stopReached k) s fun t => t.cget K 0x40 = 2 ∧
          (∀ p ∈ (s.ctx K).streams, (t.strm C p.1 p.2).stopped = true) ∧
          SameBut [.sent, .pairs, .dict, .hostMem, .portA, .portB] s t))

/-- WEIGHT_LOAD_START and SPLIT_CHANGE at a column group -/
def Obligations.WeightsLoadAndSplitsChange : Prop :=
  ∀ (s : State) (c : Fin 8) (a : Fin 2),
    (∀ (g : Fin 4) (l : WLoad) (k : Nat), let C := c.val; let A := a.val; let G := g.val
      s.runner C l.pair = some k → s.split C A ≤ 2 →
      ((s.group C A G).waiting = some l → (s.group C A G).loading = none → (s.group C A G).shadow = none → l.split = s.split C A →
        (s.pair C l.pair).oq l.queue = [] → l.k ≠ 0 → Gives (.weightLoadStart c a g) s fun t =>
          (t.group C A G).waiting = none ∧ (t.group C A G).loading = some (l, []) ∧ (t.group C A G).shadow = none ∧
            SameBut [.sent, .groups, .pairs, .ctxs] s t) ∧
      (∀ rows, (s.group C A G).loading = some (l, rows) →
        let got := takeRows (l.k - rows.length) (splitWidth (s.split C A) / 32) ((s.pair C l.pair).oq l.queue)
        (∀ w ∈ got.1.flatten, w.poison = false) → l.k ≤ rows.length + got.1.length → Gives (.weightLoadStart c a g) s fun t =>
          (t.group C A G).loading = none ∧ (t.pair C l.pair).oq l.queue = got.2 ∧
          (∃ x, (t.group C A G).shadow = some x ∧ x.fmt = l.fmt ∧
            x.rows = rows ++ got.1.map (fun ws => ws.flatMap fun w => bytesOfWord w.data)) ∧
          (∀ o ∈ (t.strm C l.pair .x).ops, o.seq = l.seq → o.ran = true) ∧ SameBut [.sent, .groups, .pairs, .ctxs] s t)) ∧
    (∀ (l : WLoad) (k : Nat), let C := c.val; let A := a.val
      s.splitWanted C A = some l → s.runner C l.pair = some k →
      ((∀ g < 4, (s.group C A g).holdsChange l = false) → Gives (.splitChange c a) s fun t =>
        t.split C A = l.split ∧ (∀ g < 4, (t.group C A g).active = none ∧ (t.group C A g).shadow = none ∧ (t.group C A g).loading = none) ∧
        (∀ g < splitGroups l.split, (A, g, l.pair - (s.ctx k).o) ∈ (t.ctx k).owned) ∧
        SameBut [.sent, .groups, .splits, .ctxs] s t) ∧
      (∀ g < 4, (∃ j ∈ (s.group C A g).jobs, (j.inject < j.slots ∨ j.flight ≠ []) ∧
          (∀ x ∈ (s.group C A g).jobs, (s.group C A g).behind l x = false)) ∨ (s.group C A g).loading.isSome = true →
        Gives (.splitChange c a) s fun t => SameBut [.sent] s t))

/-- VECTOR_SLOT, COLUMN_SUM and TENSOR_CLOSE -/
def Obligations.SlotsPassThroughTheArray : Prop :=
  ∀ (s : State) (c : Fin 8),
    (∀ (a : Fin 2) (g : Fin 4) (j : Job) (w : WSet) (k : Nat), let C := c.val; let A := a.val; let G := g.val
      (s.group C A G).jobs = [j] → j.inject < j.slots → j.outq = [] → j.swap = false → j.popped = [] → j.checked = false →
      s.runner C j.pair = some k → (s.group C A G).active = some w →
      let need := slotWords j.fmt w.rows.length
      let got := ((s.pair C j.pair).oq j.oq).take need
      got.length = need → (∀ x ∈ got, x.poison = false ∧ x.under = false) → Gives (.vectorSlot c a g) s fun t =>
        (t.pair C j.pair).oq j.oq = ((s.pair C j.pair).oq j.oq).drop need ∧
        (∃ y : Job, (t.group C A G).jobs = [y] ∧ y.inject = j.inject + 1 ∧
          ∃ f : SlotSums, y.flight = j.flight ++ [f] ∧ f.t = j.inject ∧ f.isCheck = false ∧
            f.sums = (List.range (splitWidth (s.split C A))).map (fun col =>
              columnSum j.mode j.fmt w.fmt (actRows j.fmt w.rows.length (got.flatMap fun x => bytesOfWord x.data)) (w.column col))) ∧
        SameBut [.sent, .groups, .pairs, .ctxs] s t) ∧
    (∀ (a : Fin 2) (g : Fin 4) (j : Job) (rest : List Job) (f : SlotSums) (fs : List SlotSums) (k : Nat),
      let C := c.val; let A := a.val; let G := g.val
      (s.group C A G).jobs = j :: rest → j.outq = [] → j.flight = f :: fs → f.isCheck = false → s.runner C j.pair = some k →
      j.col + 1 < splitWidth (s.split C A) → Gives (.columnSum c a g) s fun t =>
        (∃ y rest', (t.group C A G).jobs = y :: rest' ∧ y.col = j.col + 1 ∧ y.flight = f :: fs) ∧
        (j.keeps = true → Rec.phase j.record = 1 → SameBut [.sent, .groups, .accs, .pairs, .ctxs] s t ∧
          t.acc C A (Rec.base j.record + f.t) (G * splitWidth (s.split C A) + j.col) =
            { val := accOf j.mode j.fmt (nth (0, false) f.sums j.col).1, ov := (nth (0, false) f.sums j.col).2 })) ∧
    (∀ (q : Fin 4) (i : Fin 16) (x : ScaleClose) (k : Nat), let C := c.val; let Q := q.val
      s.runner C Q = some k → (s.slot C Q i.val).closing = some x →
      (∀ a < 2, ∀ g < 4, ∀ j ∈ (s.group C a g).jobs, ¬ (j.pair = Q ∧ j.seq ≤ x.seq ∧ Rec.slot j.record = i.val)) →
      Gives (.tensorClose c q i) s fun t => (t.slot C Q i.val).isOpen = false ∧ (t.slot C Q i.val).closed = true ∧
        (t.slot C Q i.val).closing = none ∧ (t.slot C Q i.val).closedScale = closeScale x.record (s.slot C Q i.val) ∧
        (∀ n, n ≠ slotKey C Q i.val → KV.get ScaleSlot.zero t.slots n = KV.get ScaleSlot.zero s.slots n))

/-- PUT_PACKET, SPUT_DATA, SPUT_LAST and FLAG_PACKET at an open window, and a packet that fails a check -/
def Obligations.PutsAndFlagsArriveAtTheirWindow : Prop :=
  ∀ (s : State) (p : Packet) (cmd : Instr) (kind : BitVec 4),
    (cmd, kind) ∈ [(Instr.putPacket p, (0 : BitVec 4)), (Instr.sputData p, 1), (Instr.sputLast p, 2), (Instr.flagPacket p, 7)] →
    p.kind = kind → p.dst < 8 → (kind = 2 → s.sputPending p = false) →
    let e := s.win p.dst p.window
    let k := wnOwner e
    let c := s.ccore k
    let a := wnBase e + p.off
    (s.windowCheck p.dst p.window p.gen p.src (rightsOf kind) p.off p.count = none → s.cstate k = csRunning → s.switchCore k = none →
      Gives cmd s fun t => t.fabric = s.fabric.erase p ++ [p.answer pkAck 0] ∧
        (kind ≠ 7 → (∀ (i : Nat) (h : i < p.data.length), t.spm c (a + i) = p.data[i] ∧ t.spmPoison c (a + i) = p.poison) ∧
          MemBut (spmAddr c a) (32 * p.data.length) s t) ∧
        (kind = 0 ∨ kind = 1 → SameBut [.sent, .fabric, .mem, .poison] s t) ∧
        (kind = 2 → (sputId p ∉ s.sputBad → t.flag c (32 + p.flag.toNat) = true) ∧
          SameBut [.sent, .fabric, .mem, .poison, .flags, .overruns, .dict, .ctxs, .sputBad] s t) ∧
        (kind = 7 → t.flag c (32 + p.flag.toNat) = true ∧ SameBut [.sent, .fabric, .flags, .overruns, .dict] s t)) ∧
    (∀ code, s.windowCheck p.dst p.window p.gen p.src (rightsOf kind) p.off p.count = some code → Gives cmd s fun t =>
      t.fabric = s.fabric.erase p ++ [p.answer pkNack code] ∧ t.dget 0x2500 0x2E = (s.dget 0x2500 0x2E + 1) % 2 ^ 32 ∧
        SameBut ([.sent, .fabric, .sputBad] ++ logFields) s t ∧ LogOnly s t ∧ DictBut ((0x2500, 0x2E) :: logEntries) s t)

/-- GET_REQUEST, AADD_INT32 and AADD_FP32 at an open window -/
def Obligations.GetsAndAddsArriveAtTheirWindow : Prop :=
  ∀ (s : State) (p : Packet), p.dst < 8 → s.ecc = [] →
    let e := s.win p.dst p.window
    let k := wnOwner e
    let c := s.ccore k
    let a := wnBase e + p.off
    s.windowCheck p.dst p.window p.gen p.src (rightsOf p.kind) p.off p.count = none → s.cstate k = csRunning → s.switchCore k = none →
    (p.kind = 3 → Gives (.getRequest p) s fun t => SameBut [.sent, .fabric] s t ∧ t.fabric = s.fabric.erase p ++
      (packWords ((List.range p.count).map fun i => (s.spm c (a + i), s.spmPoison c (a + i)))).map (fun r =>
        { p.answer 4 0 with addr := winAddr p.window p.gen (p.off + r.1), words := BitVec.ofNat 4 (r.2.1.length - 1),
                            data := r.2.1, poison := r.2.2 })) ∧
    (p.kind = 5 → Gives (.aaddInt32 p) s fun t => t.fabric = s.fabric.erase p ++ [p.answer pkAck 0] ∧
      (∀ (i : Nat) (h : i < p.data.length), t.spm c (a + i) = addInt8 (s.spm c (a + i)) p.data[i]) ∧
      MemBut (spmAddr c a) (32 * p.data.length) s t ∧ SameBut [.sent, .fabric, .mem, .poison] s t) ∧
    (p.kind = 6 → s.strict = false → Gives (.aaddFp32 p) s fun t => t.fabric = s.fabric.erase p ++ [p.answer pkAck 0] ∧
      (∀ (i : Nat) (h : i < p.data.length), t.spm c (a + i) = addFp8 (s.spm c (a + i)) p.data[i]) ∧
      MemBut (spmAddr c a) (32 * p.data.length) s t ∧ SameBut [.sent, .fabric, .mem, .poison, .ctxs, .dict] s t) ∧
    (p.kind = 6 → s.strict = true →
      (∀ i < p.data.length, (s.round p.dst (a + i)).length + 1 < wnRed e ∧
        ∀ y ∈ s.round p.dst (a + i), ¬ (y.unit = p.src ∧ y.ctx = p.k)) →
      Gives (.aaddFp32 p) s fun t => t.fabric = s.fabric.erase p ++ [p.answer pkHold 0] ∧
        (∀ i < p.data.length, t.round p.dst (a + i) = s.round p.dst (a + i) ++ [Contribution.mk p.src p.k p i]) ∧
        SameBut [.sent, .fabric, .rounds] s t)

/-- ACK, NACK, HOLD, GET_REPLY and MEMORY_READ_REPLY at the core that waits -/
def Obligations.AnswersReachTheirOperation : Prop :=
  ∀ (s : State) (p : Packet), let k := p.k; let q := p.srcPair.toNat; let c := p.dst
    p.dst < 8 → p.ctxValid = true → s.cstate k = csRunning → s.ccore k = c → (s.ctx k).move = .still →
    let pr := s.pair c q
    (∀ o : Out, findOut pr.outstanding p.seq.toNat = some o →
      (p.kind = 8 → Gives (.ack p) s fun t => t.pair c q = pr.dropOut o.seq ∧ SameBut [.sent, .fabric, .pairs] s t) ∧
      (p.kind = 9 → Gives (.nack p) s fun t => (t.pair c q).outstanding = (pr.dropOut o.seq).outstanding ∧
        (∀ x ∈ (t.strm c q .a).ops, x.seq = o.op → x.failed = true ∧ x.ran = true) ∧
        ((∃ x ∈ pr.sa.ops, x.seq = o.op ∧ x.failed = false) → t.cget k 0x2A = (s.cget k 0x2A + 1) % 2 ^ 32) ∧
        SameBut ([.sent, .fabric, .pairs, .frame] ++ logFields) s t ∧ LogOnly s t) ∧
      (p.kind = 13 → Gives (.hold p) s fun t => t.pair c q = pr.putOut { o with held := true } ∧ SameBut [.sent, .fabric, .pairs] s t) ∧
      (∀ cmd kind, (cmd, kind) ∈ [(Instr.getReply p, (4 : BitVec 4)), (Instr.memoryReadReply p, 12)] → p.kind = kind →
        let a := o.loc + ((if kind = 4 then p.off else p.addr.toNat) - o.off)
        (p.data.length = 1 → (s.ctx k).ownsWord a = false → s.matchWindow c c rPut a = none →
          Gives cmd s fun t => SameBut ([.sent, .fabric, .pairs] ++ logFields) s t ∧ LogOnly s t) ∧
        ((∀ i < p.data.length, (s.ctx k).ownsWord (a + i) = true) → Gives cmd s fun t =>
          (∀ (i : Nat) (h : i < p.data.length), t.spm c (a + i) = p.data[i] ∧ t.spmPoison c (a + i) = p.poison) ∧
          t.pair c q = (if o.left - p.data.length = 0 then pr.dropOut o.seq else pr.putOut { o with left := o.left - p.data.length }) ∧
          MemBut (spmAddr c a) (32 * p.data.length) s t ∧ SameBut [.sent, .fabric, .pairs, .mem, .poison] s t))) ∧
    (findOut pr.outstanding p.seq.toNat = none → ∀ cmd kind,
      (cmd, kind) ∈ [(Instr.ack p, (8 : BitVec 4)), (.nack p, 9), (.hold p, 13), (.getReply p, 4), (.memoryReadReply p, 12)] → p.kind = kind →
      Gives cmd s fun t => t.dget 0x2500 0x2F = (s.dget 0x2500 0x2F + 1) % 2 ^ 32 ∧ SameBut ([.sent, .fabric] ++ logFields) s t ∧ LogOnly s t)

/-- MEMORY_WRITE, MEMORY_READ_REQUEST, LINK_TIMEOUT and LATE_REPLY_PAUSE -/
def Obligations.MemoryPacketsAndTimeouts : Prop :=
  ∀ (s : State) (p : Packet), let a := 32 * p.addr.toNat
    (p.kind = 10 → s.memRefusal p = none → (∀ i < p.data.length, s.regionOf (a + 32 * i) ≠ .ctl) →
      Gives (.memoryWrite p) s fun t => t.fabric = s.fabric.erase p ++ [p.answer pkAck 0] ∧
        (∀ (i : Nat) (h : i < p.data.length), t.wordAt (a + 32 * i) = p.data[i] ∧ t.wordPoison (a + 32 * i) = p.poison) ∧
        MemBut a (32 * p.data.length) s t ∧ SameBut [.sent, .fabric, .mem, .poison] s t) ∧
    (p.kind = 11 → s.memRefusal p = none → s.ecc = [] → Gives (.memoryReadRequest p) s fun t =>
      t.fabric = s.fabric.erase p ++ (packWords ((List.range p.count).map fun i => s.memWord (32 * (p.addr.toNat + i)))).map (fun r =>
        { p.answer 12 0 with addr := BitVec.ofNat 43 (p.addr.toNat + r.1), words := BitVec.ofNat 4 (r.2.1.length - 1),
                             data := r.2.1, poison := r.2.2 }) ∧ SameBut [.sent, .fabric] s t) ∧
    (∀ code cmd kind, (cmd, kind) ∈ [(Instr.memoryWrite p, (10 : BitVec 4)), (.memoryReadRequest p, 11)] → p.kind = kind →
      s.memRefusal p = some code → Gives cmd s fun t => t.fabric = s.fabric.erase p ++ [p.answer pkNack code] ∧
        SameBut ([.sent, .fabric] ++ logFields) s t ∧ LogOnly s t) ∧
    (∀ (n : Nat) (o : Out), p.src < 8 → p.ctxValid = true → s.cstate p.k = csRunning → s.ccore p.k = p.src →
      findOut (s.pair p.src p.srcPair.toNat).outstanding p.seq.toNat = some o →
      (o.held = true → Gives (.linkTimeout p n) s fun t => SameBut [.sent, .timeNs] s t) ∧
      (o.held = false → Gives (.linkTimeout p n) s fun t =>
        (t.pair p.src p.srcPair.toNat).outstanding = ((s.pair p.src p.srcPair.toNat).dropOut o.seq).outstanding ∧
          (∀ x ∈ (t.strm p.src p.srcPair.toNat .a).ops, x.seq = o.op → x.failed = true ∧ x.ran = true) ∧
          (s.linkOf p.src p.dst = none → SameBut ([.sent, .timeNs, .pairs, .frame, .sputBad] ++ logFields) s t))) ∧
    (∀ n : Nat, p.src = 9 →
      (s.promoOf p.tag.toNat p.seq.toNat = none → Gives (.linkTimeout p n) s fun t => SameBut [.sent, .timeNs] s t) ∧
      (∀ x : Promotion, s.promoOf p.tag.toNat p.seq.toNat = some x → x.unanswered = [p.seq.toNat] →
        Gives (.linkTimeout p n) s fun t => t.promotions = s.promotions.filter (· != x))) ∧
    (∀ n h l : Nat, h < 2 → p.src = 10 + h → s.linkOf p.src p.dst = some l → s.romWait = false → s.portsServe = true →
      KV.get [] s.timeouts l = [] → Gives (.linkTimeout p n) s fun t =>
        t.sent = (if p.kind = 3 ∨ p.kind = 11 then [.completerAbort (portOf h)] else []) ∧
          SameBut ([.sent, .timeNs, .timeouts] ++ logFields) s t ∧ LogOnly s t ∧ DictBut logEntries s t) ∧
    (∀ c : Fin 8, KV.get [] s.late c.val ≠ [] → Gives (.lateReplyPause c) s fun t => KV.get [] t.late c.val = []) ∧
    (∀ c : Fin 8, KV.get [] s.late c.val = [] → Gives (.lateReplyPause c) s fun t => SameBut [.sent] s t)

/-- The tick: frame number, times and Orrery class; what follows a lock source that was lost; the master ports' syncs -/
def Obligations.TicksNumberTheFrames : Prop :=
  ∀ (s : State) (n : Nat),
    (s.ticks = true → Gives (.tick n) s fun t =>
      t.frameNo = (if s.ticked then (s.frameNo + 1) % 2 ^ 32 else 0) ∧ t.tickNs = max s.timeNs n ∧ t.timeNs = max s.timeNs n ∧
        t.ticked = true ∧ t.tickPrev = s.tickNs ∧ t.tickPredicted = max s.timeNs n + s.periodNs ∧ t.frame.n = t.frameNo ∧
        t.dget 0x2700 0x10 = t.frameNo % 24 ∧ t.clearing = 0) ∧
    (s.ticks = false → Gives (.tick n) s fun t => t.timeNs = max s.timeNs n ∧ SameBut [.sent, .timeNs] s t) ∧
    (s.dget 0x2401 0x02 = 1 → s.lockGood = true → ∃ t, exec (.frameSyncIn n) s = .next t ∧ exec (.tick n) s = .next t) ∧
    (s.dget 0x2401 0x02 = 1 → s.lockGood = false → Gives (.frameSyncIn n) s fun t =>
      t.lockGood = true ∧ SameBut [.sent, .timeNs, .lockGood] s t) ∧
    (s.dget 0x2401 0x02 ≠ 1 → Gives (.frameSyncIn n) s fun t => SameBut [.sent, .timeNs] s t) ∧
    (s.dget 0x2401 0x02 ≠ 0 → s.lockGood = true → Gives .syncLost s fun t => t.lockGood = false ∧
      t.dget 0x2401 0x09 = (s.dget 0x2401 0x09 + 1) % 2 ^ 32 ∧
      SameBut ([.sent, .lockGood] ++ logFields) s t ∧ LogOnly s t ∧ DictBut ((0x2401, 0x09) :: logEntries) s t) ∧
    (Gives .frameSyncOutPulse s fun t => t.sent = [.syncOut (s.tickNs + s.dget 0x2401 0x03 * 1000)] ∧ SameBut [.sent] s t) ∧
    (Gives .syncInterval s fun t => SameBut [.sent] s t ∧
      t.sent = ((List.range 16).filter (fun q => s.role q == 1)).map (fun q => Message.gptp q s.timeNs))

/-- Slice boundaries, switches, slot clearing and frame deadlines -/
def Obligations.SlicesSwitchTheContexts : Prop :=
  ∀ s : State,
    (∀ n : Nat, s.dev ≠ dsOp → s.dev ≠ dsMaint → Gives (.sliceBoundary n) s fun t => SameBut [.sent, .timeNs] s t) ∧
    (∀ n : Nat, s.dev = dsOp ∨ s.dev = dsMaint →
      (s.waiting = [] → Gives (.sliceBoundary n) s fun t => t.waiting = [] ∧
        (∀ k, t.ctx k = if k ∈ s.runningBE (fun _ => true) then { s.ctx k with ranSlices := (s.ctx k).ranSlices + 1 } else s.ctx k) ∧
        SameBut [.sent, .timeNs, .ctxs, .waiting, .dict] s t ∧ DictBut [(0x2500, 0x33)] s t) ∧
      (s.waiting ≠ [] → Gives (.sliceBoundary n) s fun t => ∀ k ∈ s.runningBE (fun _ => true),
        1 ≤ (s.ctx k).ranSlices → s.cget k 0x40 ≠ 2 → (t.ctx k).move = .switchingOut) ∧
      (∀ (k c : Nat) (rest : List Nat), s.waiting = k :: rest → k ∉ rest → s.cstate k = csWaiting → s.runningBE (fun _ => true) = [] →
        allCores.find? (fun d => s.mayDispatch k d) = some c →
        Gives (.sliceBoundary n) s fun t => (t.ctx k).dest = some c ∧ (t.ctx k).move = .switchingIn ∧ k ∉ t.waiting)) ∧
    (∀ k : Fin 64, s.cstate k.val = csRunning → (s.ctx k.val).move = .switchingOut → (s.ctx k.val).dest = none →
      s.allotUp k.val = true → s.isFenced (s.ccore k.val / 2) = false → KV.get [] s.late (s.ccore k.val) = [] →
      Gives (.switch k) s fun t => (t.ctx k.val).save.isSome = true ∧ (t.ctx k.val).move = .still ∧ (t.ctx k.val).placed = false ∧
        t.ccore k.val = 255 ∧ (t.cstate k.val = csWaiting ∨ t.cstate k.val = csFinished) ∧
        (∀ q ∈ (s.ctx k.val).pairsOf, t.pair (s.ccore k.val) q = .zero)) ∧
    (∀ (k : Fin 64) (c : Nat), (s.ctx k.val).move = .switchingIn → (s.ctx k.val).dest = some c → c < 8 → s.isFenced (c / 2) = false →
      s.allotUp k.val = true → s.clearing.getLsbD c = false → KV.get [] s.late c = [] →
      (∀ m < 64, m ≠ k.val → s.ccore m = c → s.cstate m ≠ csTearing ∧ ¬ (s.cstate m = csRunning ∧ (s.ctx m).move = .switchingOut)) →
      Gives (.switch k) s fun t => t.cstate k.val = csRunning ∧ t.ccore k.val = c ∧ (t.ctx k.val).placed = true ∧
        ((t.ctx k.val).move = .still ∨ t.allEnd k.val = true) ∧ (t.ctx k.val).dest = none ∧ (t.ctx k.val).save = none ∧
        t.cget k.val 0x15 = (s.cget k.val 0x15 + 1) % 2 ^ 32) ∧
    (∀ k : Fin 64, (s.ctx k.val).move = .still → Gives (.switch k) s fun t => SameBut [.sent] s t) ∧
    (∀ c : Fin 8, Gives (.slotClearing c) s fun t => t.clearing = s.clearing ||| BitVec.ofNat 8 (2 ^ c.val) ∧
      t.waiting = s.waiting ++ s.runningBE (fun d => d == c.val) ∧
      (∀ k ∈ s.runningBE (fun d => d == c.val), (t.ctx k).move = .switchingOut) ∧
      SameBut [.sent, .clearing, .ctxs, .waiting, .dict] s t ∧ DictBut [(0x2500, 0x33)] s t) ∧
    (∀ k : Fin 64, s.dev = dsOp → s.lcReady k.val = true →
      ((s.ctx k.val).started = true ∧ s.allEnd k.val = false) ∨ s.cget k.val 0x40 = 2 →
      Gives (.frameDeadline k) s fun t => t.cget k.val 0x19 = (s.cget k.val 0x19 + 1) % 2 ^ 32 ∧
        t.frame.faults = s.frame.faults ++ [FrameFault.mk 0x20A3 (if s.ccore k.val < 8 then some (s.ccore k.val) else none) false true] ∧
        SameBut ([.sent, .frame] ++ logFields) s t ∧ LogOnly s t ∧ DictBut ((0x2600 + k.val, 0x19) :: logEntries) s t)

/-- An Almanac slot empties the core's sets, tests it and gives its verdict; a silent slot fails -/
def Obligations.SlotsTestEveryCore : Prop :=
  ∀ (s : State) (c : Fin 8), let b := BitVec.ofNat 8 (2 ^ c.val)
    let late (k : Nat) : Prop := k < 64 ∧ s.lcReady k = true ∧ s.ccore k = c.val ∧ (s.ctx k).started = true ∧ s.allEnd k = false
    let aborts (t : State) : Prop := ∀ k, late k → t.allEnd k = true ∧ t.cget k 0x1A = (s.cget k 0x1A + 1) % 2 ^ 32
    let empties (t : State) : Prop := ∀ a < 2, ∀ g < 4, (t.group c.val a g).active = none ∧ (t.group c.val a g).shadow = none ∧
      (t.group c.val a g).loading = none
    (s.sealing = true → s.frame.isOpen = true → s.frame.slotDone.getLsbD c.val = false → s.isFenced (c.val / 2) = false →
      (s.ringsOn.getLsbD (c.val / 2) = true → ∀ (outs : List (List Byte)) (missed : List Nat), let passed := s.katFails c.val outs = []
        Gives (.almanacSlot c outs missed) s fun t => t.frame.slotDone = s.frame.slotDone ||| b ∧
          (passed → t.frame.slotPassed = s.frame.slotPassed ||| b) ∧ (¬ passed → t.frame.slotPassed = s.frame.slotPassed) ∧
          aborts t ∧ empties t ∧
          t.dget 0x2700 0x0C = (s.dget 0x2700 0x0C + 1) % 2 ^ 32 ∧
          (¬ passed → t.dget 0x2700 0x0E = (s.dget 0x2700 0x0E + 1) % 2 ^ 32) ∧
          ((∃ x ∈ s.slotInstances c.val, x.index ∈ missed) → t.frame.orreryOk = false ∧ t.safeState ≠ 0)) ∧
      (Gives (.slotVerdictTimeout c) s fun t => t.frame.slotDone = s.frame.slotDone ||| b ∧ t.frame.slotPassed = s.frame.slotPassed ∧
        aborts t ∧ (s.ringsOn.getLsbD (c.val / 2) = true → empties t) ∧
        (∃ l, t.frame.faults = s.frame.faults ++ l ++ [FrameFault.mk 0x4001 (some c.val) true true]) ∧
        t.dget 0x2700 0x0E = (s.dget 0x2700 0x0E + 1) % 2 ^ 32 ∧
        ((∀ k, ¬ late k) → SameBut ([.sent, .frame, .clearing, .groups] ++ logFields) s t ∧ LogOnly s t ∧
          DictBut ((0x2700, 0x0E) :: logEntries) s t))) ∧
    (s.frame.slotDone.getLsbD c.val = true ∨ s.isFenced (c.val / 2) = true → ∀ cmd,
      cmd = .slotVerdictTimeout c ∨ (∃ outs missed, cmd = .almanacSlot c outs missed) → Gives cmd s fun t => SameBut [.sent] s t) ∧
    (s.ringsOn.getLsbD (c.val / 2) = false → ∀ outs missed, Gives (.almanacSlot c outs missed) s fun t => SameBut [.sent] s t)

/-- The seal of the frame integrity word: valid, invalid, and what a valid one ends; the SAFE_OK edge -/
def Obligations.TheSealGivesTheVerdict : Prop :=
  ∀ (s : State) (n : Nat),
    (s.sealing = true → s.frame.isOpen = true → s.inputsIn = true → Gives (.fiwSeal n) s fun t =>
      t.frame.isOpen = false ∧ t.frame.faults = [] ∧
        (s.verdictValid = true → t.faultN = true ∧ t.safeState = 0 ∧ t.dget 0x2700 0x04 = 0 ∧ t.dget 0x2700 0x06 = natOf ((s.atTime n).fiw true false) ∧
          t.dget 0x2700 0x08 = (s.dget 0x2700 0x08 + 1) % 2 ^ 32 ∧ t.dget 0x2700 0x09 = s.dget 0x2700 0x09) ∧
        (s.verdictValid = false →
          t.dget 0x2700 0x09 = (s.dget 0x2700 0x09 + 1) % 2 ^ 32 ∧ t.dget 0x2700 0x08 = s.dget 0x2700 0x08)) ∧
    (s.inputsIn = false → Gives (.fiwSeal n) s fun t => SameBut [.sent, .timeNs] s t) ∧
    (s.dev = dsOp → s.safeState = 0 → s.devReset = 0 → Gives .safeOkToggle s fun t =>
      t.safeOk = (!s.safeOk) ∧ SameBut [.sent, .safeOk] s t) ∧
    (s.dev ≠ dsOp ∨ s.safeState ≠ 0 ∨ s.devReset ≠ 0 → Gives .safeOkToggle s fun t =>
      t.safeOk = false ∧ SameBut [.sent, .safeOk] s t)

/-- The safety manager's watchdog and lockstep: the safe state by a device reset -/
def Obligations.SafetyManagerFaultsResetTheDevice : Prop :=
  ∀ (s : State) (c : Instr) (code : Nat), (c, code) ∈ [(Instr.smWatchdog, 0x4005), (.lockstepMismatch, 0x4004)] →
    (s.asleep = false → s.devReset = 0 → Gives c s fun t =>
      t.devReset = 1 ∧ t.devCause = code ∧ t.dev = dsRecovering ∧ (s.safeState ≤ 2 → t.safeState = 2) ∧
        (s.safeState ≤ 1 → t.dget 0x2700 0x04 = 2) ∧ t.safeOk = false ∧ t.faultN = false ∧
        t.pwrEn = 0xFF ∧ t.ctxs = s.ctxs ∧ t.eps = s.eps ∧ t.fuses = s.fuses ∧ (c = .smWatchdog → code ∈ t.aonCodes)) ∧
    (s.asleep = false → s.devReset ≠ 0 → s.devReset ≠ 3 → Gives c s fun t =>
      t.devReset = s.devReset ∧ t.devLater = s.devLater + 1 ∧ t.dev = s.dev ∧ t.ctxs = s.ctxs ∧ t.eps = s.eps ∧ t.fuses = s.fuses) ∧
    (s.devReset = 3 ∨ s.asleep = true → Gives c s fun t => SameBut [.sent] s t)

/-- The end of a teardown, and the contexts of a lost host -/
def Obligations.TeardownsEndAndHostsLoseTheirContexts : Prop :=
  ∀ s : State,
    (∀ (k : Fin 64) (n : Nat), s.cstate k.val = csTearing → (∀ c < 8, KV.get [] s.late c = []) →
      (∀ w ∈ (s.ctx k.val).heldWins, (s.atTime n).spaced (s.home k.val) w = true ∨ wnOpen (s.win (s.home k.val) w) = false) →
      Gives (.teardown k n) s fun t => t.cstate k.val = csFree ∧ t.cclass k.val = 0 ∧ t.cget k.val 0x03 = 0 ∧ t.ccore k.val = 255 ∧
        t.home k.val = 255 ∧ t.ctx k.val = .zero ∧ (∀ h ∈ (s.ctx k.val).handles, Completed h 0 t) ∧
        (s.home k.val < 8 → ∀ w ∈ (s.ctx k.val).heldWins, wnOpen (t.win (s.home k.val) w) = false)) ∧
    (∀ (k : Fin 64) (n : Nat), s.cstate k.val ≠ csTearing → Gives (.teardown k n) s fun t => SameBut [.sent, .timeNs] s t) ∧
    (∀ port : HostPort, let h := hostIx port
      (s.hostState h = 2 ∨ s.asleep = true → Gives (.hostLossGrace port) s fun t => SameBut [.sent] s t) ∧
      (s.hostState h ≠ 2 → s.dev = dsLowPower → s.asleep = false → Gives (.hostLossGrace port) s fun t =>
        h ∈ t.graceDue ∧ SameBut [.sent, .graceDue] s t) ∧
      (s.hostState h ≠ 2 → s.dev ≠ dsLowPower → Gives (.hostLossGrace port) s fun t => ∀ k < 64,
        (s.cstate k ≠ csFree → s.cget k 0x03 = h + 1 → s.cget k 0x05 = 0 → t.cstate k = csTearing) ∧
        (s.cget k 0x05 = 1 → s.cget k 0x1F = 0 → t.cstate k = s.cstate k)))

/-- ADAPT_BATCH checks its entries and keeps the batch; a poll delivers it to the replica that has done step n − 2 -/
def Obligations.BatchesAreCheckedKeptAndDelivered : Prop :=
  ∀ s : State,
    (∀ (iss : Issuer) (p0 p1 p2 : BitVec 64) (u : State) (r : HRef), let g := p0.toNat; let n := u.batchSize g
      Accepted iss true (.groupCreator g) stPOSM (groupOk p0 && decide (p1.toNat < 2 ^ 32)) s r u →
      ((u.adGroup g).replicas = [] → Gives (.adaptBatch iss p0 p1 p2) s fun t => Completed r STATE_CONFLICT t ∧ t.adapt = s.adapt) ∧
      ((u.adGroup g).replicas ≠ [] → u.areaLen g < p2.toNat + 32 * n →
        Gives (.adaptBatch iss p0 p1 p2) s fun t => Completed r CMD_PARAM t ∧ t.adapt = s.adapt) ∧
      (∀ code, (u.adGroup g).replicas ≠ [] → p2.toNat + 32 * n ≤ u.areaLen g → u.rangeCode (u.areaBase g + p2.toNat) (32 * n) = some code →
        Gives (.adaptBatch iss p0 p1 p2) s fun t => Completed r code t ∧ t.adapt = s.adapt) ∧
      ((u.adGroup g).replicas ≠ [] → p2.toNat + 32 * n ≤ u.areaLen g → u.rangeCode (u.areaBase g + p2.toNat) (32 * n) = none →
        u.ecc = [] → u.poison = [] → Gives (.adaptBatch iss p0 p1 p2) s fun t =>
        (t.hslot r).st = 2 ∧ (∃ l : List Nat, l = (List.range n).map (fun i => fieldAt (t.manifestAt g p2.toNat i) 24 1) ∧
          (t.adGroup g).batches = (s.adGroup g).batches ++
            [{ number := p1.toNat, offset := p2.toNat, handle := r, done := false, status := l, delivered := [] }]) ∧
        (n = 1 → u.areaBase g + u.areaLen g ≤ 0x1000000000 →
          fieldAt (t.manifestAt g p2.toNat 0) 24 1 = u.sampleStatus g (u.manifestAt g p2.toNat 0)))) ∧
    (∀ g : Fin 9, let x := s.adGroup g.val
      (x.replicas.length < 2 ∨ (∀ b ∈ x.batches, ∀ k ∈ x.replicas, k ∈ b.delivered) →
        Gives (.batchPoll g) s fun t => SameBut [.sent] s t) ∧
      (∀ (k : Nat) (b : Batch) (ws : List (SWord × Bool)), let src := 10 + s.groupHost g.val; let c := s.home k
        s.sealing = true → 2 ≤ x.replicas.length → x.replicas.Nodup → k ∈ x.replicas → k < 64 → x.batches = [b] → k ∉ b.delivered →
        (∀ m ∈ x.replicas, m ≠ k → m ∈ b.delivered) → s.fresh.winRead src c (s.adWin k wSample) 0 1 = (.ok ws, s.fresh) →
        let step := natOf (slice (bytesOfWord (nth (0, false) ws 0).1) 0 4)
        let v := s.fresh.noteStep k step; let there := v.dramRange (v.areaBase g.val + b.offset) (32 * b.status.length)
        let u := v.touchBatch g.val b; let e := u.win c (s.adWin k wSample)
        let words := u.batchWords g.val b k x.replicas.length
        (step + 2 < b.number → Gives (.batchPoll g) s fun t => t.cget k 0x9A = step ∧ SameBut [.sent, .dict, .freeIx] s t ∧
          DictBut [(0x2600 + k, 0x9A), (0x2600 + k, 0x9E)] s t) ∧
        (b.number ≤ step + 2 → there = true → (State.winWrite src c (s.adWin k wSample) (some (u.batchFlag k)) words.length
            (1 + b.number % 2 * ((wnLen e - 1) / 2)) words u).2 = none →
          Gives (.batchPoll g) s fun t => (t.adGroup g.val).batches = [{ b with delivered := b.delivered ++ [k] }] ∧
            t.kFlag (wnOwner e) (32 + u.batchFlag k) = true) ∧
        (b.number ≤ step + 2 → there = false → b.done = false → x.replicas.getLast? = some k →
          Gives (.batchPoll g) s fun t => Completed b.handle codePartFenced t ∧
            (t.adGroup g.val).batches = [{ b with done := true, status := b.status.map (fun _ => 1), delivered := [] }])))

/-- The verdict on two replicas' digests, and the expulsion of one that lags -/
def Obligations.DigestsAgreeRollBackAndLag : Prop :=
  ∀ (s : State) (g : Fin 9), let x := s.adGroup g.val
    let rolledBack (l : List Nat) (t : State) : Prop := (t.adGroup g.val).agreed = x.agreed ∧ (t.adGroup g.val).rollbacks = x.rollbacks + 1 ∧
      ∀ k ∈ l, t.cget k 0x9C = (s.cget k 0x9C + 1) % 2 ^ 32
    (s.sealing = false → Gives (.digestPoll g) s fun t => SameBut [.sent] s t) ∧
    (∀ k m c d e : Nat, s.sealing = true → x.replicas = [k, m] → k ≠ m → k < 64 → m < 64 → s.cstate k ≠ csFree → s.cstate m ≠ csFree →
      x.seen = [] → x.judged = [] → x.due = none → s.fresh.digestRecord g.val k = (s.fresh, some (c, d)) →
      s.fresh.digestRecord g.val m = (s.fresh, some (c, e)) →
      (d = e → Gives (.digestPoll g) s fun t => (t.adGroup g.val).agreed = c ∧ (t.adGroup g.val).rollbacks = 0 ∧
        (t.adGroup g.val).batches.map (fun b => b.number) = (x.batches.filter (fun b => decide (c < b.number))).map (fun b => b.number) ∧
        k ∈ (t.adGroup g.val).replicas ∧ m ∈ (t.adGroup g.val).replicas ∧ (∀ z ∈ (t.adGroup g.val).replicas, t.cget z 0x9B = c) ∧
        ∀ b ∈ x.batches, b.number ≤ c → b.done = false → Completed b.handle 0 t) ∧
      (d ≠ e → x.rollbacks < 2 → Gives (.digestPoll g) s (rolledBack [k, m])) ∧
      (d ≠ e → 2 ≤ x.rollbacks → Gives (.digestPoll g) s fun t => t.cstate k = csTearing ∧ t.cstate m = csTearing ∧
        t.adGroup g.val = .zero ∧ ∀ b ∈ x.batches, b.done = false → Completed b.handle codeDiverged t)) ∧
    (x.seen = [] → Gives (.adaptLag g) s fun t => SameBut [.sent] s t) ∧
    (∀ (k0 c d : Nat) (rest : List (Nat × Nat × Nat)), x.seen = (k0, c, d) :: rest →
      let late (k : Nat) : Prop := ∀ e ∈ x.seen, e.1 = k → e.2.1 ≠ c
      ((∀ k ∈ x.replicas, ¬ late k) → Gives (.adaptLag g) s fun t => SameBut [.sent] s t) ∧
      Gives (.adaptLag g) s fun t => ∀ k ∈ x.replicas, k < 64 → s.cstate k ≠ csFree → late k →
        t.cstate k = csTearing ∧ k ∉ (t.adGroup g.val).replicas ∧
        let core := if s.ccore k < 8 then s.ccore k else s.home k
        bitAt (t.dget 0x2700 0x1B) core = true ∧ KV.get none t.barred core = some s.frame.n ∧
        (x.replicas.Nodup → x.rollbacks < 2 → (∃ j ∈ x.replicas, ¬ late j) → rolledBack (x.replicas.filter (fun j =>
          j < 64 && s.cstate j != csFree && x.seen.any (fun e => e.1 == j && e.2.1 == c))) t))

/-- ADAPT_PROMOTE sends the agreed words to a running LC context, or says why not -/
def Obligations.PromotionsSendWhatAllAgreedOn : Prop :=
  ∀ (iss : Issuer) (p0 p1 p2 p3 : BitVec 64) (s u : State) (r : HRef),
    let g := p0.toNat; let c := p1.toNat; let k := p2.toNat; let w := bits p3.toNat 5 0
    Accepted iss true (.groupCreator g) [dsPreOp, dsOp]
      (groupOk p0 && decide (p1.toNat < 2 ^ 32) && decide (p2.toNat < 64) && decide (p3.toNat < 2 ^ 27)) s r u →
    (u.cclass k ≠ 1 → Gives (.adaptPromote iss p0 p1 p2 p3) s fun t => Completed r CMD_PARAM t ∧ t.fabric = s.fabric) ∧
    (u.cclass k = 1 → u.cstate k ≠ csRunning → Gives (.adaptPromote iss p0 p1 p2 p3) s fun t =>
      Completed r STATE_CONFLICT t ∧ t.fabric = s.fabric) ∧
    (∀ (a b : Nat) (rest : List Nat), u.cclass k = 1 → u.cstate k = csRunning → (u.adGroup g).replicas = a :: b :: rest →
      (c = (u.adGroup g).agreed → (u.agreedOf a c).2 = u → (u.agreedOf b c).2 = u → (u.agreedOf a c).1 = (u.agreedOf b c).1 → Gives (.adaptPromote iss p0 p1 p2 p3) s fun t =>
        (t.hslot r).st = 2 ∧ t.fabric.length = s.fabric.length + ((u.agreedOf a c).1.length + 7) / 8 ∧
          (∃ p : Promotion, t.promotions = s.promotions ++ [p] ∧ p.group = g ∧ p.checkpoint = c ∧ p.ctx = k ∧ p.window = w ∧
            p.handle = r ∧ p.gen = wnGen (s.win (u.home k) w) ∧ p.failed = none) ∧
          SameBut ([.fabric, .promotions] ++ commandFields) s t ∧ DictBut (commandEntries iss) s t) ∧
      (c ≠ (u.adGroup g).agreed ∨ ((u.agreedOf a c).2 = u ∧ (u.agreedOf b c).2 = u ∧ (u.agreedOf a c).1 ≠ (u.agreedOf b c).1) →
        Gives (.adaptPromote iss p0 p1 p2 p3) s fun t => Completed r codeNotAgreed t ∧ t.fabric = s.fabric ∧ t.promotions = s.promotions)) ∧
    (u.cclass k = 1 → u.cstate k = csRunning → (u.adGroup g).replicas.length < 2 → Gives (.adaptPromote iss p0 p1 p2 p3) s fun t =>
      Completed r codeNotAgreed t ∧ t.fabric = s.fabric ∧ t.promotions = s.promotions)

/-- EXPORT_OPEN, EXPORT_CLOSE and the poll of a channel -/
def Obligations.ExportsCopyWindowsToTheHost : Prop :=
  ∀ s : State,
    (∀ (iss : Issuer) (p0 p1 p2 : BitVec 64) (u : State) (r : HRef), let x := exportOf p0 p1 p2; let e := s.win (u.home x.ctx) x.window
      Accepted iss true .hosts stPOSM (exportParams p0 p1 p2) s r u →
      (u.cget x.ctx 0x03 ≠ r.1 + 1 → Gives (.exportOpen iss p0 p1 p2) s fun t => Completed r NOT_OWNER t ∧
        ∀ ch, KV.get none (t.port (portOf r.1)).channels ch = KV.get none (s.port (portOf r.1)).channels ch) ∧
      (u.cget x.ctx 0x03 = r.1 + 1 → wnOpen e = true → wnOwner e = x.ctx → wnBit e rGet = true → wnBit e (48 + 10 + r.1) = true →
        Gives (.exportOpen iss p0 p1 p2) s fun t => Completed r 0 t ∧ SameBut commandFields s t ∧ DictBut (commandEntries iss) s t ∧
          ∀ ch, KV.get none (t.port (portOf r.1)).channels ch =
            if ch = bits p0.toNat 3 0 then some x else KV.get none (s.port (portOf r.1)).channels ch)) ∧
    (∀ (iss : Issuer) (p0 : BitVec 64) (u : State) (r : HRef), Accepted iss true .hosts stPOSM (decide (p0.toNat < 16)) s r u →
      Gives (.exportClose iss p0) s fun t => Completed r 0 t ∧ SameBut commandFields s t ∧ DictBut (commandEntries iss) s t ∧
        ∀ ch, KV.get none (t.port (portOf r.1)).channels ch =
          if ch = p0.toNat then none else KV.get none (s.port (portOf r.1)).channels ch) ∧
    (∀ (port : HostPort) (ch : Fin 16), let h := hostIx port
      (KV.get none (s.port port).channels ch.val = none ∨ s.dev ≠ dsOp → Gives (.exportPoll port ch) s fun t => SameBut [.sent] s t) ∧
      (∀ (x : Export) (l : List (SWord × Bool)), KV.get none (s.port port).channels ch.val = some x → s.dev = dsOp →
        s.fresh.winRead (10 + h) (s.home x.ctx) x.window x.ready 1 = (.ok l, s.fresh) →
        let b := bytesOfWord (nth (0, false) l 0).1; let n := fieldAt b 0 4
        (nth 0 b 4 ≠ 0xE5 ∨ x.last = some n → Gives (.exportPoll port ch) s fun t => SameBut [.sent] s t) ∧
        (nth 0 b 4 = 0xE5 → x.last ≠ some n → ∀ ws : List SWord, let u := s.fresh.setChannel h ch.val (some { x with last := some n })
          u.exportWords (10 + h) (s.home x.ctx) x.window x.words (x.ready + 1) x.words = (ws, none, u) →
          let a := x.addr + (if x.double then n % 2 * 32 * x.words else 0)
          let slot := (s.port port).ringBase + 128 * ((s.port port).producer.toNat % (s.port port).ringSize)
          Gives (.exportPoll port ch) s fun t => KV.get none (t.port port).channels ch.val = some { x with last := some n } ∧
            SameBut [.sent, .hostMem, .portA, .portB, .dict] s t ∧ DictBut [(0x2500, 0x32)] s t ∧
            ((s.port port).lostSince = 0 → ∀ (i : Nat) (hi : i < (ws.flatMap bytesOfWord).length), a + i < slot ∨ slot + 128 ≤ a + i →
              KV.get memDefault t.hostMem (hostCell h (a + i)) = (ws.flatMap bytesOfWord)[i]))))

/-- Discovery: link up, certificate, challenge, and the timeouts that retry it -/
def Obligations.HeadsAreDiscoveredAndAuthenticated : Prop :=
  ∀ (s : State) (ep : Fin 192), s.noneWaits → let e := ep.val; let x := s.ep e; let i := 0x2200 + e
    let head (ty : Nat) (p : List Byte) : Message := .head e (bytesOf 1 ty ++ bytesOf 1 e ++ bytesOf 2 p.length ++ p)
    (∀ l : Location, (allEps.filter (s.atLocation l) = [e] → x.linkUp = false → s.conflict e = false → s.portFull e = false → Gives (.linkUp l) s fun t =>
        t.ep e = { x with linkUp := true, disc := .certSent } ∧ t.eget e 0x15 = 1 ∧ t.sent = [head 1 []] ∧
          SameBut [.sent, .eps, .dict] s t ∧ DictBut [(i, 0x15)] s t) ∧
      (allEps.filter (s.atLocation l) = [e] → x.linkUp = false → s.conflict e = false → s.portFull e = true → Gives (.linkUp l) s fun t =>
        t.ep e = { x with linkUp := true } ∧ t.eget e 0x15 = 1 ∧ SameBut [.sent, .eps, .dict] s t ∧ DictBut [(i, 0x15)] s t) ∧
      (allEps.filter (s.atLocation l) = [e] → x.linkUp = false → s.conflict e = true → Gives (.linkUp l) s fun t =>
        t.ep e = { x with linkUp := true, disc := .refused } ∧ t.eget e 0x15 = 6 ∧ t.eget e 0x18 = codeLocation) ∧
      (allEps.filter (s.atLocation l) = [] → l ∉ s.unbound → l ∉ s.announced → Gives (.linkUp l) s fun t =>
        t.unbound = s.unbound ++ [l] ∧ t.announced = s.announced ++ [l] ∧ t.dget 0x2800 0x03 = (s.dget 0x2800 0x03 + 1) % 2 ^ 32 ∧
        SameBut ([.sent, .unbound, .announced] ++ logFields) s t ∧ LogOnly s t ∧ DictBut logEntries s t) ∧
      (allEps.filter (s.atLocation l) = [] → l ∉ s.unbound → l ∈ s.announced → Gives (.linkUp l) s fun t =>
        t.unbound = s.unbound ++ [l] ∧ SameBut [.sent, .unbound] s t)) ∧
    (∀ d : List Byte, x.disc = .certSent → s.conflict e = false →
      (certLayout d = true → fieldAt d 6 1 = s.eclass e → s.certSigned d = true →
        s.eget e 0x0E = 0 ∨ s.eget e 0x0E = fieldAt d 8 8 → s.outstandingChallenges < 64 → Gives (.getCertResponse ep d) s fun t =>
          let nonce := (List.range 32).map (Config.freeByte s.freeIx)
          t.ep e = { x with disc := .challengeSent, modulus := slice d 16 384, nonce := nonce } ∧ t.eget e 0x15 = 2 ∧
            t.eget e 0x17 = fieldAt d 8 8 ∧ t.sent = [head 2 nonce] ∧
            SameBut [.sent, .eps, .dict, .freeIx] s t ∧ DictBut [(i, 0x15), (i, 0x17)] s t) ∧
      (certLayout d = false → Gives (.getCertResponse ep d) s fun t =>
        t.ep e = { x with disc := .refused } ∧ t.eget e 0x15 = 6 ∧ t.eget e 0x18 = codeCert)) ∧
    (∀ d : List Byte, x.disc = .challengeSent →
      let good := d.length = 428 ∧ pssVerify x.modulus 65537 (s.challengeText e d) (slice d 44 384) = true
      (good → s.regress e (lifeOf d 32) = false → Gives (.challengeResponse ep d) s fun t =>
        (t.ep e).disc = .calFetch ∧ (t.ep e).calDigest = slice d 0 32 ∧ t.eget e 0x15 = 3 ∧
          KV.get none t.life e = some (s.eget e 0x17, lifeOf d 32) ∧ t.eget e 0x1B = fieldAt d 32 4 ∧
          t.sent = [head 3 (bytesOf 4 0 ++ bytesOf 4 (s.calChunk e))]) ∧
      (good → s.regress e (lifeOf d 32) = true → Gives (.challengeResponse ep d) s fun t =>
        t.ep e = { x with disc := .refused } ∧ t.eget e 0x15 = 6 ∧ t.eget e 0x18 = codeLifeRegress) ∧
      (¬ good → Gives (.challengeResponse ep d) s fun t =>
        t.ep e = { x with disc := .refused } ∧ t.eget e 0x15 = 6 ∧ t.eget e 0x18 = codeAuthFail)) ∧
    (∀ (c : Instr) (d : Disc) (code : Nat), (c, d, code) ∈ [(Instr.idTimeout ep, Disc.certSent, 0x1003),
        (.authTimeout ep, .challengeSent, 0x1006), (.calTimeout ep, .calFetch, 0x1007), (.calTimeout ep, .meshWait, 0x1007)] →
      x.disc = d → Gives c s fun t => t.ep e = { x with disc := .retryWait } ∧ t.eget e 0x15 = 1 ∧ t.eget e 0x18 = code ∧
        t.eget e 0x20 = (s.eget e 0x20 + 1) % 2 ^ 32 ∧ SameBut ([.sent, .eps, .meshQueue, .fetched] ++ logFields) s t ∧ LogOnly s t) ∧
    (x.disc = .retryWait → Gives (.discoveryRetry ep) s fun t => t.ep e = { x with disc := .certSent } ∧ t.eget e 0x15 = 1 ∧
      t.sent = [head 1 []] ∧ SameBut [.sent, .eps, .dict] s t ∧ DictBut [(i, 0x15)] s t)

/-- Calibration, the mesh build, life polls and a link that goes down -/
def Obligations.HeadsAreCalibratedPolledAndLost : Prop :=
  ∀ (s : State) (ep : Fin 192), s.noneWaits → let e := ep.val; let x := s.ep e
    (∀ d : List Byte, x.disc = .calFetch → d ≠ [] →
      let total := if x.cal.isEmpty then fieldAt d 0 4 else x.calLen
      let cal := x.cal ++ d
      d.length = min x.calAsked (total - x.cal.length) → total ≤ 2 * 1024 * 1024 →
      (cal.length ≠ total → let n := min (s.calChunk e) (total - cal.length)
        Gives (.getCalResponse ep d) s fun t => t.ep e = { x with cal := cal, calLen := total, calAsked := n } ∧
          t.sent = [.head e (bytesOf 1 3 ++ bytesOf 1 e ++ bytesOf 2 8 ++ bytesOf 4 cal.length ++ bytesOf 4 n)] ∧
          SameBut [.sent, .eps] s t) ∧
      (cal.length = total → (sha256 cal ≠ x.calDigest → Gives (.getCalResponse ep d) s fun t =>
          (t.ep e).disc = .retryWait ∧ t.eget e 0x15 = 1 ∧ t.eget e 0x18 = codeCalDigest) ∧
        (sha256 cal = x.calDigest → s.calOk e cal = false → Gives (.getCalResponse ep d) s fun t =>
          (t.ep e).disc = .refused ∧ t.eget e 0x15 = 6 ∧ t.dget 0x2400 0x0A = codeCalContent) ∧
        (sha256 cal = x.calDigest → s.calOk e cal = true → s.hdrFits e cal = false → Gives (.getCalResponse ep d) s fun t =>
          (t.ep e).disc = .refused ∧ t.eget e 0x15 = 6 ∧ t.dget 0x2400 0x0A = codeCalContent) ∧
        (sha256 cal = x.calDigest → s.calOk e cal = true → s.hdrFits e cal = true →
          let u := { s.keepCal e cal with fetched := s.fetched.filter (· != e) ++ [e] }
          (u.conflict e = true → Gives (.getCalResponse ep d) s fun t =>
            (t.ep e).disc = .refused ∧ t.eget e 0x15 = 6 ∧ t.eget e 0x18 = codeLocation) ∧
          (u.conflict e = false → Gives (.getCalResponse ep d) s fun t =>
            (t.ep e).disc = .meshWait ∧ (t.ep e).cal = [] ∧ e ∈ t.meshQueue ∧ e ∈ t.fetched ∧ t.lens e = calSection cal 2 ∧
            (∀ ty ∈ [1, 3, 4, 5], t.calSec e ty = calSection cal ty) ∧
            ((∀ f < 192, e < f → u.sameLocation e f = false) → t.meshQueue = s.meshQueue ++ [e] ∧
              SameBut [.sent, .eps, .meshQueue, .fetched, .calib, .lensMesh, .mem, .freeIx] s t ∧
              MemBut (lsBase + calBase + 8192 * e) 8192 s t))))) ∧
    (∀ r : List Nat, s.meshQueue = e :: r → Gives .meshBuild s fun t => t.meshQueue = r ∧
      (x.disc = .meshWait → (t.ep e).disc = .admitNext ∧ t.eget e 0x15 = 4) ∧ (x.disc = .admitted → (t.ep e).disc = .admitted)) ∧
    (s.meshQueue = [] → Gives .meshBuild s fun t => SameBut [.sent] s t) ∧
    (x.disc = .admitted → Gives (.lifePoll ep) s fun t => t.ep e = { x with lifePending := true } ∧
      t.sent = [.head e (bytesOf 1 4 ++ bytesOf 1 e ++ bytesOf 2 0)] ∧ SameBut [.sent, .eps] s t) ∧
    (∀ d : List Byte, x.disc = .admitted → x.lifePending = true →
      let good := d.length = 396 ∧
        pssVerify x.modulus 65537 (bytesOf 1 0x84 ++ bytesOf 1 e ++ slice d 0 12) (slice d 12 384) = true ∧ s.regress e (lifeOf d 0) = false
      (good → Gives (.getLifeResponse ep d) s fun t => KV.get none t.life e = some (s.eget e 0x17, lifeOf d 0) ∧
        t.eget e 0x1B = fieldAt d 0 4 ∧ t.eget e 0x1C = fieldAt d 4 4 ∧ t.eget e 0x1D = fieldAt d 8 4 ∧ (t.ep e).lifePending = false) ∧
      (¬ good → Gives (.getLifeResponse ep d) s fun t => t.ep e = { x with lifePending := false, releaseNext := 2 } ∧
        t.eget e 0x20 = (s.eget e 0x20 + 1) % 2 ^ 32 ∧ t.life = s.life ∧ SameBut ([.sent, .eps] ++ logFields) s t)) ∧
    (x.linkUp = true → Gives (.linkDown ep) s fun t => (t.ep e).linkUp = false ∧ (t.ep e).disc = .idle ∧ t.eget e 0x15 = 0 ∧
      e ∉ t.meshQueue ∧ (t.ep e).complete = none ∧ (x.disc ≠ .admitted → SameBut [.sent, .eps, .dict, .meshQueue, .fetched, .unbound] s t)) ∧
    (x.linkUp = false → Gives (.linkDown ep) s fun t => SameBut [.sent, .unbound] s t)

/-- ARP, gPTP, triggers, rail faults, alerts and temperatures -/
def Obligations.PortsTriggersAndRails : Prop :=
  ∀ s : State,
    (∀ (q : Fin 16) (ip : BitVec 32) (mac : BitVec 48) (from' : BitVec 32),
      (ip = Config.portIp q.val → Gives (.arpRequest q ip mac from') s fun t =>
        t.sent = [.arpReply q.val mac from'] ∧ SameBut [.sent] s t) ∧
      (ip ≠ Config.portIp q.val → Gives (.arpRequest q ip mac from') s fun t => t.sent = [] ∧ SameBut [.sent] s t)) ∧
    (∀ (q : Fin 16) (m n : Nat),
      (s.role q.val = 2 → Gives (.gptpMessage q (.sync m) n) s fun t => t.timeNs = max (max s.timeNs n) m ∧ t.gptpSync = true ∧
        t.dget 0x2401 0x05 = 1 ∧ SameBut [.sent, .timeNs, .gptpSync, .dict] s t ∧ DictBut [(0x2401, 0x05)] s t) ∧
      (Gives (.gptpMessage q .other n) s fun t => t.timeNs = max s.timeNs n ∧ SameBut [.sent, .timeNs] s t)) ∧
    (s.hasSlave = true → s.dget 0x2401 0x05 ≠ 2 → Gives .gptpUnlocked s fun t => t.gptpSync = false ∧ t.dget 0x2401 0x05 = 2 ∧
      SameBut ([.sent, .gptpSync] ++ logFields) s t ∧ LogOnly s t ∧ DictBut ((0x2401, 0x05) :: logEntries) s t) ∧
    (∀ (ep : Fin 192) (x : Nat × Nat × Nat × Bool), s.triggers.find? (fun y => y.1 == ep.val && !y.2.2.2) = some x →
      Gives (.trigger ep) s fun t => t.triggers = s.triggers.map (fun y => if y = x then (x.1, x.2.1, x.2.2.1, true) else y) ∧
        t.sent = [if s.eget ep.val 0x02 = 2 then .head ep.val (bytesOf 1 5 ++ bytesOf 1 ep.val ++ bytesOf 2 10 ++
          (bytesOf 6 (x.2.2.1 / 1000000000) ++ bytesOf 4 (x.2.2.1 % 1000000000))) else .gpio ep.val (x.2.2.1 - Config.tunnelLatency (s.eget ep.val 0x03) x.2.2.1)] ∧
        SameBut [.sent, .triggers] s t) ∧
    (∀ g : Fin 8, s.pwrEn.getLsbD g.val = true → Gives (.railFault g) s fun t => t.pwrGood.getLsbD g.val = false ∧
      (¬ (s.dev = dsLowPower ∧ s.lpExitBegun = true) →
        SameBut ([.sent, .pwrGood] ++ logFields) s t ∧ LogOnly s t ∧ DictBut logEntries s t) ∧
      (s.dev = dsLowPower → s.lpExitBegun = true → t.lpStuck = true ∧ t.pwrEn = (if s.power = 2 then s.pwrEn &&& 0xE0 else 0))) ∧
    (∀ b : Fin 4, (Gives (.pmbAlert b (some 0)) s fun t => SameBut [.sent] s t) ∧
      (∀ st : Option (BitVec 16), st ≠ some 0 → Gives (.pmbAlert b st) s fun t =>
        t.dget 0x2800 0x03 = (s.dget 0x2800 0x03 + 1) % 2 ^ 32 ∧
          SameBut (.sent :: logFields) s t ∧ LogOnly s t ∧ DictBut logEntries s t)) ∧
    (∀ a b c d e : BitVec 16, s.devReset = 0 → Gives (.temperatureRefresh [a, b, c, d, e]) s fun t =>
      t.dget 0x2100 0x06 = a.toNat ∧ t.dget 0x2100 0x07 = b.toNat ∧ t.dget 0x2100 0x08 = c.toNat ∧ t.dget 0x2100 0x09 = d.toNat ∧
        t.dget 0x2100 0x0A = e.toNat ∧
        DictBut ([(0x2100, 0x06), (0x2100, 0x07), (0x2100, 0x08), (0x2100, 0x09), (0x2100, 0x0A), (0x2100, 0x0B), (0x2100, 0x10)]
          ++ logEntries) s t)

/-- Frame starts, lines and frame ends of an image, over CSI-2 and in datagrams -/
def Obligations.ImagesOpenTakeLinesAndClose : Prop :=
  ∀ (s : State) (ep : Fin 192) (inf : CsiInfo), let e := ep.val; let k := inf.exposure.val; let x := s.ep e; let im := x.image
    let isIn : Prop := im.isOpen = true ∧ nth false im.began k = true ∧ nth false im.ended k = false
    let row := nth 0 im.got k
    let level (l : List Nat) : Prop := ∀ j < s.exposures e, nth 0 l j ≤ nth 0 l (s.exposures e - 1) + 64
    s.pipeOn e = true →
    (∀ (num : BitVec 16) (n : Nat), inf.ecc = 0 → k < s.exposures e → im.isOpen = false → s.eget e 0x0C ≠ 1 →
      (k = 0 → x.haveNumber = true → num = x.lastNumber + 1) → Gives (.frameStart ep inf num n) s fun t =>
        (t.ep e).image = { Image.zero with isOpen := true, began := setAt Image.zero.began k true, number := num, stamp := n,
                                           frame := s.frameNo, valid := true } ∧
          (∀ r < 65536, ∀ j < 4, KV.get [] t.raw (rawKey e j r) = []) ∧ (∀ v < 4, (t.view (4 * e + v)).stripe = 0) ∧
          (k = 0 → (t.ep e).lastNumber = num) ∧ SameBut [.sent, .timeNs, .eps, .raw, .views] s t) ∧
    (inf.ecc = 0 → isIn → (∀ j < s.exposures e, j ≠ k → nth false im.ended j = true) → k < im.ended.length → k < s.exposures e →
      Gives (.frameEnd ep inf) s fun t => (t.ep e).image.isOpen = false ∧ nth false (t.ep e).image.ended k = true ∧
        (t.ep e).image.valid = (im.valid && row == s.eheight e) ∧ (row ≠ s.eheight e → t.eget e 0x18 = codeShape)) ∧
    (∀ (dt : BitVec 6) (d : List Byte), inf.ecc = 0 →
      (csiAccepted dt.toNat = false → ∀ ok : Bool, Gives (.longPacket ep inf dt d ok) s fun t =>
        KV.get 0 t.discards (s.eget e 0x03) = KV.get 0 s.discards (s.eget e 0x03) + 1 ∧ SameBut [.sent, .discards] s t) ∧
      (csiAccepted dt.toNat = true → dt ≠ 0x37 → isIn → k < im.got.length →
        (inf.crcOk = true → dt.toNat = s.eget e 0x09 → 8 * d.length = s.ewidth e * csiBits dt.toNat → row < s.eheight e →
          level (setAt im.got k (row + 1)) → Gives (.longPacket ep inf dt d true) s fun t =>
            KV.get [] t.raw (rawKey e k row) = csiLine dt.toNat (s.ewidth e) d ∧
              t.ep e = { x with image := { im with got := setAt im.got k (row + 1) } } ∧ SameBut [.sent, .eps, .raw] s t) ∧
        (inf.crcOk = false → s.eget e 0x01 = 1 → s.lineFits e dt.toNat d = true → level (setAt im.got k (row + 1)) →
          Gives (.longPacket ep inf dt d true) s fun t => t.eget e 0x18 = codeCsiCrc ∧ (t.ep e).image.valid = false) ∧
        (Gives (.longPacket ep inf dt d false) s fun t => (t.ep e).image.valid = false ∧
          t.dget 0x2400 0x04 = (s.dget 0x2400 0x04 + 1) % 2 ^ 32))) ∧
    (inf.ecc = 2 → ∀ (num : BitVec 16) (n : Nat) (dt : BitVec 6) (d : List Byte) (ok : Bool) (c : Instr),
      c ∈ [Instr.frameStart ep inf num n, .frameEnd ep inf, .longPacket ep inf dt d ok] → Gives c s fun t =>
        (s.eget e 0x01 = 1 → t.eget e 0x18 = codeCsiEcc) ∧ (im.isOpen = true → (t.ep e).image.valid = false) ∧ t.raw = s.raw) ∧
    (∀ (g : Datagram) (n : Nat), s.datagramEp g = some e → s.eclass e ≠ 3 →
      (g.checksOk = false → ∀ ok : Bool, Gives (.lineDatagram g n ok) s fun t =>
        KV.get 0 t.dgramDrops e = KV.get 0 s.dgramDrops e + 1 ∧ t.eget e 0x18 = codeDgram ∧ t.raw = s.raw) ∧
      (g.checksOk = true → 12 ≤ g.payload.length → slice g.payload 0 4 = lineMagic → fieldAt g.payload 10 1 = k → k < s.exposures e →
        fieldAt g.payload 11 1 = 0 → fieldAt g.payload 8 2 = 1 → fieldAt g.payload 6 2 = row →
        g.payload.length = 12 + s.ewidth e * lineBytes (s.eget e 0x09) → isIn → k < im.got.length → row < s.eheight e →
        level (setAt im.got k (row + 1)) → Gives (.lineDatagram g n true) s fun t =>
          KV.get [] t.raw (rawKey e k row) = ethLine (s.eget e 0x09) (s.ewidth e) (g.payload.drop 12) ∧
            t.ep e = { x with image := { im with got := setAt im.got k (row + 1) } } ∧ SameBut [.sent, .timeNs, .eps, .raw] s t))

/-- Points of a sweep, its close, its motion, and its deskew -/
def Obligations.SweepsCollectPointsAndClose : Prop :=
  ∀ (s : State) (ep : Fin 192), let e := ep.val; let sw := s.sweep e true
    let begun (t : State) (kind : Nat) : Prop := ∀ v < 4, ViewRec.kind (s.viewRec (4 * e + v)) = kind →
      (t.view (4 * e + v)).stripe = 0 ∧ (t.view (4 * e + v)).valid = true ∧ (t.view (4 * e + v)).done = false
    s.pipeOn e = true → s.eclass e = 3 →
    (∀ (g : Datagram) (n : Nat), s.datagramEp g = some e → let d := s.calSec e 3
      let magic := specAt d 12 g.payload 0 == fieldAt d 16 8 % 2 ^ specWidth d 12
      (g.checksOk = false → Gives (.pointDatagram g n) s fun t => KV.get 0 t.dgramDrops e = KV.get 0 s.dgramDrops e + 1 ∧
        (t.sweep e false).valid = false ∧ (t.sweep e false).points = (s.sweep e false).points) ∧
      (g.checksOk = true → magic = false ∨ blocksOf d g.payload = none → Gives (.pointDatagram g n) s fun t =>
        (t.sweep e false).valid = false ∧ t.dget 0x2400 0x0A = codePointFormat) ∧
      (∀ (b : Nat) (p : Point) (tm : Int), g.checksOk = true → magic = true → blocksOf d g.payload = some b →
        (List.range b).flatMap (fun i => (List.range (pointsPerBlock d)).filterMap
          (fun j => readPoint d (s.calSec e 4) g.payload i j n)) = [(p, tm)] →
        (s.tickNs : Int) ≤ tm → (tm - s.tickNs) / 2000 ≤ 65535 → (s.sweep e false).points.length < fieldAt (s.pipeRec e) 20 4 →
        Gives (.pointDatagram g n) s fun t => (t.sweep e false).points =
          (s.sweep e false).points ++ [{ p with offset := ((tm - s.tickNs) / 2000).toNat }])) ∧
    (∀ n : Nat, sw.frame = s.frameNo → sw.closed = false → s.tickNs + 1000000 ≤ n → Gives (.sweepClose ep n) s fun t =>
      t.sweep e true = { sw with closed := true } ∧ begun t 5 ∧ SameBut [.sent, .timeNs, .sweepsPrev, .views] s t) ∧
    (∀ n : Nat, n < s.tickNs + 1000000 ∨ sw.closed = true → Gives (.sweepClose ep n) s fun t => SameBut [.sent, .timeNs] s t) ∧
    (KV.get [] s.motion s.frameNo = [] → s.frameNo ∉ s.egoLate → Gives (.egoLate s.frameNo) s fun t =>
      t.egoLate = s.egoLate ++ [s.frameNo] ∧ begun t 6 ∧ t.dget 0x2400 0x0A = 0x101B ∧
        SameBut ([.sent, .egoLate, .views] ++ logFields) s t ∧ LogOnly s t) ∧
    (∀ f : Nat, s.ticked = true → nextFrame f = s.frameNo → f ≠ s.frameNo → KV.get [] s.motion f = [] → f ∉ s.egoLate →
      Gives (.egoLate f) s fun t => t.egoLate = s.egoLate ++ [f] ∧ t.dget 0x2400 0x0A = 0x101B ∧
        SameBut ([.sent, .egoLate] ++ logFields) s t ∧ LogOnly s t) ∧
    (s.frameNo ∈ s.egoLate → Gives (.egoLate s.frameNo) s fun t => SameBut [.sent] s t) ∧
    (sw.frame = s.frameNo → sw.closed = true → sw.deskewed = false → KV.get [] s.motion s.frameNo ≠ [] → Gives (.deskew ep) s fun t =>
      t.sweep e true = { sw with deskewed := true } ∧ begun t 6 ∧ SameBut [.sent, .sweepsPrev, .views] s t)

/-- The next stripe of a view, and the zero tensor of a slot without an input -/
def Obligations.StripesAndZeroTensorsAreDelivered : Prop :=
  ∀ (s : State) (ep : Fin 192), let e := ep.val
    (∀ w : Fin 4, let v := 4 * e + w.val; let d := s.viewRec v; let x := s.view v; let i := x.stripe; let im := (s.ep e).image
      let c := ViewRec.core d; let o := wnOwner (s.win c (ViewRec.win d))
      (ViewRec.kind d = 0 ∨ s.pipeOn e = false → Gives (.stripeDelivery ep w) s fun t => SameBut [.sent] s t) ∧
      (ViewRec.kind d ≠ 0 → ViewRec.kind d < 5 → s.pipeOn e = true → s.built e = true → im.any = true → x.done = false →
        (im.isOpen = true → i + 1 ≠ ViewRec.stripes d → s.linesNeeded v i ≤ s.linesIn e → Gives (.stripeDelivery ep w) s fun t =>
          (t.view v).stripe = i + 1 ∧ (t.view v).done = false ∧ t.freeIx = s.freeIx ∧
            (∀ g : Nat, x.ended = false → s.deliveryGen v c (ViewRec.win d) = some g → s.viewFlagsOk v = true →
              s.windowCheck c (ViewRec.win d) g 8 [rPut] (stripeOff d i) (s.stripeWords v i false).length = none →
              s.windowCheck c (ViewRec.win d) g 8 [rPut, rFlag] (stripeOff d i) 1 = none →
              t.kFlag o (32 + (ViewRec.flag d + i % ViewRec.flags d) % 32) = true ∧ (t.view v).ended = false) ∧
            (∀ g : Nat, x.ended = false → s.deliveryGen v c (ViewRec.win d) = some g → s.viewFlagsOk v = false →
              (t.view v).ended = true ∧ t.flags = s.flags ∧ t.ctxs = s.ctxs)) ∧
        (im.isOpen = false → i + 1 = ViewRec.stripes d → Gives (.stripeDelivery ep w) s fun t =>
          (t.view v).stripe = i + 1 ∧ (t.view v).done = true))) ∧
    (∀ n : Nat, s.dev ≠ dsOp ∨ s.slotDone e = true ∨ s.viewsOf e = [] → Gives (.zeroTensor ep n) s fun t => SameBut [.sent, .timeNs] s t) ∧
    (∀ n : Nat, s.dev = dsOp → s.frame.isOpen = true → s.frame.n = s.frameNo → s.slotDone e = false → s.viewsOf e ≠ [] →
      (s.atTime n).inputMissing e n = true → s.pipeOn e = false ∨ s.eclass e ≠ 3 → e < s.frame.delivered.length →
      e < s.frame.valid.length → Gives (.zeroTensor ep n) s fun t => nth false t.frame.delivered e = true ∧
        nth false t.frame.valid e = false ∧ t.eget e 0x1F = (s.eget e 0x1F + 1) % 2 ^ 32 ∧ t.eget e 0x1E = s.eget e 0x1E)

/-- BAR2 reads and writes: what they reach, and what stops them -/
def Obligations.HostsReadAndWriteMemory : Prop :=
  ∀ (s : State) (port : HostPort) (o n : Nat) (data : List Byte),
    let h := hostIx port; let tr := (s.port port).transOf o; let a := (s.port port).bar2Addr o
    (s.romWait = true → Gives (.bar2Read port o n) s fun t => t.sent = [.unsupported port] ∧ SameBut [.sent] s t) ∧
    (s.romWait = false → s.portsServe = true →
      (∀ code unit : Nat, s.bar2Stop h a n (tr.getLsbD 0) = some (code, unit) → Gives (.bar2Read port o n) s fun t =>
        t.sent = [if code = codePartFenced then .completerAbort port else .unsupported port] ∧
          SameBut (.sent :: logFields) s t ∧ LogOnly s t ∧ DictBut logEntries s t) ∧
      (∀ code unit : Nat, s.bar2Stop h a data.length (tr.getLsbD 0 && tr.getLsbD 1) = some (code, unit) →
        Gives (.bar2Write port o data) s fun t => SameBut (.sent :: logFields) s t ∧ LogOnly s t ∧ DictBut logEntries s t) ∧
      (s.bar2Stop h a n (tr.getLsbD 0) = none → s.ecc = [] →
        ((∀ c, s.spanRegion a n ≠ .spm c) → Gives (.bar2Read port o n) s fun t =>
          t.sent = [.readData port (s.readBytes a n) (s.rangeBad a n)] ∧ SameBut [.sent] s t) ∧
        (∀ c, s.spanRegion a n = .spm c → let ws := s.fresh.hostWords h c (cdiv (a % 32 + n) 32) ((a - spmBase c) / 32)
          (∀ l, ws = some (l, s.fresh) → Gives (.bar2Read port o n) s fun t => SameBut [.sent] s t ∧
            t.sent = [.readData port (slice (l.flatMap (fun x => bytesOfWord x.1)) (a % 32) n) (l.any (fun x => x.2) || s.rangeBad a n)]) ∧
          (ws = none → Gives (.bar2Read port o n) s fun t => t.sent = [.unsupported port] ∧
            SameBut (.sent :: logFields) s t ∧ LogOnly s t))) ∧
      (s.bar2Stop h a data.length (tr.getLsbD 0 && tr.getLsbD 1) = none →
        (∀ p, s.spanRegion a data.length = .dram p → Gives (.bar2Write port o data) s fun t =>
          (∀ (i : Nat) (hi : i < data.length), t.byteAt (a + i) = data[i]) ∧ MemBut a data.length s t ∧
            SameBut [.sent, .mem, .poison, .ecc] s t) ∧
        (∀ c, s.spanRegion a data.length = .spm c → data.length = 32 → a % 32 = 0 → let w := (a - spmBase c) / 32
          (∀ i, s.matchWindow c (10 + h) rPut w = some i → let k := wnOwner (s.win c i)
            s.isLive k = true ∨ (s.ctx k).resident w = true → Gives (.bar2Write port o data) s fun t =>
              t.kWord k w = (wordOfBytes data, false)) ∧
          (s.matchWindow c (10 + h) rPut w = none → Gives (.bar2Write port o data) s fun t =>
            SameBut (.sent :: logFields) s t ∧ LogOnly s t ∧ DictBut logEntries s t)) ∧
        (s.spanRegion a data.length = .ls → let x := a - lsBase; let m := data.length
          (tableRange x m = false → calRange x m = false → Gives (.bar2Write port o data) s fun t =>
            t.dget 0x2500 0x48 = (s.dget 0x2500 0x48 + 1) % 2 ^ 32 ∧ SameBut [.sent, .dict] s t ∧ DictBut [(0x2500, 0x48)] s t) ∧
          (calRange x m = true ∨ (tableRange x m = true ∧ (s.inConf h = false ∨ (s.meshView x m true).isSome = true)) →
            Gives (.bar2Write port o data) s fun t => t.dget 0x2400 0x0A = codeTsrProtected ∧
              t.dget 0x2400 0x08 = (s.dget 0x2400 0x08 + 1) % 2 ^ 32 ∧ SameBut (.sent :: logFields) s t ∧ LogOnly s t ∧
              DictBut ([(0x2400, 0x0A), (0x2400, 0x08)] ++ logEntries) s t) ∧
          (calRange x m = false → tableRange x m = true → s.inConf h = true → s.meshView x m true = none →
            Gives (.bar2Write port o data) s fun t =>
              (∀ (i : Nat) (hi : i < data.length), t.byteAt (a + i) = tableByte (x + i) data[i]) ∧ MemBut a data.length s t ∧
                SameBut [.sent, .mem, .poison, .ecc] s t))))

/-- Heartbeats, PERST, link down, Function Level Reset, bus master clear, and a link that comes up -/
def Obligations.HostsAreLostAndLinked : Prop :=
  ∀ (s : State) (port : HostPort), let h := hostIx port; let p := s.port port
    (∀ n : Nat, Gives (.heartbeatWrite port n) s fun t => (t.port port) = { p with heartbeat := max s.timeNs n } ∧
      t.timeNs = max s.timeNs n ∧ SameBut [.sent, .timeNs, .portA, .portB] s t) ∧
    (s.admitted h = true → ∀ (n : Nat) (c : Instr),
      c ∈ [Instr.heartbeatTimeout port n, .perstAssert port, .dlDown port, .functionLevelReset port, .busMasterEnableClear port] →
      (c = .heartbeatTimeout port n → s.dev ≠ dsLowPower ∧ p.heartbeat + s.dget 0x2500 (0x43 + h) * 1000000 ≤ max s.timeNs n) →
      Gives c s fun t => t.hostState h = 3 ∧ (t.port port).channels = [] ∧ (∀ w ∈ (t.port port).trans, w.getLsbD 0 = false) ∧
        t.dget 0x2500 (0x45 + h) = nextGen (s.dget 0x2500 (0x45 + h)) ∧
        (c = .perstAssert port → (t.port port).perst = true ∧ (t.port port).linkUp = false) ∧
        (c = .dlDown port → (t.port port).linkUp = false) ∧ (c = .busMasterEnableClear port → (t.port port).busMaster = false) ∧
        SameBut ([.sent, .timeNs, .portA, .portB] ++ logFields) s t ∧ LogOnly s t ∧
        DictBut ([(0x2500, 0x41 + h), (0x2500, 0x45 + h)] ++ logEntries) s t) ∧
    (∀ n : Nat, max s.timeNs n < p.heartbeat + s.dget 0x2500 (0x43 + h) * 1000000 ∨ s.dev = dsLowPower →
      Gives (.heartbeatTimeout port n) s fun t => SameBut [.sent, .timeNs] s t) ∧
    (s.admitted h = false → ∀ c ∈ [Instr.perstAssert port, .dlDown port, .functionLevelReset port, .busMasterEnableClear port],
      Gives c s fun t => SameBut [.sent, .portA, .portB, .dict] s t ∧ DictBut [(0x2500, 0x41 + h)] s t ∧
        t.hostState h = (if s.hostState h = 1 ∧ (c = .perstAssert port ∨ c = .dlDown port) then 0 else s.hostState h)) ∧
    (∀ b : Bool, s.asleep = false → Gives (.pcieLinkUp port b) s fun t => t.port port = { p with linkUp := true, busMaster := b } ∧
      t.hostState h = (if s.hostState h = 0 then 1 else s.hostState h) ∧
      SameBut [.sent, .portA, .portB, .dict] s t ∧ DictBut [(0x2500, 0x41 + h)] s t)

/-- Dictionary writes, their checks and effects; host registers; Go -/
def Obligations.WritesSetEntriesAndRegisters : Prop :=
  ∀ (s : State) (iss : Issuer), let i := issIx iss
    (Reaches iss s → ∀ (index sub off n : Nat) (data hd : List Byte),
      (∀ f, s.writeFail i index sub data.length = some f → Gives (.dictionaryWrite iss index sub off data hd n) s fun t =>
        t.sent = (if iss = .can then [.sdoAbort (abortCode f)] else []) ∧
          SameBut ([.sent, .timeNs] ++ logFields) s t ∧ LogOnly s t ∧ DictBut ((0x2500, 0x48) :: logEntries) s t) ∧
      (∀ e, s.writeFail i index sub data.length = none → entryOf index sub = some e → plainEntry index sub = true → sub < 256 →
        (i < 2 → off < e.size) → (index, sub) ≠ (0x2500, 0x48) → Gives (.dictionaryWrite iss index sub off data hd n) s fun t =>
          let v := if i = 2 then natOf data else natOf (mergeAt (bytesOf e.size (if e.access = .wo then 0 else s.dget index sub)) 0 off data)
          t.dget index sub = s.clampOf index sub e v ∧ SameBut [.sent, .timeNs, .dict, .freeIx] s t ∧
            DictBut ([(index, sub), (0x2500, 0x48)] ++ if (index, sub) = (0x2500, 0x4A) then [(0x1014, 0)] else []) s t) ∧
      (s.writeFail i (0x5000 + i) 6 1 = none → ∃ t, exec (.dictionaryWrite iss (0x5000 + i) 6 0 [1] hd n) s = .next t ∧
        runOpcode iss (s.dget (0x5000 + i) 1) (BitVec.ofNat 64 (s.dget (0x5000 + i) 2)) (BitVec.ofNat 64 (s.dget (0x5000 + i) 3))
          (BitVec.ofNat 64 (s.dget (0x5000 + i) 4)) (BitVec.ofNat 64 (s.dget (0x5000 + i) 5)) hd (s.fresh.atTime n) = .next t)) ∧
    (Reaches iss s →
      (∀ q : BitVec 32, s.writeFail i 0x5100 (1 + 2 * i) 4 = none → Gives (.handleQuery iss q) s fun t =>
        t.dget 0x5100 (2 + 2 * i) = s.queryResult i q.toNat ∧ SameBut [.sent, .dict] s t ∧
          DictBut [(0x5100, 1 + 2 * i), (0x5100, 2 + 2 * i)] s t) ∧
      (∀ n : Nat, s.writeFail i 0x2400 0x17 1 = none → let f := s.dget 0x2400 0x10
        let ok := s.motionFrame f = true ∧ max s.timeNs n < s.motionDeadline f ∧ f ∉ s.egoLate ∧ KV.get [] s.motion f = []
        (ok → Gives (.motionCommit iss n) s fun t => SameBut [.sent, .timeNs, .motion] s t ∧
          KV.get [] t.motion f = [0x11, 0x12, 0x13, 0x14, 0x15, 0x16].map (fun j => s.dget 0x2400 j)) ∧
        (¬ ok → Gives (.motionCommit iss n) s fun t => t.dget 0x2400 0x09 = (s.dget 0x2400 0x09 + 1) % 2 ^ 32 ∧
          SameBut [.sent, .timeNs, .dict] s t ∧ DictBut [(0x2400, 0x09)] s t)) ∧
      (∀ k : Fin 64, s.writeFail i (0x2600 + k.val) 0x35 1 = none → Gives (.errorLogClear iss k false) s fun t =>
        t.cget k.val 0x33 = 0 ∧ t.cget k.val 0x34 = 0 ∧ SameBut [.sent, .dict] s t ∧
          DictBut ((List.range 64).map (fun j => (0x2600 + k.val, 0x41 + j)) ++ [(0x2600 + k.val, 0x33), (0x2600 + k.val, 0x34)]) s t) ∧
      (∀ k : Fin 64, s.writeFail i (0x2600 + k.val) 0x35 1 = none → s.cget k.val 0x33 ≠ 0 → Gives (.errorLogClear iss k true) s fun t =>
        t.cget k.val 0x33 = 1 ∧ t.cget k.val 0x34 = 0 ∧ t.cget k.val 0x41 = (s.ctx k.val).lastSkip ∧ SameBut [.sent, .dict] s t) ∧
      (∀ ep : Fin 192, s.writeFail i (0x2200 + ep.val) 0x1A 1 = none →
        (Gives (.cleaningRequestAck iss ep false) s fun t => t.eget ep.val 0x1A = 0 ∧ SameBut [.sent, .dict] s t ∧
          DictBut [(0x2200 + ep.val, 0x1A)] s t) ∧
        (Gives (.cleaningRequestAck iss ep true) s fun t => t.eget ep.val 0x1A = 1 ∧
          t.dget 0x2500 0x49 = (s.dget 0x2500 0x49 + 1) % 2 ^ 32)) ∧
      (∀ ep : Fin 192, s.writeFail i (0x2200 + ep.val) 0x01 1 = none → let x := s.ep ep.val
        (s.eget ep.val 0x01 = 0 → x.linkUp = true ∨ (∃ l ∈ s.unbound, s.placeOf l ep.val = true) → x.disc = .idle → s.portFull ep.val = false → (∀ f < ep.val, s.eget f 0x01 = 0) →
          Gives (.enableSet iss ep) s fun t => t.eget ep.val 0x01 = 1 ∧ (t.ep ep.val).disc = .certSent ∧ t.eget ep.val 0x15 = 1) ∧
        (s.eget ep.val 0x01 = 1 → x.disc = .admitted → Gives (.enableClear iss ep) s fun t => t.eget ep.val 0x01 = 0 ∧
          t.ep ep.val = { x with releaseNext := max 1 x.releaseNext }))) ∧
    (∀ (port : HostPort) (n : Nat) (data hd : List Byte), s.romWait = false → s.portsServe = true →
      (∀ j < 32, j < (s.port port).trans.length → data.length = 8 → Gives (.registerWrite port (0xC000 + 8 * j) data hd n) s fun t =>
        nth 0 (t.port port).trans j = BitVec.ofNat 64 (natOf data &&& transMask) ∧ SameBut [.sent, .timeNs, .portA, .portB] s t) ∧
      (data.length = 2 → Gives (.registerWrite port 0xC10C data hd n) s fun t =>
        (t.port port).consumer = BitVec.ofNat 16 (natOf data) ∧ SameBut [.sent, .timeNs, .portA, .portB] s t)) ∧
    (∀ port : HostPort, let p := s.port port
      (∀ c, s.romWait = true → s.bootCode (s.readBytes romBuffer p.romLength.toNat) = some c → Gives (.go port) s fun t =>
        t.port port = { p with romState := 4, romCode := c } ∧ t.aonCodes = s.aonCodes ++ [c] ∧ SameBut [.sent, .aonCodes, .portA, .portB] s t) ∧
      (s.romWait = true → s.bootCode (s.readBytes romBuffer p.romLength.toNat) = none → Gives (.go port) s fun t =>
        t.romWait = false ∧ t.romSource = hostIx port + 1 ∧ (s.devReset ≠ 0 → t.devReset = 4 ∧ t.dev = dsRecovering)) ∧
      (s.romWait = false → Gives (.go port) s fun t => SameBut [.sent] s t))
end

