-- ==== Sys2Proof/Laws/Map.lean ====
section
/-! SUPPORT. The laws of the sparse map and of memory: a read after a write, and that every operation keeps the
canonical form. -/

namespace Sys2Proof

theorem KV.get_erase_same {α : Type} (d : α) (m : KV α) (k : Nat) : KV.get d (KV.erase m k) k = d := by
  induction m with
  | nil => rfl
  | cons e r ih => by_cases h : e.1 = k <;> simp [KV.erase, KV.get, h, ih]

theorem KV.get_erase_ne {α : Type} (d : α) (m : KV α) {k j : Nat} (h : j ≠ k) : KV.get d (KV.erase m k) j = KV.get d m j := by
  induction m with
  | nil => rfl
  | cons e r ih =>
    by_cases h1 : e.1 = k
    · have : e.1 ≠ j := by omega
      simp [KV.erase, KV.get, h1, ih]
      omega
    · simp [KV.erase, KV.get, h1, ih]

theorem KV.get_insert_same {α : Type} (d : α) (m : KV α) (k : Nat) (v : α) : KV.get d (KV.insert m k v) k = v := by
  induction m with
  | nil => simp [KV.insert, KV.get]
  | cons e r ih =>
    unfold KV.insert
    split
    · simp [KV.get]
    · split
      · simp [KV.get]
      · have : e.1 ≠ k := by omega
        simp [KV.get, this, ih]

theorem KV.get_insert_ne {α : Type} (d : α) (m : KV α) {k j : Nat} (v : α) (h : j ≠ k) :
    KV.get d (KV.insert m k v) j = KV.get d m j := by
  have hk : k ≠ j := fun e => h e.symm
  induction m with
  | nil => simp [KV.insert, KV.get, hk]
  | cons e r ih =>
    unfold KV.insert
    split
    · simp [KV.get, hk]
    · split
      · rename_i h1
        have : e.1 ≠ j := by omega
        simp [KV.get, hk, this]
      · simp [KV.get, ih]

/-- A read after a write to the same key gives what was written. -/
@[simp] theorem KV.get_set_same {α : Type} [DecidableEq α] (d : α) (m : KV α) (k : Nat) (v : α) :
    KV.get d (KV.set d m k v) k = v := by
  unfold KV.set
  split
  · rename_i h; rw [h]; exact KV.get_erase_same d m k
  · exact KV.get_insert_same d m k v

/-- A write leaves every other key alone. -/
theorem KV.get_set_ne {α : Type} [DecidableEq α] (d : α) (m : KV α) {k j : Nat} (v : α) (h : j ≠ k) :
    KV.get d (KV.set d m k v) j = KV.get d m j := by
  unfold KV.set
  split
  · exact KV.get_erase_ne d m h
  · exact KV.get_insert_ne d m v h

theorem KV.get_set {α : Type} [DecidableEq α] (d : α) (m : KV α) (k j : Nat) (v : α) :
    KV.get d (KV.set d m k v) j = if j = k then v else KV.get d m j := by
  by_cases h : j = k
  · simp [h]
  · simp [h, KV.get_set_ne d m v h]

/-! ### The canonical form -/

theorem KV.above_erase {α : Type} (j : Nat) (m : KV α) (k : Nat) (h : KV.above j m = true) : KV.above j (KV.erase m k) = true := by
  induction m with
  | nil => rfl
  | cons e r ih =>
    simp only [KV.above, List.all_cons, Bool.and_eq_true] at h
    unfold KV.erase
    split
    · exact ih h.2
    · simp only [KV.above, List.all_cons, Bool.and_eq_true]; exact ⟨h.1, ih h.2⟩

theorem KV.above_insert {α : Type} (j : Nat) (m : KV α) (k : Nat) (v : α) (h : KV.above j m = true) (hk : j < k) :
    KV.above j (KV.insert m k v) = true := by
  induction m with
  | nil => simp [KV.insert, KV.above, hk]
  | cons e r ih =>
    simp only [KV.above, List.all_cons, Bool.and_eq_true] at h
    unfold KV.insert
    split
    · simp only [KV.above, List.all_cons, Bool.and_eq_true]; exact ⟨by simpa using hk, h.1, h.2⟩
    · split
      · simp only [KV.above, List.all_cons, Bool.and_eq_true]; exact ⟨by simpa using hk, h.2⟩
      · simp only [KV.above, List.all_cons, Bool.and_eq_true]; exact ⟨h.1, ih h.2⟩

theorem KV.above_mono {α : Type} {i j : Nat} (m : KV α) (h : KV.above j m = true) (hij : i ≤ j) : KV.above i m = true := by
  simp only [KV.above, List.all_eq_true, decide_eq_true_eq] at h ⊢
  intro e he
  have := h e he
  omega

theorem KV.wf_erase {α : Type} [DecidableEq α] (d : α) (m : KV α) (k : Nat) (h : KV.wf d m = true) : KV.wf d (KV.erase m k) = true := by
  induction m with
  | nil => rfl
  | cons e r ih =>
    simp only [KV.wf, Bool.and_eq_true] at h
    unfold KV.erase
    split
    · exact ih h.2
    · simp only [KV.wf, Bool.and_eq_true]; exact ⟨⟨KV.above_erase _ _ _ h.1.1, h.1.2⟩, ih h.2⟩

theorem KV.wf_insert {α : Type} [DecidableEq α] (d : α) (m : KV α) (k : Nat) (v : α) (h : KV.wf d m = true) (hv : v ≠ d) :
    KV.wf d (KV.insert m k v) = true := by
  induction m with
  | nil => simp [KV.insert, KV.wf, KV.above, hv]
  | cons e r ih =>
    have hw := h
    simp only [KV.wf, Bool.and_eq_true] at h
    unfold KV.insert
    split
    · rename_i hlt
      have h2 : KV.above k (e :: r) = true := by
        simp only [KV.above, List.all_cons, Bool.and_eq_true]
        exact ⟨by simpa using hlt, KV.above_mono r h.1.1 (Nat.le_of_lt hlt)⟩
      simp only [KV.wf, Bool.and_eq_true] at hw ⊢
      exact ⟨⟨h2, by simpa using hv⟩, hw⟩
    · split
      · rename_i heq
        simp only [KV.wf, Bool.and_eq_true]
        exact ⟨⟨by rw [heq]; exact h.1.1, by simpa using hv⟩, h.2⟩
      · simp only [KV.wf, Bool.and_eq_true]
        exact ⟨⟨KV.above_insert _ _ _ _ h.1.1 (by omega), h.1.2⟩, ih h.2⟩

/-- A write keeps the canonical form. -/
theorem KV.wf_set {α : Type} [DecidableEq α] (d : α) (m : KV α) (k : Nat) (v : α) (h : KV.wf d m = true) :
    KV.wf d (KV.set d m k v) = true := by
  unfold KV.set
  split
  · exact KV.wf_erase d m k h
  · rename_i hv; exact KV.wf_insert d m k v h hv

/-- Dropping entries keeps the canonical form. -/
theorem KV.wf_filter {α : Type} [DecidableEq α] (d : α) (m : KV α) (p : Nat × α → Bool) (h : KV.wf d m = true) :
    KV.wf d (m.filter p) = true := by
  induction m with
  | nil => rfl
  | cons e r ih =>
    simp only [KV.wf, Bool.and_eq_true] at h
    rw [List.filter_cons]
    split
    · simp only [KV.wf, Bool.and_eq_true]
      refine ⟨⟨?_, h.1.2⟩, ih h.2⟩
      have ha := h.1.1
      simp only [KV.above, List.all_eq_true, decide_eq_true_eq] at ha ⊢
      intro x hx
      exact ha x (List.mem_of_mem_filter hx)
    · exact ih h.2

namespace Machine

/-! ### Memory -/

theorem writeCells_wf (m : List Host.Cell) (a : Nat) (l : List Byte) (h : KV.wf memDefault m = true) :
    KV.wf memDefault (writeCells m a l) = true := by
  induction l generalizing m a with
  | nil => exact h
  | cons b r ih => exact ih _ _ (KV.wf_set _ _ _ _ h)

/-- Bytes outside the written range stay as they were. -/
theorem writeCells_outside (m : List Host.Cell) (a b : Nat) (l : List Byte) (h : b < a ∨ a + l.length ≤ b) :
    KV.get memDefault (writeCells m a l) b = KV.get memDefault m b := by
  induction l generalizing m a with
  | nil => rfl
  | cons x r ih =>
    simp only [List.length_cons] at h
    rw [writeCells, ih _ _ (by omega), KV.get_set_ne _ _ _ (by omega)]

/-- A byte inside the written range reads as written. -/
theorem writeCells_inside (m : List Host.Cell) (a i : Nat) (l : List Byte) (h : i < l.length) :
    KV.get memDefault (writeCells m a l) (a + i) = l[i] := by
  induction l generalizing m a i with
  | nil => simp at h
  | cons x r ih =>
    cases i with
    | zero => rw [writeCells, writeCells_outside _ _ _ _ (by omega)]; simp
    | succ i =>
      have := ih (KV.set memDefault m a x) (a + 1) i (by simpa using h)
      rw [writeCells, show a + (i + 1) = a + 1 + i by omega, this]; rfl

theorem setByte_wf (s : State) (a : Nat) (b : Byte) (h : KV.wf memDefault s.mem = true) : KV.wf memDefault (s.setByte a b).mem = true :=
  KV.wf_set _ _ _ _ h

theorem writeBytes_wf (s : State) (a : Nat) (l : List Byte) (h : KV.wf memDefault s.mem = true) :
    KV.wf memDefault (s.writeBytes a l).mem = true :=
  writeCells_wf _ _ _ h

theorem putWord_wf (s : State) (a : Nat) (w : SWord) (p : Bool) (h : KV.wf memDefault s.mem = true) :
    KV.wf memDefault (s.putWord a w p).mem = true :=
  writeCells_wf _ _ _ h

theorem zeroRange_wf (s : State) (a n : Nat) (h : KV.wf memDefault s.mem = true) : KV.wf memDefault (s.zeroRange a n).mem = true :=
  KV.wf_filter _ _ _ h

theorem hostWrite_wf (s : State) (h a : Nat) (l : List Byte) (hw : KV.wf memDefault s.hostMem = true) :
    KV.wf memDefault (s.hostWrite h a l).hostMem = true :=
  writeCells_wf _ _ _ hw

theorem byteAt_writeBytes_outside (s : State) (a b : Nat) (l : List Byte) (h : b < a ∨ a + l.length ≤ b) :
    (s.writeBytes a l).byteAt b = s.byteAt b :=
  writeCells_outside _ _ _ _ h

theorem byteAt_writeBytes_inside (s : State) (a i : Nat) (l : List Byte) (h : i < l.length) :
    (s.writeBytes a l).byteAt (a + i) = l[i] :=
  writeCells_inside _ _ _ _ h

end Machine

end Sys2Proof
end

