-- ==== Sys2Proof/Laws/State.lean ====
section
/-! SUPPORT. One lemma per field of State per elementary update: the fields an update leaves alone, and what a read
gives after a write. -/

namespace Sys2Proof.Machine

variable (s : State)

/-! ### fresh -/

@[simp] theorem State.fresh_pending : (s.fresh).pending = s.pending := rfl
@[simp] theorem State.fresh_timeNs : (s.fresh).timeNs = s.timeNs := rfl
@[simp] theorem State.fresh_dict : (s.fresh).dict = s.dict := rfl
@[simp] theorem State.fresh_mem : (s.fresh).mem = s.mem := rfl
@[simp] theorem State.fresh_poison : (s.fresh).poison = s.poison := rfl
@[simp] theorem State.fresh_ecc : (s.fresh).ecc = s.ecc := rfl
@[simp] theorem State.fresh_hostMem : (s.fresh).hostMem = s.hostMem := rfl
@[simp] theorem State.fresh_ringsOn : (s.fresh).ringsOn = s.ringsOn := rfl
@[simp] theorem State.fresh_lpRings : (s.fresh).lpRings = s.lpRings := rfl
@[simp] theorem State.fresh_freeIx : (s.fresh).freeIx = s.freeIx := rfl
@[simp] theorem State.fresh_pairs : (s.fresh).pairs = s.pairs := rfl
@[simp] theorem State.fresh_slots : (s.fresh).slots = s.slots := rfl
@[simp] theorem State.fresh_splits : (s.fresh).splits = s.splits := rfl
@[simp] theorem State.fresh_groups : (s.fresh).groups = s.groups := rfl
@[simp] theorem State.fresh_accs : (s.fresh).accs = s.accs := rfl
@[simp] theorem State.fresh_flags : (s.fresh).flags = s.flags := rfl
@[simp] theorem State.fresh_overruns : (s.fresh).overruns = s.overruns := rfl
@[simp] theorem State.fresh_windows : (s.fresh).windows = s.windows := rfl
@[simp] theorem State.fresh_lastClose : (s.fresh).lastClose = s.lastClose := rfl
@[simp] theorem State.fresh_closing : (s.fresh).closing = s.closing := rfl
@[simp] theorem State.fresh_rounds : (s.fresh).rounds = s.rounds := rfl
@[simp] theorem State.fresh_fabric : (s.fresh).fabric = s.fabric := rfl
@[simp] theorem State.fresh_sputBad : (s.fresh).sputBad = s.sputBad := rfl
@[simp] theorem State.fresh_late : (s.fresh).late = s.late := rfl
@[simp] theorem State.fresh_timeouts : (s.fresh).timeouts = s.timeouts := rfl
@[simp] theorem State.fresh_ctxs : (s.fresh).ctxs = s.ctxs := rfl
@[simp] theorem State.fresh_waiting : (s.fresh).waiting = s.waiting := rfl
@[simp] theorem State.fresh_clearing : (s.fresh).clearing = s.clearing := rfl
@[simp] theorem State.fresh_fullNow : (s.fresh).fullNow = s.fullNow := rfl
@[simp] theorem State.fresh_adapt : (s.fresh).adapt = s.adapt := rfl
@[simp] theorem State.fresh_promotions : (s.fresh).promotions = s.promotions := rfl
@[simp] theorem State.fresh_barred : (s.fresh).barred = s.barred := rfl
@[simp] theorem State.fresh_handles : (s.fresh).handles = s.handles := rfl
@[simp] theorem State.fresh_lastSlot : (s.fresh).lastSlot = s.lastSlot := rfl
@[simp] theorem State.fresh_seqs : (s.fresh).seqs = s.seqs := rfl
@[simp] theorem State.fresh_stateWait : (s.fresh).stateWait = s.stateWait := rfl
@[simp] theorem State.fresh_portA : (s.fresh).portA = s.portA := rfl
@[simp] theorem State.fresh_portB : (s.fresh).portB = s.portB := rfl
@[simp] theorem State.fresh_emcy : (s.fresh).emcy = s.emcy := rfl
@[simp] theorem State.fresh_busOffA : (s.fresh).busOffA = s.busOffA := rfl
@[simp] theorem State.fresh_busOffB : (s.fresh).busOffB = s.busOffB := rfl
@[simp] theorem State.fresh_busOffRecent : (s.fresh).busOffRecent = s.busOffRecent := rfl
@[simp] theorem State.fresh_canParams : (s.fresh).canParams = s.canParams := rfl
@[simp] theorem State.fresh_eps : (s.fresh).eps = s.eps := rfl
@[simp] theorem State.fresh_life : (s.fresh).life = s.life := rfl
@[simp] theorem State.fresh_unbound : (s.fresh).unbound = s.unbound := rfl
@[simp] theorem State.fresh_announced : (s.fresh).announced = s.announced := rfl
@[simp] theorem State.fresh_discards : (s.fresh).discards = s.discards := rfl
@[simp] theorem State.fresh_eccFixed : (s.fresh).eccFixed = s.eccFixed := rfl
@[simp] theorem State.fresh_skipped : (s.fresh).skipped = s.skipped := rfl
@[simp] theorem State.fresh_dgramDrops : (s.fresh).dgramDrops = s.dgramDrops := rfl
@[simp] theorem State.fresh_tables : (s.fresh).tables = s.tables := rfl
@[simp] theorem State.fresh_meshBase : (s.fresh).meshBase = s.meshBase := rfl
@[simp] theorem State.fresh_raw : (s.fresh).raw = s.raw := rfl
@[simp] theorem State.fresh_views : (s.fresh).views = s.views := rfl
@[simp] theorem State.fresh_sweeps : (s.fresh).sweeps = s.sweeps := rfl
@[simp] theorem State.fresh_sweepsPrev : (s.fresh).sweepsPrev = s.sweepsPrev := rfl
@[simp] theorem State.fresh_meshQueue : (s.fresh).meshQueue = s.meshQueue := rfl
@[simp] theorem State.fresh_fetched : (s.fresh).fetched = s.fetched := rfl
@[simp] theorem State.fresh_calib : (s.fresh).calib = s.calib := rfl
@[simp] theorem State.fresh_lensMesh : (s.fresh).lensMesh = s.lensMesh := rfl
@[simp] theorem State.fresh_motion : (s.fresh).motion = s.motion := rfl
@[simp] theorem State.fresh_egoLate : (s.fresh).egoLate = s.egoLate := rfl
@[simp] theorem State.fresh_triggers : (s.fresh).triggers = s.triggers := rfl
@[simp] theorem State.fresh_gptpSync : (s.fresh).gptpSync = s.gptpSync := rfl
@[simp] theorem State.fresh_ticked : (s.fresh).ticked = s.ticked := rfl
@[simp] theorem State.fresh_tickPredicted : (s.fresh).tickPredicted = s.tickPredicted := rfl
@[simp] theorem State.fresh_tickPrev : (s.fresh).tickPrev = s.tickPrev := rfl
@[simp] theorem State.fresh_lockGood : (s.fresh).lockGood = s.lockGood := rfl
@[simp] theorem State.fresh_frame : (s.fresh).frame = s.frame := rfl
@[simp] theorem State.fresh_disagreements : (s.fresh).disagreements = s.disagreements := rfl
@[simp] theorem State.fresh_logOpen : (s.fresh).logOpen = s.logOpen := rfl
@[simp] theorem State.fresh_safeOk : (s.fresh).safeOk = s.safeOk := rfl
@[simp] theorem State.fresh_faultN : (s.fresh).faultN = s.faultN := rfl
@[simp] theorem State.fresh_poresetN : (s.fresh).poresetN = s.poresetN := rfl
@[simp] theorem State.fresh_pwrEn : (s.fresh).pwrEn = s.pwrEn := rfl
@[simp] theorem State.fresh_pwrGood : (s.fresh).pwrGood = s.pwrGood := rfl
@[simp] theorem State.fresh_thermalHold : (s.fresh).thermalHold = s.thermalHold := rfl
@[simp] theorem State.fresh_laterCauses : (s.fresh).laterCauses = s.laterCauses := rfl
@[simp] theorem State.fresh_parts : (s.fresh).parts = s.parts := rfl
@[simp] theorem State.fresh_devReset : (s.fresh).devReset = s.devReset := rfl
@[simp] theorem State.fresh_devCause : (s.fresh).devCause = s.devCause := rfl
@[simp] theorem State.fresh_devLater : (s.fresh).devLater = s.devLater := rfl
@[simp] theorem State.fresh_aonLog : (s.fresh).aonLog = s.aonLog := rfl
@[simp] theorem State.fresh_aonCodes : (s.fresh).aonCodes = s.aonCodes := rfl
@[simp] theorem State.fresh_aonDict : (s.fresh).aonDict = s.aonDict := rfl
@[simp] theorem State.fresh_resetCause : (s.fresh).resetCause = s.resetCause := rfl
@[simp] theorem State.fresh_activity : (s.fresh).activity = s.activity := rfl
@[simp] theorem State.fresh_lpFrom : (s.fresh).lpFrom = s.lpFrom := rfl
@[simp] theorem State.fresh_wake : (s.fresh).wake = s.wake := rfl
@[simp] theorem State.fresh_wakeMask : (s.fresh).wakeMask = s.wakeMask := rfl
@[simp] theorem State.fresh_wakeTimer : (s.fresh).wakeTimer = s.wakeTimer := rfl
@[simp] theorem State.fresh_lpExitBegun : (s.fresh).lpExitBegun = s.lpExitBegun := rfl
@[simp] theorem State.fresh_lpRails : (s.fresh).lpRails = s.lpRails := rfl
@[simp] theorem State.fresh_graceDue : (s.fresh).graceDue = s.graceDue := rfl
@[simp] theorem State.fresh_lpStuck : (s.fresh).lpStuck = s.lpStuck := rfl
@[simp] theorem State.fresh_testCap : (s.fresh).testCap = s.testCap := rfl
@[simp] theorem State.fresh_rateAt : (s.fresh).rateAt = s.rateAt := rfl
@[simp] theorem State.fresh_rateMark : (s.fresh).rateMark = s.rateMark := rfl
@[simp] theorem State.fresh_slowHeld : (s.fresh).slowHeld = s.slowHeld := rfl
@[simp] theorem State.fresh_fuses : (s.fresh).fuses = s.fuses := rfl
@[simp] theorem State.fresh_fitted : (s.fresh).fitted = s.fitted := rfl
@[simp] theorem State.fresh_safeState : (s.fresh).safeState = s.safeState := rfl
@[simp] theorem State.fresh_romWait : (s.fresh).romWait = s.romWait := rfl
@[simp] theorem State.fresh_bootDue : (s.fresh).bootDue = s.bootDue := rfl
@[simp] theorem State.fresh_owedReset : (s.fresh).owedReset = s.owedReset := rfl
@[simp] theorem State.fresh_romSource : (s.fresh).romSource = s.romSource := rfl
@[simp] theorem State.fresh_bootDigest : (s.fresh).bootDigest = s.bootDigest := rfl
@[simp] theorem State.fresh_imageLevel : (s.fresh).imageLevel = s.imageLevel := rfl
@[simp] theorem State.fresh_imageRevoke : (s.fresh).imageRevoke = s.imageRevoke := rfl
@[simp] theorem State.fresh_fuseBlowDue : (s.fresh).fuseBlowDue = s.fuseBlowDue := rfl
@[simp] theorem State.fresh_trustKey : (s.fresh).trustKey = s.trustKey := rfl
@[simp] theorem State.fresh_quotes : (s.fresh).quotes = s.quotes := rfl
@[simp] theorem State.fresh_scrubPos : (s.fresh).scrubPos = s.scrubPos := rfl
@[simp] theorem State.fresh_tempHeld : (s.fresh).tempHeld = s.tempHeld := rfl
@[simp] theorem State.fresh_tempBelow : (s.fresh).tempBelow = s.tempBelow := rfl
@[simp] theorem State.fresh_vset : (s.fresh).vset = s.vset := rfl

/-! ### send -/

@[simp] theorem State.send_pending (m : Message) : (s.send m).pending = s.pending := rfl
@[simp] theorem State.send_timeNs (m : Message) : (s.send m).timeNs = s.timeNs := rfl
@[simp] theorem State.send_dict (m : Message) : (s.send m).dict = s.dict := rfl
@[simp] theorem State.send_mem (m : Message) : (s.send m).mem = s.mem := rfl
@[simp] theorem State.send_poison (m : Message) : (s.send m).poison = s.poison := rfl
@[simp] theorem State.send_ecc (m : Message) : (s.send m).ecc = s.ecc := rfl
@[simp] theorem State.send_hostMem (m : Message) : (s.send m).hostMem = s.hostMem := rfl
@[simp] theorem State.send_ringsOn (m : Message) : (s.send m).ringsOn = s.ringsOn := rfl
@[simp] theorem State.send_lpRings (m : Message) : (s.send m).lpRings = s.lpRings := rfl
@[simp] theorem State.send_freeIx (m : Message) : (s.send m).freeIx = s.freeIx := rfl
@[simp] theorem State.send_pairs (m : Message) : (s.send m).pairs = s.pairs := rfl
@[simp] theorem State.send_slots (m : Message) : (s.send m).slots = s.slots := rfl
@[simp] theorem State.send_splits (m : Message) : (s.send m).splits = s.splits := rfl
@[simp] theorem State.send_groups (m : Message) : (s.send m).groups = s.groups := rfl
@[simp] theorem State.send_accs (m : Message) : (s.send m).accs = s.accs := rfl
@[simp] theorem State.send_flags (m : Message) : (s.send m).flags = s.flags := rfl
@[simp] theorem State.send_overruns (m : Message) : (s.send m).overruns = s.overruns := rfl
@[simp] theorem State.send_windows (m : Message) : (s.send m).windows = s.windows := rfl
@[simp] theorem State.send_lastClose (m : Message) : (s.send m).lastClose = s.lastClose := rfl
@[simp] theorem State.send_closing (m : Message) : (s.send m).closing = s.closing := rfl
@[simp] theorem State.send_rounds (m : Message) : (s.send m).rounds = s.rounds := rfl
@[simp] theorem State.send_fabric (m : Message) : (s.send m).fabric = s.fabric := rfl
@[simp] theorem State.send_sputBad (m : Message) : (s.send m).sputBad = s.sputBad := rfl
@[simp] theorem State.send_late (m : Message) : (s.send m).late = s.late := rfl
@[simp] theorem State.send_timeouts (m : Message) : (s.send m).timeouts = s.timeouts := rfl
@[simp] theorem State.send_ctxs (m : Message) : (s.send m).ctxs = s.ctxs := rfl
@[simp] theorem State.send_waiting (m : Message) : (s.send m).waiting = s.waiting := rfl
@[simp] theorem State.send_clearing (m : Message) : (s.send m).clearing = s.clearing := rfl
@[simp] theorem State.send_fullNow (m : Message) : (s.send m).fullNow = s.fullNow := rfl
@[simp] theorem State.send_adapt (m : Message) : (s.send m).adapt = s.adapt := rfl
@[simp] theorem State.send_promotions (m : Message) : (s.send m).promotions = s.promotions := rfl
@[simp] theorem State.send_barred (m : Message) : (s.send m).barred = s.barred := rfl
@[simp] theorem State.send_handles (m : Message) : (s.send m).handles = s.handles := rfl
@[simp] theorem State.send_lastSlot (m : Message) : (s.send m).lastSlot = s.lastSlot := rfl
@[simp] theorem State.send_seqs (m : Message) : (s.send m).seqs = s.seqs := rfl
@[simp] theorem State.send_stateWait (m : Message) : (s.send m).stateWait = s.stateWait := rfl
@[simp] theorem State.send_portA (m : Message) : (s.send m).portA = s.portA := rfl
@[simp] theorem State.send_portB (m : Message) : (s.send m).portB = s.portB := rfl
@[simp] theorem State.send_emcy (m : Message) : (s.send m).emcy = s.emcy := rfl
@[simp] theorem State.send_busOffA (m : Message) : (s.send m).busOffA = s.busOffA := rfl
@[simp] theorem State.send_busOffB (m : Message) : (s.send m).busOffB = s.busOffB := rfl
@[simp] theorem State.send_busOffRecent (m : Message) : (s.send m).busOffRecent = s.busOffRecent := rfl
@[simp] theorem State.send_canParams (m : Message) : (s.send m).canParams = s.canParams := rfl
@[simp] theorem State.send_eps (m : Message) : (s.send m).eps = s.eps := rfl
@[simp] theorem State.send_life (m : Message) : (s.send m).life = s.life := rfl
@[simp] theorem State.send_unbound (m : Message) : (s.send m).unbound = s.unbound := rfl
@[simp] theorem State.send_announced (m : Message) : (s.send m).announced = s.announced := rfl
@[simp] theorem State.send_discards (m : Message) : (s.send m).discards = s.discards := rfl
@[simp] theorem State.send_eccFixed (m : Message) : (s.send m).eccFixed = s.eccFixed := rfl
@[simp] theorem State.send_skipped (m : Message) : (s.send m).skipped = s.skipped := rfl
@[simp] theorem State.send_dgramDrops (m : Message) : (s.send m).dgramDrops = s.dgramDrops := rfl
@[simp] theorem State.send_tables (m : Message) : (s.send m).tables = s.tables := rfl
@[simp] theorem State.send_meshBase (m : Message) : (s.send m).meshBase = s.meshBase := rfl
@[simp] theorem State.send_raw (m : Message) : (s.send m).raw = s.raw := rfl
@[simp] theorem State.send_views (m : Message) : (s.send m).views = s.views := rfl
@[simp] theorem State.send_sweeps (m : Message) : (s.send m).sweeps = s.sweeps := rfl
@[simp] theorem State.send_sweepsPrev (m : Message) : (s.send m).sweepsPrev = s.sweepsPrev := rfl
@[simp] theorem State.send_meshQueue (m : Message) : (s.send m).meshQueue = s.meshQueue := rfl
@[simp] theorem State.send_fetched (m : Message) : (s.send m).fetched = s.fetched := rfl
@[simp] theorem State.send_calib (m : Message) : (s.send m).calib = s.calib := rfl
@[simp] theorem State.send_lensMesh (m : Message) : (s.send m).lensMesh = s.lensMesh := rfl
@[simp] theorem State.send_motion (m : Message) : (s.send m).motion = s.motion := rfl
@[simp] theorem State.send_egoLate (m : Message) : (s.send m).egoLate = s.egoLate := rfl
@[simp] theorem State.send_triggers (m : Message) : (s.send m).triggers = s.triggers := rfl
@[simp] theorem State.send_gptpSync (m : Message) : (s.send m).gptpSync = s.gptpSync := rfl
@[simp] theorem State.send_ticked (m : Message) : (s.send m).ticked = s.ticked := rfl
@[simp] theorem State.send_tickPredicted (m : Message) : (s.send m).tickPredicted = s.tickPredicted := rfl
@[simp] theorem State.send_tickPrev (m : Message) : (s.send m).tickPrev = s.tickPrev := rfl
@[simp] theorem State.send_lockGood (m : Message) : (s.send m).lockGood = s.lockGood := rfl
@[simp] theorem State.send_frame (m : Message) : (s.send m).frame = s.frame := rfl
@[simp] theorem State.send_disagreements (m : Message) : (s.send m).disagreements = s.disagreements := rfl
@[simp] theorem State.send_logOpen (m : Message) : (s.send m).logOpen = s.logOpen := rfl
@[simp] theorem State.send_safeOk (m : Message) : (s.send m).safeOk = s.safeOk := rfl
@[simp] theorem State.send_faultN (m : Message) : (s.send m).faultN = s.faultN := rfl
@[simp] theorem State.send_poresetN (m : Message) : (s.send m).poresetN = s.poresetN := rfl
@[simp] theorem State.send_pwrEn (m : Message) : (s.send m).pwrEn = s.pwrEn := rfl
@[simp] theorem State.send_pwrGood (m : Message) : (s.send m).pwrGood = s.pwrGood := rfl
@[simp] theorem State.send_thermalHold (m : Message) : (s.send m).thermalHold = s.thermalHold := rfl
@[simp] theorem State.send_laterCauses (m : Message) : (s.send m).laterCauses = s.laterCauses := rfl
@[simp] theorem State.send_parts (m : Message) : (s.send m).parts = s.parts := rfl
@[simp] theorem State.send_devReset (m : Message) : (s.send m).devReset = s.devReset := rfl
@[simp] theorem State.send_devCause (m : Message) : (s.send m).devCause = s.devCause := rfl
@[simp] theorem State.send_devLater (m : Message) : (s.send m).devLater = s.devLater := rfl
@[simp] theorem State.send_aonLog (m : Message) : (s.send m).aonLog = s.aonLog := rfl
@[simp] theorem State.send_aonCodes (m : Message) : (s.send m).aonCodes = s.aonCodes := rfl
@[simp] theorem State.send_aonDict (m : Message) : (s.send m).aonDict = s.aonDict := rfl
@[simp] theorem State.send_resetCause (m : Message) : (s.send m).resetCause = s.resetCause := rfl
@[simp] theorem State.send_activity (m : Message) : (s.send m).activity = s.activity := rfl
@[simp] theorem State.send_lpFrom (m : Message) : (s.send m).lpFrom = s.lpFrom := rfl
@[simp] theorem State.send_wake (m : Message) : (s.send m).wake = s.wake := rfl
@[simp] theorem State.send_wakeMask (m : Message) : (s.send m).wakeMask = s.wakeMask := rfl
@[simp] theorem State.send_wakeTimer (m : Message) : (s.send m).wakeTimer = s.wakeTimer := rfl
@[simp] theorem State.send_lpExitBegun (m : Message) : (s.send m).lpExitBegun = s.lpExitBegun := rfl
@[simp] theorem State.send_lpRails (m : Message) : (s.send m).lpRails = s.lpRails := rfl
@[simp] theorem State.send_graceDue (m : Message) : (s.send m).graceDue = s.graceDue := rfl
@[simp] theorem State.send_lpStuck (m : Message) : (s.send m).lpStuck = s.lpStuck := rfl
@[simp] theorem State.send_testCap (m : Message) : (s.send m).testCap = s.testCap := rfl
@[simp] theorem State.send_rateAt (m : Message) : (s.send m).rateAt = s.rateAt := rfl
@[simp] theorem State.send_rateMark (m : Message) : (s.send m).rateMark = s.rateMark := rfl
@[simp] theorem State.send_slowHeld (m : Message) : (s.send m).slowHeld = s.slowHeld := rfl
@[simp] theorem State.send_fuses (m : Message) : (s.send m).fuses = s.fuses := rfl
@[simp] theorem State.send_fitted (m : Message) : (s.send m).fitted = s.fitted := rfl
@[simp] theorem State.send_safeState (m : Message) : (s.send m).safeState = s.safeState := rfl
@[simp] theorem State.send_romWait (m : Message) : (s.send m).romWait = s.romWait := rfl
@[simp] theorem State.send_bootDue (m : Message) : (s.send m).bootDue = s.bootDue := rfl
@[simp] theorem State.send_owedReset (m : Message) : (s.send m).owedReset = s.owedReset := rfl
@[simp] theorem State.send_romSource (m : Message) : (s.send m).romSource = s.romSource := rfl
@[simp] theorem State.send_bootDigest (m : Message) : (s.send m).bootDigest = s.bootDigest := rfl
@[simp] theorem State.send_imageLevel (m : Message) : (s.send m).imageLevel = s.imageLevel := rfl
@[simp] theorem State.send_imageRevoke (m : Message) : (s.send m).imageRevoke = s.imageRevoke := rfl
@[simp] theorem State.send_fuseBlowDue (m : Message) : (s.send m).fuseBlowDue = s.fuseBlowDue := rfl
@[simp] theorem State.send_trustKey (m : Message) : (s.send m).trustKey = s.trustKey := rfl
@[simp] theorem State.send_quotes (m : Message) : (s.send m).quotes = s.quotes := rfl
@[simp] theorem State.send_scrubPos (m : Message) : (s.send m).scrubPos = s.scrubPos := rfl
@[simp] theorem State.send_tempHeld (m : Message) : (s.send m).tempHeld = s.tempHeld := rfl
@[simp] theorem State.send_tempBelow (m : Message) : (s.send m).tempBelow = s.tempBelow := rfl
@[simp] theorem State.send_vset (m : Message) : (s.send m).vset = s.vset := rfl

/-! ### atTime -/

@[simp] theorem State.atTime_pending (n : Nat) : (s.atTime n).pending = s.pending := rfl
@[simp] theorem State.atTime_sent (n : Nat) : (s.atTime n).sent = s.sent := rfl
@[simp] theorem State.atTime_dict (n : Nat) : (s.atTime n).dict = s.dict := rfl
@[simp] theorem State.atTime_mem (n : Nat) : (s.atTime n).mem = s.mem := rfl
@[simp] theorem State.atTime_poison (n : Nat) : (s.atTime n).poison = s.poison := rfl
@[simp] theorem State.atTime_ecc (n : Nat) : (s.atTime n).ecc = s.ecc := rfl
@[simp] theorem State.atTime_hostMem (n : Nat) : (s.atTime n).hostMem = s.hostMem := rfl
@[simp] theorem State.atTime_ringsOn (n : Nat) : (s.atTime n).ringsOn = s.ringsOn := rfl
@[simp] theorem State.atTime_lpRings (n : Nat) : (s.atTime n).lpRings = s.lpRings := rfl
@[simp] theorem State.atTime_freeIx (n : Nat) : (s.atTime n).freeIx = s.freeIx := rfl
@[simp] theorem State.atTime_pairs (n : Nat) : (s.atTime n).pairs = s.pairs := rfl
@[simp] theorem State.atTime_slots (n : Nat) : (s.atTime n).slots = s.slots := rfl
@[simp] theorem State.atTime_splits (n : Nat) : (s.atTime n).splits = s.splits := rfl
@[simp] theorem State.atTime_groups (n : Nat) : (s.atTime n).groups = s.groups := rfl
@[simp] theorem State.atTime_accs (n : Nat) : (s.atTime n).accs = s.accs := rfl
@[simp] theorem State.atTime_flags (n : Nat) : (s.atTime n).flags = s.flags := rfl
@[simp] theorem State.atTime_overruns (n : Nat) : (s.atTime n).overruns = s.overruns := rfl
@[simp] theorem State.atTime_windows (n : Nat) : (s.atTime n).windows = s.windows := rfl
@[simp] theorem State.atTime_lastClose (n : Nat) : (s.atTime n).lastClose = s.lastClose := rfl
@[simp] theorem State.atTime_closing (n : Nat) : (s.atTime n).closing = s.closing := rfl
@[simp] theorem State.atTime_rounds (n : Nat) : (s.atTime n).rounds = s.rounds := rfl
@[simp] theorem State.atTime_fabric (n : Nat) : (s.atTime n).fabric = s.fabric := rfl
@[simp] theorem State.atTime_sputBad (n : Nat) : (s.atTime n).sputBad = s.sputBad := rfl
@[simp] theorem State.atTime_late (n : Nat) : (s.atTime n).late = s.late := rfl
@[simp] theorem State.atTime_timeouts (n : Nat) : (s.atTime n).timeouts = s.timeouts := rfl
@[simp] theorem State.atTime_ctxs (n : Nat) : (s.atTime n).ctxs = s.ctxs := rfl
@[simp] theorem State.atTime_waiting (n : Nat) : (s.atTime n).waiting = s.waiting := rfl
@[simp] theorem State.atTime_clearing (n : Nat) : (s.atTime n).clearing = s.clearing := rfl
@[simp] theorem State.atTime_fullNow (n : Nat) : (s.atTime n).fullNow = s.fullNow := rfl
@[simp] theorem State.atTime_adapt (n : Nat) : (s.atTime n).adapt = s.adapt := rfl
@[simp] theorem State.atTime_promotions (n : Nat) : (s.atTime n).promotions = s.promotions := rfl
@[simp] theorem State.atTime_barred (n : Nat) : (s.atTime n).barred = s.barred := rfl
@[simp] theorem State.atTime_handles (n : Nat) : (s.atTime n).handles = s.handles := rfl
@[simp] theorem State.atTime_lastSlot (n : Nat) : (s.atTime n).lastSlot = s.lastSlot := rfl
@[simp] theorem State.atTime_seqs (n : Nat) : (s.atTime n).seqs = s.seqs := rfl
@[simp] theorem State.atTime_stateWait (n : Nat) : (s.atTime n).stateWait = s.stateWait := rfl
@[simp] theorem State.atTime_portA (n : Nat) : (s.atTime n).portA = s.portA := rfl
@[simp] theorem State.atTime_portB (n : Nat) : (s.atTime n).portB = s.portB := rfl
@[simp] theorem State.atTime_emcy (n : Nat) : (s.atTime n).emcy = s.emcy := rfl
@[simp] theorem State.atTime_busOffA (n : Nat) : (s.atTime n).busOffA = s.busOffA := rfl
@[simp] theorem State.atTime_busOffB (n : Nat) : (s.atTime n).busOffB = s.busOffB := rfl
@[simp] theorem State.atTime_busOffRecent (n : Nat) : (s.atTime n).busOffRecent = s.busOffRecent := rfl
@[simp] theorem State.atTime_canParams (n : Nat) : (s.atTime n).canParams = s.canParams := rfl
@[simp] theorem State.atTime_eps (n : Nat) : (s.atTime n).eps = s.eps := rfl
@[simp] theorem State.atTime_life (n : Nat) : (s.atTime n).life = s.life := rfl
@[simp] theorem State.atTime_unbound (n : Nat) : (s.atTime n).unbound = s.unbound := rfl
@[simp] theorem State.atTime_announced (n : Nat) : (s.atTime n).announced = s.announced := rfl
@[simp] theorem State.atTime_discards (n : Nat) : (s.atTime n).discards = s.discards := rfl
@[simp] theorem State.atTime_eccFixed (n : Nat) : (s.atTime n).eccFixed = s.eccFixed := rfl
@[simp] theorem State.atTime_skipped (n : Nat) : (s.atTime n).skipped = s.skipped := rfl
@[simp] theorem State.atTime_dgramDrops (n : Nat) : (s.atTime n).dgramDrops = s.dgramDrops := rfl
@[simp] theorem State.atTime_tables (n : Nat) : (s.atTime n).tables = s.tables := rfl
@[simp] theorem State.atTime_meshBase (n : Nat) : (s.atTime n).meshBase = s.meshBase := rfl
@[simp] theorem State.atTime_raw (n : Nat) : (s.atTime n).raw = s.raw := rfl
@[simp] theorem State.atTime_views (n : Nat) : (s.atTime n).views = s.views := rfl
@[simp] theorem State.atTime_sweeps (n : Nat) : (s.atTime n).sweeps = s.sweeps := rfl
@[simp] theorem State.atTime_sweepsPrev (n : Nat) : (s.atTime n).sweepsPrev = s.sweepsPrev := rfl
@[simp] theorem State.atTime_meshQueue (n : Nat) : (s.atTime n).meshQueue = s.meshQueue := rfl
@[simp] theorem State.atTime_fetched (n : Nat) : (s.atTime n).fetched = s.fetched := rfl
@[simp] theorem State.atTime_calib (n : Nat) : (s.atTime n).calib = s.calib := rfl
@[simp] theorem State.atTime_lensMesh (n : Nat) : (s.atTime n).lensMesh = s.lensMesh := rfl
@[simp] theorem State.atTime_motion (n : Nat) : (s.atTime n).motion = s.motion := rfl
@[simp] theorem State.atTime_egoLate (n : Nat) : (s.atTime n).egoLate = s.egoLate := rfl
@[simp] theorem State.atTime_triggers (n : Nat) : (s.atTime n).triggers = s.triggers := rfl
@[simp] theorem State.atTime_gptpSync (n : Nat) : (s.atTime n).gptpSync = s.gptpSync := rfl
@[simp] theorem State.atTime_ticked (n : Nat) : (s.atTime n).ticked = s.ticked := rfl
@[simp] theorem State.atTime_tickPredicted (n : Nat) : (s.atTime n).tickPredicted = s.tickPredicted := rfl
@[simp] theorem State.atTime_tickPrev (n : Nat) : (s.atTime n).tickPrev = s.tickPrev := rfl
@[simp] theorem State.atTime_lockGood (n : Nat) : (s.atTime n).lockGood = s.lockGood := rfl
@[simp] theorem State.atTime_frame (n : Nat) : (s.atTime n).frame = s.frame := rfl
@[simp] theorem State.atTime_disagreements (n : Nat) : (s.atTime n).disagreements = s.disagreements := rfl
@[simp] theorem State.atTime_logOpen (n : Nat) : (s.atTime n).logOpen = s.logOpen := rfl
@[simp] theorem State.atTime_safeOk (n : Nat) : (s.atTime n).safeOk = s.safeOk := rfl
@[simp] theorem State.atTime_faultN (n : Nat) : (s.atTime n).faultN = s.faultN := rfl
@[simp] theorem State.atTime_poresetN (n : Nat) : (s.atTime n).poresetN = s.poresetN := rfl
@[simp] theorem State.atTime_pwrEn (n : Nat) : (s.atTime n).pwrEn = s.pwrEn := rfl
@[simp] theorem State.atTime_pwrGood (n : Nat) : (s.atTime n).pwrGood = s.pwrGood := rfl
@[simp] theorem State.atTime_thermalHold (n : Nat) : (s.atTime n).thermalHold = s.thermalHold := rfl
@[simp] theorem State.atTime_laterCauses (n : Nat) : (s.atTime n).laterCauses = s.laterCauses := rfl
@[simp] theorem State.atTime_parts (n : Nat) : (s.atTime n).parts = s.parts := rfl
@[simp] theorem State.atTime_devReset (n : Nat) : (s.atTime n).devReset = s.devReset := rfl
@[simp] theorem State.atTime_devCause (n : Nat) : (s.atTime n).devCause = s.devCause := rfl
@[simp] theorem State.atTime_devLater (n : Nat) : (s.atTime n).devLater = s.devLater := rfl
@[simp] theorem State.atTime_aonLog (n : Nat) : (s.atTime n).aonLog = s.aonLog := rfl
@[simp] theorem State.atTime_aonCodes (n : Nat) : (s.atTime n).aonCodes = s.aonCodes := rfl
@[simp] theorem State.atTime_aonDict (n : Nat) : (s.atTime n).aonDict = s.aonDict := rfl
@[simp] theorem State.atTime_resetCause (n : Nat) : (s.atTime n).resetCause = s.resetCause := rfl
@[simp] theorem State.atTime_activity (n : Nat) : (s.atTime n).activity = s.activity := rfl
@[simp] theorem State.atTime_lpFrom (n : Nat) : (s.atTime n).lpFrom = s.lpFrom := rfl
@[simp] theorem State.atTime_wake (n : Nat) : (s.atTime n).wake = s.wake := rfl
@[simp] theorem State.atTime_wakeMask (n : Nat) : (s.atTime n).wakeMask = s.wakeMask := rfl
@[simp] theorem State.atTime_wakeTimer (n : Nat) : (s.atTime n).wakeTimer = s.wakeTimer := rfl
@[simp] theorem State.atTime_lpExitBegun (n : Nat) : (s.atTime n).lpExitBegun = s.lpExitBegun := rfl
@[simp] theorem State.atTime_lpRails (n : Nat) : (s.atTime n).lpRails = s.lpRails := rfl
@[simp] theorem State.atTime_graceDue (n : Nat) : (s.atTime n).graceDue = s.graceDue := rfl
@[simp] theorem State.atTime_lpStuck (n : Nat) : (s.atTime n).lpStuck = s.lpStuck := rfl
@[simp] theorem State.atTime_testCap (n : Nat) : (s.atTime n).testCap = s.testCap := rfl
@[simp] theorem State.atTime_rateAt (n : Nat) : (s.atTime n).rateAt = s.rateAt := rfl
@[simp] theorem State.atTime_rateMark (n : Nat) : (s.atTime n).rateMark = s.rateMark := rfl
@[simp] theorem State.atTime_slowHeld (n : Nat) : (s.atTime n).slowHeld = s.slowHeld := rfl
@[simp] theorem State.atTime_fuses (n : Nat) : (s.atTime n).fuses = s.fuses := rfl
@[simp] theorem State.atTime_fitted (n : Nat) : (s.atTime n).fitted = s.fitted := rfl
@[simp] theorem State.atTime_safeState (n : Nat) : (s.atTime n).safeState = s.safeState := rfl
@[simp] theorem State.atTime_romWait (n : Nat) : (s.atTime n).romWait = s.romWait := rfl
@[simp] theorem State.atTime_bootDue (n : Nat) : (s.atTime n).bootDue = s.bootDue := rfl
@[simp] theorem State.atTime_owedReset (n : Nat) : (s.atTime n).owedReset = s.owedReset := rfl
@[simp] theorem State.atTime_romSource (n : Nat) : (s.atTime n).romSource = s.romSource := rfl
@[simp] theorem State.atTime_bootDigest (n : Nat) : (s.atTime n).bootDigest = s.bootDigest := rfl
@[simp] theorem State.atTime_imageLevel (n : Nat) : (s.atTime n).imageLevel = s.imageLevel := rfl
@[simp] theorem State.atTime_imageRevoke (n : Nat) : (s.atTime n).imageRevoke = s.imageRevoke := rfl
@[simp] theorem State.atTime_fuseBlowDue (n : Nat) : (s.atTime n).fuseBlowDue = s.fuseBlowDue := rfl
@[simp] theorem State.atTime_trustKey (n : Nat) : (s.atTime n).trustKey = s.trustKey := rfl
@[simp] theorem State.atTime_quotes (n : Nat) : (s.atTime n).quotes = s.quotes := rfl
@[simp] theorem State.atTime_scrubPos (n : Nat) : (s.atTime n).scrubPos = s.scrubPos := rfl
@[simp] theorem State.atTime_tempHeld (n : Nat) : (s.atTime n).tempHeld = s.tempHeld := rfl
@[simp] theorem State.atTime_tempBelow (n : Nat) : (s.atTime n).tempBelow = s.tempBelow := rfl
@[simp] theorem State.atTime_vset (n : Nat) : (s.atTime n).vset = s.vset := rfl

/-! ### freeStep -/

@[simp] theorem State.freeStep_pending : (s.freeStep).pending = s.pending := rfl
@[simp] theorem State.freeStep_timeNs : (s.freeStep).timeNs = s.timeNs := rfl
@[simp] theorem State.freeStep_sent : (s.freeStep).sent = s.sent := rfl
@[simp] theorem State.freeStep_dict : (s.freeStep).dict = s.dict := rfl
@[simp] theorem State.freeStep_mem : (s.freeStep).mem = s.mem := rfl
@[simp] theorem State.freeStep_poison : (s.freeStep).poison = s.poison := rfl
@[simp] theorem State.freeStep_ecc : (s.freeStep).ecc = s.ecc := rfl
@[simp] theorem State.freeStep_hostMem : (s.freeStep).hostMem = s.hostMem := rfl
@[simp] theorem State.freeStep_ringsOn : (s.freeStep).ringsOn = s.ringsOn := rfl
@[simp] theorem State.freeStep_lpRings : (s.freeStep).lpRings = s.lpRings := rfl
@[simp] theorem State.freeStep_pairs : (s.freeStep).pairs = s.pairs := rfl
@[simp] theorem State.freeStep_slots : (s.freeStep).slots = s.slots := rfl
@[simp] theorem State.freeStep_splits : (s.freeStep).splits = s.splits := rfl
@[simp] theorem State.freeStep_groups : (s.freeStep).groups = s.groups := rfl
@[simp] theorem State.freeStep_accs : (s.freeStep).accs = s.accs := rfl
@[simp] theorem State.freeStep_flags : (s.freeStep).flags = s.flags := rfl
@[simp] theorem State.freeStep_overruns : (s.freeStep).overruns = s.overruns := rfl
@[simp] theorem State.freeStep_windows : (s.freeStep).windows = s.windows := rfl
@[simp] theorem State.freeStep_lastClose : (s.freeStep).lastClose = s.lastClose := rfl
@[simp] theorem State.freeStep_closing : (s.freeStep).closing = s.closing := rfl
@[simp] theorem State.freeStep_rounds : (s.freeStep).rounds = s.rounds := rfl
@[simp] theorem State.freeStep_fabric : (s.freeStep).fabric = s.fabric := rfl
@[simp] theorem State.freeStep_sputBad : (s.freeStep).sputBad = s.sputBad := rfl
@[simp] theorem State.freeStep_late : (s.freeStep).late = s.late := rfl
@[simp] theorem State.freeStep_timeouts : (s.freeStep).timeouts = s.timeouts := rfl
@[simp] theorem State.freeStep_ctxs : (s.freeStep).ctxs = s.ctxs := rfl
@[simp] theorem State.freeStep_waiting : (s.freeStep).waiting = s.waiting := rfl
@[simp] theorem State.freeStep_clearing : (s.freeStep).clearing = s.clearing := rfl
@[simp] theorem State.freeStep_fullNow : (s.freeStep).fullNow = s.fullNow := rfl
@[simp] theorem State.freeStep_adapt : (s.freeStep).adapt = s.adapt := rfl
@[simp] theorem State.freeStep_promotions : (s.freeStep).promotions = s.promotions := rfl
@[simp] theorem State.freeStep_barred : (s.freeStep).barred = s.barred := rfl
@[simp] theorem State.freeStep_handles : (s.freeStep).handles = s.handles := rfl
@[simp] theorem State.freeStep_lastSlot : (s.freeStep).lastSlot = s.lastSlot := rfl
@[simp] theorem State.freeStep_seqs : (s.freeStep).seqs = s.seqs := rfl
@[simp] theorem State.freeStep_stateWait : (s.freeStep).stateWait = s.stateWait := rfl
@[simp] theorem State.freeStep_portA : (s.freeStep).portA = s.portA := rfl
@[simp] theorem State.freeStep_portB : (s.freeStep).portB = s.portB := rfl
@[simp] theorem State.freeStep_emcy : (s.freeStep).emcy = s.emcy := rfl
@[simp] theorem State.freeStep_busOffA : (s.freeStep).busOffA = s.busOffA := rfl
@[simp] theorem State.freeStep_busOffB : (s.freeStep).busOffB = s.busOffB := rfl
@[simp] theorem State.freeStep_busOffRecent : (s.freeStep).busOffRecent = s.busOffRecent := rfl
@[simp] theorem State.freeStep_canParams : (s.freeStep).canParams = s.canParams := rfl
@[simp] theorem State.freeStep_eps : (s.freeStep).eps = s.eps := rfl
@[simp] theorem State.freeStep_life : (s.freeStep).life = s.life := rfl
@[simp] theorem State.freeStep_unbound : (s.freeStep).unbound = s.unbound := rfl
@[simp] theorem State.freeStep_announced : (s.freeStep).announced = s.announced := rfl
@[simp] theorem State.freeStep_discards : (s.freeStep).discards = s.discards := rfl
@[simp] theorem State.freeStep_eccFixed : (s.freeStep).eccFixed = s.eccFixed := rfl
@[simp] theorem State.freeStep_skipped : (s.freeStep).skipped = s.skipped := rfl
@[simp] theorem State.freeStep_dgramDrops : (s.freeStep).dgramDrops = s.dgramDrops := rfl
@[simp] theorem State.freeStep_tables : (s.freeStep).tables = s.tables := rfl
@[simp] theorem State.freeStep_meshBase : (s.freeStep).meshBase = s.meshBase := rfl
@[simp] theorem State.freeStep_raw : (s.freeStep).raw = s.raw := rfl
@[simp] theorem State.freeStep_views : (s.freeStep).views = s.views := rfl
@[simp] theorem State.freeStep_sweeps : (s.freeStep).sweeps = s.sweeps := rfl
@[simp] theorem State.freeStep_sweepsPrev : (s.freeStep).sweepsPrev = s.sweepsPrev := rfl
@[simp] theorem State.freeStep_meshQueue : (s.freeStep).meshQueue = s.meshQueue := rfl
@[simp] theorem State.freeStep_fetched : (s.freeStep).fetched = s.fetched := rfl
@[simp] theorem State.freeStep_calib : (s.freeStep).calib = s.calib := rfl
@[simp] theorem State.freeStep_lensMesh : (s.freeStep).lensMesh = s.lensMesh := rfl
@[simp] theorem State.freeStep_motion : (s.freeStep).motion = s.motion := rfl
@[simp] theorem State.freeStep_egoLate : (s.freeStep).egoLate = s.egoLate := rfl
@[simp] theorem State.freeStep_triggers : (s.freeStep).triggers = s.triggers := rfl
@[simp] theorem State.freeStep_gptpSync : (s.freeStep).gptpSync = s.gptpSync := rfl
@[simp] theorem State.freeStep_ticked : (s.freeStep).ticked = s.ticked := rfl
@[simp] theorem State.freeStep_tickPredicted : (s.freeStep).tickPredicted = s.tickPredicted := rfl
@[simp] theorem State.freeStep_tickPrev : (s.freeStep).tickPrev = s.tickPrev := rfl
@[simp] theorem State.freeStep_lockGood : (s.freeStep).lockGood = s.lockGood := rfl
@[simp] theorem State.freeStep_frame : (s.freeStep).frame = s.frame := rfl
@[simp] theorem State.freeStep_disagreements : (s.freeStep).disagreements = s.disagreements := rfl
@[simp] theorem State.freeStep_logOpen : (s.freeStep).logOpen = s.logOpen := rfl
@[simp] theorem State.freeStep_safeOk : (s.freeStep).safeOk = s.safeOk := rfl
@[simp] theorem State.freeStep_faultN : (s.freeStep).faultN = s.faultN := rfl
@[simp] theorem State.freeStep_poresetN : (s.freeStep).poresetN = s.poresetN := rfl
@[simp] theorem State.freeStep_pwrEn : (s.freeStep).pwrEn = s.pwrEn := rfl
@[simp] theorem State.freeStep_pwrGood : (s.freeStep).pwrGood = s.pwrGood := rfl
@[simp] theorem State.freeStep_thermalHold : (s.freeStep).thermalHold = s.thermalHold := rfl
@[simp] theorem State.freeStep_laterCauses : (s.freeStep).laterCauses = s.laterCauses := rfl
@[simp] theorem State.freeStep_parts : (s.freeStep).parts = s.parts := rfl
@[simp] theorem State.freeStep_devReset : (s.freeStep).devReset = s.devReset := rfl
@[simp] theorem State.freeStep_devCause : (s.freeStep).devCause = s.devCause := rfl
@[simp] theorem State.freeStep_devLater : (s.freeStep).devLater = s.devLater := rfl
@[simp] theorem State.freeStep_aonLog : (s.freeStep).aonLog = s.aonLog := rfl
@[simp] theorem State.freeStep_aonCodes : (s.freeStep).aonCodes = s.aonCodes := rfl
@[simp] theorem State.freeStep_aonDict : (s.freeStep).aonDict = s.aonDict := rfl
@[simp] theorem State.freeStep_resetCause : (s.freeStep).resetCause = s.resetCause := rfl
@[simp] theorem State.freeStep_activity : (s.freeStep).activity = s.activity := rfl
@[simp] theorem State.freeStep_lpFrom : (s.freeStep).lpFrom = s.lpFrom := rfl
@[simp] theorem State.freeStep_wake : (s.freeStep).wake = s.wake := rfl
@[simp] theorem State.freeStep_wakeMask : (s.freeStep).wakeMask = s.wakeMask := rfl
@[simp] theorem State.freeStep_wakeTimer : (s.freeStep).wakeTimer = s.wakeTimer := rfl
@[simp] theorem State.freeStep_lpExitBegun : (s.freeStep).lpExitBegun = s.lpExitBegun := rfl
@[simp] theorem State.freeStep_lpRails : (s.freeStep).lpRails = s.lpRails := rfl
@[simp] theorem State.freeStep_graceDue : (s.freeStep).graceDue = s.graceDue := rfl
@[simp] theorem State.freeStep_lpStuck : (s.freeStep).lpStuck = s.lpStuck := rfl
@[simp] theorem State.freeStep_testCap : (s.freeStep).testCap = s.testCap := rfl
@[simp] theorem State.freeStep_rateAt : (s.freeStep).rateAt = s.rateAt := rfl
@[simp] theorem State.freeStep_rateMark : (s.freeStep).rateMark = s.rateMark := rfl
@[simp] theorem State.freeStep_slowHeld : (s.freeStep).slowHeld = s.slowHeld := rfl
@[simp] theorem State.freeStep_fuses : (s.freeStep).fuses = s.fuses := rfl
@[simp] theorem State.freeStep_fitted : (s.freeStep).fitted = s.fitted := rfl
@[simp] theorem State.freeStep_safeState : (s.freeStep).safeState = s.safeState := rfl
@[simp] theorem State.freeStep_romWait : (s.freeStep).romWait = s.romWait := rfl
@[simp] theorem State.freeStep_bootDue : (s.freeStep).bootDue = s.bootDue := rfl
@[simp] theorem State.freeStep_owedReset : (s.freeStep).owedReset = s.owedReset := rfl
@[simp] theorem State.freeStep_romSource : (s.freeStep).romSource = s.romSource := rfl
@[simp] theorem State.freeStep_bootDigest : (s.freeStep).bootDigest = s.bootDigest := rfl
@[simp] theorem State.freeStep_imageLevel : (s.freeStep).imageLevel = s.imageLevel := rfl
@[simp] theorem State.freeStep_imageRevoke : (s.freeStep).imageRevoke = s.imageRevoke := rfl
@[simp] theorem State.freeStep_fuseBlowDue : (s.freeStep).fuseBlowDue = s.fuseBlowDue := rfl
@[simp] theorem State.freeStep_trustKey : (s.freeStep).trustKey = s.trustKey := rfl
@[simp] theorem State.freeStep_quotes : (s.freeStep).quotes = s.quotes := rfl
@[simp] theorem State.freeStep_scrubPos : (s.freeStep).scrubPos = s.scrubPos := rfl
@[simp] theorem State.freeStep_tempHeld : (s.freeStep).tempHeld = s.tempHeld := rfl
@[simp] theorem State.freeStep_tempBelow : (s.freeStep).tempBelow = s.tempBelow := rfl
@[simp] theorem State.freeStep_vset : (s.freeStep).vset = s.vset := rfl

/-! ### dset -/

@[simp] theorem State.dset_pending (i b v : Nat) : (s.dset i b v).pending = s.pending := rfl
@[simp] theorem State.dset_timeNs (i b v : Nat) : (s.dset i b v).timeNs = s.timeNs := rfl
@[simp] theorem State.dset_sent (i b v : Nat) : (s.dset i b v).sent = s.sent := rfl
@[simp] theorem State.dset_mem (i b v : Nat) : (s.dset i b v).mem = s.mem := rfl
@[simp] theorem State.dset_poison (i b v : Nat) : (s.dset i b v).poison = s.poison := rfl
@[simp] theorem State.dset_ecc (i b v : Nat) : (s.dset i b v).ecc = s.ecc := rfl
@[simp] theorem State.dset_hostMem (i b v : Nat) : (s.dset i b v).hostMem = s.hostMem := rfl
@[simp] theorem State.dset_ringsOn (i b v : Nat) : (s.dset i b v).ringsOn = s.ringsOn := rfl
@[simp] theorem State.dset_lpRings (i b v : Nat) : (s.dset i b v).lpRings = s.lpRings := rfl
@[simp] theorem State.dset_freeIx (i b v : Nat) : (s.dset i b v).freeIx = s.freeIx := rfl
@[simp] theorem State.dset_pairs (i b v : Nat) : (s.dset i b v).pairs = s.pairs := rfl
@[simp] theorem State.dset_slots (i b v : Nat) : (s.dset i b v).slots = s.slots := rfl
@[simp] theorem State.dset_splits (i b v : Nat) : (s.dset i b v).splits = s.splits := rfl
@[simp] theorem State.dset_groups (i b v : Nat) : (s.dset i b v).groups = s.groups := rfl
@[simp] theorem State.dset_accs (i b v : Nat) : (s.dset i b v).accs = s.accs := rfl
@[simp] theorem State.dset_flags (i b v : Nat) : (s.dset i b v).flags = s.flags := rfl
@[simp] theorem State.dset_overruns (i b v : Nat) : (s.dset i b v).overruns = s.overruns := rfl
@[simp] theorem State.dset_windows (i b v : Nat) : (s.dset i b v).windows = s.windows := rfl
@[simp] theorem State.dset_lastClose (i b v : Nat) : (s.dset i b v).lastClose = s.lastClose := rfl
@[simp] theorem State.dset_closing (i b v : Nat) : (s.dset i b v).closing = s.closing := rfl
@[simp] theorem State.dset_rounds (i b v : Nat) : (s.dset i b v).rounds = s.rounds := rfl
@[simp] theorem State.dset_fabric (i b v : Nat) : (s.dset i b v).fabric = s.fabric := rfl
@[simp] theorem State.dset_sputBad (i b v : Nat) : (s.dset i b v).sputBad = s.sputBad := rfl
@[simp] theorem State.dset_late (i b v : Nat) : (s.dset i b v).late = s.late := rfl
@[simp] theorem State.dset_timeouts (i b v : Nat) : (s.dset i b v).timeouts = s.timeouts := rfl
@[simp] theorem State.dset_ctxs (i b v : Nat) : (s.dset i b v).ctxs = s.ctxs := rfl
@[simp] theorem State.dset_waiting (i b v : Nat) : (s.dset i b v).waiting = s.waiting := rfl
@[simp] theorem State.dset_clearing (i b v : Nat) : (s.dset i b v).clearing = s.clearing := rfl
@[simp] theorem State.dset_fullNow (i b v : Nat) : (s.dset i b v).fullNow = s.fullNow := rfl
@[simp] theorem State.dset_adapt (i b v : Nat) : (s.dset i b v).adapt = s.adapt := rfl
@[simp] theorem State.dset_promotions (i b v : Nat) : (s.dset i b v).promotions = s.promotions := rfl
@[simp] theorem State.dset_barred (i b v : Nat) : (s.dset i b v).barred = s.barred := rfl
@[simp] theorem State.dset_handles (i b v : Nat) : (s.dset i b v).handles = s.handles := rfl
@[simp] theorem State.dset_lastSlot (i b v : Nat) : (s.dset i b v).lastSlot = s.lastSlot := rfl
@[simp] theorem State.dset_seqs (i b v : Nat) : (s.dset i b v).seqs = s.seqs := rfl
@[simp] theorem State.dset_stateWait (i b v : Nat) : (s.dset i b v).stateWait = s.stateWait := rfl
@[simp] theorem State.dset_portA (i b v : Nat) : (s.dset i b v).portA = s.portA := rfl
@[simp] theorem State.dset_portB (i b v : Nat) : (s.dset i b v).portB = s.portB := rfl
@[simp] theorem State.dset_emcy (i b v : Nat) : (s.dset i b v).emcy = s.emcy := rfl
@[simp] theorem State.dset_busOffA (i b v : Nat) : (s.dset i b v).busOffA = s.busOffA := rfl
@[simp] theorem State.dset_busOffB (i b v : Nat) : (s.dset i b v).busOffB = s.busOffB := rfl
@[simp] theorem State.dset_busOffRecent (i b v : Nat) : (s.dset i b v).busOffRecent = s.busOffRecent := rfl
@[simp] theorem State.dset_canParams (i b v : Nat) : (s.dset i b v).canParams = s.canParams := rfl
@[simp] theorem State.dset_eps (i b v : Nat) : (s.dset i b v).eps = s.eps := rfl
@[simp] theorem State.dset_life (i b v : Nat) : (s.dset i b v).life = s.life := rfl
@[simp] theorem State.dset_unbound (i b v : Nat) : (s.dset i b v).unbound = s.unbound := rfl
@[simp] theorem State.dset_announced (i b v : Nat) : (s.dset i b v).announced = s.announced := rfl
@[simp] theorem State.dset_discards (i b v : Nat) : (s.dset i b v).discards = s.discards := rfl
@[simp] theorem State.dset_eccFixed (i b v : Nat) : (s.dset i b v).eccFixed = s.eccFixed := rfl
@[simp] theorem State.dset_skipped (i b v : Nat) : (s.dset i b v).skipped = s.skipped := rfl
@[simp] theorem State.dset_dgramDrops (i b v : Nat) : (s.dset i b v).dgramDrops = s.dgramDrops := rfl
@[simp] theorem State.dset_tables (i b v : Nat) : (s.dset i b v).tables = s.tables := rfl
@[simp] theorem State.dset_meshBase (i b v : Nat) : (s.dset i b v).meshBase = s.meshBase := rfl
@[simp] theorem State.dset_raw (i b v : Nat) : (s.dset i b v).raw = s.raw := rfl
@[simp] theorem State.dset_views (i b v : Nat) : (s.dset i b v).views = s.views := rfl
@[simp] theorem State.dset_sweeps (i b v : Nat) : (s.dset i b v).sweeps = s.sweeps := rfl
@[simp] theorem State.dset_sweepsPrev (i b v : Nat) : (s.dset i b v).sweepsPrev = s.sweepsPrev := rfl
@[simp] theorem State.dset_meshQueue (i b v : Nat) : (s.dset i b v).meshQueue = s.meshQueue := rfl
@[simp] theorem State.dset_fetched (i b v : Nat) : (s.dset i b v).fetched = s.fetched := rfl
@[simp] theorem State.dset_calib (i b v : Nat) : (s.dset i b v).calib = s.calib := rfl
@[simp] theorem State.dset_lensMesh (i b v : Nat) : (s.dset i b v).lensMesh = s.lensMesh := rfl
@[simp] theorem State.dset_motion (i b v : Nat) : (s.dset i b v).motion = s.motion := rfl
@[simp] theorem State.dset_egoLate (i b v : Nat) : (s.dset i b v).egoLate = s.egoLate := rfl
@[simp] theorem State.dset_triggers (i b v : Nat) : (s.dset i b v).triggers = s.triggers := rfl
@[simp] theorem State.dset_gptpSync (i b v : Nat) : (s.dset i b v).gptpSync = s.gptpSync := rfl
@[simp] theorem State.dset_ticked (i b v : Nat) : (s.dset i b v).ticked = s.ticked := rfl
@[simp] theorem State.dset_tickPredicted (i b v : Nat) : (s.dset i b v).tickPredicted = s.tickPredicted := rfl
@[simp] theorem State.dset_tickPrev (i b v : Nat) : (s.dset i b v).tickPrev = s.tickPrev := rfl
@[simp] theorem State.dset_lockGood (i b v : Nat) : (s.dset i b v).lockGood = s.lockGood := rfl
@[simp] theorem State.dset_frame (i b v : Nat) : (s.dset i b v).frame = s.frame := rfl
@[simp] theorem State.dset_disagreements (i b v : Nat) : (s.dset i b v).disagreements = s.disagreements := rfl
@[simp] theorem State.dset_logOpen (i b v : Nat) : (s.dset i b v).logOpen = s.logOpen := rfl
@[simp] theorem State.dset_safeOk (i b v : Nat) : (s.dset i b v).safeOk = s.safeOk := rfl
@[simp] theorem State.dset_faultN (i b v : Nat) : (s.dset i b v).faultN = s.faultN := rfl
@[simp] theorem State.dset_poresetN (i b v : Nat) : (s.dset i b v).poresetN = s.poresetN := rfl
@[simp] theorem State.dset_pwrEn (i b v : Nat) : (s.dset i b v).pwrEn = s.pwrEn := rfl
@[simp] theorem State.dset_pwrGood (i b v : Nat) : (s.dset i b v).pwrGood = s.pwrGood := rfl
@[simp] theorem State.dset_thermalHold (i b v : Nat) : (s.dset i b v).thermalHold = s.thermalHold := rfl
@[simp] theorem State.dset_laterCauses (i b v : Nat) : (s.dset i b v).laterCauses = s.laterCauses := rfl
@[simp] theorem State.dset_parts (i b v : Nat) : (s.dset i b v).parts = s.parts := rfl
@[simp] theorem State.dset_devReset (i b v : Nat) : (s.dset i b v).devReset = s.devReset := rfl
@[simp] theorem State.dset_devCause (i b v : Nat) : (s.dset i b v).devCause = s.devCause := rfl
@[simp] theorem State.dset_devLater (i b v : Nat) : (s.dset i b v).devLater = s.devLater := rfl
@[simp] theorem State.dset_aonLog (i b v : Nat) : (s.dset i b v).aonLog = s.aonLog := rfl
@[simp] theorem State.dset_aonCodes (i b v : Nat) : (s.dset i b v).aonCodes = s.aonCodes := rfl
@[simp] theorem State.dset_aonDict (i b v : Nat) : (s.dset i b v).aonDict = s.aonDict := rfl
@[simp] theorem State.dset_resetCause (i b v : Nat) : (s.dset i b v).resetCause = s.resetCause := rfl
@[simp] theorem State.dset_activity (i b v : Nat) : (s.dset i b v).activity = s.activity := rfl
@[simp] theorem State.dset_lpFrom (i b v : Nat) : (s.dset i b v).lpFrom = s.lpFrom := rfl
@[simp] theorem State.dset_wake (i b v : Nat) : (s.dset i b v).wake = s.wake := rfl
@[simp] theorem State.dset_wakeMask (i b v : Nat) : (s.dset i b v).wakeMask = s.wakeMask := rfl
@[simp] theorem State.dset_wakeTimer (i b v : Nat) : (s.dset i b v).wakeTimer = s.wakeTimer := rfl
@[simp] theorem State.dset_lpExitBegun (i b v : Nat) : (s.dset i b v).lpExitBegun = s.lpExitBegun := rfl
@[simp] theorem State.dset_lpRails (i b v : Nat) : (s.dset i b v).lpRails = s.lpRails := rfl
@[simp] theorem State.dset_graceDue (i b v : Nat) : (s.dset i b v).graceDue = s.graceDue := rfl
@[simp] theorem State.dset_lpStuck (i b v : Nat) : (s.dset i b v).lpStuck = s.lpStuck := rfl
@[simp] theorem State.dset_testCap (i b v : Nat) : (s.dset i b v).testCap = s.testCap := rfl
@[simp] theorem State.dset_rateAt (i b v : Nat) : (s.dset i b v).rateAt = s.rateAt := rfl
@[simp] theorem State.dset_rateMark (i b v : Nat) : (s.dset i b v).rateMark = s.rateMark := rfl
@[simp] theorem State.dset_slowHeld (i b v : Nat) : (s.dset i b v).slowHeld = s.slowHeld := rfl
@[simp] theorem State.dset_fuses (i b v : Nat) : (s.dset i b v).fuses = s.fuses := rfl
@[simp] theorem State.dset_fitted (i b v : Nat) : (s.dset i b v).fitted = s.fitted := rfl
@[simp] theorem State.dset_safeState (i b v : Nat) : (s.dset i b v).safeState = s.safeState := rfl
@[simp] theorem State.dset_romWait (i b v : Nat) : (s.dset i b v).romWait = s.romWait := rfl
@[simp] theorem State.dset_bootDue (i b v : Nat) : (s.dset i b v).bootDue = s.bootDue := rfl
@[simp] theorem State.dset_owedReset (i b v : Nat) : (s.dset i b v).owedReset = s.owedReset := rfl
@[simp] theorem State.dset_romSource (i b v : Nat) : (s.dset i b v).romSource = s.romSource := rfl
@[simp] theorem State.dset_bootDigest (i b v : Nat) : (s.dset i b v).bootDigest = s.bootDigest := rfl
@[simp] theorem State.dset_imageLevel (i b v : Nat) : (s.dset i b v).imageLevel = s.imageLevel := rfl
@[simp] theorem State.dset_imageRevoke (i b v : Nat) : (s.dset i b v).imageRevoke = s.imageRevoke := rfl
@[simp] theorem State.dset_fuseBlowDue (i b v : Nat) : (s.dset i b v).fuseBlowDue = s.fuseBlowDue := rfl
@[simp] theorem State.dset_trustKey (i b v : Nat) : (s.dset i b v).trustKey = s.trustKey := rfl
@[simp] theorem State.dset_quotes (i b v : Nat) : (s.dset i b v).quotes = s.quotes := rfl
@[simp] theorem State.dset_scrubPos (i b v : Nat) : (s.dset i b v).scrubPos = s.scrubPos := rfl
@[simp] theorem State.dset_tempHeld (i b v : Nat) : (s.dset i b v).tempHeld = s.tempHeld := rfl
@[simp] theorem State.dset_tempBelow (i b v : Nat) : (s.dset i b v).tempBelow = s.tempBelow := rfl
@[simp] theorem State.dset_vset (i b v : Nat) : (s.dset i b v).vset = s.vset := rfl

/-! ### dclear -/

@[simp] theorem State.dclear_pending (i b : Nat) : (s.dclear i b).pending = s.pending := rfl
@[simp] theorem State.dclear_timeNs (i b : Nat) : (s.dclear i b).timeNs = s.timeNs := rfl
@[simp] theorem State.dclear_sent (i b : Nat) : (s.dclear i b).sent = s.sent := rfl
@[simp] theorem State.dclear_mem (i b : Nat) : (s.dclear i b).mem = s.mem := rfl
@[simp] theorem State.dclear_poison (i b : Nat) : (s.dclear i b).poison = s.poison := rfl
@[simp] theorem State.dclear_ecc (i b : Nat) : (s.dclear i b).ecc = s.ecc := rfl
@[simp] theorem State.dclear_hostMem (i b : Nat) : (s.dclear i b).hostMem = s.hostMem := rfl
@[simp] theorem State.dclear_ringsOn (i b : Nat) : (s.dclear i b).ringsOn = s.ringsOn := rfl
@[simp] theorem State.dclear_lpRings (i b : Nat) : (s.dclear i b).lpRings = s.lpRings := rfl
@[simp] theorem State.dclear_freeIx (i b : Nat) : (s.dclear i b).freeIx = s.freeIx := rfl
@[simp] theorem State.dclear_pairs (i b : Nat) : (s.dclear i b).pairs = s.pairs := rfl
@[simp] theorem State.dclear_slots (i b : Nat) : (s.dclear i b).slots = s.slots := rfl
@[simp] theorem State.dclear_splits (i b : Nat) : (s.dclear i b).splits = s.splits := rfl
@[simp] theorem State.dclear_groups (i b : Nat) : (s.dclear i b).groups = s.groups := rfl
@[simp] theorem State.dclear_accs (i b : Nat) : (s.dclear i b).accs = s.accs := rfl
@[simp] theorem State.dclear_flags (i b : Nat) : (s.dclear i b).flags = s.flags := rfl
@[simp] theorem State.dclear_overruns (i b : Nat) : (s.dclear i b).overruns = s.overruns := rfl
@[simp] theorem State.dclear_windows (i b : Nat) : (s.dclear i b).windows = s.windows := rfl
@[simp] theorem State.dclear_lastClose (i b : Nat) : (s.dclear i b).lastClose = s.lastClose := rfl
@[simp] theorem State.dclear_closing (i b : Nat) : (s.dclear i b).closing = s.closing := rfl
@[simp] theorem State.dclear_rounds (i b : Nat) : (s.dclear i b).rounds = s.rounds := rfl
@[simp] theorem State.dclear_fabric (i b : Nat) : (s.dclear i b).fabric = s.fabric := rfl
@[simp] theorem State.dclear_sputBad (i b : Nat) : (s.dclear i b).sputBad = s.sputBad := rfl
@[simp] theorem State.dclear_late (i b : Nat) : (s.dclear i b).late = s.late := rfl
@[simp] theorem State.dclear_timeouts (i b : Nat) : (s.dclear i b).timeouts = s.timeouts := rfl
@[simp] theorem State.dclear_ctxs (i b : Nat) : (s.dclear i b).ctxs = s.ctxs := rfl
@[simp] theorem State.dclear_waiting (i b : Nat) : (s.dclear i b).waiting = s.waiting := rfl
@[simp] theorem State.dclear_clearing (i b : Nat) : (s.dclear i b).clearing = s.clearing := rfl
@[simp] theorem State.dclear_fullNow (i b : Nat) : (s.dclear i b).fullNow = s.fullNow := rfl
@[simp] theorem State.dclear_adapt (i b : Nat) : (s.dclear i b).adapt = s.adapt := rfl
@[simp] theorem State.dclear_promotions (i b : Nat) : (s.dclear i b).promotions = s.promotions := rfl
@[simp] theorem State.dclear_barred (i b : Nat) : (s.dclear i b).barred = s.barred := rfl
@[simp] theorem State.dclear_handles (i b : Nat) : (s.dclear i b).handles = s.handles := rfl
@[simp] theorem State.dclear_lastSlot (i b : Nat) : (s.dclear i b).lastSlot = s.lastSlot := rfl
@[simp] theorem State.dclear_seqs (i b : Nat) : (s.dclear i b).seqs = s.seqs := rfl
@[simp] theorem State.dclear_stateWait (i b : Nat) : (s.dclear i b).stateWait = s.stateWait := rfl
@[simp] theorem State.dclear_portA (i b : Nat) : (s.dclear i b).portA = s.portA := rfl
@[simp] theorem State.dclear_portB (i b : Nat) : (s.dclear i b).portB = s.portB := rfl
@[simp] theorem State.dclear_emcy (i b : Nat) : (s.dclear i b).emcy = s.emcy := rfl
@[simp] theorem State.dclear_busOffA (i b : Nat) : (s.dclear i b).busOffA = s.busOffA := rfl
@[simp] theorem State.dclear_busOffB (i b : Nat) : (s.dclear i b).busOffB = s.busOffB := rfl
@[simp] theorem State.dclear_busOffRecent (i b : Nat) : (s.dclear i b).busOffRecent = s.busOffRecent := rfl
@[simp] theorem State.dclear_canParams (i b : Nat) : (s.dclear i b).canParams = s.canParams := rfl
@[simp] theorem State.dclear_eps (i b : Nat) : (s.dclear i b).eps = s.eps := rfl
@[simp] theorem State.dclear_life (i b : Nat) : (s.dclear i b).life = s.life := rfl
@[simp] theorem State.dclear_unbound (i b : Nat) : (s.dclear i b).unbound = s.unbound := rfl
@[simp] theorem State.dclear_announced (i b : Nat) : (s.dclear i b).announced = s.announced := rfl
@[simp] theorem State.dclear_discards (i b : Nat) : (s.dclear i b).discards = s.discards := rfl
@[simp] theorem State.dclear_eccFixed (i b : Nat) : (s.dclear i b).eccFixed = s.eccFixed := rfl
@[simp] theorem State.dclear_skipped (i b : Nat) : (s.dclear i b).skipped = s.skipped := rfl
@[simp] theorem State.dclear_dgramDrops (i b : Nat) : (s.dclear i b).dgramDrops = s.dgramDrops := rfl
@[simp] theorem State.dclear_tables (i b : Nat) : (s.dclear i b).tables = s.tables := rfl
@[simp] theorem State.dclear_meshBase (i b : Nat) : (s.dclear i b).meshBase = s.meshBase := rfl
@[simp] theorem State.dclear_raw (i b : Nat) : (s.dclear i b).raw = s.raw := rfl
@[simp] theorem State.dclear_views (i b : Nat) : (s.dclear i b).views = s.views := rfl
@[simp] theorem State.dclear_sweeps (i b : Nat) : (s.dclear i b).sweeps = s.sweeps := rfl
@[simp] theorem State.dclear_sweepsPrev (i b : Nat) : (s.dclear i b).sweepsPrev = s.sweepsPrev := rfl
@[simp] theorem State.dclear_meshQueue (i b : Nat) : (s.dclear i b).meshQueue = s.meshQueue := rfl
@[simp] theorem State.dclear_fetched (i b : Nat) : (s.dclear i b).fetched = s.fetched := rfl
@[simp] theorem State.dclear_calib (i b : Nat) : (s.dclear i b).calib = s.calib := rfl
@[simp] theorem State.dclear_lensMesh (i b : Nat) : (s.dclear i b).lensMesh = s.lensMesh := rfl
@[simp] theorem State.dclear_motion (i b : Nat) : (s.dclear i b).motion = s.motion := rfl
@[simp] theorem State.dclear_egoLate (i b : Nat) : (s.dclear i b).egoLate = s.egoLate := rfl
@[simp] theorem State.dclear_triggers (i b : Nat) : (s.dclear i b).triggers = s.triggers := rfl
@[simp] theorem State.dclear_gptpSync (i b : Nat) : (s.dclear i b).gptpSync = s.gptpSync := rfl
@[simp] theorem State.dclear_ticked (i b : Nat) : (s.dclear i b).ticked = s.ticked := rfl
@[simp] theorem State.dclear_tickPredicted (i b : Nat) : (s.dclear i b).tickPredicted = s.tickPredicted := rfl
@[simp] theorem State.dclear_tickPrev (i b : Nat) : (s.dclear i b).tickPrev = s.tickPrev := rfl
@[simp] theorem State.dclear_lockGood (i b : Nat) : (s.dclear i b).lockGood = s.lockGood := rfl
@[simp] theorem State.dclear_frame (i b : Nat) : (s.dclear i b).frame = s.frame := rfl
@[simp] theorem State.dclear_disagreements (i b : Nat) : (s.dclear i b).disagreements = s.disagreements := rfl
@[simp] theorem State.dclear_logOpen (i b : Nat) : (s.dclear i b).logOpen = s.logOpen := rfl
@[simp] theorem State.dclear_safeOk (i b : Nat) : (s.dclear i b).safeOk = s.safeOk := rfl
@[simp] theorem State.dclear_faultN (i b : Nat) : (s.dclear i b).faultN = s.faultN := rfl
@[simp] theorem State.dclear_poresetN (i b : Nat) : (s.dclear i b).poresetN = s.poresetN := rfl
@[simp] theorem State.dclear_pwrEn (i b : Nat) : (s.dclear i b).pwrEn = s.pwrEn := rfl
@[simp] theorem State.dclear_pwrGood (i b : Nat) : (s.dclear i b).pwrGood = s.pwrGood := rfl
@[simp] theorem State.dclear_thermalHold (i b : Nat) : (s.dclear i b).thermalHold = s.thermalHold := rfl
@[simp] theorem State.dclear_laterCauses (i b : Nat) : (s.dclear i b).laterCauses = s.laterCauses := rfl
@[simp] theorem State.dclear_parts (i b : Nat) : (s.dclear i b).parts = s.parts := rfl
@[simp] theorem State.dclear_devReset (i b : Nat) : (s.dclear i b).devReset = s.devReset := rfl
@[simp] theorem State.dclear_devCause (i b : Nat) : (s.dclear i b).devCause = s.devCause := rfl
@[simp] theorem State.dclear_devLater (i b : Nat) : (s.dclear i b).devLater = s.devLater := rfl
@[simp] theorem State.dclear_aonLog (i b : Nat) : (s.dclear i b).aonLog = s.aonLog := rfl
@[simp] theorem State.dclear_aonCodes (i b : Nat) : (s.dclear i b).aonCodes = s.aonCodes := rfl
@[simp] theorem State.dclear_aonDict (i b : Nat) : (s.dclear i b).aonDict = s.aonDict := rfl
@[simp] theorem State.dclear_resetCause (i b : Nat) : (s.dclear i b).resetCause = s.resetCause := rfl
@[simp] theorem State.dclear_activity (i b : Nat) : (s.dclear i b).activity = s.activity := rfl
@[simp] theorem State.dclear_lpFrom (i b : Nat) : (s.dclear i b).lpFrom = s.lpFrom := rfl
@[simp] theorem State.dclear_wake (i b : Nat) : (s.dclear i b).wake = s.wake := rfl
@[simp] theorem State.dclear_wakeMask (i b : Nat) : (s.dclear i b).wakeMask = s.wakeMask := rfl
@[simp] theorem State.dclear_wakeTimer (i b : Nat) : (s.dclear i b).wakeTimer = s.wakeTimer := rfl
@[simp] theorem State.dclear_lpExitBegun (i b : Nat) : (s.dclear i b).lpExitBegun = s.lpExitBegun := rfl
@[simp] theorem State.dclear_lpRails (i b : Nat) : (s.dclear i b).lpRails = s.lpRails := rfl
@[simp] theorem State.dclear_graceDue (i b : Nat) : (s.dclear i b).graceDue = s.graceDue := rfl
@[simp] theorem State.dclear_lpStuck (i b : Nat) : (s.dclear i b).lpStuck = s.lpStuck := rfl
@[simp] theorem State.dclear_testCap (i b : Nat) : (s.dclear i b).testCap = s.testCap := rfl
@[simp] theorem State.dclear_rateAt (i b : Nat) : (s.dclear i b).rateAt = s.rateAt := rfl
@[simp] theorem State.dclear_rateMark (i b : Nat) : (s.dclear i b).rateMark = s.rateMark := rfl
@[simp] theorem State.dclear_slowHeld (i b : Nat) : (s.dclear i b).slowHeld = s.slowHeld := rfl
@[simp] theorem State.dclear_fuses (i b : Nat) : (s.dclear i b).fuses = s.fuses := rfl
@[simp] theorem State.dclear_fitted (i b : Nat) : (s.dclear i b).fitted = s.fitted := rfl
@[simp] theorem State.dclear_safeState (i b : Nat) : (s.dclear i b).safeState = s.safeState := rfl
@[simp] theorem State.dclear_romWait (i b : Nat) : (s.dclear i b).romWait = s.romWait := rfl
@[simp] theorem State.dclear_bootDue (i b : Nat) : (s.dclear i b).bootDue = s.bootDue := rfl
@[simp] theorem State.dclear_owedReset (i b : Nat) : (s.dclear i b).owedReset = s.owedReset := rfl
@[simp] theorem State.dclear_romSource (i b : Nat) : (s.dclear i b).romSource = s.romSource := rfl
@[simp] theorem State.dclear_bootDigest (i b : Nat) : (s.dclear i b).bootDigest = s.bootDigest := rfl
@[simp] theorem State.dclear_imageLevel (i b : Nat) : (s.dclear i b).imageLevel = s.imageLevel := rfl
@[simp] theorem State.dclear_imageRevoke (i b : Nat) : (s.dclear i b).imageRevoke = s.imageRevoke := rfl
@[simp] theorem State.dclear_fuseBlowDue (i b : Nat) : (s.dclear i b).fuseBlowDue = s.fuseBlowDue := rfl
@[simp] theorem State.dclear_trustKey (i b : Nat) : (s.dclear i b).trustKey = s.trustKey := rfl
@[simp] theorem State.dclear_quotes (i b : Nat) : (s.dclear i b).quotes = s.quotes := rfl
@[simp] theorem State.dclear_scrubPos (i b : Nat) : (s.dclear i b).scrubPos = s.scrubPos := rfl
@[simp] theorem State.dclear_tempHeld (i b : Nat) : (s.dclear i b).tempHeld = s.tempHeld := rfl
@[simp] theorem State.dclear_tempBelow (i b : Nat) : (s.dclear i b).tempBelow = s.tempBelow := rfl
@[simp] theorem State.dclear_vset (i b : Nat) : (s.dclear i b).vset = s.vset := rfl

/-! ### dbump -/

@[simp] theorem State.dbump_pending (i b : Nat) : (s.dbump i b).pending = s.pending := rfl
@[simp] theorem State.dbump_timeNs (i b : Nat) : (s.dbump i b).timeNs = s.timeNs := rfl
@[simp] theorem State.dbump_sent (i b : Nat) : (s.dbump i b).sent = s.sent := rfl
@[simp] theorem State.dbump_mem (i b : Nat) : (s.dbump i b).mem = s.mem := rfl
@[simp] theorem State.dbump_poison (i b : Nat) : (s.dbump i b).poison = s.poison := rfl
@[simp] theorem State.dbump_ecc (i b : Nat) : (s.dbump i b).ecc = s.ecc := rfl
@[simp] theorem State.dbump_hostMem (i b : Nat) : (s.dbump i b).hostMem = s.hostMem := rfl
@[simp] theorem State.dbump_ringsOn (i b : Nat) : (s.dbump i b).ringsOn = s.ringsOn := rfl
@[simp] theorem State.dbump_lpRings (i b : Nat) : (s.dbump i b).lpRings = s.lpRings := rfl
@[simp] theorem State.dbump_freeIx (i b : Nat) : (s.dbump i b).freeIx = s.freeIx := rfl
@[simp] theorem State.dbump_pairs (i b : Nat) : (s.dbump i b).pairs = s.pairs := rfl
@[simp] theorem State.dbump_slots (i b : Nat) : (s.dbump i b).slots = s.slots := rfl
@[simp] theorem State.dbump_splits (i b : Nat) : (s.dbump i b).splits = s.splits := rfl
@[simp] theorem State.dbump_groups (i b : Nat) : (s.dbump i b).groups = s.groups := rfl
@[simp] theorem State.dbump_accs (i b : Nat) : (s.dbump i b).accs = s.accs := rfl
@[simp] theorem State.dbump_flags (i b : Nat) : (s.dbump i b).flags = s.flags := rfl
@[simp] theorem State.dbump_overruns (i b : Nat) : (s.dbump i b).overruns = s.overruns := rfl
@[simp] theorem State.dbump_windows (i b : Nat) : (s.dbump i b).windows = s.windows := rfl
@[simp] theorem State.dbump_lastClose (i b : Nat) : (s.dbump i b).lastClose = s.lastClose := rfl
@[simp] theorem State.dbump_closing (i b : Nat) : (s.dbump i b).closing = s.closing := rfl
@[simp] theorem State.dbump_rounds (i b : Nat) : (s.dbump i b).rounds = s.rounds := rfl
@[simp] theorem State.dbump_fabric (i b : Nat) : (s.dbump i b).fabric = s.fabric := rfl
@[simp] theorem State.dbump_sputBad (i b : Nat) : (s.dbump i b).sputBad = s.sputBad := rfl
@[simp] theorem State.dbump_late (i b : Nat) : (s.dbump i b).late = s.late := rfl
@[simp] theorem State.dbump_timeouts (i b : Nat) : (s.dbump i b).timeouts = s.timeouts := rfl
@[simp] theorem State.dbump_ctxs (i b : Nat) : (s.dbump i b).ctxs = s.ctxs := rfl
@[simp] theorem State.dbump_waiting (i b : Nat) : (s.dbump i b).waiting = s.waiting := rfl
@[simp] theorem State.dbump_clearing (i b : Nat) : (s.dbump i b).clearing = s.clearing := rfl
@[simp] theorem State.dbump_fullNow (i b : Nat) : (s.dbump i b).fullNow = s.fullNow := rfl
@[simp] theorem State.dbump_adapt (i b : Nat) : (s.dbump i b).adapt = s.adapt := rfl
@[simp] theorem State.dbump_promotions (i b : Nat) : (s.dbump i b).promotions = s.promotions := rfl
@[simp] theorem State.dbump_barred (i b : Nat) : (s.dbump i b).barred = s.barred := rfl
@[simp] theorem State.dbump_handles (i b : Nat) : (s.dbump i b).handles = s.handles := rfl
@[simp] theorem State.dbump_lastSlot (i b : Nat) : (s.dbump i b).lastSlot = s.lastSlot := rfl
@[simp] theorem State.dbump_seqs (i b : Nat) : (s.dbump i b).seqs = s.seqs := rfl
@[simp] theorem State.dbump_stateWait (i b : Nat) : (s.dbump i b).stateWait = s.stateWait := rfl
@[simp] theorem State.dbump_portA (i b : Nat) : (s.dbump i b).portA = s.portA := rfl
@[simp] theorem State.dbump_portB (i b : Nat) : (s.dbump i b).portB = s.portB := rfl
@[simp] theorem State.dbump_emcy (i b : Nat) : (s.dbump i b).emcy = s.emcy := rfl
@[simp] theorem State.dbump_busOffA (i b : Nat) : (s.dbump i b).busOffA = s.busOffA := rfl
@[simp] theorem State.dbump_busOffB (i b : Nat) : (s.dbump i b).busOffB = s.busOffB := rfl
@[simp] theorem State.dbump_busOffRecent (i b : Nat) : (s.dbump i b).busOffRecent = s.busOffRecent := rfl
@[simp] theorem State.dbump_canParams (i b : Nat) : (s.dbump i b).canParams = s.canParams := rfl
@[simp] theorem State.dbump_eps (i b : Nat) : (s.dbump i b).eps = s.eps := rfl
@[simp] theorem State.dbump_life (i b : Nat) : (s.dbump i b).life = s.life := rfl
@[simp] theorem State.dbump_unbound (i b : Nat) : (s.dbump i b).unbound = s.unbound := rfl
@[simp] theorem State.dbump_announced (i b : Nat) : (s.dbump i b).announced = s.announced := rfl
@[simp] theorem State.dbump_discards (i b : Nat) : (s.dbump i b).discards = s.discards := rfl
@[simp] theorem State.dbump_eccFixed (i b : Nat) : (s.dbump i b).eccFixed = s.eccFixed := rfl
@[simp] theorem State.dbump_skipped (i b : Nat) : (s.dbump i b).skipped = s.skipped := rfl
@[simp] theorem State.dbump_dgramDrops (i b : Nat) : (s.dbump i b).dgramDrops = s.dgramDrops := rfl
@[simp] theorem State.dbump_tables (i b : Nat) : (s.dbump i b).tables = s.tables := rfl
@[simp] theorem State.dbump_meshBase (i b : Nat) : (s.dbump i b).meshBase = s.meshBase := rfl
@[simp] theorem State.dbump_raw (i b : Nat) : (s.dbump i b).raw = s.raw := rfl
@[simp] theorem State.dbump_views (i b : Nat) : (s.dbump i b).views = s.views := rfl
@[simp] theorem State.dbump_sweeps (i b : Nat) : (s.dbump i b).sweeps = s.sweeps := rfl
@[simp] theorem State.dbump_sweepsPrev (i b : Nat) : (s.dbump i b).sweepsPrev = s.sweepsPrev := rfl
@[simp] theorem State.dbump_meshQueue (i b : Nat) : (s.dbump i b).meshQueue = s.meshQueue := rfl
@[simp] theorem State.dbump_fetched (i b : Nat) : (s.dbump i b).fetched = s.fetched := rfl
@[simp] theorem State.dbump_calib (i b : Nat) : (s.dbump i b).calib = s.calib := rfl
@[simp] theorem State.dbump_lensMesh (i b : Nat) : (s.dbump i b).lensMesh = s.lensMesh := rfl
@[simp] theorem State.dbump_motion (i b : Nat) : (s.dbump i b).motion = s.motion := rfl
@[simp] theorem State.dbump_egoLate (i b : Nat) : (s.dbump i b).egoLate = s.egoLate := rfl
@[simp] theorem State.dbump_triggers (i b : Nat) : (s.dbump i b).triggers = s.triggers := rfl
@[simp] theorem State.dbump_gptpSync (i b : Nat) : (s.dbump i b).gptpSync = s.gptpSync := rfl
@[simp] theorem State.dbump_ticked (i b : Nat) : (s.dbump i b).ticked = s.ticked := rfl
@[simp] theorem State.dbump_tickPredicted (i b : Nat) : (s.dbump i b).tickPredicted = s.tickPredicted := rfl
@[simp] theorem State.dbump_tickPrev (i b : Nat) : (s.dbump i b).tickPrev = s.tickPrev := rfl
@[simp] theorem State.dbump_lockGood (i b : Nat) : (s.dbump i b).lockGood = s.lockGood := rfl
@[simp] theorem State.dbump_frame (i b : Nat) : (s.dbump i b).frame = s.frame := rfl
@[simp] theorem State.dbump_disagreements (i b : Nat) : (s.dbump i b).disagreements = s.disagreements := rfl
@[simp] theorem State.dbump_logOpen (i b : Nat) : (s.dbump i b).logOpen = s.logOpen := rfl
@[simp] theorem State.dbump_safeOk (i b : Nat) : (s.dbump i b).safeOk = s.safeOk := rfl
@[simp] theorem State.dbump_faultN (i b : Nat) : (s.dbump i b).faultN = s.faultN := rfl
@[simp] theorem State.dbump_poresetN (i b : Nat) : (s.dbump i b).poresetN = s.poresetN := rfl
@[simp] theorem State.dbump_pwrEn (i b : Nat) : (s.dbump i b).pwrEn = s.pwrEn := rfl
@[simp] theorem State.dbump_pwrGood (i b : Nat) : (s.dbump i b).pwrGood = s.pwrGood := rfl
@[simp] theorem State.dbump_thermalHold (i b : Nat) : (s.dbump i b).thermalHold = s.thermalHold := rfl
@[simp] theorem State.dbump_laterCauses (i b : Nat) : (s.dbump i b).laterCauses = s.laterCauses := rfl
@[simp] theorem State.dbump_parts (i b : Nat) : (s.dbump i b).parts = s.parts := rfl
@[simp] theorem State.dbump_devReset (i b : Nat) : (s.dbump i b).devReset = s.devReset := rfl
@[simp] theorem State.dbump_devCause (i b : Nat) : (s.dbump i b).devCause = s.devCause := rfl
@[simp] theorem State.dbump_devLater (i b : Nat) : (s.dbump i b).devLater = s.devLater := rfl
@[simp] theorem State.dbump_aonLog (i b : Nat) : (s.dbump i b).aonLog = s.aonLog := rfl
@[simp] theorem State.dbump_aonCodes (i b : Nat) : (s.dbump i b).aonCodes = s.aonCodes := rfl
@[simp] theorem State.dbump_aonDict (i b : Nat) : (s.dbump i b).aonDict = s.aonDict := rfl
@[simp] theorem State.dbump_resetCause (i b : Nat) : (s.dbump i b).resetCause = s.resetCause := rfl
@[simp] theorem State.dbump_activity (i b : Nat) : (s.dbump i b).activity = s.activity := rfl
@[simp] theorem State.dbump_lpFrom (i b : Nat) : (s.dbump i b).lpFrom = s.lpFrom := rfl
@[simp] theorem State.dbump_wake (i b : Nat) : (s.dbump i b).wake = s.wake := rfl
@[simp] theorem State.dbump_wakeMask (i b : Nat) : (s.dbump i b).wakeMask = s.wakeMask := rfl
@[simp] theorem State.dbump_wakeTimer (i b : Nat) : (s.dbump i b).wakeTimer = s.wakeTimer := rfl
@[simp] theorem State.dbump_lpExitBegun (i b : Nat) : (s.dbump i b).lpExitBegun = s.lpExitBegun := rfl
@[simp] theorem State.dbump_lpRails (i b : Nat) : (s.dbump i b).lpRails = s.lpRails := rfl
@[simp] theorem State.dbump_graceDue (i b : Nat) : (s.dbump i b).graceDue = s.graceDue := rfl
@[simp] theorem State.dbump_lpStuck (i b : Nat) : (s.dbump i b).lpStuck = s.lpStuck := rfl
@[simp] theorem State.dbump_testCap (i b : Nat) : (s.dbump i b).testCap = s.testCap := rfl
@[simp] theorem State.dbump_rateAt (i b : Nat) : (s.dbump i b).rateAt = s.rateAt := rfl
@[simp] theorem State.dbump_rateMark (i b : Nat) : (s.dbump i b).rateMark = s.rateMark := rfl
@[simp] theorem State.dbump_slowHeld (i b : Nat) : (s.dbump i b).slowHeld = s.slowHeld := rfl
@[simp] theorem State.dbump_fuses (i b : Nat) : (s.dbump i b).fuses = s.fuses := rfl
@[simp] theorem State.dbump_fitted (i b : Nat) : (s.dbump i b).fitted = s.fitted := rfl
@[simp] theorem State.dbump_safeState (i b : Nat) : (s.dbump i b).safeState = s.safeState := rfl
@[simp] theorem State.dbump_romWait (i b : Nat) : (s.dbump i b).romWait = s.romWait := rfl
@[simp] theorem State.dbump_bootDue (i b : Nat) : (s.dbump i b).bootDue = s.bootDue := rfl
@[simp] theorem State.dbump_owedReset (i b : Nat) : (s.dbump i b).owedReset = s.owedReset := rfl
@[simp] theorem State.dbump_romSource (i b : Nat) : (s.dbump i b).romSource = s.romSource := rfl
@[simp] theorem State.dbump_bootDigest (i b : Nat) : (s.dbump i b).bootDigest = s.bootDigest := rfl
@[simp] theorem State.dbump_imageLevel (i b : Nat) : (s.dbump i b).imageLevel = s.imageLevel := rfl
@[simp] theorem State.dbump_imageRevoke (i b : Nat) : (s.dbump i b).imageRevoke = s.imageRevoke := rfl
@[simp] theorem State.dbump_fuseBlowDue (i b : Nat) : (s.dbump i b).fuseBlowDue = s.fuseBlowDue := rfl
@[simp] theorem State.dbump_trustKey (i b : Nat) : (s.dbump i b).trustKey = s.trustKey := rfl
@[simp] theorem State.dbump_quotes (i b : Nat) : (s.dbump i b).quotes = s.quotes := rfl
@[simp] theorem State.dbump_scrubPos (i b : Nat) : (s.dbump i b).scrubPos = s.scrubPos := rfl
@[simp] theorem State.dbump_tempHeld (i b : Nat) : (s.dbump i b).tempHeld = s.tempHeld := rfl
@[simp] theorem State.dbump_tempBelow (i b : Nat) : (s.dbump i b).tempBelow = s.tempBelow := rfl
@[simp] theorem State.dbump_vset (i b : Nat) : (s.dbump i b).vset = s.vset := rfl

/-! ### setByte -/

@[simp] theorem State.setByte_pending (a : Nat) (b : Byte) : (s.setByte a b).pending = s.pending := rfl
@[simp] theorem State.setByte_timeNs (a : Nat) (b : Byte) : (s.setByte a b).timeNs = s.timeNs := rfl
@[simp] theorem State.setByte_sent (a : Nat) (b : Byte) : (s.setByte a b).sent = s.sent := rfl
@[simp] theorem State.setByte_dict (a : Nat) (b : Byte) : (s.setByte a b).dict = s.dict := rfl
@[simp] theorem State.setByte_poison (a : Nat) (b : Byte) : (s.setByte a b).poison = s.poison := rfl
@[simp] theorem State.setByte_ecc (a : Nat) (b : Byte) : (s.setByte a b).ecc = s.ecc := rfl
@[simp] theorem State.setByte_hostMem (a : Nat) (b : Byte) : (s.setByte a b).hostMem = s.hostMem := rfl
@[simp] theorem State.setByte_ringsOn (a : Nat) (b : Byte) : (s.setByte a b).ringsOn = s.ringsOn := rfl
@[simp] theorem State.setByte_lpRings (a : Nat) (b : Byte) : (s.setByte a b).lpRings = s.lpRings := rfl
@[simp] theorem State.setByte_freeIx (a : Nat) (b : Byte) : (s.setByte a b).freeIx = s.freeIx := rfl
@[simp] theorem State.setByte_pairs (a : Nat) (b : Byte) : (s.setByte a b).pairs = s.pairs := rfl
@[simp] theorem State.setByte_slots (a : Nat) (b : Byte) : (s.setByte a b).slots = s.slots := rfl
@[simp] theorem State.setByte_splits (a : Nat) (b : Byte) : (s.setByte a b).splits = s.splits := rfl
@[simp] theorem State.setByte_groups (a : Nat) (b : Byte) : (s.setByte a b).groups = s.groups := rfl
@[simp] theorem State.setByte_accs (a : Nat) (b : Byte) : (s.setByte a b).accs = s.accs := rfl
@[simp] theorem State.setByte_flags (a : Nat) (b : Byte) : (s.setByte a b).flags = s.flags := rfl
@[simp] theorem State.setByte_overruns (a : Nat) (b : Byte) : (s.setByte a b).overruns = s.overruns := rfl
@[simp] theorem State.setByte_windows (a : Nat) (b : Byte) : (s.setByte a b).windows = s.windows := rfl
@[simp] theorem State.setByte_lastClose (a : Nat) (b : Byte) : (s.setByte a b).lastClose = s.lastClose := rfl
@[simp] theorem State.setByte_closing (a : Nat) (b : Byte) : (s.setByte a b).closing = s.closing := rfl
@[simp] theorem State.setByte_rounds (a : Nat) (b : Byte) : (s.setByte a b).rounds = s.rounds := rfl
@[simp] theorem State.setByte_fabric (a : Nat) (b : Byte) : (s.setByte a b).fabric = s.fabric := rfl
@[simp] theorem State.setByte_sputBad (a : Nat) (b : Byte) : (s.setByte a b).sputBad = s.sputBad := rfl
@[simp] theorem State.setByte_late (a : Nat) (b : Byte) : (s.setByte a b).late = s.late := rfl
@[simp] theorem State.setByte_timeouts (a : Nat) (b : Byte) : (s.setByte a b).timeouts = s.timeouts := rfl
@[simp] theorem State.setByte_ctxs (a : Nat) (b : Byte) : (s.setByte a b).ctxs = s.ctxs := rfl
@[simp] theorem State.setByte_waiting (a : Nat) (b : Byte) : (s.setByte a b).waiting = s.waiting := rfl
@[simp] theorem State.setByte_clearing (a : Nat) (b : Byte) : (s.setByte a b).clearing = s.clearing := rfl
@[simp] theorem State.setByte_fullNow (a : Nat) (b : Byte) : (s.setByte a b).fullNow = s.fullNow := rfl
@[simp] theorem State.setByte_adapt (a : Nat) (b : Byte) : (s.setByte a b).adapt = s.adapt := rfl
@[simp] theorem State.setByte_promotions (a : Nat) (b : Byte) : (s.setByte a b).promotions = s.promotions := rfl
@[simp] theorem State.setByte_barred (a : Nat) (b : Byte) : (s.setByte a b).barred = s.barred := rfl
@[simp] theorem State.setByte_handles (a : Nat) (b : Byte) : (s.setByte a b).handles = s.handles := rfl
@[simp] theorem State.setByte_lastSlot (a : Nat) (b : Byte) : (s.setByte a b).lastSlot = s.lastSlot := rfl
@[simp] theorem State.setByte_seqs (a : Nat) (b : Byte) : (s.setByte a b).seqs = s.seqs := rfl
@[simp] theorem State.setByte_stateWait (a : Nat) (b : Byte) : (s.setByte a b).stateWait = s.stateWait := rfl
@[simp] theorem State.setByte_portA (a : Nat) (b : Byte) : (s.setByte a b).portA = s.portA := rfl
@[simp] theorem State.setByte_portB (a : Nat) (b : Byte) : (s.setByte a b).portB = s.portB := rfl
@[simp] theorem State.setByte_emcy (a : Nat) (b : Byte) : (s.setByte a b).emcy = s.emcy := rfl
@[simp] theorem State.setByte_busOffA (a : Nat) (b : Byte) : (s.setByte a b).busOffA = s.busOffA := rfl
@[simp] theorem State.setByte_busOffB (a : Nat) (b : Byte) : (s.setByte a b).busOffB = s.busOffB := rfl
@[simp] theorem State.setByte_busOffRecent (a : Nat) (b : Byte) : (s.setByte a b).busOffRecent = s.busOffRecent := rfl
@[simp] theorem State.setByte_canParams (a : Nat) (b : Byte) : (s.setByte a b).canParams = s.canParams := rfl
@[simp] theorem State.setByte_eps (a : Nat) (b : Byte) : (s.setByte a b).eps = s.eps := rfl
@[simp] theorem State.setByte_life (a : Nat) (b : Byte) : (s.setByte a b).life = s.life := rfl
@[simp] theorem State.setByte_unbound (a : Nat) (b : Byte) : (s.setByte a b).unbound = s.unbound := rfl
@[simp] theorem State.setByte_announced (a : Nat) (b : Byte) : (s.setByte a b).announced = s.announced := rfl
@[simp] theorem State.setByte_discards (a : Nat) (b : Byte) : (s.setByte a b).discards = s.discards := rfl
@[simp] theorem State.setByte_eccFixed (a : Nat) (b : Byte) : (s.setByte a b).eccFixed = s.eccFixed := rfl
@[simp] theorem State.setByte_skipped (a : Nat) (b : Byte) : (s.setByte a b).skipped = s.skipped := rfl
@[simp] theorem State.setByte_dgramDrops (a : Nat) (b : Byte) : (s.setByte a b).dgramDrops = s.dgramDrops := rfl
@[simp] theorem State.setByte_tables (a : Nat) (b : Byte) : (s.setByte a b).tables = s.tables := rfl
@[simp] theorem State.setByte_meshBase (a : Nat) (b : Byte) : (s.setByte a b).meshBase = s.meshBase := rfl
@[simp] theorem State.setByte_raw (a : Nat) (b : Byte) : (s.setByte a b).raw = s.raw := rfl
@[simp] theorem State.setByte_views (a : Nat) (b : Byte) : (s.setByte a b).views = s.views := rfl
@[simp] theorem State.setByte_sweeps (a : Nat) (b : Byte) : (s.setByte a b).sweeps = s.sweeps := rfl
@[simp] theorem State.setByte_sweepsPrev (a : Nat) (b : Byte) : (s.setByte a b).sweepsPrev = s.sweepsPrev := rfl
@[simp] theorem State.setByte_meshQueue (a : Nat) (b : Byte) : (s.setByte a b).meshQueue = s.meshQueue := rfl
@[simp] theorem State.setByte_fetched (a : Nat) (b : Byte) : (s.setByte a b).fetched = s.fetched := rfl
@[simp] theorem State.setByte_calib (a : Nat) (b : Byte) : (s.setByte a b).calib = s.calib := rfl
@[simp] theorem State.setByte_lensMesh (a : Nat) (b : Byte) : (s.setByte a b).lensMesh = s.lensMesh := rfl
@[simp] theorem State.setByte_motion (a : Nat) (b : Byte) : (s.setByte a b).motion = s.motion := rfl
@[simp] theorem State.setByte_egoLate (a : Nat) (b : Byte) : (s.setByte a b).egoLate = s.egoLate := rfl
@[simp] theorem State.setByte_triggers (a : Nat) (b : Byte) : (s.setByte a b).triggers = s.triggers := rfl
@[simp] theorem State.setByte_gptpSync (a : Nat) (b : Byte) : (s.setByte a b).gptpSync = s.gptpSync := rfl
@[simp] theorem State.setByte_ticked (a : Nat) (b : Byte) : (s.setByte a b).ticked = s.ticked := rfl
@[simp] theorem State.setByte_tickPredicted (a : Nat) (b : Byte) : (s.setByte a b).tickPredicted = s.tickPredicted := rfl
@[simp] theorem State.setByte_tickPrev (a : Nat) (b : Byte) : (s.setByte a b).tickPrev = s.tickPrev := rfl
@[simp] theorem State.setByte_lockGood (a : Nat) (b : Byte) : (s.setByte a b).lockGood = s.lockGood := rfl
@[simp] theorem State.setByte_frame (a : Nat) (b : Byte) : (s.setByte a b).frame = s.frame := rfl
@[simp] theorem State.setByte_disagreements (a : Nat) (b : Byte) : (s.setByte a b).disagreements = s.disagreements := rfl
@[simp] theorem State.setByte_logOpen (a : Nat) (b : Byte) : (s.setByte a b).logOpen = s.logOpen := rfl
@[simp] theorem State.setByte_safeOk (a : Nat) (b : Byte) : (s.setByte a b).safeOk = s.safeOk := rfl
@[simp] theorem State.setByte_faultN (a : Nat) (b : Byte) : (s.setByte a b).faultN = s.faultN := rfl
@[simp] theorem State.setByte_poresetN (a : Nat) (b : Byte) : (s.setByte a b).poresetN = s.poresetN := rfl
@[simp] theorem State.setByte_pwrEn (a : Nat) (b : Byte) : (s.setByte a b).pwrEn = s.pwrEn := rfl
@[simp] theorem State.setByte_pwrGood (a : Nat) (b : Byte) : (s.setByte a b).pwrGood = s.pwrGood := rfl
@[simp] theorem State.setByte_thermalHold (a : Nat) (b : Byte) : (s.setByte a b).thermalHold = s.thermalHold := rfl
@[simp] theorem State.setByte_laterCauses (a : Nat) (b : Byte) : (s.setByte a b).laterCauses = s.laterCauses := rfl
@[simp] theorem State.setByte_parts (a : Nat) (b : Byte) : (s.setByte a b).parts = s.parts := rfl
@[simp] theorem State.setByte_devReset (a : Nat) (b : Byte) : (s.setByte a b).devReset = s.devReset := rfl
@[simp] theorem State.setByte_devCause (a : Nat) (b : Byte) : (s.setByte a b).devCause = s.devCause := rfl
@[simp] theorem State.setByte_devLater (a : Nat) (b : Byte) : (s.setByte a b).devLater = s.devLater := rfl
@[simp] theorem State.setByte_aonLog (a : Nat) (b : Byte) : (s.setByte a b).aonLog = s.aonLog := rfl
@[simp] theorem State.setByte_aonCodes (a : Nat) (b : Byte) : (s.setByte a b).aonCodes = s.aonCodes := rfl
@[simp] theorem State.setByte_aonDict (a : Nat) (b : Byte) : (s.setByte a b).aonDict = s.aonDict := rfl
@[simp] theorem State.setByte_resetCause (a : Nat) (b : Byte) : (s.setByte a b).resetCause = s.resetCause := rfl
@[simp] theorem State.setByte_activity (a : Nat) (b : Byte) : (s.setByte a b).activity = s.activity := rfl
@[simp] theorem State.setByte_lpFrom (a : Nat) (b : Byte) : (s.setByte a b).lpFrom = s.lpFrom := rfl
@[simp] theorem State.setByte_wake (a : Nat) (b : Byte) : (s.setByte a b).wake = s.wake := rfl
@[simp] theorem State.setByte_wakeMask (a : Nat) (b : Byte) : (s.setByte a b).wakeMask = s.wakeMask := rfl
@[simp] theorem State.setByte_wakeTimer (a : Nat) (b : Byte) : (s.setByte a b).wakeTimer = s.wakeTimer := rfl
@[simp] theorem State.setByte_lpExitBegun (a : Nat) (b : Byte) : (s.setByte a b).lpExitBegun = s.lpExitBegun := rfl
@[simp] theorem State.setByte_lpRails (a : Nat) (b : Byte) : (s.setByte a b).lpRails = s.lpRails := rfl
@[simp] theorem State.setByte_graceDue (a : Nat) (b : Byte) : (s.setByte a b).graceDue = s.graceDue := rfl
@[simp] theorem State.setByte_lpStuck (a : Nat) (b : Byte) : (s.setByte a b).lpStuck = s.lpStuck := rfl
@[simp] theorem State.setByte_testCap (a : Nat) (b : Byte) : (s.setByte a b).testCap = s.testCap := rfl
@[simp] theorem State.setByte_rateAt (a : Nat) (b : Byte) : (s.setByte a b).rateAt = s.rateAt := rfl
@[simp] theorem State.setByte_rateMark (a : Nat) (b : Byte) : (s.setByte a b).rateMark = s.rateMark := rfl
@[simp] theorem State.setByte_slowHeld (a : Nat) (b : Byte) : (s.setByte a b).slowHeld = s.slowHeld := rfl
@[simp] theorem State.setByte_fuses (a : Nat) (b : Byte) : (s.setByte a b).fuses = s.fuses := rfl
@[simp] theorem State.setByte_fitted (a : Nat) (b : Byte) : (s.setByte a b).fitted = s.fitted := rfl
@[simp] theorem State.setByte_safeState (a : Nat) (b : Byte) : (s.setByte a b).safeState = s.safeState := rfl
@[simp] theorem State.setByte_romWait (a : Nat) (b : Byte) : (s.setByte a b).romWait = s.romWait := rfl
@[simp] theorem State.setByte_bootDue (a : Nat) (b : Byte) : (s.setByte a b).bootDue = s.bootDue := rfl
@[simp] theorem State.setByte_owedReset (a : Nat) (b : Byte) : (s.setByte a b).owedReset = s.owedReset := rfl
@[simp] theorem State.setByte_romSource (a : Nat) (b : Byte) : (s.setByte a b).romSource = s.romSource := rfl
@[simp] theorem State.setByte_bootDigest (a : Nat) (b : Byte) : (s.setByte a b).bootDigest = s.bootDigest := rfl
@[simp] theorem State.setByte_imageLevel (a : Nat) (b : Byte) : (s.setByte a b).imageLevel = s.imageLevel := rfl
@[simp] theorem State.setByte_imageRevoke (a : Nat) (b : Byte) : (s.setByte a b).imageRevoke = s.imageRevoke := rfl
@[simp] theorem State.setByte_fuseBlowDue (a : Nat) (b : Byte) : (s.setByte a b).fuseBlowDue = s.fuseBlowDue := rfl
@[simp] theorem State.setByte_trustKey (a : Nat) (b : Byte) : (s.setByte a b).trustKey = s.trustKey := rfl
@[simp] theorem State.setByte_quotes (a : Nat) (b : Byte) : (s.setByte a b).quotes = s.quotes := rfl
@[simp] theorem State.setByte_scrubPos (a : Nat) (b : Byte) : (s.setByte a b).scrubPos = s.scrubPos := rfl
@[simp] theorem State.setByte_tempHeld (a : Nat) (b : Byte) : (s.setByte a b).tempHeld = s.tempHeld := rfl
@[simp] theorem State.setByte_tempBelow (a : Nat) (b : Byte) : (s.setByte a b).tempBelow = s.tempBelow := rfl
@[simp] theorem State.setByte_vset (a : Nat) (b : Byte) : (s.setByte a b).vset = s.vset := rfl

/-! ### writeBytes -/

@[simp] theorem State.writeBytes_pending (a : Nat) (l : List Byte) : (s.writeBytes a l).pending = s.pending := rfl
@[simp] theorem State.writeBytes_timeNs (a : Nat) (l : List Byte) : (s.writeBytes a l).timeNs = s.timeNs := rfl
@[simp] theorem State.writeBytes_sent (a : Nat) (l : List Byte) : (s.writeBytes a l).sent = s.sent := rfl
@[simp] theorem State.writeBytes_dict (a : Nat) (l : List Byte) : (s.writeBytes a l).dict = s.dict := rfl
@[simp] theorem State.writeBytes_poison (a : Nat) (l : List Byte) : (s.writeBytes a l).poison = s.poison := rfl
@[simp] theorem State.writeBytes_ecc (a : Nat) (l : List Byte) : (s.writeBytes a l).ecc = s.ecc := rfl
@[simp] theorem State.writeBytes_hostMem (a : Nat) (l : List Byte) : (s.writeBytes a l).hostMem = s.hostMem := rfl
@[simp] theorem State.writeBytes_ringsOn (a : Nat) (l : List Byte) : (s.writeBytes a l).ringsOn = s.ringsOn := rfl
@[simp] theorem State.writeBytes_lpRings (a : Nat) (l : List Byte) : (s.writeBytes a l).lpRings = s.lpRings := rfl
@[simp] theorem State.writeBytes_freeIx (a : Nat) (l : List Byte) : (s.writeBytes a l).freeIx = s.freeIx := rfl
@[simp] theorem State.writeBytes_pairs (a : Nat) (l : List Byte) : (s.writeBytes a l).pairs = s.pairs := rfl
@[simp] theorem State.writeBytes_slots (a : Nat) (l : List Byte) : (s.writeBytes a l).slots = s.slots := rfl
@[simp] theorem State.writeBytes_splits (a : Nat) (l : List Byte) : (s.writeBytes a l).splits = s.splits := rfl
@[simp] theorem State.writeBytes_groups (a : Nat) (l : List Byte) : (s.writeBytes a l).groups = s.groups := rfl
@[simp] theorem State.writeBytes_accs (a : Nat) (l : List Byte) : (s.writeBytes a l).accs = s.accs := rfl
@[simp] theorem State.writeBytes_flags (a : Nat) (l : List Byte) : (s.writeBytes a l).flags = s.flags := rfl
@[simp] theorem State.writeBytes_overruns (a : Nat) (l : List Byte) : (s.writeBytes a l).overruns = s.overruns := rfl
@[simp] theorem State.writeBytes_windows (a : Nat) (l : List Byte) : (s.writeBytes a l).windows = s.windows := rfl
@[simp] theorem State.writeBytes_lastClose (a : Nat) (l : List Byte) : (s.writeBytes a l).lastClose = s.lastClose := rfl
@[simp] theorem State.writeBytes_closing (a : Nat) (l : List Byte) : (s.writeBytes a l).closing = s.closing := rfl
@[simp] theorem State.writeBytes_rounds (a : Nat) (l : List Byte) : (s.writeBytes a l).rounds = s.rounds := rfl
@[simp] theorem State.writeBytes_fabric (a : Nat) (l : List Byte) : (s.writeBytes a l).fabric = s.fabric := rfl
@[simp] theorem State.writeBytes_sputBad (a : Nat) (l : List Byte) : (s.writeBytes a l).sputBad = s.sputBad := rfl
@[simp] theorem State.writeBytes_late (a : Nat) (l : List Byte) : (s.writeBytes a l).late = s.late := rfl
@[simp] theorem State.writeBytes_timeouts (a : Nat) (l : List Byte) : (s.writeBytes a l).timeouts = s.timeouts := rfl
@[simp] theorem State.writeBytes_ctxs (a : Nat) (l : List Byte) : (s.writeBytes a l).ctxs = s.ctxs := rfl
@[simp] theorem State.writeBytes_waiting (a : Nat) (l : List Byte) : (s.writeBytes a l).waiting = s.waiting := rfl
@[simp] theorem State.writeBytes_clearing (a : Nat) (l : List Byte) : (s.writeBytes a l).clearing = s.clearing := rfl
@[simp] theorem State.writeBytes_fullNow (a : Nat) (l : List Byte) : (s.writeBytes a l).fullNow = s.fullNow := rfl
@[simp] theorem State.writeBytes_adapt (a : Nat) (l : List Byte) : (s.writeBytes a l).adapt = s.adapt := rfl
@[simp] theorem State.writeBytes_promotions (a : Nat) (l : List Byte) : (s.writeBytes a l).promotions = s.promotions := rfl
@[simp] theorem State.writeBytes_barred (a : Nat) (l : List Byte) : (s.writeBytes a l).barred = s.barred := rfl
@[simp] theorem State.writeBytes_handles (a : Nat) (l : List Byte) : (s.writeBytes a l).handles = s.handles := rfl
@[simp] theorem State.writeBytes_lastSlot (a : Nat) (l : List Byte) : (s.writeBytes a l).lastSlot = s.lastSlot := rfl
@[simp] theorem State.writeBytes_seqs (a : Nat) (l : List Byte) : (s.writeBytes a l).seqs = s.seqs := rfl
@[simp] theorem State.writeBytes_stateWait (a : Nat) (l : List Byte) : (s.writeBytes a l).stateWait = s.stateWait := rfl
@[simp] theorem State.writeBytes_portA (a : Nat) (l : List Byte) : (s.writeBytes a l).portA = s.portA := rfl
@[simp] theorem State.writeBytes_portB (a : Nat) (l : List Byte) : (s.writeBytes a l).portB = s.portB := rfl
@[simp] theorem State.writeBytes_emcy (a : Nat) (l : List Byte) : (s.writeBytes a l).emcy = s.emcy := rfl
@[simp] theorem State.writeBytes_busOffA (a : Nat) (l : List Byte) : (s.writeBytes a l).busOffA = s.busOffA := rfl
@[simp] theorem State.writeBytes_busOffB (a : Nat) (l : List Byte) : (s.writeBytes a l).busOffB = s.busOffB := rfl
@[simp] theorem State.writeBytes_busOffRecent (a : Nat) (l : List Byte) : (s.writeBytes a l).busOffRecent = s.busOffRecent := rfl
@[simp] theorem State.writeBytes_canParams (a : Nat) (l : List Byte) : (s.writeBytes a l).canParams = s.canParams := rfl
@[simp] theorem State.writeBytes_eps (a : Nat) (l : List Byte) : (s.writeBytes a l).eps = s.eps := rfl
@[simp] theorem State.writeBytes_life (a : Nat) (l : List Byte) : (s.writeBytes a l).life = s.life := rfl
@[simp] theorem State.writeBytes_unbound (a : Nat) (l : List Byte) : (s.writeBytes a l).unbound = s.unbound := rfl
@[simp] theorem State.writeBytes_announced (a : Nat) (l : List Byte) : (s.writeBytes a l).announced = s.announced := rfl
@[simp] theorem State.writeBytes_discards (a : Nat) (l : List Byte) : (s.writeBytes a l).discards = s.discards := rfl
@[simp] theorem State.writeBytes_eccFixed (a : Nat) (l : List Byte) : (s.writeBytes a l).eccFixed = s.eccFixed := rfl
@[simp] theorem State.writeBytes_skipped (a : Nat) (l : List Byte) : (s.writeBytes a l).skipped = s.skipped := rfl
@[simp] theorem State.writeBytes_dgramDrops (a : Nat) (l : List Byte) : (s.writeBytes a l).dgramDrops = s.dgramDrops := rfl
@[simp] theorem State.writeBytes_tables (a : Nat) (l : List Byte) : (s.writeBytes a l).tables = s.tables := rfl
@[simp] theorem State.writeBytes_meshBase (a : Nat) (l : List Byte) : (s.writeBytes a l).meshBase = s.meshBase := rfl
@[simp] theorem State.writeBytes_raw (a : Nat) (l : List Byte) : (s.writeBytes a l).raw = s.raw := rfl
@[simp] theorem State.writeBytes_views (a : Nat) (l : List Byte) : (s.writeBytes a l).views = s.views := rfl
@[simp] theorem State.writeBytes_sweeps (a : Nat) (l : List Byte) : (s.writeBytes a l).sweeps = s.sweeps := rfl
@[simp] theorem State.writeBytes_sweepsPrev (a : Nat) (l : List Byte) : (s.writeBytes a l).sweepsPrev = s.sweepsPrev := rfl
@[simp] theorem State.writeBytes_meshQueue (a : Nat) (l : List Byte) : (s.writeBytes a l).meshQueue = s.meshQueue := rfl
@[simp] theorem State.writeBytes_fetched (a : Nat) (l : List Byte) : (s.writeBytes a l).fetched = s.fetched := rfl
@[simp] theorem State.writeBytes_calib (a : Nat) (l : List Byte) : (s.writeBytes a l).calib = s.calib := rfl
@[simp] theorem State.writeBytes_lensMesh (a : Nat) (l : List Byte) : (s.writeBytes a l).lensMesh = s.lensMesh := rfl
@[simp] theorem State.writeBytes_motion (a : Nat) (l : List Byte) : (s.writeBytes a l).motion = s.motion := rfl
@[simp] theorem State.writeBytes_egoLate (a : Nat) (l : List Byte) : (s.writeBytes a l).egoLate = s.egoLate := rfl
@[simp] theorem State.writeBytes_triggers (a : Nat) (l : List Byte) : (s.writeBytes a l).triggers = s.triggers := rfl
@[simp] theorem State.writeBytes_gptpSync (a : Nat) (l : List Byte) : (s.writeBytes a l).gptpSync = s.gptpSync := rfl
@[simp] theorem State.writeBytes_ticked (a : Nat) (l : List Byte) : (s.writeBytes a l).ticked = s.ticked := rfl
@[simp] theorem State.writeBytes_tickPredicted (a : Nat) (l : List Byte) : (s.writeBytes a l).tickPredicted = s.tickPredicted := rfl
@[simp] theorem State.writeBytes_tickPrev (a : Nat) (l : List Byte) : (s.writeBytes a l).tickPrev = s.tickPrev := rfl
@[simp] theorem State.writeBytes_lockGood (a : Nat) (l : List Byte) : (s.writeBytes a l).lockGood = s.lockGood := rfl
@[simp] theorem State.writeBytes_frame (a : Nat) (l : List Byte) : (s.writeBytes a l).frame = s.frame := rfl
@[simp] theorem State.writeBytes_disagreements (a : Nat) (l : List Byte) : (s.writeBytes a l).disagreements = s.disagreements := rfl
@[simp] theorem State.writeBytes_logOpen (a : Nat) (l : List Byte) : (s.writeBytes a l).logOpen = s.logOpen := rfl
@[simp] theorem State.writeBytes_safeOk (a : Nat) (l : List Byte) : (s.writeBytes a l).safeOk = s.safeOk := rfl
@[simp] theorem State.writeBytes_faultN (a : Nat) (l : List Byte) : (s.writeBytes a l).faultN = s.faultN := rfl
@[simp] theorem State.writeBytes_poresetN (a : Nat) (l : List Byte) : (s.writeBytes a l).poresetN = s.poresetN := rfl
@[simp] theorem State.writeBytes_pwrEn (a : Nat) (l : List Byte) : (s.writeBytes a l).pwrEn = s.pwrEn := rfl
@[simp] theorem State.writeBytes_pwrGood (a : Nat) (l : List Byte) : (s.writeBytes a l).pwrGood = s.pwrGood := rfl
@[simp] theorem State.writeBytes_thermalHold (a : Nat) (l : List Byte) : (s.writeBytes a l).thermalHold = s.thermalHold := rfl
@[simp] theorem State.writeBytes_laterCauses (a : Nat) (l : List Byte) : (s.writeBytes a l).laterCauses = s.laterCauses := rfl
@[simp] theorem State.writeBytes_parts (a : Nat) (l : List Byte) : (s.writeBytes a l).parts = s.parts := rfl
@[simp] theorem State.writeBytes_devReset (a : Nat) (l : List Byte) : (s.writeBytes a l).devReset = s.devReset := rfl
@[simp] theorem State.writeBytes_devCause (a : Nat) (l : List Byte) : (s.writeBytes a l).devCause = s.devCause := rfl
@[simp] theorem State.writeBytes_devLater (a : Nat) (l : List Byte) : (s.writeBytes a l).devLater = s.devLater := rfl
@[simp] theorem State.writeBytes_aonLog (a : Nat) (l : List Byte) : (s.writeBytes a l).aonLog = s.aonLog := rfl
@[simp] theorem State.writeBytes_aonCodes (a : Nat) (l : List Byte) : (s.writeBytes a l).aonCodes = s.aonCodes := rfl
@[simp] theorem State.writeBytes_aonDict (a : Nat) (l : List Byte) : (s.writeBytes a l).aonDict = s.aonDict := rfl
@[simp] theorem State.writeBytes_resetCause (a : Nat) (l : List Byte) : (s.writeBytes a l).resetCause = s.resetCause := rfl
@[simp] theorem State.writeBytes_activity (a : Nat) (l : List Byte) : (s.writeBytes a l).activity = s.activity := rfl
@[simp] theorem State.writeBytes_lpFrom (a : Nat) (l : List Byte) : (s.writeBytes a l).lpFrom = s.lpFrom := rfl
@[simp] theorem State.writeBytes_wake (a : Nat) (l : List Byte) : (s.writeBytes a l).wake = s.wake := rfl
@[simp] theorem State.writeBytes_wakeMask (a : Nat) (l : List Byte) : (s.writeBytes a l).wakeMask = s.wakeMask := rfl
@[simp] theorem State.writeBytes_wakeTimer (a : Nat) (l : List Byte) : (s.writeBytes a l).wakeTimer = s.wakeTimer := rfl
@[simp] theorem State.writeBytes_lpExitBegun (a : Nat) (l : List Byte) : (s.writeBytes a l).lpExitBegun = s.lpExitBegun := rfl
@[simp] theorem State.writeBytes_lpRails (a : Nat) (l : List Byte) : (s.writeBytes a l).lpRails = s.lpRails := rfl
@[simp] theorem State.writeBytes_graceDue (a : Nat) (l : List Byte) : (s.writeBytes a l).graceDue = s.graceDue := rfl
@[simp] theorem State.writeBytes_lpStuck (a : Nat) (l : List Byte) : (s.writeBytes a l).lpStuck = s.lpStuck := rfl
@[simp] theorem State.writeBytes_testCap (a : Nat) (l : List Byte) : (s.writeBytes a l).testCap = s.testCap := rfl
@[simp] theorem State.writeBytes_rateAt (a : Nat) (l : List Byte) : (s.writeBytes a l).rateAt = s.rateAt := rfl
@[simp] theorem State.writeBytes_rateMark (a : Nat) (l : List Byte) : (s.writeBytes a l).rateMark = s.rateMark := rfl
@[simp] theorem State.writeBytes_slowHeld (a : Nat) (l : List Byte) : (s.writeBytes a l).slowHeld = s.slowHeld := rfl
@[simp] theorem State.writeBytes_fuses (a : Nat) (l : List Byte) : (s.writeBytes a l).fuses = s.fuses := rfl
@[simp] theorem State.writeBytes_fitted (a : Nat) (l : List Byte) : (s.writeBytes a l).fitted = s.fitted := rfl
@[simp] theorem State.writeBytes_safeState (a : Nat) (l : List Byte) : (s.writeBytes a l).safeState = s.safeState := rfl
@[simp] theorem State.writeBytes_romWait (a : Nat) (l : List Byte) : (s.writeBytes a l).romWait = s.romWait := rfl
@[simp] theorem State.writeBytes_bootDue (a : Nat) (l : List Byte) : (s.writeBytes a l).bootDue = s.bootDue := rfl
@[simp] theorem State.writeBytes_owedReset (a : Nat) (l : List Byte) : (s.writeBytes a l).owedReset = s.owedReset := rfl
@[simp] theorem State.writeBytes_romSource (a : Nat) (l : List Byte) : (s.writeBytes a l).romSource = s.romSource := rfl
@[simp] theorem State.writeBytes_bootDigest (a : Nat) (l : List Byte) : (s.writeBytes a l).bootDigest = s.bootDigest := rfl
@[simp] theorem State.writeBytes_imageLevel (a : Nat) (l : List Byte) : (s.writeBytes a l).imageLevel = s.imageLevel := rfl
@[simp] theorem State.writeBytes_imageRevoke (a : Nat) (l : List Byte) : (s.writeBytes a l).imageRevoke = s.imageRevoke := rfl
@[simp] theorem State.writeBytes_fuseBlowDue (a : Nat) (l : List Byte) : (s.writeBytes a l).fuseBlowDue = s.fuseBlowDue := rfl
@[simp] theorem State.writeBytes_trustKey (a : Nat) (l : List Byte) : (s.writeBytes a l).trustKey = s.trustKey := rfl
@[simp] theorem State.writeBytes_quotes (a : Nat) (l : List Byte) : (s.writeBytes a l).quotes = s.quotes := rfl
@[simp] theorem State.writeBytes_scrubPos (a : Nat) (l : List Byte) : (s.writeBytes a l).scrubPos = s.scrubPos := rfl
@[simp] theorem State.writeBytes_tempHeld (a : Nat) (l : List Byte) : (s.writeBytes a l).tempHeld = s.tempHeld := rfl
@[simp] theorem State.writeBytes_tempBelow (a : Nat) (l : List Byte) : (s.writeBytes a l).tempBelow = s.tempBelow := rfl
@[simp] theorem State.writeBytes_vset (a : Nat) (l : List Byte) : (s.writeBytes a l).vset = s.vset := rfl

/-! ### putWord -/

@[simp] theorem State.putWord_pending (a : Nat) (w : SWord) (p : Bool) : (s.putWord a w p).pending = s.pending := rfl
@[simp] theorem State.putWord_timeNs (a : Nat) (w : SWord) (p : Bool) : (s.putWord a w p).timeNs = s.timeNs := rfl
@[simp] theorem State.putWord_sent (a : Nat) (w : SWord) (p : Bool) : (s.putWord a w p).sent = s.sent := rfl
@[simp] theorem State.putWord_dict (a : Nat) (w : SWord) (p : Bool) : (s.putWord a w p).dict = s.dict := rfl
@[simp] theorem State.putWord_ecc (a : Nat) (w : SWord) (p : Bool) : (s.putWord a w p).ecc = s.ecc := rfl
@[simp] theorem State.putWord_hostMem (a : Nat) (w : SWord) (p : Bool) : (s.putWord a w p).hostMem = s.hostMem := rfl
@[simp] theorem State.putWord_ringsOn (a : Nat) (w : SWord) (p : Bool) : (s.putWord a w p).ringsOn = s.ringsOn := rfl
@[simp] theorem State.putWord_lpRings (a : Nat) (w : SWord) (p : Bool) : (s.putWord a w p).lpRings = s.lpRings := rfl
@[simp] theorem State.putWord_freeIx (a : Nat) (w : SWord) (p : Bool) : (s.putWord a w p).freeIx = s.freeIx := rfl
@[simp] theorem State.putWord_pairs (a : Nat) (w : SWord) (p : Bool) : (s.putWord a w p).pairs = s.pairs := rfl
@[simp] theorem State.putWord_slots (a : Nat) (w : SWord) (p : Bool) : (s.putWord a w p).slots = s.slots := rfl
@[simp] theorem State.putWord_splits (a : Nat) (w : SWord) (p : Bool) : (s.putWord a w p).splits = s.splits := rfl
@[simp] theorem State.putWord_groups (a : Nat) (w : SWord) (p : Bool) : (s.putWord a w p).groups = s.groups := rfl
@[simp] theorem State.putWord_accs (a : Nat) (w : SWord) (p : Bool) : (s.putWord a w p).accs = s.accs := rfl
@[simp] theorem State.putWord_flags (a : Nat) (w : SWord) (p : Bool) : (s.putWord a w p).flags = s.flags := rfl
@[simp] theorem State.putWord_overruns (a : Nat) (w : SWord) (p : Bool) : (s.putWord a w p).overruns = s.overruns := rfl
@[simp] theorem State.putWord_windows (a : Nat) (w : SWord) (p : Bool) : (s.putWord a w p).windows = s.windows := rfl
@[simp] theorem State.putWord_lastClose (a : Nat) (w : SWord) (p : Bool) : (s.putWord a w p).lastClose = s.lastClose := rfl
@[simp] theorem State.putWord_closing (a : Nat) (w : SWord) (p : Bool) : (s.putWord a w p).closing = s.closing := rfl
@[simp] theorem State.putWord_rounds (a : Nat) (w : SWord) (p : Bool) : (s.putWord a w p).rounds = s.rounds := rfl
@[simp] theorem State.putWord_fabric (a : Nat) (w : SWord) (p : Bool) : (s.putWord a w p).fabric = s.fabric := rfl
@[simp] theorem State.putWord_sputBad (a : Nat) (w : SWord) (p : Bool) : (s.putWord a w p).sputBad = s.sputBad := rfl
@[simp] theorem State.putWord_late (a : Nat) (w : SWord) (p : Bool) : (s.putWord a w p).late = s.late := rfl
@[simp] theorem State.putWord_timeouts (a : Nat) (w : SWord) (p : Bool) : (s.putWord a w p).timeouts = s.timeouts := rfl
@[simp] theorem State.putWord_ctxs (a : Nat) (w : SWord) (p : Bool) : (s.putWord a w p).ctxs = s.ctxs := rfl
@[simp] theorem State.putWord_waiting (a : Nat) (w : SWord) (p : Bool) : (s.putWord a w p).waiting = s.waiting := rfl
@[simp] theorem State.putWord_clearing (a : Nat) (w : SWord) (p : Bool) : (s.putWord a w p).clearing = s.clearing := rfl
@[simp] theorem State.putWord_fullNow (a : Nat) (w : SWord) (p : Bool) : (s.putWord a w p).fullNow = s.fullNow := rfl
@[simp] theorem State.putWord_adapt (a : Nat) (w : SWord) (p : Bool) : (s.putWord a w p).adapt = s.adapt := rfl
@[simp] theorem State.putWord_promotions (a : Nat) (w : SWord) (p : Bool) : (s.putWord a w p).promotions = s.promotions := rfl
@[simp] theorem State.putWord_barred (a : Nat) (w : SWord) (p : Bool) : (s.putWord a w p).barred = s.barred := rfl
@[simp] theorem State.putWord_handles (a : Nat) (w : SWord) (p : Bool) : (s.putWord a w p).handles = s.handles := rfl
@[simp] theorem State.putWord_lastSlot (a : Nat) (w : SWord) (p : Bool) : (s.putWord a w p).lastSlot = s.lastSlot := rfl
@[simp] theorem State.putWord_seqs (a : Nat) (w : SWord) (p : Bool) : (s.putWord a w p).seqs = s.seqs := rfl
@[simp] theorem State.putWord_stateWait (a : Nat) (w : SWord) (p : Bool) : (s.putWord a w p).stateWait = s.stateWait := rfl
@[simp] theorem State.putWord_portA (a : Nat) (w : SWord) (p : Bool) : (s.putWord a w p).portA = s.portA := rfl
@[simp] theorem State.putWord_portB (a : Nat) (w : SWord) (p : Bool) : (s.putWord a w p).portB = s.portB := rfl
@[simp] theorem State.putWord_emcy (a : Nat) (w : SWord) (p : Bool) : (s.putWord a w p).emcy = s.emcy := rfl
@[simp] theorem State.putWord_busOffA (a : Nat) (w : SWord) (p : Bool) : (s.putWord a w p).busOffA = s.busOffA := rfl
@[simp] theorem State.putWord_busOffB (a : Nat) (w : SWord) (p : Bool) : (s.putWord a w p).busOffB = s.busOffB := rfl
@[simp] theorem State.putWord_busOffRecent (a : Nat) (w : SWord) (p : Bool) : (s.putWord a w p).busOffRecent = s.busOffRecent := rfl
@[simp] theorem State.putWord_canParams (a : Nat) (w : SWord) (p : Bool) : (s.putWord a w p).canParams = s.canParams := rfl
@[simp] theorem State.putWord_eps (a : Nat) (w : SWord) (p : Bool) : (s.putWord a w p).eps = s.eps := rfl
@[simp] theorem State.putWord_life (a : Nat) (w : SWord) (p : Bool) : (s.putWord a w p).life = s.life := rfl
@[simp] theorem State.putWord_unbound (a : Nat) (w : SWord) (p : Bool) : (s.putWord a w p).unbound = s.unbound := rfl
@[simp] theorem State.putWord_announced (a : Nat) (w : SWord) (p : Bool) : (s.putWord a w p).announced = s.announced := rfl
@[simp] theorem State.putWord_discards (a : Nat) (w : SWord) (p : Bool) : (s.putWord a w p).discards = s.discards := rfl
@[simp] theorem State.putWord_eccFixed (a : Nat) (w : SWord) (p : Bool) : (s.putWord a w p).eccFixed = s.eccFixed := rfl
@[simp] theorem State.putWord_skipped (a : Nat) (w : SWord) (p : Bool) : (s.putWord a w p).skipped = s.skipped := rfl
@[simp] theorem State.putWord_dgramDrops (a : Nat) (w : SWord) (p : Bool) : (s.putWord a w p).dgramDrops = s.dgramDrops := rfl
@[simp] theorem State.putWord_tables (a : Nat) (w : SWord) (p : Bool) : (s.putWord a w p).tables = s.tables := rfl
@[simp] theorem State.putWord_meshBase (a : Nat) (w : SWord) (p : Bool) : (s.putWord a w p).meshBase = s.meshBase := rfl
@[simp] theorem State.putWord_raw (a : Nat) (w : SWord) (p : Bool) : (s.putWord a w p).raw = s.raw := rfl
@[simp] theorem State.putWord_views (a : Nat) (w : SWord) (p : Bool) : (s.putWord a w p).views = s.views := rfl
@[simp] theorem State.putWord_sweeps (a : Nat) (w : SWord) (p : Bool) : (s.putWord a w p).sweeps = s.sweeps := rfl
@[simp] theorem State.putWord_sweepsPrev (a : Nat) (w : SWord) (p : Bool) : (s.putWord a w p).sweepsPrev = s.sweepsPrev := rfl
@[simp] theorem State.putWord_meshQueue (a : Nat) (w : SWord) (p : Bool) : (s.putWord a w p).meshQueue = s.meshQueue := rfl
@[simp] theorem State.putWord_fetched (a : Nat) (w : SWord) (p : Bool) : (s.putWord a w p).fetched = s.fetched := rfl
@[simp] theorem State.putWord_calib (a : Nat) (w : SWord) (p : Bool) : (s.putWord a w p).calib = s.calib := rfl
@[simp] theorem State.putWord_lensMesh (a : Nat) (w : SWord) (p : Bool) : (s.putWord a w p).lensMesh = s.lensMesh := rfl
@[simp] theorem State.putWord_motion (a : Nat) (w : SWord) (p : Bool) : (s.putWord a w p).motion = s.motion := rfl
@[simp] theorem State.putWord_egoLate (a : Nat) (w : SWord) (p : Bool) : (s.putWord a w p).egoLate = s.egoLate := rfl
@[simp] theorem State.putWord_triggers (a : Nat) (w : SWord) (p : Bool) : (s.putWord a w p).triggers = s.triggers := rfl
@[simp] theorem State.putWord_gptpSync (a : Nat) (w : SWord) (p : Bool) : (s.putWord a w p).gptpSync = s.gptpSync := rfl
@[simp] theorem State.putWord_ticked (a : Nat) (w : SWord) (p : Bool) : (s.putWord a w p).ticked = s.ticked := rfl
@[simp] theorem State.putWord_tickPredicted (a : Nat) (w : SWord) (p : Bool) : (s.putWord a w p).tickPredicted = s.tickPredicted := rfl
@[simp] theorem State.putWord_tickPrev (a : Nat) (w : SWord) (p : Bool) : (s.putWord a w p).tickPrev = s.tickPrev := rfl
@[simp] theorem State.putWord_lockGood (a : Nat) (w : SWord) (p : Bool) : (s.putWord a w p).lockGood = s.lockGood := rfl
@[simp] theorem State.putWord_frame (a : Nat) (w : SWord) (p : Bool) : (s.putWord a w p).frame = s.frame := rfl
@[simp] theorem State.putWord_disagreements (a : Nat) (w : SWord) (p : Bool) : (s.putWord a w p).disagreements = s.disagreements := rfl
@[simp] theorem State.putWord_logOpen (a : Nat) (w : SWord) (p : Bool) : (s.putWord a w p).logOpen = s.logOpen := rfl
@[simp] theorem State.putWord_safeOk (a : Nat) (w : SWord) (p : Bool) : (s.putWord a w p).safeOk = s.safeOk := rfl
@[simp] theorem State.putWord_faultN (a : Nat) (w : SWord) (p : Bool) : (s.putWord a w p).faultN = s.faultN := rfl
@[simp] theorem State.putWord_poresetN (a : Nat) (w : SWord) (p : Bool) : (s.putWord a w p).poresetN = s.poresetN := rfl
@[simp] theorem State.putWord_pwrEn (a : Nat) (w : SWord) (p : Bool) : (s.putWord a w p).pwrEn = s.pwrEn := rfl
@[simp] theorem State.putWord_pwrGood (a : Nat) (w : SWord) (p : Bool) : (s.putWord a w p).pwrGood = s.pwrGood := rfl
@[simp] theorem State.putWord_thermalHold (a : Nat) (w : SWord) (p : Bool) : (s.putWord a w p).thermalHold = s.thermalHold := rfl
@[simp] theorem State.putWord_laterCauses (a : Nat) (w : SWord) (p : Bool) : (s.putWord a w p).laterCauses = s.laterCauses := rfl
@[simp] theorem State.putWord_parts (a : Nat) (w : SWord) (p : Bool) : (s.putWord a w p).parts = s.parts := rfl
@[simp] theorem State.putWord_devReset (a : Nat) (w : SWord) (p : Bool) : (s.putWord a w p).devReset = s.devReset := rfl
@[simp] theorem State.putWord_devCause (a : Nat) (w : SWord) (p : Bool) : (s.putWord a w p).devCause = s.devCause := rfl
@[simp] theorem State.putWord_devLater (a : Nat) (w : SWord) (p : Bool) : (s.putWord a w p).devLater = s.devLater := rfl
@[simp] theorem State.putWord_aonLog (a : Nat) (w : SWord) (p : Bool) : (s.putWord a w p).aonLog = s.aonLog := rfl
@[simp] theorem State.putWord_aonCodes (a : Nat) (w : SWord) (p : Bool) : (s.putWord a w p).aonCodes = s.aonCodes := rfl
@[simp] theorem State.putWord_aonDict (a : Nat) (w : SWord) (p : Bool) : (s.putWord a w p).aonDict = s.aonDict := rfl
@[simp] theorem State.putWord_resetCause (a : Nat) (w : SWord) (p : Bool) : (s.putWord a w p).resetCause = s.resetCause := rfl
@[simp] theorem State.putWord_activity (a : Nat) (w : SWord) (p : Bool) : (s.putWord a w p).activity = s.activity := rfl
@[simp] theorem State.putWord_lpFrom (a : Nat) (w : SWord) (p : Bool) : (s.putWord a w p).lpFrom = s.lpFrom := rfl
@[simp] theorem State.putWord_wake (a : Nat) (w : SWord) (p : Bool) : (s.putWord a w p).wake = s.wake := rfl
@[simp] theorem State.putWord_wakeMask (a : Nat) (w : SWord) (p : Bool) : (s.putWord a w p).wakeMask = s.wakeMask := rfl
@[simp] theorem State.putWord_wakeTimer (a : Nat) (w : SWord) (p : Bool) : (s.putWord a w p).wakeTimer = s.wakeTimer := rfl
@[simp] theorem State.putWord_lpExitBegun (a : Nat) (w : SWord) (p : Bool) : (s.putWord a w p).lpExitBegun = s.lpExitBegun := rfl
@[simp] theorem State.putWord_lpRails (a : Nat) (w : SWord) (p : Bool) : (s.putWord a w p).lpRails = s.lpRails := rfl
@[simp] theorem State.putWord_graceDue (a : Nat) (w : SWord) (p : Bool) : (s.putWord a w p).graceDue = s.graceDue := rfl
@[simp] theorem State.putWord_lpStuck (a : Nat) (w : SWord) (p : Bool) : (s.putWord a w p).lpStuck = s.lpStuck := rfl
@[simp] theorem State.putWord_testCap (a : Nat) (w : SWord) (p : Bool) : (s.putWord a w p).testCap = s.testCap := rfl
@[simp] theorem State.putWord_rateAt (a : Nat) (w : SWord) (p : Bool) : (s.putWord a w p).rateAt = s.rateAt := rfl
@[simp] theorem State.putWord_rateMark (a : Nat) (w : SWord) (p : Bool) : (s.putWord a w p).rateMark = s.rateMark := rfl
@[simp] theorem State.putWord_slowHeld (a : Nat) (w : SWord) (p : Bool) : (s.putWord a w p).slowHeld = s.slowHeld := rfl
@[simp] theorem State.putWord_fuses (a : Nat) (w : SWord) (p : Bool) : (s.putWord a w p).fuses = s.fuses := rfl
@[simp] theorem State.putWord_fitted (a : Nat) (w : SWord) (p : Bool) : (s.putWord a w p).fitted = s.fitted := rfl
@[simp] theorem State.putWord_safeState (a : Nat) (w : SWord) (p : Bool) : (s.putWord a w p).safeState = s.safeState := rfl
@[simp] theorem State.putWord_romWait (a : Nat) (w : SWord) (p : Bool) : (s.putWord a w p).romWait = s.romWait := rfl
@[simp] theorem State.putWord_bootDue (a : Nat) (w : SWord) (p : Bool) : (s.putWord a w p).bootDue = s.bootDue := rfl
@[simp] theorem State.putWord_owedReset (a : Nat) (w : SWord) (p : Bool) : (s.putWord a w p).owedReset = s.owedReset := rfl
@[simp] theorem State.putWord_romSource (a : Nat) (w : SWord) (p : Bool) : (s.putWord a w p).romSource = s.romSource := rfl
@[simp] theorem State.putWord_bootDigest (a : Nat) (w : SWord) (p : Bool) : (s.putWord a w p).bootDigest = s.bootDigest := rfl
@[simp] theorem State.putWord_imageLevel (a : Nat) (w : SWord) (p : Bool) : (s.putWord a w p).imageLevel = s.imageLevel := rfl
@[simp] theorem State.putWord_imageRevoke (a : Nat) (w : SWord) (p : Bool) : (s.putWord a w p).imageRevoke = s.imageRevoke := rfl
@[simp] theorem State.putWord_fuseBlowDue (a : Nat) (w : SWord) (p : Bool) : (s.putWord a w p).fuseBlowDue = s.fuseBlowDue := rfl
@[simp] theorem State.putWord_trustKey (a : Nat) (w : SWord) (p : Bool) : (s.putWord a w p).trustKey = s.trustKey := rfl
@[simp] theorem State.putWord_quotes (a : Nat) (w : SWord) (p : Bool) : (s.putWord a w p).quotes = s.quotes := rfl
@[simp] theorem State.putWord_scrubPos (a : Nat) (w : SWord) (p : Bool) : (s.putWord a w p).scrubPos = s.scrubPos := rfl
@[simp] theorem State.putWord_tempHeld (a : Nat) (w : SWord) (p : Bool) : (s.putWord a w p).tempHeld = s.tempHeld := rfl
@[simp] theorem State.putWord_tempBelow (a : Nat) (w : SWord) (p : Bool) : (s.putWord a w p).tempBelow = s.tempBelow := rfl
@[simp] theorem State.putWord_vset (a : Nat) (w : SWord) (p : Bool) : (s.putWord a w p).vset = s.vset := rfl

/-! ### zeroRange -/

@[simp] theorem State.zeroRange_pending (a n : Nat) : (s.zeroRange a n).pending = s.pending := rfl
@[simp] theorem State.zeroRange_timeNs (a n : Nat) : (s.zeroRange a n).timeNs = s.timeNs := rfl
@[simp] theorem State.zeroRange_sent (a n : Nat) : (s.zeroRange a n).sent = s.sent := rfl
@[simp] theorem State.zeroRange_dict (a n : Nat) : (s.zeroRange a n).dict = s.dict := rfl
@[simp] theorem State.zeroRange_hostMem (a n : Nat) : (s.zeroRange a n).hostMem = s.hostMem := rfl
@[simp] theorem State.zeroRange_ringsOn (a n : Nat) : (s.zeroRange a n).ringsOn = s.ringsOn := rfl
@[simp] theorem State.zeroRange_lpRings (a n : Nat) : (s.zeroRange a n).lpRings = s.lpRings := rfl
@[simp] theorem State.zeroRange_freeIx (a n : Nat) : (s.zeroRange a n).freeIx = s.freeIx := rfl
@[simp] theorem State.zeroRange_pairs (a n : Nat) : (s.zeroRange a n).pairs = s.pairs := rfl
@[simp] theorem State.zeroRange_slots (a n : Nat) : (s.zeroRange a n).slots = s.slots := rfl
@[simp] theorem State.zeroRange_splits (a n : Nat) : (s.zeroRange a n).splits = s.splits := rfl
@[simp] theorem State.zeroRange_groups (a n : Nat) : (s.zeroRange a n).groups = s.groups := rfl
@[simp] theorem State.zeroRange_accs (a n : Nat) : (s.zeroRange a n).accs = s.accs := rfl
@[simp] theorem State.zeroRange_flags (a n : Nat) : (s.zeroRange a n).flags = s.flags := rfl
@[simp] theorem State.zeroRange_overruns (a n : Nat) : (s.zeroRange a n).overruns = s.overruns := rfl
@[simp] theorem State.zeroRange_windows (a n : Nat) : (s.zeroRange a n).windows = s.windows := rfl
@[simp] theorem State.zeroRange_lastClose (a n : Nat) : (s.zeroRange a n).lastClose = s.lastClose := rfl
@[simp] theorem State.zeroRange_closing (a n : Nat) : (s.zeroRange a n).closing = s.closing := rfl
@[simp] theorem State.zeroRange_rounds (a n : Nat) : (s.zeroRange a n).rounds = s.rounds := rfl
@[simp] theorem State.zeroRange_fabric (a n : Nat) : (s.zeroRange a n).fabric = s.fabric := rfl
@[simp] theorem State.zeroRange_sputBad (a n : Nat) : (s.zeroRange a n).sputBad = s.sputBad := rfl
@[simp] theorem State.zeroRange_late (a n : Nat) : (s.zeroRange a n).late = s.late := rfl
@[simp] theorem State.zeroRange_timeouts (a n : Nat) : (s.zeroRange a n).timeouts = s.timeouts := rfl
@[simp] theorem State.zeroRange_ctxs (a n : Nat) : (s.zeroRange a n).ctxs = s.ctxs := rfl
@[simp] theorem State.zeroRange_waiting (a n : Nat) : (s.zeroRange a n).waiting = s.waiting := rfl
@[simp] theorem State.zeroRange_clearing (a n : Nat) : (s.zeroRange a n).clearing = s.clearing := rfl
@[simp] theorem State.zeroRange_fullNow (a n : Nat) : (s.zeroRange a n).fullNow = s.fullNow := rfl
@[simp] theorem State.zeroRange_adapt (a n : Nat) : (s.zeroRange a n).adapt = s.adapt := rfl
@[simp] theorem State.zeroRange_promotions (a n : Nat) : (s.zeroRange a n).promotions = s.promotions := rfl
@[simp] theorem State.zeroRange_barred (a n : Nat) : (s.zeroRange a n).barred = s.barred := rfl
@[simp] theorem State.zeroRange_handles (a n : Nat) : (s.zeroRange a n).handles = s.handles := rfl
@[simp] theorem State.zeroRange_lastSlot (a n : Nat) : (s.zeroRange a n).lastSlot = s.lastSlot := rfl
@[simp] theorem State.zeroRange_seqs (a n : Nat) : (s.zeroRange a n).seqs = s.seqs := rfl
@[simp] theorem State.zeroRange_stateWait (a n : Nat) : (s.zeroRange a n).stateWait = s.stateWait := rfl
@[simp] theorem State.zeroRange_portA (a n : Nat) : (s.zeroRange a n).portA = s.portA := rfl
@[simp] theorem State.zeroRange_portB (a n : Nat) : (s.zeroRange a n).portB = s.portB := rfl
@[simp] theorem State.zeroRange_emcy (a n : Nat) : (s.zeroRange a n).emcy = s.emcy := rfl
@[simp] theorem State.zeroRange_busOffA (a n : Nat) : (s.zeroRange a n).busOffA = s.busOffA := rfl
@[simp] theorem State.zeroRange_busOffB (a n : Nat) : (s.zeroRange a n).busOffB = s.busOffB := rfl
@[simp] theorem State.zeroRange_busOffRecent (a n : Nat) : (s.zeroRange a n).busOffRecent = s.busOffRecent := rfl
@[simp] theorem State.zeroRange_canParams (a n : Nat) : (s.zeroRange a n).canParams = s.canParams := rfl
@[simp] theorem State.zeroRange_eps (a n : Nat) : (s.zeroRange a n).eps = s.eps := rfl
@[simp] theorem State.zeroRange_life (a n : Nat) : (s.zeroRange a n).life = s.life := rfl
@[simp] theorem State.zeroRange_unbound (a n : Nat) : (s.zeroRange a n).unbound = s.unbound := rfl
@[simp] theorem State.zeroRange_announced (a n : Nat) : (s.zeroRange a n).announced = s.announced := rfl
@[simp] theorem State.zeroRange_discards (a n : Nat) : (s.zeroRange a n).discards = s.discards := rfl
@[simp] theorem State.zeroRange_eccFixed (a n : Nat) : (s.zeroRange a n).eccFixed = s.eccFixed := rfl
@[simp] theorem State.zeroRange_skipped (a n : Nat) : (s.zeroRange a n).skipped = s.skipped := rfl
@[simp] theorem State.zeroRange_dgramDrops (a n : Nat) : (s.zeroRange a n).dgramDrops = s.dgramDrops := rfl
@[simp] theorem State.zeroRange_tables (a n : Nat) : (s.zeroRange a n).tables = s.tables := rfl
@[simp] theorem State.zeroRange_meshBase (a n : Nat) : (s.zeroRange a n).meshBase = s.meshBase := rfl
@[simp] theorem State.zeroRange_raw (a n : Nat) : (s.zeroRange a n).raw = s.raw := rfl
@[simp] theorem State.zeroRange_views (a n : Nat) : (s.zeroRange a n).views = s.views := rfl
@[simp] theorem State.zeroRange_sweeps (a n : Nat) : (s.zeroRange a n).sweeps = s.sweeps := rfl
@[simp] theorem State.zeroRange_sweepsPrev (a n : Nat) : (s.zeroRange a n).sweepsPrev = s.sweepsPrev := rfl
@[simp] theorem State.zeroRange_meshQueue (a n : Nat) : (s.zeroRange a n).meshQueue = s.meshQueue := rfl
@[simp] theorem State.zeroRange_fetched (a n : Nat) : (s.zeroRange a n).fetched = s.fetched := rfl
@[simp] theorem State.zeroRange_calib (a n : Nat) : (s.zeroRange a n).calib = s.calib := rfl
@[simp] theorem State.zeroRange_lensMesh (a n : Nat) : (s.zeroRange a n).lensMesh = s.lensMesh := rfl
@[simp] theorem State.zeroRange_motion (a n : Nat) : (s.zeroRange a n).motion = s.motion := rfl
@[simp] theorem State.zeroRange_egoLate (a n : Nat) : (s.zeroRange a n).egoLate = s.egoLate := rfl
@[simp] theorem State.zeroRange_triggers (a n : Nat) : (s.zeroRange a n).triggers = s.triggers := rfl
@[simp] theorem State.zeroRange_gptpSync (a n : Nat) : (s.zeroRange a n).gptpSync = s.gptpSync := rfl
@[simp] theorem State.zeroRange_ticked (a n : Nat) : (s.zeroRange a n).ticked = s.ticked := rfl
@[simp] theorem State.zeroRange_tickPredicted (a n : Nat) : (s.zeroRange a n).tickPredicted = s.tickPredicted := rfl
@[simp] theorem State.zeroRange_tickPrev (a n : Nat) : (s.zeroRange a n).tickPrev = s.tickPrev := rfl
@[simp] theorem State.zeroRange_lockGood (a n : Nat) : (s.zeroRange a n).lockGood = s.lockGood := rfl
@[simp] theorem State.zeroRange_frame (a n : Nat) : (s.zeroRange a n).frame = s.frame := rfl
@[simp] theorem State.zeroRange_disagreements (a n : Nat) : (s.zeroRange a n).disagreements = s.disagreements := rfl
@[simp] theorem State.zeroRange_logOpen (a n : Nat) : (s.zeroRange a n).logOpen = s.logOpen := rfl
@[simp] theorem State.zeroRange_safeOk (a n : Nat) : (s.zeroRange a n).safeOk = s.safeOk := rfl
@[simp] theorem State.zeroRange_faultN (a n : Nat) : (s.zeroRange a n).faultN = s.faultN := rfl
@[simp] theorem State.zeroRange_poresetN (a n : Nat) : (s.zeroRange a n).poresetN = s.poresetN := rfl
@[simp] theorem State.zeroRange_pwrEn (a n : Nat) : (s.zeroRange a n).pwrEn = s.pwrEn := rfl
@[simp] theorem State.zeroRange_pwrGood (a n : Nat) : (s.zeroRange a n).pwrGood = s.pwrGood := rfl
@[simp] theorem State.zeroRange_thermalHold (a n : Nat) : (s.zeroRange a n).thermalHold = s.thermalHold := rfl
@[simp] theorem State.zeroRange_laterCauses (a n : Nat) : (s.zeroRange a n).laterCauses = s.laterCauses := rfl
@[simp] theorem State.zeroRange_parts (a n : Nat) : (s.zeroRange a n).parts = s.parts := rfl
@[simp] theorem State.zeroRange_devReset (a n : Nat) : (s.zeroRange a n).devReset = s.devReset := rfl
@[simp] theorem State.zeroRange_devCause (a n : Nat) : (s.zeroRange a n).devCause = s.devCause := rfl
@[simp] theorem State.zeroRange_devLater (a n : Nat) : (s.zeroRange a n).devLater = s.devLater := rfl
@[simp] theorem State.zeroRange_aonLog (a n : Nat) : (s.zeroRange a n).aonLog = s.aonLog := rfl
@[simp] theorem State.zeroRange_aonCodes (a n : Nat) : (s.zeroRange a n).aonCodes = s.aonCodes := rfl
@[simp] theorem State.zeroRange_aonDict (a n : Nat) : (s.zeroRange a n).aonDict = s.aonDict := rfl
@[simp] theorem State.zeroRange_resetCause (a n : Nat) : (s.zeroRange a n).resetCause = s.resetCause := rfl
@[simp] theorem State.zeroRange_activity (a n : Nat) : (s.zeroRange a n).activity = s.activity := rfl
@[simp] theorem State.zeroRange_lpFrom (a n : Nat) : (s.zeroRange a n).lpFrom = s.lpFrom := rfl
@[simp] theorem State.zeroRange_wake (a n : Nat) : (s.zeroRange a n).wake = s.wake := rfl
@[simp] theorem State.zeroRange_wakeMask (a n : Nat) : (s.zeroRange a n).wakeMask = s.wakeMask := rfl
@[simp] theorem State.zeroRange_wakeTimer (a n : Nat) : (s.zeroRange a n).wakeTimer = s.wakeTimer := rfl
@[simp] theorem State.zeroRange_lpExitBegun (a n : Nat) : (s.zeroRange a n).lpExitBegun = s.lpExitBegun := rfl
@[simp] theorem State.zeroRange_lpRails (a n : Nat) : (s.zeroRange a n).lpRails = s.lpRails := rfl
@[simp] theorem State.zeroRange_graceDue (a n : Nat) : (s.zeroRange a n).graceDue = s.graceDue := rfl
@[simp] theorem State.zeroRange_lpStuck (a n : Nat) : (s.zeroRange a n).lpStuck = s.lpStuck := rfl
@[simp] theorem State.zeroRange_testCap (a n : Nat) : (s.zeroRange a n).testCap = s.testCap := rfl
@[simp] theorem State.zeroRange_rateAt (a n : Nat) : (s.zeroRange a n).rateAt = s.rateAt := rfl
@[simp] theorem State.zeroRange_rateMark (a n : Nat) : (s.zeroRange a n).rateMark = s.rateMark := rfl
@[simp] theorem State.zeroRange_slowHeld (a n : Nat) : (s.zeroRange a n).slowHeld = s.slowHeld := rfl
@[simp] theorem State.zeroRange_fuses (a n : Nat) : (s.zeroRange a n).fuses = s.fuses := rfl
@[simp] theorem State.zeroRange_fitted (a n : Nat) : (s.zeroRange a n).fitted = s.fitted := rfl
@[simp] theorem State.zeroRange_safeState (a n : Nat) : (s.zeroRange a n).safeState = s.safeState := rfl
@[simp] theorem State.zeroRange_romWait (a n : Nat) : (s.zeroRange a n).romWait = s.romWait := rfl
@[simp] theorem State.zeroRange_bootDue (a n : Nat) : (s.zeroRange a n).bootDue = s.bootDue := rfl
@[simp] theorem State.zeroRange_owedReset (a n : Nat) : (s.zeroRange a n).owedReset = s.owedReset := rfl
@[simp] theorem State.zeroRange_romSource (a n : Nat) : (s.zeroRange a n).romSource = s.romSource := rfl
@[simp] theorem State.zeroRange_bootDigest (a n : Nat) : (s.zeroRange a n).bootDigest = s.bootDigest := rfl
@[simp] theorem State.zeroRange_imageLevel (a n : Nat) : (s.zeroRange a n).imageLevel = s.imageLevel := rfl
@[simp] theorem State.zeroRange_imageRevoke (a n : Nat) : (s.zeroRange a n).imageRevoke = s.imageRevoke := rfl
@[simp] theorem State.zeroRange_fuseBlowDue (a n : Nat) : (s.zeroRange a n).fuseBlowDue = s.fuseBlowDue := rfl
@[simp] theorem State.zeroRange_trustKey (a n : Nat) : (s.zeroRange a n).trustKey = s.trustKey := rfl
@[simp] theorem State.zeroRange_quotes (a n : Nat) : (s.zeroRange a n).quotes = s.quotes := rfl
@[simp] theorem State.zeroRange_scrubPos (a n : Nat) : (s.zeroRange a n).scrubPos = s.scrubPos := rfl
@[simp] theorem State.zeroRange_tempHeld (a n : Nat) : (s.zeroRange a n).tempHeld = s.tempHeld := rfl
@[simp] theorem State.zeroRange_tempBelow (a n : Nat) : (s.zeroRange a n).tempBelow = s.tempBelow := rfl
@[simp] theorem State.zeroRange_vset (a n : Nat) : (s.zeroRange a n).vset = s.vset := rfl

/-! ### setPair -/

@[simp] theorem State.setPair_pending (c q : Nat) (p : Pair) : (s.setPair c q p).pending = s.pending := rfl
@[simp] theorem State.setPair_timeNs (c q : Nat) (p : Pair) : (s.setPair c q p).timeNs = s.timeNs := rfl
@[simp] theorem State.setPair_sent (c q : Nat) (p : Pair) : (s.setPair c q p).sent = s.sent := rfl
@[simp] theorem State.setPair_dict (c q : Nat) (p : Pair) : (s.setPair c q p).dict = s.dict := rfl
@[simp] theorem State.setPair_mem (c q : Nat) (p : Pair) : (s.setPair c q p).mem = s.mem := rfl
@[simp] theorem State.setPair_poison (c q : Nat) (p : Pair) : (s.setPair c q p).poison = s.poison := rfl
@[simp] theorem State.setPair_ecc (c q : Nat) (p : Pair) : (s.setPair c q p).ecc = s.ecc := rfl
@[simp] theorem State.setPair_hostMem (c q : Nat) (p : Pair) : (s.setPair c q p).hostMem = s.hostMem := rfl
@[simp] theorem State.setPair_ringsOn (c q : Nat) (p : Pair) : (s.setPair c q p).ringsOn = s.ringsOn := rfl
@[simp] theorem State.setPair_lpRings (c q : Nat) (p : Pair) : (s.setPair c q p).lpRings = s.lpRings := rfl
@[simp] theorem State.setPair_freeIx (c q : Nat) (p : Pair) : (s.setPair c q p).freeIx = s.freeIx := rfl
@[simp] theorem State.setPair_slots (c q : Nat) (p : Pair) : (s.setPair c q p).slots = s.slots := rfl
@[simp] theorem State.setPair_splits (c q : Nat) (p : Pair) : (s.setPair c q p).splits = s.splits := rfl
@[simp] theorem State.setPair_groups (c q : Nat) (p : Pair) : (s.setPair c q p).groups = s.groups := rfl
@[simp] theorem State.setPair_accs (c q : Nat) (p : Pair) : (s.setPair c q p).accs = s.accs := rfl
@[simp] theorem State.setPair_flags (c q : Nat) (p : Pair) : (s.setPair c q p).flags = s.flags := rfl
@[simp] theorem State.setPair_overruns (c q : Nat) (p : Pair) : (s.setPair c q p).overruns = s.overruns := rfl
@[simp] theorem State.setPair_windows (c q : Nat) (p : Pair) : (s.setPair c q p).windows = s.windows := rfl
@[simp] theorem State.setPair_lastClose (c q : Nat) (p : Pair) : (s.setPair c q p).lastClose = s.lastClose := rfl
@[simp] theorem State.setPair_closing (c q : Nat) (p : Pair) : (s.setPair c q p).closing = s.closing := rfl
@[simp] theorem State.setPair_rounds (c q : Nat) (p : Pair) : (s.setPair c q p).rounds = s.rounds := rfl
@[simp] theorem State.setPair_fabric (c q : Nat) (p : Pair) : (s.setPair c q p).fabric = s.fabric := rfl
@[simp] theorem State.setPair_sputBad (c q : Nat) (p : Pair) : (s.setPair c q p).sputBad = s.sputBad := rfl
@[simp] theorem State.setPair_late (c q : Nat) (p : Pair) : (s.setPair c q p).late = s.late := rfl
@[simp] theorem State.setPair_timeouts (c q : Nat) (p : Pair) : (s.setPair c q p).timeouts = s.timeouts := rfl
@[simp] theorem State.setPair_ctxs (c q : Nat) (p : Pair) : (s.setPair c q p).ctxs = s.ctxs := rfl
@[simp] theorem State.setPair_waiting (c q : Nat) (p : Pair) : (s.setPair c q p).waiting = s.waiting := rfl
@[simp] theorem State.setPair_clearing (c q : Nat) (p : Pair) : (s.setPair c q p).clearing = s.clearing := rfl
@[simp] theorem State.setPair_fullNow (c q : Nat) (p : Pair) : (s.setPair c q p).fullNow = s.fullNow := rfl
@[simp] theorem State.setPair_adapt (c q : Nat) (p : Pair) : (s.setPair c q p).adapt = s.adapt := rfl
@[simp] theorem State.setPair_promotions (c q : Nat) (p : Pair) : (s.setPair c q p).promotions = s.promotions := rfl
@[simp] theorem State.setPair_barred (c q : Nat) (p : Pair) : (s.setPair c q p).barred = s.barred := rfl
@[simp] theorem State.setPair_handles (c q : Nat) (p : Pair) : (s.setPair c q p).handles = s.handles := rfl
@[simp] theorem State.setPair_lastSlot (c q : Nat) (p : Pair) : (s.setPair c q p).lastSlot = s.lastSlot := rfl
@[simp] theorem State.setPair_seqs (c q : Nat) (p : Pair) : (s.setPair c q p).seqs = s.seqs := rfl
@[simp] theorem State.setPair_stateWait (c q : Nat) (p : Pair) : (s.setPair c q p).stateWait = s.stateWait := rfl
@[simp] theorem State.setPair_portA (c q : Nat) (p : Pair) : (s.setPair c q p).portA = s.portA := rfl
@[simp] theorem State.setPair_portB (c q : Nat) (p : Pair) : (s.setPair c q p).portB = s.portB := rfl
@[simp] theorem State.setPair_emcy (c q : Nat) (p : Pair) : (s.setPair c q p).emcy = s.emcy := rfl
@[simp] theorem State.setPair_busOffA (c q : Nat) (p : Pair) : (s.setPair c q p).busOffA = s.busOffA := rfl
@[simp] theorem State.setPair_busOffB (c q : Nat) (p : Pair) : (s.setPair c q p).busOffB = s.busOffB := rfl
@[simp] theorem State.setPair_busOffRecent (c q : Nat) (p : Pair) : (s.setPair c q p).busOffRecent = s.busOffRecent := rfl
@[simp] theorem State.setPair_canParams (c q : Nat) (p : Pair) : (s.setPair c q p).canParams = s.canParams := rfl
@[simp] theorem State.setPair_eps (c q : Nat) (p : Pair) : (s.setPair c q p).eps = s.eps := rfl
@[simp] theorem State.setPair_life (c q : Nat) (p : Pair) : (s.setPair c q p).life = s.life := rfl
@[simp] theorem State.setPair_unbound (c q : Nat) (p : Pair) : (s.setPair c q p).unbound = s.unbound := rfl
@[simp] theorem State.setPair_announced (c q : Nat) (p : Pair) : (s.setPair c q p).announced = s.announced := rfl
@[simp] theorem State.setPair_discards (c q : Nat) (p : Pair) : (s.setPair c q p).discards = s.discards := rfl
@[simp] theorem State.setPair_eccFixed (c q : Nat) (p : Pair) : (s.setPair c q p).eccFixed = s.eccFixed := rfl
@[simp] theorem State.setPair_skipped (c q : Nat) (p : Pair) : (s.setPair c q p).skipped = s.skipped := rfl
@[simp] theorem State.setPair_dgramDrops (c q : Nat) (p : Pair) : (s.setPair c q p).dgramDrops = s.dgramDrops := rfl
@[simp] theorem State.setPair_tables (c q : Nat) (p : Pair) : (s.setPair c q p).tables = s.tables := rfl
@[simp] theorem State.setPair_meshBase (c q : Nat) (p : Pair) : (s.setPair c q p).meshBase = s.meshBase := rfl
@[simp] theorem State.setPair_raw (c q : Nat) (p : Pair) : (s.setPair c q p).raw = s.raw := rfl
@[simp] theorem State.setPair_views (c q : Nat) (p : Pair) : (s.setPair c q p).views = s.views := rfl
@[simp] theorem State.setPair_sweeps (c q : Nat) (p : Pair) : (s.setPair c q p).sweeps = s.sweeps := rfl
@[simp] theorem State.setPair_sweepsPrev (c q : Nat) (p : Pair) : (s.setPair c q p).sweepsPrev = s.sweepsPrev := rfl
@[simp] theorem State.setPair_meshQueue (c q : Nat) (p : Pair) : (s.setPair c q p).meshQueue = s.meshQueue := rfl
@[simp] theorem State.setPair_fetched (c q : Nat) (p : Pair) : (s.setPair c q p).fetched = s.fetched := rfl
@[simp] theorem State.setPair_calib (c q : Nat) (p : Pair) : (s.setPair c q p).calib = s.calib := rfl
@[simp] theorem State.setPair_lensMesh (c q : Nat) (p : Pair) : (s.setPair c q p).lensMesh = s.lensMesh := rfl
@[simp] theorem State.setPair_motion (c q : Nat) (p : Pair) : (s.setPair c q p).motion = s.motion := rfl
@[simp] theorem State.setPair_egoLate (c q : Nat) (p : Pair) : (s.setPair c q p).egoLate = s.egoLate := rfl
@[simp] theorem State.setPair_triggers (c q : Nat) (p : Pair) : (s.setPair c q p).triggers = s.triggers := rfl
@[simp] theorem State.setPair_gptpSync (c q : Nat) (p : Pair) : (s.setPair c q p).gptpSync = s.gptpSync := rfl
@[simp] theorem State.setPair_ticked (c q : Nat) (p : Pair) : (s.setPair c q p).ticked = s.ticked := rfl
@[simp] theorem State.setPair_tickPredicted (c q : Nat) (p : Pair) : (s.setPair c q p).tickPredicted = s.tickPredicted := rfl
@[simp] theorem State.setPair_tickPrev (c q : Nat) (p : Pair) : (s.setPair c q p).tickPrev = s.tickPrev := rfl
@[simp] theorem State.setPair_lockGood (c q : Nat) (p : Pair) : (s.setPair c q p).lockGood = s.lockGood := rfl
@[simp] theorem State.setPair_frame (c q : Nat) (p : Pair) : (s.setPair c q p).frame = s.frame := rfl
@[simp] theorem State.setPair_disagreements (c q : Nat) (p : Pair) : (s.setPair c q p).disagreements = s.disagreements := rfl
@[simp] theorem State.setPair_logOpen (c q : Nat) (p : Pair) : (s.setPair c q p).logOpen = s.logOpen := rfl
@[simp] theorem State.setPair_safeOk (c q : Nat) (p : Pair) : (s.setPair c q p).safeOk = s.safeOk := rfl
@[simp] theorem State.setPair_faultN (c q : Nat) (p : Pair) : (s.setPair c q p).faultN = s.faultN := rfl
@[simp] theorem State.setPair_poresetN (c q : Nat) (p : Pair) : (s.setPair c q p).poresetN = s.poresetN := rfl
@[simp] theorem State.setPair_pwrEn (c q : Nat) (p : Pair) : (s.setPair c q p).pwrEn = s.pwrEn := rfl
@[simp] theorem State.setPair_pwrGood (c q : Nat) (p : Pair) : (s.setPair c q p).pwrGood = s.pwrGood := rfl
@[simp] theorem State.setPair_thermalHold (c q : Nat) (p : Pair) : (s.setPair c q p).thermalHold = s.thermalHold := rfl
@[simp] theorem State.setPair_laterCauses (c q : Nat) (p : Pair) : (s.setPair c q p).laterCauses = s.laterCauses := rfl
@[simp] theorem State.setPair_parts (c q : Nat) (p : Pair) : (s.setPair c q p).parts = s.parts := rfl
@[simp] theorem State.setPair_devReset (c q : Nat) (p : Pair) : (s.setPair c q p).devReset = s.devReset := rfl
@[simp] theorem State.setPair_devCause (c q : Nat) (p : Pair) : (s.setPair c q p).devCause = s.devCause := rfl
@[simp] theorem State.setPair_devLater (c q : Nat) (p : Pair) : (s.setPair c q p).devLater = s.devLater := rfl
@[simp] theorem State.setPair_aonLog (c q : Nat) (p : Pair) : (s.setPair c q p).aonLog = s.aonLog := rfl
@[simp] theorem State.setPair_aonCodes (c q : Nat) (p : Pair) : (s.setPair c q p).aonCodes = s.aonCodes := rfl
@[simp] theorem State.setPair_aonDict (c q : Nat) (p : Pair) : (s.setPair c q p).aonDict = s.aonDict := rfl
@[simp] theorem State.setPair_resetCause (c q : Nat) (p : Pair) : (s.setPair c q p).resetCause = s.resetCause := rfl
@[simp] theorem State.setPair_activity (c q : Nat) (p : Pair) : (s.setPair c q p).activity = s.activity := rfl
@[simp] theorem State.setPair_lpFrom (c q : Nat) (p : Pair) : (s.setPair c q p).lpFrom = s.lpFrom := rfl
@[simp] theorem State.setPair_wake (c q : Nat) (p : Pair) : (s.setPair c q p).wake = s.wake := rfl
@[simp] theorem State.setPair_wakeMask (c q : Nat) (p : Pair) : (s.setPair c q p).wakeMask = s.wakeMask := rfl
@[simp] theorem State.setPair_wakeTimer (c q : Nat) (p : Pair) : (s.setPair c q p).wakeTimer = s.wakeTimer := rfl
@[simp] theorem State.setPair_lpExitBegun (c q : Nat) (p : Pair) : (s.setPair c q p).lpExitBegun = s.lpExitBegun := rfl
@[simp] theorem State.setPair_lpRails (c q : Nat) (p : Pair) : (s.setPair c q p).lpRails = s.lpRails := rfl
@[simp] theorem State.setPair_graceDue (c q : Nat) (p : Pair) : (s.setPair c q p).graceDue = s.graceDue := rfl
@[simp] theorem State.setPair_lpStuck (c q : Nat) (p : Pair) : (s.setPair c q p).lpStuck = s.lpStuck := rfl
@[simp] theorem State.setPair_testCap (c q : Nat) (p : Pair) : (s.setPair c q p).testCap = s.testCap := rfl
@[simp] theorem State.setPair_rateAt (c q : Nat) (p : Pair) : (s.setPair c q p).rateAt = s.rateAt := rfl
@[simp] theorem State.setPair_rateMark (c q : Nat) (p : Pair) : (s.setPair c q p).rateMark = s.rateMark := rfl
@[simp] theorem State.setPair_slowHeld (c q : Nat) (p : Pair) : (s.setPair c q p).slowHeld = s.slowHeld := rfl
@[simp] theorem State.setPair_fuses (c q : Nat) (p : Pair) : (s.setPair c q p).fuses = s.fuses := rfl
@[simp] theorem State.setPair_fitted (c q : Nat) (p : Pair) : (s.setPair c q p).fitted = s.fitted := rfl
@[simp] theorem State.setPair_safeState (c q : Nat) (p : Pair) : (s.setPair c q p).safeState = s.safeState := rfl
@[simp] theorem State.setPair_romWait (c q : Nat) (p : Pair) : (s.setPair c q p).romWait = s.romWait := rfl
@[simp] theorem State.setPair_bootDue (c q : Nat) (p : Pair) : (s.setPair c q p).bootDue = s.bootDue := rfl
@[simp] theorem State.setPair_owedReset (c q : Nat) (p : Pair) : (s.setPair c q p).owedReset = s.owedReset := rfl
@[simp] theorem State.setPair_romSource (c q : Nat) (p : Pair) : (s.setPair c q p).romSource = s.romSource := rfl
@[simp] theorem State.setPair_bootDigest (c q : Nat) (p : Pair) : (s.setPair c q p).bootDigest = s.bootDigest := rfl
@[simp] theorem State.setPair_imageLevel (c q : Nat) (p : Pair) : (s.setPair c q p).imageLevel = s.imageLevel := rfl
@[simp] theorem State.setPair_imageRevoke (c q : Nat) (p : Pair) : (s.setPair c q p).imageRevoke = s.imageRevoke := rfl
@[simp] theorem State.setPair_fuseBlowDue (c q : Nat) (p : Pair) : (s.setPair c q p).fuseBlowDue = s.fuseBlowDue := rfl
@[simp] theorem State.setPair_trustKey (c q : Nat) (p : Pair) : (s.setPair c q p).trustKey = s.trustKey := rfl
@[simp] theorem State.setPair_quotes (c q : Nat) (p : Pair) : (s.setPair c q p).quotes = s.quotes := rfl
@[simp] theorem State.setPair_scrubPos (c q : Nat) (p : Pair) : (s.setPair c q p).scrubPos = s.scrubPos := rfl
@[simp] theorem State.setPair_tempHeld (c q : Nat) (p : Pair) : (s.setPair c q p).tempHeld = s.tempHeld := rfl
@[simp] theorem State.setPair_tempBelow (c q : Nat) (p : Pair) : (s.setPair c q p).tempBelow = s.tempBelow := rfl
@[simp] theorem State.setPair_vset (c q : Nat) (p : Pair) : (s.setPair c q p).vset = s.vset := rfl

/-! ### setSlot -/

@[simp] theorem State.setSlot_pending (c q i : Nat) (v : ScaleSlot) : (s.setSlot c q i v).pending = s.pending := rfl
@[simp] theorem State.setSlot_timeNs (c q i : Nat) (v : ScaleSlot) : (s.setSlot c q i v).timeNs = s.timeNs := rfl
@[simp] theorem State.setSlot_sent (c q i : Nat) (v : ScaleSlot) : (s.setSlot c q i v).sent = s.sent := rfl
@[simp] theorem State.setSlot_dict (c q i : Nat) (v : ScaleSlot) : (s.setSlot c q i v).dict = s.dict := rfl
@[simp] theorem State.setSlot_mem (c q i : Nat) (v : ScaleSlot) : (s.setSlot c q i v).mem = s.mem := rfl
@[simp] theorem State.setSlot_poison (c q i : Nat) (v : ScaleSlot) : (s.setSlot c q i v).poison = s.poison := rfl
@[simp] theorem State.setSlot_ecc (c q i : Nat) (v : ScaleSlot) : (s.setSlot c q i v).ecc = s.ecc := rfl
@[simp] theorem State.setSlot_hostMem (c q i : Nat) (v : ScaleSlot) : (s.setSlot c q i v).hostMem = s.hostMem := rfl
@[simp] theorem State.setSlot_ringsOn (c q i : Nat) (v : ScaleSlot) : (s.setSlot c q i v).ringsOn = s.ringsOn := rfl
@[simp] theorem State.setSlot_lpRings (c q i : Nat) (v : ScaleSlot) : (s.setSlot c q i v).lpRings = s.lpRings := rfl
@[simp] theorem State.setSlot_freeIx (c q i : Nat) (v : ScaleSlot) : (s.setSlot c q i v).freeIx = s.freeIx := rfl
@[simp] theorem State.setSlot_pairs (c q i : Nat) (v : ScaleSlot) : (s.setSlot c q i v).pairs = s.pairs := rfl
@[simp] theorem State.setSlot_splits (c q i : Nat) (v : ScaleSlot) : (s.setSlot c q i v).splits = s.splits := rfl
@[simp] theorem State.setSlot_groups (c q i : Nat) (v : ScaleSlot) : (s.setSlot c q i v).groups = s.groups := rfl
@[simp] theorem State.setSlot_accs (c q i : Nat) (v : ScaleSlot) : (s.setSlot c q i v).accs = s.accs := rfl
@[simp] theorem State.setSlot_flags (c q i : Nat) (v : ScaleSlot) : (s.setSlot c q i v).flags = s.flags := rfl
@[simp] theorem State.setSlot_overruns (c q i : Nat) (v : ScaleSlot) : (s.setSlot c q i v).overruns = s.overruns := rfl
@[simp] theorem State.setSlot_windows (c q i : Nat) (v : ScaleSlot) : (s.setSlot c q i v).windows = s.windows := rfl
@[simp] theorem State.setSlot_lastClose (c q i : Nat) (v : ScaleSlot) : (s.setSlot c q i v).lastClose = s.lastClose := rfl
@[simp] theorem State.setSlot_closing (c q i : Nat) (v : ScaleSlot) : (s.setSlot c q i v).closing = s.closing := rfl
@[simp] theorem State.setSlot_rounds (c q i : Nat) (v : ScaleSlot) : (s.setSlot c q i v).rounds = s.rounds := rfl
@[simp] theorem State.setSlot_fabric (c q i : Nat) (v : ScaleSlot) : (s.setSlot c q i v).fabric = s.fabric := rfl
@[simp] theorem State.setSlot_sputBad (c q i : Nat) (v : ScaleSlot) : (s.setSlot c q i v).sputBad = s.sputBad := rfl
@[simp] theorem State.setSlot_late (c q i : Nat) (v : ScaleSlot) : (s.setSlot c q i v).late = s.late := rfl
@[simp] theorem State.setSlot_timeouts (c q i : Nat) (v : ScaleSlot) : (s.setSlot c q i v).timeouts = s.timeouts := rfl
@[simp] theorem State.setSlot_ctxs (c q i : Nat) (v : ScaleSlot) : (s.setSlot c q i v).ctxs = s.ctxs := rfl
@[simp] theorem State.setSlot_waiting (c q i : Nat) (v : ScaleSlot) : (s.setSlot c q i v).waiting = s.waiting := rfl
@[simp] theorem State.setSlot_clearing (c q i : Nat) (v : ScaleSlot) : (s.setSlot c q i v).clearing = s.clearing := rfl
@[simp] theorem State.setSlot_fullNow (c q i : Nat) (v : ScaleSlot) : (s.setSlot c q i v).fullNow = s.fullNow := rfl
@[simp] theorem State.setSlot_adapt (c q i : Nat) (v : ScaleSlot) : (s.setSlot c q i v).adapt = s.adapt := rfl
@[simp] theorem State.setSlot_promotions (c q i : Nat) (v : ScaleSlot) : (s.setSlot c q i v).promotions = s.promotions := rfl
@[simp] theorem State.setSlot_barred (c q i : Nat) (v : ScaleSlot) : (s.setSlot c q i v).barred = s.barred := rfl
@[simp] theorem State.setSlot_handles (c q i : Nat) (v : ScaleSlot) : (s.setSlot c q i v).handles = s.handles := rfl
@[simp] theorem State.setSlot_lastSlot (c q i : Nat) (v : ScaleSlot) : (s.setSlot c q i v).lastSlot = s.lastSlot := rfl
@[simp] theorem State.setSlot_seqs (c q i : Nat) (v : ScaleSlot) : (s.setSlot c q i v).seqs = s.seqs := rfl
@[simp] theorem State.setSlot_stateWait (c q i : Nat) (v : ScaleSlot) : (s.setSlot c q i v).stateWait = s.stateWait := rfl
@[simp] theorem State.setSlot_portA (c q i : Nat) (v : ScaleSlot) : (s.setSlot c q i v).portA = s.portA := rfl
@[simp] theorem State.setSlot_portB (c q i : Nat) (v : ScaleSlot) : (s.setSlot c q i v).portB = s.portB := rfl
@[simp] theorem State.setSlot_emcy (c q i : Nat) (v : ScaleSlot) : (s.setSlot c q i v).emcy = s.emcy := rfl
@[simp] theorem State.setSlot_busOffA (c q i : Nat) (v : ScaleSlot) : (s.setSlot c q i v).busOffA = s.busOffA := rfl
@[simp] theorem State.setSlot_busOffB (c q i : Nat) (v : ScaleSlot) : (s.setSlot c q i v).busOffB = s.busOffB := rfl
@[simp] theorem State.setSlot_busOffRecent (c q i : Nat) (v : ScaleSlot) : (s.setSlot c q i v).busOffRecent = s.busOffRecent := rfl
@[simp] theorem State.setSlot_canParams (c q i : Nat) (v : ScaleSlot) : (s.setSlot c q i v).canParams = s.canParams := rfl
@[simp] theorem State.setSlot_eps (c q i : Nat) (v : ScaleSlot) : (s.setSlot c q i v).eps = s.eps := rfl
@[simp] theorem State.setSlot_life (c q i : Nat) (v : ScaleSlot) : (s.setSlot c q i v).life = s.life := rfl
@[simp] theorem State.setSlot_unbound (c q i : Nat) (v : ScaleSlot) : (s.setSlot c q i v).unbound = s.unbound := rfl
@[simp] theorem State.setSlot_announced (c q i : Nat) (v : ScaleSlot) : (s.setSlot c q i v).announced = s.announced := rfl
@[simp] theorem State.setSlot_discards (c q i : Nat) (v : ScaleSlot) : (s.setSlot c q i v).discards = s.discards := rfl
@[simp] theorem State.setSlot_eccFixed (c q i : Nat) (v : ScaleSlot) : (s.setSlot c q i v).eccFixed = s.eccFixed := rfl
@[simp] theorem State.setSlot_skipped (c q i : Nat) (v : ScaleSlot) : (s.setSlot c q i v).skipped = s.skipped := rfl
@[simp] theorem State.setSlot_dgramDrops (c q i : Nat) (v : ScaleSlot) : (s.setSlot c q i v).dgramDrops = s.dgramDrops := rfl
@[simp] theorem State.setSlot_tables (c q i : Nat) (v : ScaleSlot) : (s.setSlot c q i v).tables = s.tables := rfl
@[simp] theorem State.setSlot_meshBase (c q i : Nat) (v : ScaleSlot) : (s.setSlot c q i v).meshBase = s.meshBase := rfl
@[simp] theorem State.setSlot_raw (c q i : Nat) (v : ScaleSlot) : (s.setSlot c q i v).raw = s.raw := rfl
@[simp] theorem State.setSlot_views (c q i : Nat) (v : ScaleSlot) : (s.setSlot c q i v).views = s.views := rfl
@[simp] theorem State.setSlot_sweeps (c q i : Nat) (v : ScaleSlot) : (s.setSlot c q i v).sweeps = s.sweeps := rfl
@[simp] theorem State.setSlot_sweepsPrev (c q i : Nat) (v : ScaleSlot) : (s.setSlot c q i v).sweepsPrev = s.sweepsPrev := rfl
@[simp] theorem State.setSlot_meshQueue (c q i : Nat) (v : ScaleSlot) : (s.setSlot c q i v).meshQueue = s.meshQueue := rfl
@[simp] theorem State.setSlot_fetched (c q i : Nat) (v : ScaleSlot) : (s.setSlot c q i v).fetched = s.fetched := rfl
@[simp] theorem State.setSlot_calib (c q i : Nat) (v : ScaleSlot) : (s.setSlot c q i v).calib = s.calib := rfl
@[simp] theorem State.setSlot_lensMesh (c q i : Nat) (v : ScaleSlot) : (s.setSlot c q i v).lensMesh = s.lensMesh := rfl
@[simp] theorem State.setSlot_motion (c q i : Nat) (v : ScaleSlot) : (s.setSlot c q i v).motion = s.motion := rfl
@[simp] theorem State.setSlot_egoLate (c q i : Nat) (v : ScaleSlot) : (s.setSlot c q i v).egoLate = s.egoLate := rfl
@[simp] theorem State.setSlot_triggers (c q i : Nat) (v : ScaleSlot) : (s.setSlot c q i v).triggers = s.triggers := rfl
@[simp] theorem State.setSlot_gptpSync (c q i : Nat) (v : ScaleSlot) : (s.setSlot c q i v).gptpSync = s.gptpSync := rfl
@[simp] theorem State.setSlot_ticked (c q i : Nat) (v : ScaleSlot) : (s.setSlot c q i v).ticked = s.ticked := rfl
@[simp] theorem State.setSlot_tickPredicted (c q i : Nat) (v : ScaleSlot) : (s.setSlot c q i v).tickPredicted = s.tickPredicted := rfl
@[simp] theorem State.setSlot_tickPrev (c q i : Nat) (v : ScaleSlot) : (s.setSlot c q i v).tickPrev = s.tickPrev := rfl
@[simp] theorem State.setSlot_lockGood (c q i : Nat) (v : ScaleSlot) : (s.setSlot c q i v).lockGood = s.lockGood := rfl
@[simp] theorem State.setSlot_frame (c q i : Nat) (v : ScaleSlot) : (s.setSlot c q i v).frame = s.frame := rfl
@[simp] theorem State.setSlot_disagreements (c q i : Nat) (v : ScaleSlot) : (s.setSlot c q i v).disagreements = s.disagreements := rfl
@[simp] theorem State.setSlot_logOpen (c q i : Nat) (v : ScaleSlot) : (s.setSlot c q i v).logOpen = s.logOpen := rfl
@[simp] theorem State.setSlot_safeOk (c q i : Nat) (v : ScaleSlot) : (s.setSlot c q i v).safeOk = s.safeOk := rfl
@[simp] theorem State.setSlot_faultN (c q i : Nat) (v : ScaleSlot) : (s.setSlot c q i v).faultN = s.faultN := rfl
@[simp] theorem State.setSlot_poresetN (c q i : Nat) (v : ScaleSlot) : (s.setSlot c q i v).poresetN = s.poresetN := rfl
@[simp] theorem State.setSlot_pwrEn (c q i : Nat) (v : ScaleSlot) : (s.setSlot c q i v).pwrEn = s.pwrEn := rfl
@[simp] theorem State.setSlot_pwrGood (c q i : Nat) (v : ScaleSlot) : (s.setSlot c q i v).pwrGood = s.pwrGood := rfl
@[simp] theorem State.setSlot_thermalHold (c q i : Nat) (v : ScaleSlot) : (s.setSlot c q i v).thermalHold = s.thermalHold := rfl
@[simp] theorem State.setSlot_laterCauses (c q i : Nat) (v : ScaleSlot) : (s.setSlot c q i v).laterCauses = s.laterCauses := rfl
@[simp] theorem State.setSlot_parts (c q i : Nat) (v : ScaleSlot) : (s.setSlot c q i v).parts = s.parts := rfl
@[simp] theorem State.setSlot_devReset (c q i : Nat) (v : ScaleSlot) : (s.setSlot c q i v).devReset = s.devReset := rfl
@[simp] theorem State.setSlot_devCause (c q i : Nat) (v : ScaleSlot) : (s.setSlot c q i v).devCause = s.devCause := rfl
@[simp] theorem State.setSlot_devLater (c q i : Nat) (v : ScaleSlot) : (s.setSlot c q i v).devLater = s.devLater := rfl
@[simp] theorem State.setSlot_aonLog (c q i : Nat) (v : ScaleSlot) : (s.setSlot c q i v).aonLog = s.aonLog := rfl
@[simp] theorem State.setSlot_aonCodes (c q i : Nat) (v : ScaleSlot) : (s.setSlot c q i v).aonCodes = s.aonCodes := rfl
@[simp] theorem State.setSlot_aonDict (c q i : Nat) (v : ScaleSlot) : (s.setSlot c q i v).aonDict = s.aonDict := rfl
@[simp] theorem State.setSlot_resetCause (c q i : Nat) (v : ScaleSlot) : (s.setSlot c q i v).resetCause = s.resetCause := rfl
@[simp] theorem State.setSlot_activity (c q i : Nat) (v : ScaleSlot) : (s.setSlot c q i v).activity = s.activity := rfl
@[simp] theorem State.setSlot_lpFrom (c q i : Nat) (v : ScaleSlot) : (s.setSlot c q i v).lpFrom = s.lpFrom := rfl
@[simp] theorem State.setSlot_wake (c q i : Nat) (v : ScaleSlot) : (s.setSlot c q i v).wake = s.wake := rfl
@[simp] theorem State.setSlot_wakeMask (c q i : Nat) (v : ScaleSlot) : (s.setSlot c q i v).wakeMask = s.wakeMask := rfl
@[simp] theorem State.setSlot_wakeTimer (c q i : Nat) (v : ScaleSlot) : (s.setSlot c q i v).wakeTimer = s.wakeTimer := rfl
@[simp] theorem State.setSlot_lpExitBegun (c q i : Nat) (v : ScaleSlot) : (s.setSlot c q i v).lpExitBegun = s.lpExitBegun := rfl
@[simp] theorem State.setSlot_lpRails (c q i : Nat) (v : ScaleSlot) : (s.setSlot c q i v).lpRails = s.lpRails := rfl
@[simp] theorem State.setSlot_graceDue (c q i : Nat) (v : ScaleSlot) : (s.setSlot c q i v).graceDue = s.graceDue := rfl
@[simp] theorem State.setSlot_lpStuck (c q i : Nat) (v : ScaleSlot) : (s.setSlot c q i v).lpStuck = s.lpStuck := rfl
@[simp] theorem State.setSlot_testCap (c q i : Nat) (v : ScaleSlot) : (s.setSlot c q i v).testCap = s.testCap := rfl
@[simp] theorem State.setSlot_rateAt (c q i : Nat) (v : ScaleSlot) : (s.setSlot c q i v).rateAt = s.rateAt := rfl
@[simp] theorem State.setSlot_rateMark (c q i : Nat) (v : ScaleSlot) : (s.setSlot c q i v).rateMark = s.rateMark := rfl
@[simp] theorem State.setSlot_slowHeld (c q i : Nat) (v : ScaleSlot) : (s.setSlot c q i v).slowHeld = s.slowHeld := rfl
@[simp] theorem State.setSlot_fuses (c q i : Nat) (v : ScaleSlot) : (s.setSlot c q i v).fuses = s.fuses := rfl
@[simp] theorem State.setSlot_fitted (c q i : Nat) (v : ScaleSlot) : (s.setSlot c q i v).fitted = s.fitted := rfl
@[simp] theorem State.setSlot_safeState (c q i : Nat) (v : ScaleSlot) : (s.setSlot c q i v).safeState = s.safeState := rfl
@[simp] theorem State.setSlot_romWait (c q i : Nat) (v : ScaleSlot) : (s.setSlot c q i v).romWait = s.romWait := rfl
@[simp] theorem State.setSlot_bootDue (c q i : Nat) (v : ScaleSlot) : (s.setSlot c q i v).bootDue = s.bootDue := rfl
@[simp] theorem State.setSlot_owedReset (c q i : Nat) (v : ScaleSlot) : (s.setSlot c q i v).owedReset = s.owedReset := rfl
@[simp] theorem State.setSlot_romSource (c q i : Nat) (v : ScaleSlot) : (s.setSlot c q i v).romSource = s.romSource := rfl
@[simp] theorem State.setSlot_bootDigest (c q i : Nat) (v : ScaleSlot) : (s.setSlot c q i v).bootDigest = s.bootDigest := rfl
@[simp] theorem State.setSlot_imageLevel (c q i : Nat) (v : ScaleSlot) : (s.setSlot c q i v).imageLevel = s.imageLevel := rfl
@[simp] theorem State.setSlot_imageRevoke (c q i : Nat) (v : ScaleSlot) : (s.setSlot c q i v).imageRevoke = s.imageRevoke := rfl
@[simp] theorem State.setSlot_fuseBlowDue (c q i : Nat) (v : ScaleSlot) : (s.setSlot c q i v).fuseBlowDue = s.fuseBlowDue := rfl
@[simp] theorem State.setSlot_trustKey (c q i : Nat) (v : ScaleSlot) : (s.setSlot c q i v).trustKey = s.trustKey := rfl
@[simp] theorem State.setSlot_quotes (c q i : Nat) (v : ScaleSlot) : (s.setSlot c q i v).quotes = s.quotes := rfl
@[simp] theorem State.setSlot_scrubPos (c q i : Nat) (v : ScaleSlot) : (s.setSlot c q i v).scrubPos = s.scrubPos := rfl
@[simp] theorem State.setSlot_tempHeld (c q i : Nat) (v : ScaleSlot) : (s.setSlot c q i v).tempHeld = s.tempHeld := rfl
@[simp] theorem State.setSlot_tempBelow (c q i : Nat) (v : ScaleSlot) : (s.setSlot c q i v).tempBelow = s.tempBelow := rfl
@[simp] theorem State.setSlot_vset (c q i : Nat) (v : ScaleSlot) : (s.setSlot c q i v).vset = s.vset := rfl

/-! ### setSplit -/

@[simp] theorem State.setSplit_pending (c a v : Nat) : (s.setSplit c a v).pending = s.pending := rfl
@[simp] theorem State.setSplit_timeNs (c a v : Nat) : (s.setSplit c a v).timeNs = s.timeNs := rfl
@[simp] theorem State.setSplit_sent (c a v : Nat) : (s.setSplit c a v).sent = s.sent := rfl
@[simp] theorem State.setSplit_dict (c a v : Nat) : (s.setSplit c a v).dict = s.dict := rfl
@[simp] theorem State.setSplit_mem (c a v : Nat) : (s.setSplit c a v).mem = s.mem := rfl
@[simp] theorem State.setSplit_poison (c a v : Nat) : (s.setSplit c a v).poison = s.poison := rfl
@[simp] theorem State.setSplit_ecc (c a v : Nat) : (s.setSplit c a v).ecc = s.ecc := rfl
@[simp] theorem State.setSplit_hostMem (c a v : Nat) : (s.setSplit c a v).hostMem = s.hostMem := rfl
@[simp] theorem State.setSplit_ringsOn (c a v : Nat) : (s.setSplit c a v).ringsOn = s.ringsOn := rfl
@[simp] theorem State.setSplit_lpRings (c a v : Nat) : (s.setSplit c a v).lpRings = s.lpRings := rfl
@[simp] theorem State.setSplit_freeIx (c a v : Nat) : (s.setSplit c a v).freeIx = s.freeIx := rfl
@[simp] theorem State.setSplit_pairs (c a v : Nat) : (s.setSplit c a v).pairs = s.pairs := rfl
@[simp] theorem State.setSplit_slots (c a v : Nat) : (s.setSplit c a v).slots = s.slots := rfl
@[simp] theorem State.setSplit_groups (c a v : Nat) : (s.setSplit c a v).groups = s.groups := rfl
@[simp] theorem State.setSplit_accs (c a v : Nat) : (s.setSplit c a v).accs = s.accs := rfl
@[simp] theorem State.setSplit_flags (c a v : Nat) : (s.setSplit c a v).flags = s.flags := rfl
@[simp] theorem State.setSplit_overruns (c a v : Nat) : (s.setSplit c a v).overruns = s.overruns := rfl
@[simp] theorem State.setSplit_windows (c a v : Nat) : (s.setSplit c a v).windows = s.windows := rfl
@[simp] theorem State.setSplit_lastClose (c a v : Nat) : (s.setSplit c a v).lastClose = s.lastClose := rfl
@[simp] theorem State.setSplit_closing (c a v : Nat) : (s.setSplit c a v).closing = s.closing := rfl
@[simp] theorem State.setSplit_rounds (c a v : Nat) : (s.setSplit c a v).rounds = s.rounds := rfl
@[simp] theorem State.setSplit_fabric (c a v : Nat) : (s.setSplit c a v).fabric = s.fabric := rfl
@[simp] theorem State.setSplit_sputBad (c a v : Nat) : (s.setSplit c a v).sputBad = s.sputBad := rfl
@[simp] theorem State.setSplit_late (c a v : Nat) : (s.setSplit c a v).late = s.late := rfl
@[simp] theorem State.setSplit_timeouts (c a v : Nat) : (s.setSplit c a v).timeouts = s.timeouts := rfl
@[simp] theorem State.setSplit_ctxs (c a v : Nat) : (s.setSplit c a v).ctxs = s.ctxs := rfl
@[simp] theorem State.setSplit_waiting (c a v : Nat) : (s.setSplit c a v).waiting = s.waiting := rfl
@[simp] theorem State.setSplit_clearing (c a v : Nat) : (s.setSplit c a v).clearing = s.clearing := rfl
@[simp] theorem State.setSplit_fullNow (c a v : Nat) : (s.setSplit c a v).fullNow = s.fullNow := rfl
@[simp] theorem State.setSplit_adapt (c a v : Nat) : (s.setSplit c a v).adapt = s.adapt := rfl
@[simp] theorem State.setSplit_promotions (c a v : Nat) : (s.setSplit c a v).promotions = s.promotions := rfl
@[simp] theorem State.setSplit_barred (c a v : Nat) : (s.setSplit c a v).barred = s.barred := rfl
@[simp] theorem State.setSplit_handles (c a v : Nat) : (s.setSplit c a v).handles = s.handles := rfl
@[simp] theorem State.setSplit_lastSlot (c a v : Nat) : (s.setSplit c a v).lastSlot = s.lastSlot := rfl
@[simp] theorem State.setSplit_seqs (c a v : Nat) : (s.setSplit c a v).seqs = s.seqs := rfl
@[simp] theorem State.setSplit_stateWait (c a v : Nat) : (s.setSplit c a v).stateWait = s.stateWait := rfl
@[simp] theorem State.setSplit_portA (c a v : Nat) : (s.setSplit c a v).portA = s.portA := rfl
@[simp] theorem State.setSplit_portB (c a v : Nat) : (s.setSplit c a v).portB = s.portB := rfl
@[simp] theorem State.setSplit_emcy (c a v : Nat) : (s.setSplit c a v).emcy = s.emcy := rfl
@[simp] theorem State.setSplit_busOffA (c a v : Nat) : (s.setSplit c a v).busOffA = s.busOffA := rfl
@[simp] theorem State.setSplit_busOffB (c a v : Nat) : (s.setSplit c a v).busOffB = s.busOffB := rfl
@[simp] theorem State.setSplit_busOffRecent (c a v : Nat) : (s.setSplit c a v).busOffRecent = s.busOffRecent := rfl
@[simp] theorem State.setSplit_canParams (c a v : Nat) : (s.setSplit c a v).canParams = s.canParams := rfl
@[simp] theorem State.setSplit_eps (c a v : Nat) : (s.setSplit c a v).eps = s.eps := rfl
@[simp] theorem State.setSplit_life (c a v : Nat) : (s.setSplit c a v).life = s.life := rfl
@[simp] theorem State.setSplit_unbound (c a v : Nat) : (s.setSplit c a v).unbound = s.unbound := rfl
@[simp] theorem State.setSplit_announced (c a v : Nat) : (s.setSplit c a v).announced = s.announced := rfl
@[simp] theorem State.setSplit_discards (c a v : Nat) : (s.setSplit c a v).discards = s.discards := rfl
@[simp] theorem State.setSplit_eccFixed (c a v : Nat) : (s.setSplit c a v).eccFixed = s.eccFixed := rfl
@[simp] theorem State.setSplit_skipped (c a v : Nat) : (s.setSplit c a v).skipped = s.skipped := rfl
@[simp] theorem State.setSplit_dgramDrops (c a v : Nat) : (s.setSplit c a v).dgramDrops = s.dgramDrops := rfl
@[simp] theorem State.setSplit_tables (c a v : Nat) : (s.setSplit c a v).tables = s.tables := rfl
@[simp] theorem State.setSplit_meshBase (c a v : Nat) : (s.setSplit c a v).meshBase = s.meshBase := rfl
@[simp] theorem State.setSplit_raw (c a v : Nat) : (s.setSplit c a v).raw = s.raw := rfl
@[simp] theorem State.setSplit_views (c a v : Nat) : (s.setSplit c a v).views = s.views := rfl
@[simp] theorem State.setSplit_sweeps (c a v : Nat) : (s.setSplit c a v).sweeps = s.sweeps := rfl
@[simp] theorem State.setSplit_sweepsPrev (c a v : Nat) : (s.setSplit c a v).sweepsPrev = s.sweepsPrev := rfl
@[simp] theorem State.setSplit_meshQueue (c a v : Nat) : (s.setSplit c a v).meshQueue = s.meshQueue := rfl
@[simp] theorem State.setSplit_fetched (c a v : Nat) : (s.setSplit c a v).fetched = s.fetched := rfl
@[simp] theorem State.setSplit_calib (c a v : Nat) : (s.setSplit c a v).calib = s.calib := rfl
@[simp] theorem State.setSplit_lensMesh (c a v : Nat) : (s.setSplit c a v).lensMesh = s.lensMesh := rfl
@[simp] theorem State.setSplit_motion (c a v : Nat) : (s.setSplit c a v).motion = s.motion := rfl
@[simp] theorem State.setSplit_egoLate (c a v : Nat) : (s.setSplit c a v).egoLate = s.egoLate := rfl
@[simp] theorem State.setSplit_triggers (c a v : Nat) : (s.setSplit c a v).triggers = s.triggers := rfl
@[simp] theorem State.setSplit_gptpSync (c a v : Nat) : (s.setSplit c a v).gptpSync = s.gptpSync := rfl
@[simp] theorem State.setSplit_ticked (c a v : Nat) : (s.setSplit c a v).ticked = s.ticked := rfl
@[simp] theorem State.setSplit_tickPredicted (c a v : Nat) : (s.setSplit c a v).tickPredicted = s.tickPredicted := rfl
@[simp] theorem State.setSplit_tickPrev (c a v : Nat) : (s.setSplit c a v).tickPrev = s.tickPrev := rfl
@[simp] theorem State.setSplit_lockGood (c a v : Nat) : (s.setSplit c a v).lockGood = s.lockGood := rfl
@[simp] theorem State.setSplit_frame (c a v : Nat) : (s.setSplit c a v).frame = s.frame := rfl
@[simp] theorem State.setSplit_disagreements (c a v : Nat) : (s.setSplit c a v).disagreements = s.disagreements := rfl
@[simp] theorem State.setSplit_logOpen (c a v : Nat) : (s.setSplit c a v).logOpen = s.logOpen := rfl
@[simp] theorem State.setSplit_safeOk (c a v : Nat) : (s.setSplit c a v).safeOk = s.safeOk := rfl
@[simp] theorem State.setSplit_faultN (c a v : Nat) : (s.setSplit c a v).faultN = s.faultN := rfl
@[simp] theorem State.setSplit_poresetN (c a v : Nat) : (s.setSplit c a v).poresetN = s.poresetN := rfl
@[simp] theorem State.setSplit_pwrEn (c a v : Nat) : (s.setSplit c a v).pwrEn = s.pwrEn := rfl
@[simp] theorem State.setSplit_pwrGood (c a v : Nat) : (s.setSplit c a v).pwrGood = s.pwrGood := rfl
@[simp] theorem State.setSplit_thermalHold (c a v : Nat) : (s.setSplit c a v).thermalHold = s.thermalHold := rfl
@[simp] theorem State.setSplit_laterCauses (c a v : Nat) : (s.setSplit c a v).laterCauses = s.laterCauses := rfl
@[simp] theorem State.setSplit_parts (c a v : Nat) : (s.setSplit c a v).parts = s.parts := rfl
@[simp] theorem State.setSplit_devReset (c a v : Nat) : (s.setSplit c a v).devReset = s.devReset := rfl
@[simp] theorem State.setSplit_devCause (c a v : Nat) : (s.setSplit c a v).devCause = s.devCause := rfl
@[simp] theorem State.setSplit_devLater (c a v : Nat) : (s.setSplit c a v).devLater = s.devLater := rfl
@[simp] theorem State.setSplit_aonLog (c a v : Nat) : (s.setSplit c a v).aonLog = s.aonLog := rfl
@[simp] theorem State.setSplit_aonCodes (c a v : Nat) : (s.setSplit c a v).aonCodes = s.aonCodes := rfl
@[simp] theorem State.setSplit_aonDict (c a v : Nat) : (s.setSplit c a v).aonDict = s.aonDict := rfl
@[simp] theorem State.setSplit_resetCause (c a v : Nat) : (s.setSplit c a v).resetCause = s.resetCause := rfl
@[simp] theorem State.setSplit_activity (c a v : Nat) : (s.setSplit c a v).activity = s.activity := rfl
@[simp] theorem State.setSplit_lpFrom (c a v : Nat) : (s.setSplit c a v).lpFrom = s.lpFrom := rfl
@[simp] theorem State.setSplit_wake (c a v : Nat) : (s.setSplit c a v).wake = s.wake := rfl
@[simp] theorem State.setSplit_wakeMask (c a v : Nat) : (s.setSplit c a v).wakeMask = s.wakeMask := rfl
@[simp] theorem State.setSplit_wakeTimer (c a v : Nat) : (s.setSplit c a v).wakeTimer = s.wakeTimer := rfl
@[simp] theorem State.setSplit_lpExitBegun (c a v : Nat) : (s.setSplit c a v).lpExitBegun = s.lpExitBegun := rfl
@[simp] theorem State.setSplit_lpRails (c a v : Nat) : (s.setSplit c a v).lpRails = s.lpRails := rfl
@[simp] theorem State.setSplit_graceDue (c a v : Nat) : (s.setSplit c a v).graceDue = s.graceDue := rfl
@[simp] theorem State.setSplit_lpStuck (c a v : Nat) : (s.setSplit c a v).lpStuck = s.lpStuck := rfl
@[simp] theorem State.setSplit_testCap (c a v : Nat) : (s.setSplit c a v).testCap = s.testCap := rfl
@[simp] theorem State.setSplit_rateAt (c a v : Nat) : (s.setSplit c a v).rateAt = s.rateAt := rfl
@[simp] theorem State.setSplit_rateMark (c a v : Nat) : (s.setSplit c a v).rateMark = s.rateMark := rfl
@[simp] theorem State.setSplit_slowHeld (c a v : Nat) : (s.setSplit c a v).slowHeld = s.slowHeld := rfl
@[simp] theorem State.setSplit_fuses (c a v : Nat) : (s.setSplit c a v).fuses = s.fuses := rfl
@[simp] theorem State.setSplit_fitted (c a v : Nat) : (s.setSplit c a v).fitted = s.fitted := rfl
@[simp] theorem State.setSplit_safeState (c a v : Nat) : (s.setSplit c a v).safeState = s.safeState := rfl
@[simp] theorem State.setSplit_romWait (c a v : Nat) : (s.setSplit c a v).romWait = s.romWait := rfl
@[simp] theorem State.setSplit_bootDue (c a v : Nat) : (s.setSplit c a v).bootDue = s.bootDue := rfl
@[simp] theorem State.setSplit_owedReset (c a v : Nat) : (s.setSplit c a v).owedReset = s.owedReset := rfl
@[simp] theorem State.setSplit_romSource (c a v : Nat) : (s.setSplit c a v).romSource = s.romSource := rfl
@[simp] theorem State.setSplit_bootDigest (c a v : Nat) : (s.setSplit c a v).bootDigest = s.bootDigest := rfl
@[simp] theorem State.setSplit_imageLevel (c a v : Nat) : (s.setSplit c a v).imageLevel = s.imageLevel := rfl
@[simp] theorem State.setSplit_imageRevoke (c a v : Nat) : (s.setSplit c a v).imageRevoke = s.imageRevoke := rfl
@[simp] theorem State.setSplit_fuseBlowDue (c a v : Nat) : (s.setSplit c a v).fuseBlowDue = s.fuseBlowDue := rfl
@[simp] theorem State.setSplit_trustKey (c a v : Nat) : (s.setSplit c a v).trustKey = s.trustKey := rfl
@[simp] theorem State.setSplit_quotes (c a v : Nat) : (s.setSplit c a v).quotes = s.quotes := rfl
@[simp] theorem State.setSplit_scrubPos (c a v : Nat) : (s.setSplit c a v).scrubPos = s.scrubPos := rfl
@[simp] theorem State.setSplit_tempHeld (c a v : Nat) : (s.setSplit c a v).tempHeld = s.tempHeld := rfl
@[simp] theorem State.setSplit_tempBelow (c a v : Nat) : (s.setSplit c a v).tempBelow = s.tempBelow := rfl
@[simp] theorem State.setSplit_vset (c a v : Nat) : (s.setSplit c a v).vset = s.vset := rfl

/-! ### setGroup -/

@[simp] theorem State.setGroup_pending (c a g : Nat) (v : Group) : (s.setGroup c a g v).pending = s.pending := rfl
@[simp] theorem State.setGroup_timeNs (c a g : Nat) (v : Group) : (s.setGroup c a g v).timeNs = s.timeNs := rfl
@[simp] theorem State.setGroup_sent (c a g : Nat) (v : Group) : (s.setGroup c a g v).sent = s.sent := rfl
@[simp] theorem State.setGroup_dict (c a g : Nat) (v : Group) : (s.setGroup c a g v).dict = s.dict := rfl
@[simp] theorem State.setGroup_mem (c a g : Nat) (v : Group) : (s.setGroup c a g v).mem = s.mem := rfl
@[simp] theorem State.setGroup_poison (c a g : Nat) (v : Group) : (s.setGroup c a g v).poison = s.poison := rfl
@[simp] theorem State.setGroup_ecc (c a g : Nat) (v : Group) : (s.setGroup c a g v).ecc = s.ecc := rfl
@[simp] theorem State.setGroup_hostMem (c a g : Nat) (v : Group) : (s.setGroup c a g v).hostMem = s.hostMem := rfl
@[simp] theorem State.setGroup_ringsOn (c a g : Nat) (v : Group) : (s.setGroup c a g v).ringsOn = s.ringsOn := rfl
@[simp] theorem State.setGroup_lpRings (c a g : Nat) (v : Group) : (s.setGroup c a g v).lpRings = s.lpRings := rfl
@[simp] theorem State.setGroup_freeIx (c a g : Nat) (v : Group) : (s.setGroup c a g v).freeIx = s.freeIx := rfl
@[simp] theorem State.setGroup_pairs (c a g : Nat) (v : Group) : (s.setGroup c a g v).pairs = s.pairs := rfl
@[simp] theorem State.setGroup_slots (c a g : Nat) (v : Group) : (s.setGroup c a g v).slots = s.slots := rfl
@[simp] theorem State.setGroup_splits (c a g : Nat) (v : Group) : (s.setGroup c a g v).splits = s.splits := rfl
@[simp] theorem State.setGroup_accs (c a g : Nat) (v : Group) : (s.setGroup c a g v).accs = s.accs := rfl
@[simp] theorem State.setGroup_flags (c a g : Nat) (v : Group) : (s.setGroup c a g v).flags = s.flags := rfl
@[simp] theorem State.setGroup_overruns (c a g : Nat) (v : Group) : (s.setGroup c a g v).overruns = s.overruns := rfl
@[simp] theorem State.setGroup_windows (c a g : Nat) (v : Group) : (s.setGroup c a g v).windows = s.windows := rfl
@[simp] theorem State.setGroup_lastClose (c a g : Nat) (v : Group) : (s.setGroup c a g v).lastClose = s.lastClose := rfl
@[simp] theorem State.setGroup_closing (c a g : Nat) (v : Group) : (s.setGroup c a g v).closing = s.closing := rfl
@[simp] theorem State.setGroup_rounds (c a g : Nat) (v : Group) : (s.setGroup c a g v).rounds = s.rounds := rfl
@[simp] theorem State.setGroup_fabric (c a g : Nat) (v : Group) : (s.setGroup c a g v).fabric = s.fabric := rfl
@[simp] theorem State.setGroup_sputBad (c a g : Nat) (v : Group) : (s.setGroup c a g v).sputBad = s.sputBad := rfl
@[simp] theorem State.setGroup_late (c a g : Nat) (v : Group) : (s.setGroup c a g v).late = s.late := rfl
@[simp] theorem State.setGroup_timeouts (c a g : Nat) (v : Group) : (s.setGroup c a g v).timeouts = s.timeouts := rfl
@[simp] theorem State.setGroup_ctxs (c a g : Nat) (v : Group) : (s.setGroup c a g v).ctxs = s.ctxs := rfl
@[simp] theorem State.setGroup_waiting (c a g : Nat) (v : Group) : (s.setGroup c a g v).waiting = s.waiting := rfl
@[simp] theorem State.setGroup_clearing (c a g : Nat) (v : Group) : (s.setGroup c a g v).clearing = s.clearing := rfl
@[simp] theorem State.setGroup_fullNow (c a g : Nat) (v : Group) : (s.setGroup c a g v).fullNow = s.fullNow := rfl
@[simp] theorem State.setGroup_adapt (c a g : Nat) (v : Group) : (s.setGroup c a g v).adapt = s.adapt := rfl
@[simp] theorem State.setGroup_promotions (c a g : Nat) (v : Group) : (s.setGroup c a g v).promotions = s.promotions := rfl
@[simp] theorem State.setGroup_barred (c a g : Nat) (v : Group) : (s.setGroup c a g v).barred = s.barred := rfl
@[simp] theorem State.setGroup_handles (c a g : Nat) (v : Group) : (s.setGroup c a g v).handles = s.handles := rfl
@[simp] theorem State.setGroup_lastSlot (c a g : Nat) (v : Group) : (s.setGroup c a g v).lastSlot = s.lastSlot := rfl
@[simp] theorem State.setGroup_seqs (c a g : Nat) (v : Group) : (s.setGroup c a g v).seqs = s.seqs := rfl
@[simp] theorem State.setGroup_stateWait (c a g : Nat) (v : Group) : (s.setGroup c a g v).stateWait = s.stateWait := rfl
@[simp] theorem State.setGroup_portA (c a g : Nat) (v : Group) : (s.setGroup c a g v).portA = s.portA := rfl
@[simp] theorem State.setGroup_portB (c a g : Nat) (v : Group) : (s.setGroup c a g v).portB = s.portB := rfl
@[simp] theorem State.setGroup_emcy (c a g : Nat) (v : Group) : (s.setGroup c a g v).emcy = s.emcy := rfl
@[simp] theorem State.setGroup_busOffA (c a g : Nat) (v : Group) : (s.setGroup c a g v).busOffA = s.busOffA := rfl
@[simp] theorem State.setGroup_busOffB (c a g : Nat) (v : Group) : (s.setGroup c a g v).busOffB = s.busOffB := rfl
@[simp] theorem State.setGroup_busOffRecent (c a g : Nat) (v : Group) : (s.setGroup c a g v).busOffRecent = s.busOffRecent := rfl
@[simp] theorem State.setGroup_canParams (c a g : Nat) (v : Group) : (s.setGroup c a g v).canParams = s.canParams := rfl
@[simp] theorem State.setGroup_eps (c a g : Nat) (v : Group) : (s.setGroup c a g v).eps = s.eps := rfl
@[simp] theorem State.setGroup_life (c a g : Nat) (v : Group) : (s.setGroup c a g v).life = s.life := rfl
@[simp] theorem State.setGroup_unbound (c a g : Nat) (v : Group) : (s.setGroup c a g v).unbound = s.unbound := rfl
@[simp] theorem State.setGroup_announced (c a g : Nat) (v : Group) : (s.setGroup c a g v).announced = s.announced := rfl
@[simp] theorem State.setGroup_discards (c a g : Nat) (v : Group) : (s.setGroup c a g v).discards = s.discards := rfl
@[simp] theorem State.setGroup_eccFixed (c a g : Nat) (v : Group) : (s.setGroup c a g v).eccFixed = s.eccFixed := rfl
@[simp] theorem State.setGroup_skipped (c a g : Nat) (v : Group) : (s.setGroup c a g v).skipped = s.skipped := rfl
@[simp] theorem State.setGroup_dgramDrops (c a g : Nat) (v : Group) : (s.setGroup c a g v).dgramDrops = s.dgramDrops := rfl
@[simp] theorem State.setGroup_tables (c a g : Nat) (v : Group) : (s.setGroup c a g v).tables = s.tables := rfl
@[simp] theorem State.setGroup_meshBase (c a g : Nat) (v : Group) : (s.setGroup c a g v).meshBase = s.meshBase := rfl
@[simp] theorem State.setGroup_raw (c a g : Nat) (v : Group) : (s.setGroup c a g v).raw = s.raw := rfl
@[simp] theorem State.setGroup_views (c a g : Nat) (v : Group) : (s.setGroup c a g v).views = s.views := rfl
@[simp] theorem State.setGroup_sweeps (c a g : Nat) (v : Group) : (s.setGroup c a g v).sweeps = s.sweeps := rfl
@[simp] theorem State.setGroup_sweepsPrev (c a g : Nat) (v : Group) : (s.setGroup c a g v).sweepsPrev = s.sweepsPrev := rfl
@[simp] theorem State.setGroup_meshQueue (c a g : Nat) (v : Group) : (s.setGroup c a g v).meshQueue = s.meshQueue := rfl
@[simp] theorem State.setGroup_fetched (c a g : Nat) (v : Group) : (s.setGroup c a g v).fetched = s.fetched := rfl
@[simp] theorem State.setGroup_calib (c a g : Nat) (v : Group) : (s.setGroup c a g v).calib = s.calib := rfl
@[simp] theorem State.setGroup_lensMesh (c a g : Nat) (v : Group) : (s.setGroup c a g v).lensMesh = s.lensMesh := rfl
@[simp] theorem State.setGroup_motion (c a g : Nat) (v : Group) : (s.setGroup c a g v).motion = s.motion := rfl
@[simp] theorem State.setGroup_egoLate (c a g : Nat) (v : Group) : (s.setGroup c a g v).egoLate = s.egoLate := rfl
@[simp] theorem State.setGroup_triggers (c a g : Nat) (v : Group) : (s.setGroup c a g v).triggers = s.triggers := rfl
@[simp] theorem State.setGroup_gptpSync (c a g : Nat) (v : Group) : (s.setGroup c a g v).gptpSync = s.gptpSync := rfl
@[simp] theorem State.setGroup_ticked (c a g : Nat) (v : Group) : (s.setGroup c a g v).ticked = s.ticked := rfl
@[simp] theorem State.setGroup_tickPredicted (c a g : Nat) (v : Group) : (s.setGroup c a g v).tickPredicted = s.tickPredicted := rfl
@[simp] theorem State.setGroup_tickPrev (c a g : Nat) (v : Group) : (s.setGroup c a g v).tickPrev = s.tickPrev := rfl
@[simp] theorem State.setGroup_lockGood (c a g : Nat) (v : Group) : (s.setGroup c a g v).lockGood = s.lockGood := rfl
@[simp] theorem State.setGroup_frame (c a g : Nat) (v : Group) : (s.setGroup c a g v).frame = s.frame := rfl
@[simp] theorem State.setGroup_disagreements (c a g : Nat) (v : Group) : (s.setGroup c a g v).disagreements = s.disagreements := rfl
@[simp] theorem State.setGroup_logOpen (c a g : Nat) (v : Group) : (s.setGroup c a g v).logOpen = s.logOpen := rfl
@[simp] theorem State.setGroup_safeOk (c a g : Nat) (v : Group) : (s.setGroup c a g v).safeOk = s.safeOk := rfl
@[simp] theorem State.setGroup_faultN (c a g : Nat) (v : Group) : (s.setGroup c a g v).faultN = s.faultN := rfl
@[simp] theorem State.setGroup_poresetN (c a g : Nat) (v : Group) : (s.setGroup c a g v).poresetN = s.poresetN := rfl
@[simp] theorem State.setGroup_pwrEn (c a g : Nat) (v : Group) : (s.setGroup c a g v).pwrEn = s.pwrEn := rfl
@[simp] theorem State.setGroup_pwrGood (c a g : Nat) (v : Group) : (s.setGroup c a g v).pwrGood = s.pwrGood := rfl
@[simp] theorem State.setGroup_thermalHold (c a g : Nat) (v : Group) : (s.setGroup c a g v).thermalHold = s.thermalHold := rfl
@[simp] theorem State.setGroup_laterCauses (c a g : Nat) (v : Group) : (s.setGroup c a g v).laterCauses = s.laterCauses := rfl
@[simp] theorem State.setGroup_parts (c a g : Nat) (v : Group) : (s.setGroup c a g v).parts = s.parts := rfl
@[simp] theorem State.setGroup_devReset (c a g : Nat) (v : Group) : (s.setGroup c a g v).devReset = s.devReset := rfl
@[simp] theorem State.setGroup_devCause (c a g : Nat) (v : Group) : (s.setGroup c a g v).devCause = s.devCause := rfl
@[simp] theorem State.setGroup_devLater (c a g : Nat) (v : Group) : (s.setGroup c a g v).devLater = s.devLater := rfl
@[simp] theorem State.setGroup_aonLog (c a g : Nat) (v : Group) : (s.setGroup c a g v).aonLog = s.aonLog := rfl
@[simp] theorem State.setGroup_aonCodes (c a g : Nat) (v : Group) : (s.setGroup c a g v).aonCodes = s.aonCodes := rfl
@[simp] theorem State.setGroup_aonDict (c a g : Nat) (v : Group) : (s.setGroup c a g v).aonDict = s.aonDict := rfl
@[simp] theorem State.setGroup_resetCause (c a g : Nat) (v : Group) : (s.setGroup c a g v).resetCause = s.resetCause := rfl
@[simp] theorem State.setGroup_activity (c a g : Nat) (v : Group) : (s.setGroup c a g v).activity = s.activity := rfl
@[simp] theorem State.setGroup_lpFrom (c a g : Nat) (v : Group) : (s.setGroup c a g v).lpFrom = s.lpFrom := rfl
@[simp] theorem State.setGroup_wake (c a g : Nat) (v : Group) : (s.setGroup c a g v).wake = s.wake := rfl
@[simp] theorem State.setGroup_wakeMask (c a g : Nat) (v : Group) : (s.setGroup c a g v).wakeMask = s.wakeMask := rfl
@[simp] theorem State.setGroup_wakeTimer (c a g : Nat) (v : Group) : (s.setGroup c a g v).wakeTimer = s.wakeTimer := rfl
@[simp] theorem State.setGroup_lpExitBegun (c a g : Nat) (v : Group) : (s.setGroup c a g v).lpExitBegun = s.lpExitBegun := rfl
@[simp] theorem State.setGroup_lpRails (c a g : Nat) (v : Group) : (s.setGroup c a g v).lpRails = s.lpRails := rfl
@[simp] theorem State.setGroup_graceDue (c a g : Nat) (v : Group) : (s.setGroup c a g v).graceDue = s.graceDue := rfl
@[simp] theorem State.setGroup_lpStuck (c a g : Nat) (v : Group) : (s.setGroup c a g v).lpStuck = s.lpStuck := rfl
@[simp] theorem State.setGroup_testCap (c a g : Nat) (v : Group) : (s.setGroup c a g v).testCap = s.testCap := rfl
@[simp] theorem State.setGroup_rateAt (c a g : Nat) (v : Group) : (s.setGroup c a g v).rateAt = s.rateAt := rfl
@[simp] theorem State.setGroup_rateMark (c a g : Nat) (v : Group) : (s.setGroup c a g v).rateMark = s.rateMark := rfl
@[simp] theorem State.setGroup_slowHeld (c a g : Nat) (v : Group) : (s.setGroup c a g v).slowHeld = s.slowHeld := rfl
@[simp] theorem State.setGroup_fuses (c a g : Nat) (v : Group) : (s.setGroup c a g v).fuses = s.fuses := rfl
@[simp] theorem State.setGroup_fitted (c a g : Nat) (v : Group) : (s.setGroup c a g v).fitted = s.fitted := rfl
@[simp] theorem State.setGroup_safeState (c a g : Nat) (v : Group) : (s.setGroup c a g v).safeState = s.safeState := rfl
@[simp] theorem State.setGroup_romWait (c a g : Nat) (v : Group) : (s.setGroup c a g v).romWait = s.romWait := rfl
@[simp] theorem State.setGroup_bootDue (c a g : Nat) (v : Group) : (s.setGroup c a g v).bootDue = s.bootDue := rfl
@[simp] theorem State.setGroup_owedReset (c a g : Nat) (v : Group) : (s.setGroup c a g v).owedReset = s.owedReset := rfl
@[simp] theorem State.setGroup_romSource (c a g : Nat) (v : Group) : (s.setGroup c a g v).romSource = s.romSource := rfl
@[simp] theorem State.setGroup_bootDigest (c a g : Nat) (v : Group) : (s.setGroup c a g v).bootDigest = s.bootDigest := rfl
@[simp] theorem State.setGroup_imageLevel (c a g : Nat) (v : Group) : (s.setGroup c a g v).imageLevel = s.imageLevel := rfl
@[simp] theorem State.setGroup_imageRevoke (c a g : Nat) (v : Group) : (s.setGroup c a g v).imageRevoke = s.imageRevoke := rfl
@[simp] theorem State.setGroup_fuseBlowDue (c a g : Nat) (v : Group) : (s.setGroup c a g v).fuseBlowDue = s.fuseBlowDue := rfl
@[simp] theorem State.setGroup_trustKey (c a g : Nat) (v : Group) : (s.setGroup c a g v).trustKey = s.trustKey := rfl
@[simp] theorem State.setGroup_quotes (c a g : Nat) (v : Group) : (s.setGroup c a g v).quotes = s.quotes := rfl
@[simp] theorem State.setGroup_scrubPos (c a g : Nat) (v : Group) : (s.setGroup c a g v).scrubPos = s.scrubPos := rfl
@[simp] theorem State.setGroup_tempHeld (c a g : Nat) (v : Group) : (s.setGroup c a g v).tempHeld = s.tempHeld := rfl
@[simp] theorem State.setGroup_tempBelow (c a g : Nat) (v : Group) : (s.setGroup c a g v).tempBelow = s.tempBelow := rfl
@[simp] theorem State.setGroup_vset (c a g : Nat) (v : Group) : (s.setGroup c a g v).vset = s.vset := rfl

/-! ### setAcc -/

@[simp] theorem State.setAcc_pending (c a e j : Nat) (v : Acc) : (s.setAcc c a e j v).pending = s.pending := rfl
@[simp] theorem State.setAcc_timeNs (c a e j : Nat) (v : Acc) : (s.setAcc c a e j v).timeNs = s.timeNs := rfl
@[simp] theorem State.setAcc_sent (c a e j : Nat) (v : Acc) : (s.setAcc c a e j v).sent = s.sent := rfl
@[simp] theorem State.setAcc_dict (c a e j : Nat) (v : Acc) : (s.setAcc c a e j v).dict = s.dict := rfl
@[simp] theorem State.setAcc_mem (c a e j : Nat) (v : Acc) : (s.setAcc c a e j v).mem = s.mem := rfl
@[simp] theorem State.setAcc_poison (c a e j : Nat) (v : Acc) : (s.setAcc c a e j v).poison = s.poison := rfl
@[simp] theorem State.setAcc_ecc (c a e j : Nat) (v : Acc) : (s.setAcc c a e j v).ecc = s.ecc := rfl
@[simp] theorem State.setAcc_hostMem (c a e j : Nat) (v : Acc) : (s.setAcc c a e j v).hostMem = s.hostMem := rfl
@[simp] theorem State.setAcc_ringsOn (c a e j : Nat) (v : Acc) : (s.setAcc c a e j v).ringsOn = s.ringsOn := rfl
@[simp] theorem State.setAcc_lpRings (c a e j : Nat) (v : Acc) : (s.setAcc c a e j v).lpRings = s.lpRings := rfl
@[simp] theorem State.setAcc_freeIx (c a e j : Nat) (v : Acc) : (s.setAcc c a e j v).freeIx = s.freeIx := rfl
@[simp] theorem State.setAcc_pairs (c a e j : Nat) (v : Acc) : (s.setAcc c a e j v).pairs = s.pairs := rfl
@[simp] theorem State.setAcc_slots (c a e j : Nat) (v : Acc) : (s.setAcc c a e j v).slots = s.slots := rfl
@[simp] theorem State.setAcc_splits (c a e j : Nat) (v : Acc) : (s.setAcc c a e j v).splits = s.splits := rfl
@[simp] theorem State.setAcc_groups (c a e j : Nat) (v : Acc) : (s.setAcc c a e j v).groups = s.groups := rfl
@[simp] theorem State.setAcc_flags (c a e j : Nat) (v : Acc) : (s.setAcc c a e j v).flags = s.flags := rfl
@[simp] theorem State.setAcc_overruns (c a e j : Nat) (v : Acc) : (s.setAcc c a e j v).overruns = s.overruns := rfl
@[simp] theorem State.setAcc_windows (c a e j : Nat) (v : Acc) : (s.setAcc c a e j v).windows = s.windows := rfl
@[simp] theorem State.setAcc_lastClose (c a e j : Nat) (v : Acc) : (s.setAcc c a e j v).lastClose = s.lastClose := rfl
@[simp] theorem State.setAcc_closing (c a e j : Nat) (v : Acc) : (s.setAcc c a e j v).closing = s.closing := rfl
@[simp] theorem State.setAcc_rounds (c a e j : Nat) (v : Acc) : (s.setAcc c a e j v).rounds = s.rounds := rfl
@[simp] theorem State.setAcc_fabric (c a e j : Nat) (v : Acc) : (s.setAcc c a e j v).fabric = s.fabric := rfl
@[simp] theorem State.setAcc_sputBad (c a e j : Nat) (v : Acc) : (s.setAcc c a e j v).sputBad = s.sputBad := rfl
@[simp] theorem State.setAcc_late (c a e j : Nat) (v : Acc) : (s.setAcc c a e j v).late = s.late := rfl
@[simp] theorem State.setAcc_timeouts (c a e j : Nat) (v : Acc) : (s.setAcc c a e j v).timeouts = s.timeouts := rfl
@[simp] theorem State.setAcc_ctxs (c a e j : Nat) (v : Acc) : (s.setAcc c a e j v).ctxs = s.ctxs := rfl
@[simp] theorem State.setAcc_waiting (c a e j : Nat) (v : Acc) : (s.setAcc c a e j v).waiting = s.waiting := rfl
@[simp] theorem State.setAcc_clearing (c a e j : Nat) (v : Acc) : (s.setAcc c a e j v).clearing = s.clearing := rfl
@[simp] theorem State.setAcc_fullNow (c a e j : Nat) (v : Acc) : (s.setAcc c a e j v).fullNow = s.fullNow := rfl
@[simp] theorem State.setAcc_adapt (c a e j : Nat) (v : Acc) : (s.setAcc c a e j v).adapt = s.adapt := rfl
@[simp] theorem State.setAcc_promotions (c a e j : Nat) (v : Acc) : (s.setAcc c a e j v).promotions = s.promotions := rfl
@[simp] theorem State.setAcc_barred (c a e j : Nat) (v : Acc) : (s.setAcc c a e j v).barred = s.barred := rfl
@[simp] theorem State.setAcc_handles (c a e j : Nat) (v : Acc) : (s.setAcc c a e j v).handles = s.handles := rfl
@[simp] theorem State.setAcc_lastSlot (c a e j : Nat) (v : Acc) : (s.setAcc c a e j v).lastSlot = s.lastSlot := rfl
@[simp] theorem State.setAcc_seqs (c a e j : Nat) (v : Acc) : (s.setAcc c a e j v).seqs = s.seqs := rfl
@[simp] theorem State.setAcc_stateWait (c a e j : Nat) (v : Acc) : (s.setAcc c a e j v).stateWait = s.stateWait := rfl
@[simp] theorem State.setAcc_portA (c a e j : Nat) (v : Acc) : (s.setAcc c a e j v).portA = s.portA := rfl
@[simp] theorem State.setAcc_portB (c a e j : Nat) (v : Acc) : (s.setAcc c a e j v).portB = s.portB := rfl
@[simp] theorem State.setAcc_emcy (c a e j : Nat) (v : Acc) : (s.setAcc c a e j v).emcy = s.emcy := rfl
@[simp] theorem State.setAcc_busOffA (c a e j : Nat) (v : Acc) : (s.setAcc c a e j v).busOffA = s.busOffA := rfl
@[simp] theorem State.setAcc_busOffB (c a e j : Nat) (v : Acc) : (s.setAcc c a e j v).busOffB = s.busOffB := rfl
@[simp] theorem State.setAcc_busOffRecent (c a e j : Nat) (v : Acc) : (s.setAcc c a e j v).busOffRecent = s.busOffRecent := rfl
@[simp] theorem State.setAcc_canParams (c a e j : Nat) (v : Acc) : (s.setAcc c a e j v).canParams = s.canParams := rfl
@[simp] theorem State.setAcc_eps (c a e j : Nat) (v : Acc) : (s.setAcc c a e j v).eps = s.eps := rfl
@[simp] theorem State.setAcc_life (c a e j : Nat) (v : Acc) : (s.setAcc c a e j v).life = s.life := rfl
@[simp] theorem State.setAcc_unbound (c a e j : Nat) (v : Acc) : (s.setAcc c a e j v).unbound = s.unbound := rfl
@[simp] theorem State.setAcc_announced (c a e j : Nat) (v : Acc) : (s.setAcc c a e j v).announced = s.announced := rfl
@[simp] theorem State.setAcc_discards (c a e j : Nat) (v : Acc) : (s.setAcc c a e j v).discards = s.discards := rfl
@[simp] theorem State.setAcc_eccFixed (c a e j : Nat) (v : Acc) : (s.setAcc c a e j v).eccFixed = s.eccFixed := rfl
@[simp] theorem State.setAcc_skipped (c a e j : Nat) (v : Acc) : (s.setAcc c a e j v).skipped = s.skipped := rfl
@[simp] theorem State.setAcc_dgramDrops (c a e j : Nat) (v : Acc) : (s.setAcc c a e j v).dgramDrops = s.dgramDrops := rfl
@[simp] theorem State.setAcc_tables (c a e j : Nat) (v : Acc) : (s.setAcc c a e j v).tables = s.tables := rfl
@[simp] theorem State.setAcc_meshBase (c a e j : Nat) (v : Acc) : (s.setAcc c a e j v).meshBase = s.meshBase := rfl
@[simp] theorem State.setAcc_raw (c a e j : Nat) (v : Acc) : (s.setAcc c a e j v).raw = s.raw := rfl
@[simp] theorem State.setAcc_views (c a e j : Nat) (v : Acc) : (s.setAcc c a e j v).views = s.views := rfl
@[simp] theorem State.setAcc_sweeps (c a e j : Nat) (v : Acc) : (s.setAcc c a e j v).sweeps = s.sweeps := rfl
@[simp] theorem State.setAcc_sweepsPrev (c a e j : Nat) (v : Acc) : (s.setAcc c a e j v).sweepsPrev = s.sweepsPrev := rfl
@[simp] theorem State.setAcc_meshQueue (c a e j : Nat) (v : Acc) : (s.setAcc c a e j v).meshQueue = s.meshQueue := rfl
@[simp] theorem State.setAcc_fetched (c a e j : Nat) (v : Acc) : (s.setAcc c a e j v).fetched = s.fetched := rfl
@[simp] theorem State.setAcc_calib (c a e j : Nat) (v : Acc) : (s.setAcc c a e j v).calib = s.calib := rfl
@[simp] theorem State.setAcc_lensMesh (c a e j : Nat) (v : Acc) : (s.setAcc c a e j v).lensMesh = s.lensMesh := rfl
@[simp] theorem State.setAcc_motion (c a e j : Nat) (v : Acc) : (s.setAcc c a e j v).motion = s.motion := rfl
@[simp] theorem State.setAcc_egoLate (c a e j : Nat) (v : Acc) : (s.setAcc c a e j v).egoLate = s.egoLate := rfl
@[simp] theorem State.setAcc_triggers (c a e j : Nat) (v : Acc) : (s.setAcc c a e j v).triggers = s.triggers := rfl
@[simp] theorem State.setAcc_gptpSync (c a e j : Nat) (v : Acc) : (s.setAcc c a e j v).gptpSync = s.gptpSync := rfl
@[simp] theorem State.setAcc_ticked (c a e j : Nat) (v : Acc) : (s.setAcc c a e j v).ticked = s.ticked := rfl
@[simp] theorem State.setAcc_tickPredicted (c a e j : Nat) (v : Acc) : (s.setAcc c a e j v).tickPredicted = s.tickPredicted := rfl
@[simp] theorem State.setAcc_tickPrev (c a e j : Nat) (v : Acc) : (s.setAcc c a e j v).tickPrev = s.tickPrev := rfl
@[simp] theorem State.setAcc_lockGood (c a e j : Nat) (v : Acc) : (s.setAcc c a e j v).lockGood = s.lockGood := rfl
@[simp] theorem State.setAcc_frame (c a e j : Nat) (v : Acc) : (s.setAcc c a e j v).frame = s.frame := rfl
@[simp] theorem State.setAcc_disagreements (c a e j : Nat) (v : Acc) : (s.setAcc c a e j v).disagreements = s.disagreements := rfl
@[simp] theorem State.setAcc_logOpen (c a e j : Nat) (v : Acc) : (s.setAcc c a e j v).logOpen = s.logOpen := rfl
@[simp] theorem State.setAcc_safeOk (c a e j : Nat) (v : Acc) : (s.setAcc c a e j v).safeOk = s.safeOk := rfl
@[simp] theorem State.setAcc_faultN (c a e j : Nat) (v : Acc) : (s.setAcc c a e j v).faultN = s.faultN := rfl
@[simp] theorem State.setAcc_poresetN (c a e j : Nat) (v : Acc) : (s.setAcc c a e j v).poresetN = s.poresetN := rfl
@[simp] theorem State.setAcc_pwrEn (c a e j : Nat) (v : Acc) : (s.setAcc c a e j v).pwrEn = s.pwrEn := rfl
@[simp] theorem State.setAcc_pwrGood (c a e j : Nat) (v : Acc) : (s.setAcc c a e j v).pwrGood = s.pwrGood := rfl
@[simp] theorem State.setAcc_thermalHold (c a e j : Nat) (v : Acc) : (s.setAcc c a e j v).thermalHold = s.thermalHold := rfl
@[simp] theorem State.setAcc_laterCauses (c a e j : Nat) (v : Acc) : (s.setAcc c a e j v).laterCauses = s.laterCauses := rfl
@[simp] theorem State.setAcc_parts (c a e j : Nat) (v : Acc) : (s.setAcc c a e j v).parts = s.parts := rfl
@[simp] theorem State.setAcc_devReset (c a e j : Nat) (v : Acc) : (s.setAcc c a e j v).devReset = s.devReset := rfl
@[simp] theorem State.setAcc_devCause (c a e j : Nat) (v : Acc) : (s.setAcc c a e j v).devCause = s.devCause := rfl
@[simp] theorem State.setAcc_devLater (c a e j : Nat) (v : Acc) : (s.setAcc c a e j v).devLater = s.devLater := rfl
@[simp] theorem State.setAcc_aonLog (c a e j : Nat) (v : Acc) : (s.setAcc c a e j v).aonLog = s.aonLog := rfl
@[simp] theorem State.setAcc_aonCodes (c a e j : Nat) (v : Acc) : (s.setAcc c a e j v).aonCodes = s.aonCodes := rfl
@[simp] theorem State.setAcc_aonDict (c a e j : Nat) (v : Acc) : (s.setAcc c a e j v).aonDict = s.aonDict := rfl
@[simp] theorem State.setAcc_resetCause (c a e j : Nat) (v : Acc) : (s.setAcc c a e j v).resetCause = s.resetCause := rfl
@[simp] theorem State.setAcc_activity (c a e j : Nat) (v : Acc) : (s.setAcc c a e j v).activity = s.activity := rfl
@[simp] theorem State.setAcc_lpFrom (c a e j : Nat) (v : Acc) : (s.setAcc c a e j v).lpFrom = s.lpFrom := rfl
@[simp] theorem State.setAcc_wake (c a e j : Nat) (v : Acc) : (s.setAcc c a e j v).wake = s.wake := rfl
@[simp] theorem State.setAcc_wakeMask (c a e j : Nat) (v : Acc) : (s.setAcc c a e j v).wakeMask = s.wakeMask := rfl
@[simp] theorem State.setAcc_wakeTimer (c a e j : Nat) (v : Acc) : (s.setAcc c a e j v).wakeTimer = s.wakeTimer := rfl
@[simp] theorem State.setAcc_lpExitBegun (c a e j : Nat) (v : Acc) : (s.setAcc c a e j v).lpExitBegun = s.lpExitBegun := rfl
@[simp] theorem State.setAcc_lpRails (c a e j : Nat) (v : Acc) : (s.setAcc c a e j v).lpRails = s.lpRails := rfl
@[simp] theorem State.setAcc_graceDue (c a e j : Nat) (v : Acc) : (s.setAcc c a e j v).graceDue = s.graceDue := rfl
@[simp] theorem State.setAcc_lpStuck (c a e j : Nat) (v : Acc) : (s.setAcc c a e j v).lpStuck = s.lpStuck := rfl
@[simp] theorem State.setAcc_testCap (c a e j : Nat) (v : Acc) : (s.setAcc c a e j v).testCap = s.testCap := rfl
@[simp] theorem State.setAcc_rateAt (c a e j : Nat) (v : Acc) : (s.setAcc c a e j v).rateAt = s.rateAt := rfl
@[simp] theorem State.setAcc_rateMark (c a e j : Nat) (v : Acc) : (s.setAcc c a e j v).rateMark = s.rateMark := rfl
@[simp] theorem State.setAcc_slowHeld (c a e j : Nat) (v : Acc) : (s.setAcc c a e j v).slowHeld = s.slowHeld := rfl
@[simp] theorem State.setAcc_fuses (c a e j : Nat) (v : Acc) : (s.setAcc c a e j v).fuses = s.fuses := rfl
@[simp] theorem State.setAcc_fitted (c a e j : Nat) (v : Acc) : (s.setAcc c a e j v).fitted = s.fitted := rfl
@[simp] theorem State.setAcc_safeState (c a e j : Nat) (v : Acc) : (s.setAcc c a e j v).safeState = s.safeState := rfl
@[simp] theorem State.setAcc_romWait (c a e j : Nat) (v : Acc) : (s.setAcc c a e j v).romWait = s.romWait := rfl
@[simp] theorem State.setAcc_bootDue (c a e j : Nat) (v : Acc) : (s.setAcc c a e j v).bootDue = s.bootDue := rfl
@[simp] theorem State.setAcc_owedReset (c a e j : Nat) (v : Acc) : (s.setAcc c a e j v).owedReset = s.owedReset := rfl
@[simp] theorem State.setAcc_romSource (c a e j : Nat) (v : Acc) : (s.setAcc c a e j v).romSource = s.romSource := rfl
@[simp] theorem State.setAcc_bootDigest (c a e j : Nat) (v : Acc) : (s.setAcc c a e j v).bootDigest = s.bootDigest := rfl
@[simp] theorem State.setAcc_imageLevel (c a e j : Nat) (v : Acc) : (s.setAcc c a e j v).imageLevel = s.imageLevel := rfl
@[simp] theorem State.setAcc_imageRevoke (c a e j : Nat) (v : Acc) : (s.setAcc c a e j v).imageRevoke = s.imageRevoke := rfl
@[simp] theorem State.setAcc_fuseBlowDue (c a e j : Nat) (v : Acc) : (s.setAcc c a e j v).fuseBlowDue = s.fuseBlowDue := rfl
@[simp] theorem State.setAcc_trustKey (c a e j : Nat) (v : Acc) : (s.setAcc c a e j v).trustKey = s.trustKey := rfl
@[simp] theorem State.setAcc_quotes (c a e j : Nat) (v : Acc) : (s.setAcc c a e j v).quotes = s.quotes := rfl
@[simp] theorem State.setAcc_scrubPos (c a e j : Nat) (v : Acc) : (s.setAcc c a e j v).scrubPos = s.scrubPos := rfl
@[simp] theorem State.setAcc_tempHeld (c a e j : Nat) (v : Acc) : (s.setAcc c a e j v).tempHeld = s.tempHeld := rfl
@[simp] theorem State.setAcc_tempBelow (c a e j : Nat) (v : Acc) : (s.setAcc c a e j v).tempBelow = s.tempBelow := rfl
@[simp] theorem State.setAcc_vset (c a e j : Nat) (v : Acc) : (s.setAcc c a e j v).vset = s.vset := rfl

/-! ### putFlag -/

@[simp] theorem State.putFlag_pending (c f : Nat) (b : Bool) : (s.putFlag c f b).pending = s.pending := rfl
@[simp] theorem State.putFlag_timeNs (c f : Nat) (b : Bool) : (s.putFlag c f b).timeNs = s.timeNs := rfl
@[simp] theorem State.putFlag_sent (c f : Nat) (b : Bool) : (s.putFlag c f b).sent = s.sent := rfl
@[simp] theorem State.putFlag_dict (c f : Nat) (b : Bool) : (s.putFlag c f b).dict = s.dict := rfl
@[simp] theorem State.putFlag_mem (c f : Nat) (b : Bool) : (s.putFlag c f b).mem = s.mem := rfl
@[simp] theorem State.putFlag_poison (c f : Nat) (b : Bool) : (s.putFlag c f b).poison = s.poison := rfl
@[simp] theorem State.putFlag_ecc (c f : Nat) (b : Bool) : (s.putFlag c f b).ecc = s.ecc := rfl
@[simp] theorem State.putFlag_hostMem (c f : Nat) (b : Bool) : (s.putFlag c f b).hostMem = s.hostMem := rfl
@[simp] theorem State.putFlag_ringsOn (c f : Nat) (b : Bool) : (s.putFlag c f b).ringsOn = s.ringsOn := rfl
@[simp] theorem State.putFlag_lpRings (c f : Nat) (b : Bool) : (s.putFlag c f b).lpRings = s.lpRings := rfl
@[simp] theorem State.putFlag_freeIx (c f : Nat) (b : Bool) : (s.putFlag c f b).freeIx = s.freeIx := rfl
@[simp] theorem State.putFlag_pairs (c f : Nat) (b : Bool) : (s.putFlag c f b).pairs = s.pairs := rfl
@[simp] theorem State.putFlag_slots (c f : Nat) (b : Bool) : (s.putFlag c f b).slots = s.slots := rfl
@[simp] theorem State.putFlag_splits (c f : Nat) (b : Bool) : (s.putFlag c f b).splits = s.splits := rfl
@[simp] theorem State.putFlag_groups (c f : Nat) (b : Bool) : (s.putFlag c f b).groups = s.groups := rfl
@[simp] theorem State.putFlag_accs (c f : Nat) (b : Bool) : (s.putFlag c f b).accs = s.accs := rfl
@[simp] theorem State.putFlag_overruns (c f : Nat) (b : Bool) : (s.putFlag c f b).overruns = s.overruns := rfl
@[simp] theorem State.putFlag_windows (c f : Nat) (b : Bool) : (s.putFlag c f b).windows = s.windows := rfl
@[simp] theorem State.putFlag_lastClose (c f : Nat) (b : Bool) : (s.putFlag c f b).lastClose = s.lastClose := rfl
@[simp] theorem State.putFlag_closing (c f : Nat) (b : Bool) : (s.putFlag c f b).closing = s.closing := rfl
@[simp] theorem State.putFlag_rounds (c f : Nat) (b : Bool) : (s.putFlag c f b).rounds = s.rounds := rfl
@[simp] theorem State.putFlag_fabric (c f : Nat) (b : Bool) : (s.putFlag c f b).fabric = s.fabric := rfl
@[simp] theorem State.putFlag_sputBad (c f : Nat) (b : Bool) : (s.putFlag c f b).sputBad = s.sputBad := rfl
@[simp] theorem State.putFlag_late (c f : Nat) (b : Bool) : (s.putFlag c f b).late = s.late := rfl
@[simp] theorem State.putFlag_timeouts (c f : Nat) (b : Bool) : (s.putFlag c f b).timeouts = s.timeouts := rfl
@[simp] theorem State.putFlag_ctxs (c f : Nat) (b : Bool) : (s.putFlag c f b).ctxs = s.ctxs := rfl
@[simp] theorem State.putFlag_waiting (c f : Nat) (b : Bool) : (s.putFlag c f b).waiting = s.waiting := rfl
@[simp] theorem State.putFlag_clearing (c f : Nat) (b : Bool) : (s.putFlag c f b).clearing = s.clearing := rfl
@[simp] theorem State.putFlag_fullNow (c f : Nat) (b : Bool) : (s.putFlag c f b).fullNow = s.fullNow := rfl
@[simp] theorem State.putFlag_adapt (c f : Nat) (b : Bool) : (s.putFlag c f b).adapt = s.adapt := rfl
@[simp] theorem State.putFlag_promotions (c f : Nat) (b : Bool) : (s.putFlag c f b).promotions = s.promotions := rfl
@[simp] theorem State.putFlag_barred (c f : Nat) (b : Bool) : (s.putFlag c f b).barred = s.barred := rfl
@[simp] theorem State.putFlag_handles (c f : Nat) (b : Bool) : (s.putFlag c f b).handles = s.handles := rfl
@[simp] theorem State.putFlag_lastSlot (c f : Nat) (b : Bool) : (s.putFlag c f b).lastSlot = s.lastSlot := rfl
@[simp] theorem State.putFlag_seqs (c f : Nat) (b : Bool) : (s.putFlag c f b).seqs = s.seqs := rfl
@[simp] theorem State.putFlag_stateWait (c f : Nat) (b : Bool) : (s.putFlag c f b).stateWait = s.stateWait := rfl
@[simp] theorem State.putFlag_portA (c f : Nat) (b : Bool) : (s.putFlag c f b).portA = s.portA := rfl
@[simp] theorem State.putFlag_portB (c f : Nat) (b : Bool) : (s.putFlag c f b).portB = s.portB := rfl
@[simp] theorem State.putFlag_emcy (c f : Nat) (b : Bool) : (s.putFlag c f b).emcy = s.emcy := rfl
@[simp] theorem State.putFlag_busOffA (c f : Nat) (b : Bool) : (s.putFlag c f b).busOffA = s.busOffA := rfl
@[simp] theorem State.putFlag_busOffB (c f : Nat) (b : Bool) : (s.putFlag c f b).busOffB = s.busOffB := rfl
@[simp] theorem State.putFlag_busOffRecent (c f : Nat) (b : Bool) : (s.putFlag c f b).busOffRecent = s.busOffRecent := rfl
@[simp] theorem State.putFlag_canParams (c f : Nat) (b : Bool) : (s.putFlag c f b).canParams = s.canParams := rfl
@[simp] theorem State.putFlag_eps (c f : Nat) (b : Bool) : (s.putFlag c f b).eps = s.eps := rfl
@[simp] theorem State.putFlag_life (c f : Nat) (b : Bool) : (s.putFlag c f b).life = s.life := rfl
@[simp] theorem State.putFlag_unbound (c f : Nat) (b : Bool) : (s.putFlag c f b).unbound = s.unbound := rfl
@[simp] theorem State.putFlag_announced (c f : Nat) (b : Bool) : (s.putFlag c f b).announced = s.announced := rfl
@[simp] theorem State.putFlag_discards (c f : Nat) (b : Bool) : (s.putFlag c f b).discards = s.discards := rfl
@[simp] theorem State.putFlag_eccFixed (c f : Nat) (b : Bool) : (s.putFlag c f b).eccFixed = s.eccFixed := rfl
@[simp] theorem State.putFlag_skipped (c f : Nat) (b : Bool) : (s.putFlag c f b).skipped = s.skipped := rfl
@[simp] theorem State.putFlag_dgramDrops (c f : Nat) (b : Bool) : (s.putFlag c f b).dgramDrops = s.dgramDrops := rfl
@[simp] theorem State.putFlag_tables (c f : Nat) (b : Bool) : (s.putFlag c f b).tables = s.tables := rfl
@[simp] theorem State.putFlag_meshBase (c f : Nat) (b : Bool) : (s.putFlag c f b).meshBase = s.meshBase := rfl
@[simp] theorem State.putFlag_raw (c f : Nat) (b : Bool) : (s.putFlag c f b).raw = s.raw := rfl
@[simp] theorem State.putFlag_views (c f : Nat) (b : Bool) : (s.putFlag c f b).views = s.views := rfl
@[simp] theorem State.putFlag_sweeps (c f : Nat) (b : Bool) : (s.putFlag c f b).sweeps = s.sweeps := rfl
@[simp] theorem State.putFlag_sweepsPrev (c f : Nat) (b : Bool) : (s.putFlag c f b).sweepsPrev = s.sweepsPrev := rfl
@[simp] theorem State.putFlag_meshQueue (c f : Nat) (b : Bool) : (s.putFlag c f b).meshQueue = s.meshQueue := rfl
@[simp] theorem State.putFlag_fetched (c f : Nat) (b : Bool) : (s.putFlag c f b).fetched = s.fetched := rfl
@[simp] theorem State.putFlag_calib (c f : Nat) (b : Bool) : (s.putFlag c f b).calib = s.calib := rfl
@[simp] theorem State.putFlag_lensMesh (c f : Nat) (b : Bool) : (s.putFlag c f b).lensMesh = s.lensMesh := rfl
@[simp] theorem State.putFlag_motion (c f : Nat) (b : Bool) : (s.putFlag c f b).motion = s.motion := rfl
@[simp] theorem State.putFlag_egoLate (c f : Nat) (b : Bool) : (s.putFlag c f b).egoLate = s.egoLate := rfl
@[simp] theorem State.putFlag_triggers (c f : Nat) (b : Bool) : (s.putFlag c f b).triggers = s.triggers := rfl
@[simp] theorem State.putFlag_gptpSync (c f : Nat) (b : Bool) : (s.putFlag c f b).gptpSync = s.gptpSync := rfl
@[simp] theorem State.putFlag_ticked (c f : Nat) (b : Bool) : (s.putFlag c f b).ticked = s.ticked := rfl
@[simp] theorem State.putFlag_tickPredicted (c f : Nat) (b : Bool) : (s.putFlag c f b).tickPredicted = s.tickPredicted := rfl
@[simp] theorem State.putFlag_tickPrev (c f : Nat) (b : Bool) : (s.putFlag c f b).tickPrev = s.tickPrev := rfl
@[simp] theorem State.putFlag_lockGood (c f : Nat) (b : Bool) : (s.putFlag c f b).lockGood = s.lockGood := rfl
@[simp] theorem State.putFlag_frame (c f : Nat) (b : Bool) : (s.putFlag c f b).frame = s.frame := rfl
@[simp] theorem State.putFlag_disagreements (c f : Nat) (b : Bool) : (s.putFlag c f b).disagreements = s.disagreements := rfl
@[simp] theorem State.putFlag_logOpen (c f : Nat) (b : Bool) : (s.putFlag c f b).logOpen = s.logOpen := rfl
@[simp] theorem State.putFlag_safeOk (c f : Nat) (b : Bool) : (s.putFlag c f b).safeOk = s.safeOk := rfl
@[simp] theorem State.putFlag_faultN (c f : Nat) (b : Bool) : (s.putFlag c f b).faultN = s.faultN := rfl
@[simp] theorem State.putFlag_poresetN (c f : Nat) (b : Bool) : (s.putFlag c f b).poresetN = s.poresetN := rfl
@[simp] theorem State.putFlag_pwrEn (c f : Nat) (b : Bool) : (s.putFlag c f b).pwrEn = s.pwrEn := rfl
@[simp] theorem State.putFlag_pwrGood (c f : Nat) (b : Bool) : (s.putFlag c f b).pwrGood = s.pwrGood := rfl
@[simp] theorem State.putFlag_thermalHold (c f : Nat) (b : Bool) : (s.putFlag c f b).thermalHold = s.thermalHold := rfl
@[simp] theorem State.putFlag_laterCauses (c f : Nat) (b : Bool) : (s.putFlag c f b).laterCauses = s.laterCauses := rfl
@[simp] theorem State.putFlag_parts (c f : Nat) (b : Bool) : (s.putFlag c f b).parts = s.parts := rfl
@[simp] theorem State.putFlag_devReset (c f : Nat) (b : Bool) : (s.putFlag c f b).devReset = s.devReset := rfl
@[simp] theorem State.putFlag_devCause (c f : Nat) (b : Bool) : (s.putFlag c f b).devCause = s.devCause := rfl
@[simp] theorem State.putFlag_devLater (c f : Nat) (b : Bool) : (s.putFlag c f b).devLater = s.devLater := rfl
@[simp] theorem State.putFlag_aonLog (c f : Nat) (b : Bool) : (s.putFlag c f b).aonLog = s.aonLog := rfl
@[simp] theorem State.putFlag_aonCodes (c f : Nat) (b : Bool) : (s.putFlag c f b).aonCodes = s.aonCodes := rfl
@[simp] theorem State.putFlag_aonDict (c f : Nat) (b : Bool) : (s.putFlag c f b).aonDict = s.aonDict := rfl
@[simp] theorem State.putFlag_resetCause (c f : Nat) (b : Bool) : (s.putFlag c f b).resetCause = s.resetCause := rfl
@[simp] theorem State.putFlag_activity (c f : Nat) (b : Bool) : (s.putFlag c f b).activity = s.activity := rfl
@[simp] theorem State.putFlag_lpFrom (c f : Nat) (b : Bool) : (s.putFlag c f b).lpFrom = s.lpFrom := rfl
@[simp] theorem State.putFlag_wake (c f : Nat) (b : Bool) : (s.putFlag c f b).wake = s.wake := rfl
@[simp] theorem State.putFlag_wakeMask (c f : Nat) (b : Bool) : (s.putFlag c f b).wakeMask = s.wakeMask := rfl
@[simp] theorem State.putFlag_wakeTimer (c f : Nat) (b : Bool) : (s.putFlag c f b).wakeTimer = s.wakeTimer := rfl
@[simp] theorem State.putFlag_lpExitBegun (c f : Nat) (b : Bool) : (s.putFlag c f b).lpExitBegun = s.lpExitBegun := rfl
@[simp] theorem State.putFlag_lpRails (c f : Nat) (b : Bool) : (s.putFlag c f b).lpRails = s.lpRails := rfl
@[simp] theorem State.putFlag_graceDue (c f : Nat) (b : Bool) : (s.putFlag c f b).graceDue = s.graceDue := rfl
@[simp] theorem State.putFlag_lpStuck (c f : Nat) (b : Bool) : (s.putFlag c f b).lpStuck = s.lpStuck := rfl
@[simp] theorem State.putFlag_testCap (c f : Nat) (b : Bool) : (s.putFlag c f b).testCap = s.testCap := rfl
@[simp] theorem State.putFlag_rateAt (c f : Nat) (b : Bool) : (s.putFlag c f b).rateAt = s.rateAt := rfl
@[simp] theorem State.putFlag_rateMark (c f : Nat) (b : Bool) : (s.putFlag c f b).rateMark = s.rateMark := rfl
@[simp] theorem State.putFlag_slowHeld (c f : Nat) (b : Bool) : (s.putFlag c f b).slowHeld = s.slowHeld := rfl
@[simp] theorem State.putFlag_fuses (c f : Nat) (b : Bool) : (s.putFlag c f b).fuses = s.fuses := rfl
@[simp] theorem State.putFlag_fitted (c f : Nat) (b : Bool) : (s.putFlag c f b).fitted = s.fitted := rfl
@[simp] theorem State.putFlag_safeState (c f : Nat) (b : Bool) : (s.putFlag c f b).safeState = s.safeState := rfl
@[simp] theorem State.putFlag_romWait (c f : Nat) (b : Bool) : (s.putFlag c f b).romWait = s.romWait := rfl
@[simp] theorem State.putFlag_bootDue (c f : Nat) (b : Bool) : (s.putFlag c f b).bootDue = s.bootDue := rfl
@[simp] theorem State.putFlag_owedReset (c f : Nat) (b : Bool) : (s.putFlag c f b).owedReset = s.owedReset := rfl
@[simp] theorem State.putFlag_romSource (c f : Nat) (b : Bool) : (s.putFlag c f b).romSource = s.romSource := rfl
@[simp] theorem State.putFlag_bootDigest (c f : Nat) (b : Bool) : (s.putFlag c f b).bootDigest = s.bootDigest := rfl
@[simp] theorem State.putFlag_imageLevel (c f : Nat) (b : Bool) : (s.putFlag c f b).imageLevel = s.imageLevel := rfl
@[simp] theorem State.putFlag_imageRevoke (c f : Nat) (b : Bool) : (s.putFlag c f b).imageRevoke = s.imageRevoke := rfl
@[simp] theorem State.putFlag_fuseBlowDue (c f : Nat) (b : Bool) : (s.putFlag c f b).fuseBlowDue = s.fuseBlowDue := rfl
@[simp] theorem State.putFlag_trustKey (c f : Nat) (b : Bool) : (s.putFlag c f b).trustKey = s.trustKey := rfl
@[simp] theorem State.putFlag_quotes (c f : Nat) (b : Bool) : (s.putFlag c f b).quotes = s.quotes := rfl
@[simp] theorem State.putFlag_scrubPos (c f : Nat) (b : Bool) : (s.putFlag c f b).scrubPos = s.scrubPos := rfl
@[simp] theorem State.putFlag_tempHeld (c f : Nat) (b : Bool) : (s.putFlag c f b).tempHeld = s.tempHeld := rfl
@[simp] theorem State.putFlag_tempBelow (c f : Nat) (b : Bool) : (s.putFlag c f b).tempBelow = s.tempBelow := rfl
@[simp] theorem State.putFlag_vset (c f : Nat) (b : Bool) : (s.putFlag c f b).vset = s.vset := rfl

/-! ### setCtx -/

@[simp] theorem State.setCtx_pending (k : Nat) (v : Ctx) : (s.setCtx k v).pending = s.pending := rfl
@[simp] theorem State.setCtx_timeNs (k : Nat) (v : Ctx) : (s.setCtx k v).timeNs = s.timeNs := rfl
@[simp] theorem State.setCtx_sent (k : Nat) (v : Ctx) : (s.setCtx k v).sent = s.sent := rfl
@[simp] theorem State.setCtx_dict (k : Nat) (v : Ctx) : (s.setCtx k v).dict = s.dict := rfl
@[simp] theorem State.setCtx_mem (k : Nat) (v : Ctx) : (s.setCtx k v).mem = s.mem := rfl
@[simp] theorem State.setCtx_poison (k : Nat) (v : Ctx) : (s.setCtx k v).poison = s.poison := rfl
@[simp] theorem State.setCtx_ecc (k : Nat) (v : Ctx) : (s.setCtx k v).ecc = s.ecc := rfl
@[simp] theorem State.setCtx_hostMem (k : Nat) (v : Ctx) : (s.setCtx k v).hostMem = s.hostMem := rfl
@[simp] theorem State.setCtx_ringsOn (k : Nat) (v : Ctx) : (s.setCtx k v).ringsOn = s.ringsOn := rfl
@[simp] theorem State.setCtx_lpRings (k : Nat) (v : Ctx) : (s.setCtx k v).lpRings = s.lpRings := rfl
@[simp] theorem State.setCtx_freeIx (k : Nat) (v : Ctx) : (s.setCtx k v).freeIx = s.freeIx := rfl
@[simp] theorem State.setCtx_pairs (k : Nat) (v : Ctx) : (s.setCtx k v).pairs = s.pairs := rfl
@[simp] theorem State.setCtx_slots (k : Nat) (v : Ctx) : (s.setCtx k v).slots = s.slots := rfl
@[simp] theorem State.setCtx_splits (k : Nat) (v : Ctx) : (s.setCtx k v).splits = s.splits := rfl
@[simp] theorem State.setCtx_groups (k : Nat) (v : Ctx) : (s.setCtx k v).groups = s.groups := rfl
@[simp] theorem State.setCtx_accs (k : Nat) (v : Ctx) : (s.setCtx k v).accs = s.accs := rfl
@[simp] theorem State.setCtx_flags (k : Nat) (v : Ctx) : (s.setCtx k v).flags = s.flags := rfl
@[simp] theorem State.setCtx_overruns (k : Nat) (v : Ctx) : (s.setCtx k v).overruns = s.overruns := rfl
@[simp] theorem State.setCtx_windows (k : Nat) (v : Ctx) : (s.setCtx k v).windows = s.windows := rfl
@[simp] theorem State.setCtx_lastClose (k : Nat) (v : Ctx) : (s.setCtx k v).lastClose = s.lastClose := rfl
@[simp] theorem State.setCtx_closing (k : Nat) (v : Ctx) : (s.setCtx k v).closing = s.closing := rfl
@[simp] theorem State.setCtx_rounds (k : Nat) (v : Ctx) : (s.setCtx k v).rounds = s.rounds := rfl
@[simp] theorem State.setCtx_fabric (k : Nat) (v : Ctx) : (s.setCtx k v).fabric = s.fabric := rfl
@[simp] theorem State.setCtx_sputBad (k : Nat) (v : Ctx) : (s.setCtx k v).sputBad = s.sputBad := rfl
@[simp] theorem State.setCtx_late (k : Nat) (v : Ctx) : (s.setCtx k v).late = s.late := rfl
@[simp] theorem State.setCtx_timeouts (k : Nat) (v : Ctx) : (s.setCtx k v).timeouts = s.timeouts := rfl
@[simp] theorem State.setCtx_waiting (k : Nat) (v : Ctx) : (s.setCtx k v).waiting = s.waiting := rfl
@[simp] theorem State.setCtx_clearing (k : Nat) (v : Ctx) : (s.setCtx k v).clearing = s.clearing := rfl
@[simp] theorem State.setCtx_fullNow (k : Nat) (v : Ctx) : (s.setCtx k v).fullNow = s.fullNow := rfl
@[simp] theorem State.setCtx_adapt (k : Nat) (v : Ctx) : (s.setCtx k v).adapt = s.adapt := rfl
@[simp] theorem State.setCtx_promotions (k : Nat) (v : Ctx) : (s.setCtx k v).promotions = s.promotions := rfl
@[simp] theorem State.setCtx_barred (k : Nat) (v : Ctx) : (s.setCtx k v).barred = s.barred := rfl
@[simp] theorem State.setCtx_handles (k : Nat) (v : Ctx) : (s.setCtx k v).handles = s.handles := rfl
@[simp] theorem State.setCtx_lastSlot (k : Nat) (v : Ctx) : (s.setCtx k v).lastSlot = s.lastSlot := rfl
@[simp] theorem State.setCtx_seqs (k : Nat) (v : Ctx) : (s.setCtx k v).seqs = s.seqs := rfl
@[simp] theorem State.setCtx_stateWait (k : Nat) (v : Ctx) : (s.setCtx k v).stateWait = s.stateWait := rfl
@[simp] theorem State.setCtx_portA (k : Nat) (v : Ctx) : (s.setCtx k v).portA = s.portA := rfl
@[simp] theorem State.setCtx_portB (k : Nat) (v : Ctx) : (s.setCtx k v).portB = s.portB := rfl
@[simp] theorem State.setCtx_emcy (k : Nat) (v : Ctx) : (s.setCtx k v).emcy = s.emcy := rfl
@[simp] theorem State.setCtx_busOffA (k : Nat) (v : Ctx) : (s.setCtx k v).busOffA = s.busOffA := rfl
@[simp] theorem State.setCtx_busOffB (k : Nat) (v : Ctx) : (s.setCtx k v).busOffB = s.busOffB := rfl
@[simp] theorem State.setCtx_busOffRecent (k : Nat) (v : Ctx) : (s.setCtx k v).busOffRecent = s.busOffRecent := rfl
@[simp] theorem State.setCtx_canParams (k : Nat) (v : Ctx) : (s.setCtx k v).canParams = s.canParams := rfl
@[simp] theorem State.setCtx_eps (k : Nat) (v : Ctx) : (s.setCtx k v).eps = s.eps := rfl
@[simp] theorem State.setCtx_life (k : Nat) (v : Ctx) : (s.setCtx k v).life = s.life := rfl
@[simp] theorem State.setCtx_unbound (k : Nat) (v : Ctx) : (s.setCtx k v).unbound = s.unbound := rfl
@[simp] theorem State.setCtx_announced (k : Nat) (v : Ctx) : (s.setCtx k v).announced = s.announced := rfl
@[simp] theorem State.setCtx_discards (k : Nat) (v : Ctx) : (s.setCtx k v).discards = s.discards := rfl
@[simp] theorem State.setCtx_eccFixed (k : Nat) (v : Ctx) : (s.setCtx k v).eccFixed = s.eccFixed := rfl
@[simp] theorem State.setCtx_skipped (k : Nat) (v : Ctx) : (s.setCtx k v).skipped = s.skipped := rfl
@[simp] theorem State.setCtx_dgramDrops (k : Nat) (v : Ctx) : (s.setCtx k v).dgramDrops = s.dgramDrops := rfl
@[simp] theorem State.setCtx_tables (k : Nat) (v : Ctx) : (s.setCtx k v).tables = s.tables := rfl
@[simp] theorem State.setCtx_meshBase (k : Nat) (v : Ctx) : (s.setCtx k v).meshBase = s.meshBase := rfl
@[simp] theorem State.setCtx_raw (k : Nat) (v : Ctx) : (s.setCtx k v).raw = s.raw := rfl
@[simp] theorem State.setCtx_views (k : Nat) (v : Ctx) : (s.setCtx k v).views = s.views := rfl
@[simp] theorem State.setCtx_sweeps (k : Nat) (v : Ctx) : (s.setCtx k v).sweeps = s.sweeps := rfl
@[simp] theorem State.setCtx_sweepsPrev (k : Nat) (v : Ctx) : (s.setCtx k v).sweepsPrev = s.sweepsPrev := rfl
@[simp] theorem State.setCtx_meshQueue (k : Nat) (v : Ctx) : (s.setCtx k v).meshQueue = s.meshQueue := rfl
@[simp] theorem State.setCtx_fetched (k : Nat) (v : Ctx) : (s.setCtx k v).fetched = s.fetched := rfl
@[simp] theorem State.setCtx_calib (k : Nat) (v : Ctx) : (s.setCtx k v).calib = s.calib := rfl
@[simp] theorem State.setCtx_lensMesh (k : Nat) (v : Ctx) : (s.setCtx k v).lensMesh = s.lensMesh := rfl
@[simp] theorem State.setCtx_motion (k : Nat) (v : Ctx) : (s.setCtx k v).motion = s.motion := rfl
@[simp] theorem State.setCtx_egoLate (k : Nat) (v : Ctx) : (s.setCtx k v).egoLate = s.egoLate := rfl
@[simp] theorem State.setCtx_triggers (k : Nat) (v : Ctx) : (s.setCtx k v).triggers = s.triggers := rfl
@[simp] theorem State.setCtx_gptpSync (k : Nat) (v : Ctx) : (s.setCtx k v).gptpSync = s.gptpSync := rfl
@[simp] theorem State.setCtx_ticked (k : Nat) (v : Ctx) : (s.setCtx k v).ticked = s.ticked := rfl
@[simp] theorem State.setCtx_tickPredicted (k : Nat) (v : Ctx) : (s.setCtx k v).tickPredicted = s.tickPredicted := rfl
@[simp] theorem State.setCtx_tickPrev (k : Nat) (v : Ctx) : (s.setCtx k v).tickPrev = s.tickPrev := rfl
@[simp] theorem State.setCtx_lockGood (k : Nat) (v : Ctx) : (s.setCtx k v).lockGood = s.lockGood := rfl
@[simp] theorem State.setCtx_frame (k : Nat) (v : Ctx) : (s.setCtx k v).frame = s.frame := rfl
@[simp] theorem State.setCtx_disagreements (k : Nat) (v : Ctx) : (s.setCtx k v).disagreements = s.disagreements := rfl
@[simp] theorem State.setCtx_logOpen (k : Nat) (v : Ctx) : (s.setCtx k v).logOpen = s.logOpen := rfl
@[simp] theorem State.setCtx_safeOk (k : Nat) (v : Ctx) : (s.setCtx k v).safeOk = s.safeOk := rfl
@[simp] theorem State.setCtx_faultN (k : Nat) (v : Ctx) : (s.setCtx k v).faultN = s.faultN := rfl
@[simp] theorem State.setCtx_poresetN (k : Nat) (v : Ctx) : (s.setCtx k v).poresetN = s.poresetN := rfl
@[simp] theorem State.setCtx_pwrEn (k : Nat) (v : Ctx) : (s.setCtx k v).pwrEn = s.pwrEn := rfl
@[simp] theorem State.setCtx_pwrGood (k : Nat) (v : Ctx) : (s.setCtx k v).pwrGood = s.pwrGood := rfl
@[simp] theorem State.setCtx_thermalHold (k : Nat) (v : Ctx) : (s.setCtx k v).thermalHold = s.thermalHold := rfl
@[simp] theorem State.setCtx_laterCauses (k : Nat) (v : Ctx) : (s.setCtx k v).laterCauses = s.laterCauses := rfl
@[simp] theorem State.setCtx_parts (k : Nat) (v : Ctx) : (s.setCtx k v).parts = s.parts := rfl
@[simp] theorem State.setCtx_devReset (k : Nat) (v : Ctx) : (s.setCtx k v).devReset = s.devReset := rfl
@[simp] theorem State.setCtx_devCause (k : Nat) (v : Ctx) : (s.setCtx k v).devCause = s.devCause := rfl
@[simp] theorem State.setCtx_devLater (k : Nat) (v : Ctx) : (s.setCtx k v).devLater = s.devLater := rfl
@[simp] theorem State.setCtx_aonLog (k : Nat) (v : Ctx) : (s.setCtx k v).aonLog = s.aonLog := rfl
@[simp] theorem State.setCtx_aonCodes (k : Nat) (v : Ctx) : (s.setCtx k v).aonCodes = s.aonCodes := rfl
@[simp] theorem State.setCtx_aonDict (k : Nat) (v : Ctx) : (s.setCtx k v).aonDict = s.aonDict := rfl
@[simp] theorem State.setCtx_resetCause (k : Nat) (v : Ctx) : (s.setCtx k v).resetCause = s.resetCause := rfl
@[simp] theorem State.setCtx_activity (k : Nat) (v : Ctx) : (s.setCtx k v).activity = s.activity := rfl
@[simp] theorem State.setCtx_lpFrom (k : Nat) (v : Ctx) : (s.setCtx k v).lpFrom = s.lpFrom := rfl
@[simp] theorem State.setCtx_wake (k : Nat) (v : Ctx) : (s.setCtx k v).wake = s.wake := rfl
@[simp] theorem State.setCtx_wakeMask (k : Nat) (v : Ctx) : (s.setCtx k v).wakeMask = s.wakeMask := rfl
@[simp] theorem State.setCtx_wakeTimer (k : Nat) (v : Ctx) : (s.setCtx k v).wakeTimer = s.wakeTimer := rfl
@[simp] theorem State.setCtx_lpExitBegun (k : Nat) (v : Ctx) : (s.setCtx k v).lpExitBegun = s.lpExitBegun := rfl
@[simp] theorem State.setCtx_lpRails (k : Nat) (v : Ctx) : (s.setCtx k v).lpRails = s.lpRails := rfl
@[simp] theorem State.setCtx_graceDue (k : Nat) (v : Ctx) : (s.setCtx k v).graceDue = s.graceDue := rfl
@[simp] theorem State.setCtx_lpStuck (k : Nat) (v : Ctx) : (s.setCtx k v).lpStuck = s.lpStuck := rfl
@[simp] theorem State.setCtx_testCap (k : Nat) (v : Ctx) : (s.setCtx k v).testCap = s.testCap := rfl
@[simp] theorem State.setCtx_rateAt (k : Nat) (v : Ctx) : (s.setCtx k v).rateAt = s.rateAt := rfl
@[simp] theorem State.setCtx_rateMark (k : Nat) (v : Ctx) : (s.setCtx k v).rateMark = s.rateMark := rfl
@[simp] theorem State.setCtx_slowHeld (k : Nat) (v : Ctx) : (s.setCtx k v).slowHeld = s.slowHeld := rfl
@[simp] theorem State.setCtx_fuses (k : Nat) (v : Ctx) : (s.setCtx k v).fuses = s.fuses := rfl
@[simp] theorem State.setCtx_fitted (k : Nat) (v : Ctx) : (s.setCtx k v).fitted = s.fitted := rfl
@[simp] theorem State.setCtx_safeState (k : Nat) (v : Ctx) : (s.setCtx k v).safeState = s.safeState := rfl
@[simp] theorem State.setCtx_romWait (k : Nat) (v : Ctx) : (s.setCtx k v).romWait = s.romWait := rfl
@[simp] theorem State.setCtx_bootDue (k : Nat) (v : Ctx) : (s.setCtx k v).bootDue = s.bootDue := rfl
@[simp] theorem State.setCtx_owedReset (k : Nat) (v : Ctx) : (s.setCtx k v).owedReset = s.owedReset := rfl
@[simp] theorem State.setCtx_romSource (k : Nat) (v : Ctx) : (s.setCtx k v).romSource = s.romSource := rfl
@[simp] theorem State.setCtx_bootDigest (k : Nat) (v : Ctx) : (s.setCtx k v).bootDigest = s.bootDigest := rfl
@[simp] theorem State.setCtx_imageLevel (k : Nat) (v : Ctx) : (s.setCtx k v).imageLevel = s.imageLevel := rfl
@[simp] theorem State.setCtx_imageRevoke (k : Nat) (v : Ctx) : (s.setCtx k v).imageRevoke = s.imageRevoke := rfl
@[simp] theorem State.setCtx_fuseBlowDue (k : Nat) (v : Ctx) : (s.setCtx k v).fuseBlowDue = s.fuseBlowDue := rfl
@[simp] theorem State.setCtx_trustKey (k : Nat) (v : Ctx) : (s.setCtx k v).trustKey = s.trustKey := rfl
@[simp] theorem State.setCtx_quotes (k : Nat) (v : Ctx) : (s.setCtx k v).quotes = s.quotes := rfl
@[simp] theorem State.setCtx_scrubPos (k : Nat) (v : Ctx) : (s.setCtx k v).scrubPos = s.scrubPos := rfl
@[simp] theorem State.setCtx_tempHeld (k : Nat) (v : Ctx) : (s.setCtx k v).tempHeld = s.tempHeld := rfl
@[simp] theorem State.setCtx_tempBelow (k : Nat) (v : Ctx) : (s.setCtx k v).tempBelow = s.tempBelow := rfl
@[simp] theorem State.setCtx_vset (k : Nat) (v : Ctx) : (s.setCtx k v).vset = s.vset := rfl

/-! ### setEp -/

@[simp] theorem State.setEp_pending (e : Nat) (v : Endpoint) : (s.setEp e v).pending = s.pending := rfl
@[simp] theorem State.setEp_timeNs (e : Nat) (v : Endpoint) : (s.setEp e v).timeNs = s.timeNs := rfl
@[simp] theorem State.setEp_sent (e : Nat) (v : Endpoint) : (s.setEp e v).sent = s.sent := rfl
@[simp] theorem State.setEp_dict (e : Nat) (v : Endpoint) : (s.setEp e v).dict = s.dict := rfl
@[simp] theorem State.setEp_mem (e : Nat) (v : Endpoint) : (s.setEp e v).mem = s.mem := rfl
@[simp] theorem State.setEp_poison (e : Nat) (v : Endpoint) : (s.setEp e v).poison = s.poison := rfl
@[simp] theorem State.setEp_ecc (e : Nat) (v : Endpoint) : (s.setEp e v).ecc = s.ecc := rfl
@[simp] theorem State.setEp_hostMem (e : Nat) (v : Endpoint) : (s.setEp e v).hostMem = s.hostMem := rfl
@[simp] theorem State.setEp_ringsOn (e : Nat) (v : Endpoint) : (s.setEp e v).ringsOn = s.ringsOn := rfl
@[simp] theorem State.setEp_lpRings (e : Nat) (v : Endpoint) : (s.setEp e v).lpRings = s.lpRings := rfl
@[simp] theorem State.setEp_freeIx (e : Nat) (v : Endpoint) : (s.setEp e v).freeIx = s.freeIx := rfl
@[simp] theorem State.setEp_pairs (e : Nat) (v : Endpoint) : (s.setEp e v).pairs = s.pairs := rfl
@[simp] theorem State.setEp_slots (e : Nat) (v : Endpoint) : (s.setEp e v).slots = s.slots := rfl
@[simp] theorem State.setEp_splits (e : Nat) (v : Endpoint) : (s.setEp e v).splits = s.splits := rfl
@[simp] theorem State.setEp_groups (e : Nat) (v : Endpoint) : (s.setEp e v).groups = s.groups := rfl
@[simp] theorem State.setEp_accs (e : Nat) (v : Endpoint) : (s.setEp e v).accs = s.accs := rfl
@[simp] theorem State.setEp_flags (e : Nat) (v : Endpoint) : (s.setEp e v).flags = s.flags := rfl
@[simp] theorem State.setEp_overruns (e : Nat) (v : Endpoint) : (s.setEp e v).overruns = s.overruns := rfl
@[simp] theorem State.setEp_windows (e : Nat) (v : Endpoint) : (s.setEp e v).windows = s.windows := rfl
@[simp] theorem State.setEp_lastClose (e : Nat) (v : Endpoint) : (s.setEp e v).lastClose = s.lastClose := rfl
@[simp] theorem State.setEp_closing (e : Nat) (v : Endpoint) : (s.setEp e v).closing = s.closing := rfl
@[simp] theorem State.setEp_rounds (e : Nat) (v : Endpoint) : (s.setEp e v).rounds = s.rounds := rfl
@[simp] theorem State.setEp_fabric (e : Nat) (v : Endpoint) : (s.setEp e v).fabric = s.fabric := rfl
@[simp] theorem State.setEp_sputBad (e : Nat) (v : Endpoint) : (s.setEp e v).sputBad = s.sputBad := rfl
@[simp] theorem State.setEp_late (e : Nat) (v : Endpoint) : (s.setEp e v).late = s.late := rfl
@[simp] theorem State.setEp_timeouts (e : Nat) (v : Endpoint) : (s.setEp e v).timeouts = s.timeouts := rfl
@[simp] theorem State.setEp_ctxs (e : Nat) (v : Endpoint) : (s.setEp e v).ctxs = s.ctxs := rfl
@[simp] theorem State.setEp_waiting (e : Nat) (v : Endpoint) : (s.setEp e v).waiting = s.waiting := rfl
@[simp] theorem State.setEp_clearing (e : Nat) (v : Endpoint) : (s.setEp e v).clearing = s.clearing := rfl
@[simp] theorem State.setEp_fullNow (e : Nat) (v : Endpoint) : (s.setEp e v).fullNow = s.fullNow := rfl
@[simp] theorem State.setEp_adapt (e : Nat) (v : Endpoint) : (s.setEp e v).adapt = s.adapt := rfl
@[simp] theorem State.setEp_promotions (e : Nat) (v : Endpoint) : (s.setEp e v).promotions = s.promotions := rfl
@[simp] theorem State.setEp_barred (e : Nat) (v : Endpoint) : (s.setEp e v).barred = s.barred := rfl
@[simp] theorem State.setEp_handles (e : Nat) (v : Endpoint) : (s.setEp e v).handles = s.handles := rfl
@[simp] theorem State.setEp_lastSlot (e : Nat) (v : Endpoint) : (s.setEp e v).lastSlot = s.lastSlot := rfl
@[simp] theorem State.setEp_seqs (e : Nat) (v : Endpoint) : (s.setEp e v).seqs = s.seqs := rfl
@[simp] theorem State.setEp_stateWait (e : Nat) (v : Endpoint) : (s.setEp e v).stateWait = s.stateWait := rfl
@[simp] theorem State.setEp_portA (e : Nat) (v : Endpoint) : (s.setEp e v).portA = s.portA := rfl
@[simp] theorem State.setEp_portB (e : Nat) (v : Endpoint) : (s.setEp e v).portB = s.portB := rfl
@[simp] theorem State.setEp_emcy (e : Nat) (v : Endpoint) : (s.setEp e v).emcy = s.emcy := rfl
@[simp] theorem State.setEp_busOffA (e : Nat) (v : Endpoint) : (s.setEp e v).busOffA = s.busOffA := rfl
@[simp] theorem State.setEp_busOffB (e : Nat) (v : Endpoint) : (s.setEp e v).busOffB = s.busOffB := rfl
@[simp] theorem State.setEp_busOffRecent (e : Nat) (v : Endpoint) : (s.setEp e v).busOffRecent = s.busOffRecent := rfl
@[simp] theorem State.setEp_canParams (e : Nat) (v : Endpoint) : (s.setEp e v).canParams = s.canParams := rfl
@[simp] theorem State.setEp_life (e : Nat) (v : Endpoint) : (s.setEp e v).life = s.life := rfl
@[simp] theorem State.setEp_unbound (e : Nat) (v : Endpoint) : (s.setEp e v).unbound = s.unbound := rfl
@[simp] theorem State.setEp_announced (e : Nat) (v : Endpoint) : (s.setEp e v).announced = s.announced := rfl
@[simp] theorem State.setEp_discards (e : Nat) (v : Endpoint) : (s.setEp e v).discards = s.discards := rfl
@[simp] theorem State.setEp_eccFixed (e : Nat) (v : Endpoint) : (s.setEp e v).eccFixed = s.eccFixed := rfl
@[simp] theorem State.setEp_skipped (e : Nat) (v : Endpoint) : (s.setEp e v).skipped = s.skipped := rfl
@[simp] theorem State.setEp_dgramDrops (e : Nat) (v : Endpoint) : (s.setEp e v).dgramDrops = s.dgramDrops := rfl
@[simp] theorem State.setEp_tables (e : Nat) (v : Endpoint) : (s.setEp e v).tables = s.tables := rfl
@[simp] theorem State.setEp_meshBase (e : Nat) (v : Endpoint) : (s.setEp e v).meshBase = s.meshBase := rfl
@[simp] theorem State.setEp_raw (e : Nat) (v : Endpoint) : (s.setEp e v).raw = s.raw := rfl
@[simp] theorem State.setEp_views (e : Nat) (v : Endpoint) : (s.setEp e v).views = s.views := rfl
@[simp] theorem State.setEp_sweeps (e : Nat) (v : Endpoint) : (s.setEp e v).sweeps = s.sweeps := rfl
@[simp] theorem State.setEp_sweepsPrev (e : Nat) (v : Endpoint) : (s.setEp e v).sweepsPrev = s.sweepsPrev := rfl
@[simp] theorem State.setEp_meshQueue (e : Nat) (v : Endpoint) : (s.setEp e v).meshQueue = s.meshQueue := rfl
@[simp] theorem State.setEp_fetched (e : Nat) (v : Endpoint) : (s.setEp e v).fetched = s.fetched := rfl
@[simp] theorem State.setEp_calib (e : Nat) (v : Endpoint) : (s.setEp e v).calib = s.calib := rfl
@[simp] theorem State.setEp_lensMesh (e : Nat) (v : Endpoint) : (s.setEp e v).lensMesh = s.lensMesh := rfl
@[simp] theorem State.setEp_motion (e : Nat) (v : Endpoint) : (s.setEp e v).motion = s.motion := rfl
@[simp] theorem State.setEp_egoLate (e : Nat) (v : Endpoint) : (s.setEp e v).egoLate = s.egoLate := rfl
@[simp] theorem State.setEp_triggers (e : Nat) (v : Endpoint) : (s.setEp e v).triggers = s.triggers := rfl
@[simp] theorem State.setEp_gptpSync (e : Nat) (v : Endpoint) : (s.setEp e v).gptpSync = s.gptpSync := rfl
@[simp] theorem State.setEp_ticked (e : Nat) (v : Endpoint) : (s.setEp e v).ticked = s.ticked := rfl
@[simp] theorem State.setEp_tickPredicted (e : Nat) (v : Endpoint) : (s.setEp e v).tickPredicted = s.tickPredicted := rfl
@[simp] theorem State.setEp_tickPrev (e : Nat) (v : Endpoint) : (s.setEp e v).tickPrev = s.tickPrev := rfl
@[simp] theorem State.setEp_lockGood (e : Nat) (v : Endpoint) : (s.setEp e v).lockGood = s.lockGood := rfl
@[simp] theorem State.setEp_frame (e : Nat) (v : Endpoint) : (s.setEp e v).frame = s.frame := rfl
@[simp] theorem State.setEp_disagreements (e : Nat) (v : Endpoint) : (s.setEp e v).disagreements = s.disagreements := rfl
@[simp] theorem State.setEp_logOpen (e : Nat) (v : Endpoint) : (s.setEp e v).logOpen = s.logOpen := rfl
@[simp] theorem State.setEp_safeOk (e : Nat) (v : Endpoint) : (s.setEp e v).safeOk = s.safeOk := rfl
@[simp] theorem State.setEp_faultN (e : Nat) (v : Endpoint) : (s.setEp e v).faultN = s.faultN := rfl
@[simp] theorem State.setEp_poresetN (e : Nat) (v : Endpoint) : (s.setEp e v).poresetN = s.poresetN := rfl
@[simp] theorem State.setEp_pwrEn (e : Nat) (v : Endpoint) : (s.setEp e v).pwrEn = s.pwrEn := rfl
@[simp] theorem State.setEp_pwrGood (e : Nat) (v : Endpoint) : (s.setEp e v).pwrGood = s.pwrGood := rfl
@[simp] theorem State.setEp_thermalHold (e : Nat) (v : Endpoint) : (s.setEp e v).thermalHold = s.thermalHold := rfl
@[simp] theorem State.setEp_laterCauses (e : Nat) (v : Endpoint) : (s.setEp e v).laterCauses = s.laterCauses := rfl
@[simp] theorem State.setEp_parts (e : Nat) (v : Endpoint) : (s.setEp e v).parts = s.parts := rfl
@[simp] theorem State.setEp_devReset (e : Nat) (v : Endpoint) : (s.setEp e v).devReset = s.devReset := rfl
@[simp] theorem State.setEp_devCause (e : Nat) (v : Endpoint) : (s.setEp e v).devCause = s.devCause := rfl
@[simp] theorem State.setEp_devLater (e : Nat) (v : Endpoint) : (s.setEp e v).devLater = s.devLater := rfl
@[simp] theorem State.setEp_aonLog (e : Nat) (v : Endpoint) : (s.setEp e v).aonLog = s.aonLog := rfl
@[simp] theorem State.setEp_aonCodes (e : Nat) (v : Endpoint) : (s.setEp e v).aonCodes = s.aonCodes := rfl
@[simp] theorem State.setEp_aonDict (e : Nat) (v : Endpoint) : (s.setEp e v).aonDict = s.aonDict := rfl
@[simp] theorem State.setEp_resetCause (e : Nat) (v : Endpoint) : (s.setEp e v).resetCause = s.resetCause := rfl
@[simp] theorem State.setEp_activity (e : Nat) (v : Endpoint) : (s.setEp e v).activity = s.activity := rfl
@[simp] theorem State.setEp_lpFrom (e : Nat) (v : Endpoint) : (s.setEp e v).lpFrom = s.lpFrom := rfl
@[simp] theorem State.setEp_wake (e : Nat) (v : Endpoint) : (s.setEp e v).wake = s.wake := rfl
@[simp] theorem State.setEp_wakeMask (e : Nat) (v : Endpoint) : (s.setEp e v).wakeMask = s.wakeMask := rfl
@[simp] theorem State.setEp_wakeTimer (e : Nat) (v : Endpoint) : (s.setEp e v).wakeTimer = s.wakeTimer := rfl
@[simp] theorem State.setEp_lpExitBegun (e : Nat) (v : Endpoint) : (s.setEp e v).lpExitBegun = s.lpExitBegun := rfl
@[simp] theorem State.setEp_lpRails (e : Nat) (v : Endpoint) : (s.setEp e v).lpRails = s.lpRails := rfl
@[simp] theorem State.setEp_graceDue (e : Nat) (v : Endpoint) : (s.setEp e v).graceDue = s.graceDue := rfl
@[simp] theorem State.setEp_lpStuck (e : Nat) (v : Endpoint) : (s.setEp e v).lpStuck = s.lpStuck := rfl
@[simp] theorem State.setEp_testCap (e : Nat) (v : Endpoint) : (s.setEp e v).testCap = s.testCap := rfl
@[simp] theorem State.setEp_rateAt (e : Nat) (v : Endpoint) : (s.setEp e v).rateAt = s.rateAt := rfl
@[simp] theorem State.setEp_rateMark (e : Nat) (v : Endpoint) : (s.setEp e v).rateMark = s.rateMark := rfl
@[simp] theorem State.setEp_slowHeld (e : Nat) (v : Endpoint) : (s.setEp e v).slowHeld = s.slowHeld := rfl
@[simp] theorem State.setEp_fuses (e : Nat) (v : Endpoint) : (s.setEp e v).fuses = s.fuses := rfl
@[simp] theorem State.setEp_fitted (e : Nat) (v : Endpoint) : (s.setEp e v).fitted = s.fitted := rfl
@[simp] theorem State.setEp_safeState (e : Nat) (v : Endpoint) : (s.setEp e v).safeState = s.safeState := rfl
@[simp] theorem State.setEp_romWait (e : Nat) (v : Endpoint) : (s.setEp e v).romWait = s.romWait := rfl
@[simp] theorem State.setEp_bootDue (e : Nat) (v : Endpoint) : (s.setEp e v).bootDue = s.bootDue := rfl
@[simp] theorem State.setEp_owedReset (e : Nat) (v : Endpoint) : (s.setEp e v).owedReset = s.owedReset := rfl
@[simp] theorem State.setEp_romSource (e : Nat) (v : Endpoint) : (s.setEp e v).romSource = s.romSource := rfl
@[simp] theorem State.setEp_bootDigest (e : Nat) (v : Endpoint) : (s.setEp e v).bootDigest = s.bootDigest := rfl
@[simp] theorem State.setEp_imageLevel (e : Nat) (v : Endpoint) : (s.setEp e v).imageLevel = s.imageLevel := rfl
@[simp] theorem State.setEp_imageRevoke (e : Nat) (v : Endpoint) : (s.setEp e v).imageRevoke = s.imageRevoke := rfl
@[simp] theorem State.setEp_fuseBlowDue (e : Nat) (v : Endpoint) : (s.setEp e v).fuseBlowDue = s.fuseBlowDue := rfl
@[simp] theorem State.setEp_trustKey (e : Nat) (v : Endpoint) : (s.setEp e v).trustKey = s.trustKey := rfl
@[simp] theorem State.setEp_quotes (e : Nat) (v : Endpoint) : (s.setEp e v).quotes = s.quotes := rfl
@[simp] theorem State.setEp_scrubPos (e : Nat) (v : Endpoint) : (s.setEp e v).scrubPos = s.scrubPos := rfl
@[simp] theorem State.setEp_tempHeld (e : Nat) (v : Endpoint) : (s.setEp e v).tempHeld = s.tempHeld := rfl
@[simp] theorem State.setEp_tempBelow (e : Nat) (v : Endpoint) : (s.setEp e v).tempBelow = s.tempBelow := rfl
@[simp] theorem State.setEp_vset (e : Nat) (v : Endpoint) : (s.setEp e v).vset = s.vset := rfl

/-! ### setPart -/

@[simp] theorem State.setPart_pending (p : Nat) (v : Partition) : (s.setPart p v).pending = s.pending := rfl
@[simp] theorem State.setPart_timeNs (p : Nat) (v : Partition) : (s.setPart p v).timeNs = s.timeNs := rfl
@[simp] theorem State.setPart_sent (p : Nat) (v : Partition) : (s.setPart p v).sent = s.sent := rfl
@[simp] theorem State.setPart_dict (p : Nat) (v : Partition) : (s.setPart p v).dict = s.dict := rfl
@[simp] theorem State.setPart_mem (p : Nat) (v : Partition) : (s.setPart p v).mem = s.mem := rfl
@[simp] theorem State.setPart_poison (p : Nat) (v : Partition) : (s.setPart p v).poison = s.poison := rfl
@[simp] theorem State.setPart_ecc (p : Nat) (v : Partition) : (s.setPart p v).ecc = s.ecc := rfl
@[simp] theorem State.setPart_hostMem (p : Nat) (v : Partition) : (s.setPart p v).hostMem = s.hostMem := rfl
@[simp] theorem State.setPart_ringsOn (p : Nat) (v : Partition) : (s.setPart p v).ringsOn = s.ringsOn := rfl
@[simp] theorem State.setPart_lpRings (p : Nat) (v : Partition) : (s.setPart p v).lpRings = s.lpRings := rfl
@[simp] theorem State.setPart_freeIx (p : Nat) (v : Partition) : (s.setPart p v).freeIx = s.freeIx := rfl
@[simp] theorem State.setPart_pairs (p : Nat) (v : Partition) : (s.setPart p v).pairs = s.pairs := rfl
@[simp] theorem State.setPart_slots (p : Nat) (v : Partition) : (s.setPart p v).slots = s.slots := rfl
@[simp] theorem State.setPart_splits (p : Nat) (v : Partition) : (s.setPart p v).splits = s.splits := rfl
@[simp] theorem State.setPart_groups (p : Nat) (v : Partition) : (s.setPart p v).groups = s.groups := rfl
@[simp] theorem State.setPart_accs (p : Nat) (v : Partition) : (s.setPart p v).accs = s.accs := rfl
@[simp] theorem State.setPart_flags (p : Nat) (v : Partition) : (s.setPart p v).flags = s.flags := rfl
@[simp] theorem State.setPart_overruns (p : Nat) (v : Partition) : (s.setPart p v).overruns = s.overruns := rfl
@[simp] theorem State.setPart_windows (p : Nat) (v : Partition) : (s.setPart p v).windows = s.windows := rfl
@[simp] theorem State.setPart_lastClose (p : Nat) (v : Partition) : (s.setPart p v).lastClose = s.lastClose := rfl
@[simp] theorem State.setPart_closing (p : Nat) (v : Partition) : (s.setPart p v).closing = s.closing := rfl
@[simp] theorem State.setPart_rounds (p : Nat) (v : Partition) : (s.setPart p v).rounds = s.rounds := rfl
@[simp] theorem State.setPart_fabric (p : Nat) (v : Partition) : (s.setPart p v).fabric = s.fabric := rfl
@[simp] theorem State.setPart_sputBad (p : Nat) (v : Partition) : (s.setPart p v).sputBad = s.sputBad := rfl
@[simp] theorem State.setPart_late (p : Nat) (v : Partition) : (s.setPart p v).late = s.late := rfl
@[simp] theorem State.setPart_timeouts (p : Nat) (v : Partition) : (s.setPart p v).timeouts = s.timeouts := rfl
@[simp] theorem State.setPart_ctxs (p : Nat) (v : Partition) : (s.setPart p v).ctxs = s.ctxs := rfl
@[simp] theorem State.setPart_waiting (p : Nat) (v : Partition) : (s.setPart p v).waiting = s.waiting := rfl
@[simp] theorem State.setPart_clearing (p : Nat) (v : Partition) : (s.setPart p v).clearing = s.clearing := rfl
@[simp] theorem State.setPart_fullNow (p : Nat) (v : Partition) : (s.setPart p v).fullNow = s.fullNow := rfl
@[simp] theorem State.setPart_adapt (p : Nat) (v : Partition) : (s.setPart p v).adapt = s.adapt := rfl
@[simp] theorem State.setPart_promotions (p : Nat) (v : Partition) : (s.setPart p v).promotions = s.promotions := rfl
@[simp] theorem State.setPart_barred (p : Nat) (v : Partition) : (s.setPart p v).barred = s.barred := rfl
@[simp] theorem State.setPart_handles (p : Nat) (v : Partition) : (s.setPart p v).handles = s.handles := rfl
@[simp] theorem State.setPart_lastSlot (p : Nat) (v : Partition) : (s.setPart p v).lastSlot = s.lastSlot := rfl
@[simp] theorem State.setPart_seqs (p : Nat) (v : Partition) : (s.setPart p v).seqs = s.seqs := rfl
@[simp] theorem State.setPart_stateWait (p : Nat) (v : Partition) : (s.setPart p v).stateWait = s.stateWait := rfl
@[simp] theorem State.setPart_portA (p : Nat) (v : Partition) : (s.setPart p v).portA = s.portA := rfl
@[simp] theorem State.setPart_portB (p : Nat) (v : Partition) : (s.setPart p v).portB = s.portB := rfl
@[simp] theorem State.setPart_emcy (p : Nat) (v : Partition) : (s.setPart p v).emcy = s.emcy := rfl
@[simp] theorem State.setPart_busOffA (p : Nat) (v : Partition) : (s.setPart p v).busOffA = s.busOffA := rfl
@[simp] theorem State.setPart_busOffB (p : Nat) (v : Partition) : (s.setPart p v).busOffB = s.busOffB := rfl
@[simp] theorem State.setPart_busOffRecent (p : Nat) (v : Partition) : (s.setPart p v).busOffRecent = s.busOffRecent := rfl
@[simp] theorem State.setPart_canParams (p : Nat) (v : Partition) : (s.setPart p v).canParams = s.canParams := rfl
@[simp] theorem State.setPart_eps (p : Nat) (v : Partition) : (s.setPart p v).eps = s.eps := rfl
@[simp] theorem State.setPart_life (p : Nat) (v : Partition) : (s.setPart p v).life = s.life := rfl
@[simp] theorem State.setPart_unbound (p : Nat) (v : Partition) : (s.setPart p v).unbound = s.unbound := rfl
@[simp] theorem State.setPart_announced (p : Nat) (v : Partition) : (s.setPart p v).announced = s.announced := rfl
@[simp] theorem State.setPart_discards (p : Nat) (v : Partition) : (s.setPart p v).discards = s.discards := rfl
@[simp] theorem State.setPart_eccFixed (p : Nat) (v : Partition) : (s.setPart p v).eccFixed = s.eccFixed := rfl
@[simp] theorem State.setPart_skipped (p : Nat) (v : Partition) : (s.setPart p v).skipped = s.skipped := rfl
@[simp] theorem State.setPart_dgramDrops (p : Nat) (v : Partition) : (s.setPart p v).dgramDrops = s.dgramDrops := rfl
@[simp] theorem State.setPart_tables (p : Nat) (v : Partition) : (s.setPart p v).tables = s.tables := rfl
@[simp] theorem State.setPart_meshBase (p : Nat) (v : Partition) : (s.setPart p v).meshBase = s.meshBase := rfl
@[simp] theorem State.setPart_raw (p : Nat) (v : Partition) : (s.setPart p v).raw = s.raw := rfl
@[simp] theorem State.setPart_views (p : Nat) (v : Partition) : (s.setPart p v).views = s.views := rfl
@[simp] theorem State.setPart_sweeps (p : Nat) (v : Partition) : (s.setPart p v).sweeps = s.sweeps := rfl
@[simp] theorem State.setPart_sweepsPrev (p : Nat) (v : Partition) : (s.setPart p v).sweepsPrev = s.sweepsPrev := rfl
@[simp] theorem State.setPart_meshQueue (p : Nat) (v : Partition) : (s.setPart p v).meshQueue = s.meshQueue := rfl
@[simp] theorem State.setPart_fetched (p : Nat) (v : Partition) : (s.setPart p v).fetched = s.fetched := rfl
@[simp] theorem State.setPart_calib (p : Nat) (v : Partition) : (s.setPart p v).calib = s.calib := rfl
@[simp] theorem State.setPart_lensMesh (p : Nat) (v : Partition) : (s.setPart p v).lensMesh = s.lensMesh := rfl
@[simp] theorem State.setPart_motion (p : Nat) (v : Partition) : (s.setPart p v).motion = s.motion := rfl
@[simp] theorem State.setPart_egoLate (p : Nat) (v : Partition) : (s.setPart p v).egoLate = s.egoLate := rfl
@[simp] theorem State.setPart_triggers (p : Nat) (v : Partition) : (s.setPart p v).triggers = s.triggers := rfl
@[simp] theorem State.setPart_gptpSync (p : Nat) (v : Partition) : (s.setPart p v).gptpSync = s.gptpSync := rfl
@[simp] theorem State.setPart_ticked (p : Nat) (v : Partition) : (s.setPart p v).ticked = s.ticked := rfl
@[simp] theorem State.setPart_tickPredicted (p : Nat) (v : Partition) : (s.setPart p v).tickPredicted = s.tickPredicted := rfl
@[simp] theorem State.setPart_tickPrev (p : Nat) (v : Partition) : (s.setPart p v).tickPrev = s.tickPrev := rfl
@[simp] theorem State.setPart_lockGood (p : Nat) (v : Partition) : (s.setPart p v).lockGood = s.lockGood := rfl
@[simp] theorem State.setPart_frame (p : Nat) (v : Partition) : (s.setPart p v).frame = s.frame := rfl
@[simp] theorem State.setPart_disagreements (p : Nat) (v : Partition) : (s.setPart p v).disagreements = s.disagreements := rfl
@[simp] theorem State.setPart_logOpen (p : Nat) (v : Partition) : (s.setPart p v).logOpen = s.logOpen := rfl
@[simp] theorem State.setPart_safeOk (p : Nat) (v : Partition) : (s.setPart p v).safeOk = s.safeOk := rfl
@[simp] theorem State.setPart_faultN (p : Nat) (v : Partition) : (s.setPart p v).faultN = s.faultN := rfl
@[simp] theorem State.setPart_poresetN (p : Nat) (v : Partition) : (s.setPart p v).poresetN = s.poresetN := rfl
@[simp] theorem State.setPart_pwrEn (p : Nat) (v : Partition) : (s.setPart p v).pwrEn = s.pwrEn := rfl
@[simp] theorem State.setPart_pwrGood (p : Nat) (v : Partition) : (s.setPart p v).pwrGood = s.pwrGood := rfl
@[simp] theorem State.setPart_thermalHold (p : Nat) (v : Partition) : (s.setPart p v).thermalHold = s.thermalHold := rfl
@[simp] theorem State.setPart_laterCauses (p : Nat) (v : Partition) : (s.setPart p v).laterCauses = s.laterCauses := rfl
@[simp] theorem State.setPart_devReset (p : Nat) (v : Partition) : (s.setPart p v).devReset = s.devReset := rfl
@[simp] theorem State.setPart_devCause (p : Nat) (v : Partition) : (s.setPart p v).devCause = s.devCause := rfl
@[simp] theorem State.setPart_devLater (p : Nat) (v : Partition) : (s.setPart p v).devLater = s.devLater := rfl
@[simp] theorem State.setPart_aonLog (p : Nat) (v : Partition) : (s.setPart p v).aonLog = s.aonLog := rfl
@[simp] theorem State.setPart_aonCodes (p : Nat) (v : Partition) : (s.setPart p v).aonCodes = s.aonCodes := rfl
@[simp] theorem State.setPart_aonDict (p : Nat) (v : Partition) : (s.setPart p v).aonDict = s.aonDict := rfl
@[simp] theorem State.setPart_resetCause (p : Nat) (v : Partition) : (s.setPart p v).resetCause = s.resetCause := rfl
@[simp] theorem State.setPart_activity (p : Nat) (v : Partition) : (s.setPart p v).activity = s.activity := rfl
@[simp] theorem State.setPart_lpFrom (p : Nat) (v : Partition) : (s.setPart p v).lpFrom = s.lpFrom := rfl
@[simp] theorem State.setPart_wake (p : Nat) (v : Partition) : (s.setPart p v).wake = s.wake := rfl
@[simp] theorem State.setPart_wakeMask (p : Nat) (v : Partition) : (s.setPart p v).wakeMask = s.wakeMask := rfl
@[simp] theorem State.setPart_wakeTimer (p : Nat) (v : Partition) : (s.setPart p v).wakeTimer = s.wakeTimer := rfl
@[simp] theorem State.setPart_lpExitBegun (p : Nat) (v : Partition) : (s.setPart p v).lpExitBegun = s.lpExitBegun := rfl
@[simp] theorem State.setPart_lpRails (p : Nat) (v : Partition) : (s.setPart p v).lpRails = s.lpRails := rfl
@[simp] theorem State.setPart_graceDue (p : Nat) (v : Partition) : (s.setPart p v).graceDue = s.graceDue := rfl
@[simp] theorem State.setPart_lpStuck (p : Nat) (v : Partition) : (s.setPart p v).lpStuck = s.lpStuck := rfl
@[simp] theorem State.setPart_testCap (p : Nat) (v : Partition) : (s.setPart p v).testCap = s.testCap := rfl
@[simp] theorem State.setPart_rateAt (p : Nat) (v : Partition) : (s.setPart p v).rateAt = s.rateAt := rfl
@[simp] theorem State.setPart_rateMark (p : Nat) (v : Partition) : (s.setPart p v).rateMark = s.rateMark := rfl
@[simp] theorem State.setPart_slowHeld (p : Nat) (v : Partition) : (s.setPart p v).slowHeld = s.slowHeld := rfl
@[simp] theorem State.setPart_fuses (p : Nat) (v : Partition) : (s.setPart p v).fuses = s.fuses := rfl
@[simp] theorem State.setPart_fitted (p : Nat) (v : Partition) : (s.setPart p v).fitted = s.fitted := rfl
@[simp] theorem State.setPart_safeState (p : Nat) (v : Partition) : (s.setPart p v).safeState = s.safeState := rfl
@[simp] theorem State.setPart_romWait (p : Nat) (v : Partition) : (s.setPart p v).romWait = s.romWait := rfl
@[simp] theorem State.setPart_bootDue (p : Nat) (v : Partition) : (s.setPart p v).bootDue = s.bootDue := rfl
@[simp] theorem State.setPart_owedReset (p : Nat) (v : Partition) : (s.setPart p v).owedReset = s.owedReset := rfl
@[simp] theorem State.setPart_romSource (p : Nat) (v : Partition) : (s.setPart p v).romSource = s.romSource := rfl
@[simp] theorem State.setPart_bootDigest (p : Nat) (v : Partition) : (s.setPart p v).bootDigest = s.bootDigest := rfl
@[simp] theorem State.setPart_imageLevel (p : Nat) (v : Partition) : (s.setPart p v).imageLevel = s.imageLevel := rfl
@[simp] theorem State.setPart_imageRevoke (p : Nat) (v : Partition) : (s.setPart p v).imageRevoke = s.imageRevoke := rfl
@[simp] theorem State.setPart_fuseBlowDue (p : Nat) (v : Partition) : (s.setPart p v).fuseBlowDue = s.fuseBlowDue := rfl
@[simp] theorem State.setPart_trustKey (p : Nat) (v : Partition) : (s.setPart p v).trustKey = s.trustKey := rfl
@[simp] theorem State.setPart_quotes (p : Nat) (v : Partition) : (s.setPart p v).quotes = s.quotes := rfl
@[simp] theorem State.setPart_scrubPos (p : Nat) (v : Partition) : (s.setPart p v).scrubPos = s.scrubPos := rfl
@[simp] theorem State.setPart_tempHeld (p : Nat) (v : Partition) : (s.setPart p v).tempHeld = s.tempHeld := rfl
@[simp] theorem State.setPart_tempBelow (p : Nat) (v : Partition) : (s.setPart p v).tempBelow = s.tempBelow := rfl
@[simp] theorem State.setPart_vset (p : Nat) (v : Partition) : (s.setPart p v).vset = s.vset := rfl

/-! ### setView -/

@[simp] theorem State.setView_pending (n : Nat) (v : ViewState) : (s.setView n v).pending = s.pending := rfl
@[simp] theorem State.setView_timeNs (n : Nat) (v : ViewState) : (s.setView n v).timeNs = s.timeNs := rfl
@[simp] theorem State.setView_sent (n : Nat) (v : ViewState) : (s.setView n v).sent = s.sent := rfl
@[simp] theorem State.setView_dict (n : Nat) (v : ViewState) : (s.setView n v).dict = s.dict := rfl
@[simp] theorem State.setView_mem (n : Nat) (v : ViewState) : (s.setView n v).mem = s.mem := rfl
@[simp] theorem State.setView_poison (n : Nat) (v : ViewState) : (s.setView n v).poison = s.poison := rfl
@[simp] theorem State.setView_ecc (n : Nat) (v : ViewState) : (s.setView n v).ecc = s.ecc := rfl
@[simp] theorem State.setView_hostMem (n : Nat) (v : ViewState) : (s.setView n v).hostMem = s.hostMem := rfl
@[simp] theorem State.setView_ringsOn (n : Nat) (v : ViewState) : (s.setView n v).ringsOn = s.ringsOn := rfl
@[simp] theorem State.setView_lpRings (n : Nat) (v : ViewState) : (s.setView n v).lpRings = s.lpRings := rfl
@[simp] theorem State.setView_freeIx (n : Nat) (v : ViewState) : (s.setView n v).freeIx = s.freeIx := rfl
@[simp] theorem State.setView_pairs (n : Nat) (v : ViewState) : (s.setView n v).pairs = s.pairs := rfl
@[simp] theorem State.setView_slots (n : Nat) (v : ViewState) : (s.setView n v).slots = s.slots := rfl
@[simp] theorem State.setView_splits (n : Nat) (v : ViewState) : (s.setView n v).splits = s.splits := rfl
@[simp] theorem State.setView_groups (n : Nat) (v : ViewState) : (s.setView n v).groups = s.groups := rfl
@[simp] theorem State.setView_accs (n : Nat) (v : ViewState) : (s.setView n v).accs = s.accs := rfl
@[simp] theorem State.setView_flags (n : Nat) (v : ViewState) : (s.setView n v).flags = s.flags := rfl
@[simp] theorem State.setView_overruns (n : Nat) (v : ViewState) : (s.setView n v).overruns = s.overruns := rfl
@[simp] theorem State.setView_windows (n : Nat) (v : ViewState) : (s.setView n v).windows = s.windows := rfl
@[simp] theorem State.setView_lastClose (n : Nat) (v : ViewState) : (s.setView n v).lastClose = s.lastClose := rfl
@[simp] theorem State.setView_closing (n : Nat) (v : ViewState) : (s.setView n v).closing = s.closing := rfl
@[simp] theorem State.setView_rounds (n : Nat) (v : ViewState) : (s.setView n v).rounds = s.rounds := rfl
@[simp] theorem State.setView_fabric (n : Nat) (v : ViewState) : (s.setView n v).fabric = s.fabric := rfl
@[simp] theorem State.setView_sputBad (n : Nat) (v : ViewState) : (s.setView n v).sputBad = s.sputBad := rfl
@[simp] theorem State.setView_late (n : Nat) (v : ViewState) : (s.setView n v).late = s.late := rfl
@[simp] theorem State.setView_timeouts (n : Nat) (v : ViewState) : (s.setView n v).timeouts = s.timeouts := rfl
@[simp] theorem State.setView_ctxs (n : Nat) (v : ViewState) : (s.setView n v).ctxs = s.ctxs := rfl
@[simp] theorem State.setView_waiting (n : Nat) (v : ViewState) : (s.setView n v).waiting = s.waiting := rfl
@[simp] theorem State.setView_clearing (n : Nat) (v : ViewState) : (s.setView n v).clearing = s.clearing := rfl
@[simp] theorem State.setView_fullNow (n : Nat) (v : ViewState) : (s.setView n v).fullNow = s.fullNow := rfl
@[simp] theorem State.setView_adapt (n : Nat) (v : ViewState) : (s.setView n v).adapt = s.adapt := rfl
@[simp] theorem State.setView_promotions (n : Nat) (v : ViewState) : (s.setView n v).promotions = s.promotions := rfl
@[simp] theorem State.setView_barred (n : Nat) (v : ViewState) : (s.setView n v).barred = s.barred := rfl
@[simp] theorem State.setView_handles (n : Nat) (v : ViewState) : (s.setView n v).handles = s.handles := rfl
@[simp] theorem State.setView_lastSlot (n : Nat) (v : ViewState) : (s.setView n v).lastSlot = s.lastSlot := rfl
@[simp] theorem State.setView_seqs (n : Nat) (v : ViewState) : (s.setView n v).seqs = s.seqs := rfl
@[simp] theorem State.setView_stateWait (n : Nat) (v : ViewState) : (s.setView n v).stateWait = s.stateWait := rfl
@[simp] theorem State.setView_portA (n : Nat) (v : ViewState) : (s.setView n v).portA = s.portA := rfl
@[simp] theorem State.setView_portB (n : Nat) (v : ViewState) : (s.setView n v).portB = s.portB := rfl
@[simp] theorem State.setView_emcy (n : Nat) (v : ViewState) : (s.setView n v).emcy = s.emcy := rfl
@[simp] theorem State.setView_busOffA (n : Nat) (v : ViewState) : (s.setView n v).busOffA = s.busOffA := rfl
@[simp] theorem State.setView_busOffB (n : Nat) (v : ViewState) : (s.setView n v).busOffB = s.busOffB := rfl
@[simp] theorem State.setView_busOffRecent (n : Nat) (v : ViewState) : (s.setView n v).busOffRecent = s.busOffRecent := rfl
@[simp] theorem State.setView_canParams (n : Nat) (v : ViewState) : (s.setView n v).canParams = s.canParams := rfl
@[simp] theorem State.setView_eps (n : Nat) (v : ViewState) : (s.setView n v).eps = s.eps := rfl
@[simp] theorem State.setView_life (n : Nat) (v : ViewState) : (s.setView n v).life = s.life := rfl
@[simp] theorem State.setView_unbound (n : Nat) (v : ViewState) : (s.setView n v).unbound = s.unbound := rfl
@[simp] theorem State.setView_announced (n : Nat) (v : ViewState) : (s.setView n v).announced = s.announced := rfl
@[simp] theorem State.setView_discards (n : Nat) (v : ViewState) : (s.setView n v).discards = s.discards := rfl
@[simp] theorem State.setView_eccFixed (n : Nat) (v : ViewState) : (s.setView n v).eccFixed = s.eccFixed := rfl
@[simp] theorem State.setView_skipped (n : Nat) (v : ViewState) : (s.setView n v).skipped = s.skipped := rfl
@[simp] theorem State.setView_dgramDrops (n : Nat) (v : ViewState) : (s.setView n v).dgramDrops = s.dgramDrops := rfl
@[simp] theorem State.setView_tables (n : Nat) (v : ViewState) : (s.setView n v).tables = s.tables := rfl
@[simp] theorem State.setView_meshBase (n : Nat) (v : ViewState) : (s.setView n v).meshBase = s.meshBase := rfl
@[simp] theorem State.setView_raw (n : Nat) (v : ViewState) : (s.setView n v).raw = s.raw := rfl
@[simp] theorem State.setView_sweeps (n : Nat) (v : ViewState) : (s.setView n v).sweeps = s.sweeps := rfl
@[simp] theorem State.setView_sweepsPrev (n : Nat) (v : ViewState) : (s.setView n v).sweepsPrev = s.sweepsPrev := rfl
@[simp] theorem State.setView_meshQueue (n : Nat) (v : ViewState) : (s.setView n v).meshQueue = s.meshQueue := rfl
@[simp] theorem State.setView_fetched (n : Nat) (v : ViewState) : (s.setView n v).fetched = s.fetched := rfl
@[simp] theorem State.setView_calib (n : Nat) (v : ViewState) : (s.setView n v).calib = s.calib := rfl
@[simp] theorem State.setView_lensMesh (n : Nat) (v : ViewState) : (s.setView n v).lensMesh = s.lensMesh := rfl
@[simp] theorem State.setView_motion (n : Nat) (v : ViewState) : (s.setView n v).motion = s.motion := rfl
@[simp] theorem State.setView_egoLate (n : Nat) (v : ViewState) : (s.setView n v).egoLate = s.egoLate := rfl
@[simp] theorem State.setView_triggers (n : Nat) (v : ViewState) : (s.setView n v).triggers = s.triggers := rfl
@[simp] theorem State.setView_gptpSync (n : Nat) (v : ViewState) : (s.setView n v).gptpSync = s.gptpSync := rfl
@[simp] theorem State.setView_ticked (n : Nat) (v : ViewState) : (s.setView n v).ticked = s.ticked := rfl
@[simp] theorem State.setView_tickPredicted (n : Nat) (v : ViewState) : (s.setView n v).tickPredicted = s.tickPredicted := rfl
@[simp] theorem State.setView_tickPrev (n : Nat) (v : ViewState) : (s.setView n v).tickPrev = s.tickPrev := rfl
@[simp] theorem State.setView_lockGood (n : Nat) (v : ViewState) : (s.setView n v).lockGood = s.lockGood := rfl
@[simp] theorem State.setView_frame (n : Nat) (v : ViewState) : (s.setView n v).frame = s.frame := rfl
@[simp] theorem State.setView_disagreements (n : Nat) (v : ViewState) : (s.setView n v).disagreements = s.disagreements := rfl
@[simp] theorem State.setView_logOpen (n : Nat) (v : ViewState) : (s.setView n v).logOpen = s.logOpen := rfl
@[simp] theorem State.setView_safeOk (n : Nat) (v : ViewState) : (s.setView n v).safeOk = s.safeOk := rfl
@[simp] theorem State.setView_faultN (n : Nat) (v : ViewState) : (s.setView n v).faultN = s.faultN := rfl
@[simp] theorem State.setView_poresetN (n : Nat) (v : ViewState) : (s.setView n v).poresetN = s.poresetN := rfl
@[simp] theorem State.setView_pwrEn (n : Nat) (v : ViewState) : (s.setView n v).pwrEn = s.pwrEn := rfl
@[simp] theorem State.setView_pwrGood (n : Nat) (v : ViewState) : (s.setView n v).pwrGood = s.pwrGood := rfl
@[simp] theorem State.setView_thermalHold (n : Nat) (v : ViewState) : (s.setView n v).thermalHold = s.thermalHold := rfl
@[simp] theorem State.setView_laterCauses (n : Nat) (v : ViewState) : (s.setView n v).laterCauses = s.laterCauses := rfl
@[simp] theorem State.setView_parts (n : Nat) (v : ViewState) : (s.setView n v).parts = s.parts := rfl
@[simp] theorem State.setView_devReset (n : Nat) (v : ViewState) : (s.setView n v).devReset = s.devReset := rfl
@[simp] theorem State.setView_devCause (n : Nat) (v : ViewState) : (s.setView n v).devCause = s.devCause := rfl
@[simp] theorem State.setView_devLater (n : Nat) (v : ViewState) : (s.setView n v).devLater = s.devLater := rfl
@[simp] theorem State.setView_aonLog (n : Nat) (v : ViewState) : (s.setView n v).aonLog = s.aonLog := rfl
@[simp] theorem State.setView_aonCodes (n : Nat) (v : ViewState) : (s.setView n v).aonCodes = s.aonCodes := rfl
@[simp] theorem State.setView_aonDict (n : Nat) (v : ViewState) : (s.setView n v).aonDict = s.aonDict := rfl
@[simp] theorem State.setView_resetCause (n : Nat) (v : ViewState) : (s.setView n v).resetCause = s.resetCause := rfl
@[simp] theorem State.setView_activity (n : Nat) (v : ViewState) : (s.setView n v).activity = s.activity := rfl
@[simp] theorem State.setView_lpFrom (n : Nat) (v : ViewState) : (s.setView n v).lpFrom = s.lpFrom := rfl
@[simp] theorem State.setView_wake (n : Nat) (v : ViewState) : (s.setView n v).wake = s.wake := rfl
@[simp] theorem State.setView_wakeMask (n : Nat) (v : ViewState) : (s.setView n v).wakeMask = s.wakeMask := rfl
@[simp] theorem State.setView_wakeTimer (n : Nat) (v : ViewState) : (s.setView n v).wakeTimer = s.wakeTimer := rfl
@[simp] theorem State.setView_lpExitBegun (n : Nat) (v : ViewState) : (s.setView n v).lpExitBegun = s.lpExitBegun := rfl
@[simp] theorem State.setView_lpRails (n : Nat) (v : ViewState) : (s.setView n v).lpRails = s.lpRails := rfl
@[simp] theorem State.setView_graceDue (n : Nat) (v : ViewState) : (s.setView n v).graceDue = s.graceDue := rfl
@[simp] theorem State.setView_lpStuck (n : Nat) (v : ViewState) : (s.setView n v).lpStuck = s.lpStuck := rfl
@[simp] theorem State.setView_testCap (n : Nat) (v : ViewState) : (s.setView n v).testCap = s.testCap := rfl
@[simp] theorem State.setView_rateAt (n : Nat) (v : ViewState) : (s.setView n v).rateAt = s.rateAt := rfl
@[simp] theorem State.setView_rateMark (n : Nat) (v : ViewState) : (s.setView n v).rateMark = s.rateMark := rfl
@[simp] theorem State.setView_slowHeld (n : Nat) (v : ViewState) : (s.setView n v).slowHeld = s.slowHeld := rfl
@[simp] theorem State.setView_fuses (n : Nat) (v : ViewState) : (s.setView n v).fuses = s.fuses := rfl
@[simp] theorem State.setView_fitted (n : Nat) (v : ViewState) : (s.setView n v).fitted = s.fitted := rfl
@[simp] theorem State.setView_safeState (n : Nat) (v : ViewState) : (s.setView n v).safeState = s.safeState := rfl
@[simp] theorem State.setView_romWait (n : Nat) (v : ViewState) : (s.setView n v).romWait = s.romWait := rfl
@[simp] theorem State.setView_bootDue (n : Nat) (v : ViewState) : (s.setView n v).bootDue = s.bootDue := rfl
@[simp] theorem State.setView_owedReset (n : Nat) (v : ViewState) : (s.setView n v).owedReset = s.owedReset := rfl
@[simp] theorem State.setView_romSource (n : Nat) (v : ViewState) : (s.setView n v).romSource = s.romSource := rfl
@[simp] theorem State.setView_bootDigest (n : Nat) (v : ViewState) : (s.setView n v).bootDigest = s.bootDigest := rfl
@[simp] theorem State.setView_imageLevel (n : Nat) (v : ViewState) : (s.setView n v).imageLevel = s.imageLevel := rfl
@[simp] theorem State.setView_imageRevoke (n : Nat) (v : ViewState) : (s.setView n v).imageRevoke = s.imageRevoke := rfl
@[simp] theorem State.setView_fuseBlowDue (n : Nat) (v : ViewState) : (s.setView n v).fuseBlowDue = s.fuseBlowDue := rfl
@[simp] theorem State.setView_trustKey (n : Nat) (v : ViewState) : (s.setView n v).trustKey = s.trustKey := rfl
@[simp] theorem State.setView_quotes (n : Nat) (v : ViewState) : (s.setView n v).quotes = s.quotes := rfl
@[simp] theorem State.setView_scrubPos (n : Nat) (v : ViewState) : (s.setView n v).scrubPos = s.scrubPos := rfl
@[simp] theorem State.setView_tempHeld (n : Nat) (v : ViewState) : (s.setView n v).tempHeld = s.tempHeld := rfl
@[simp] theorem State.setView_tempBelow (n : Nat) (v : ViewState) : (s.setView n v).tempBelow = s.tempBelow := rfl
@[simp] theorem State.setView_vset (n : Nat) (v : ViewState) : (s.setView n v).vset = s.vset := rfl

/-! ### setAdGroup -/

@[simp] theorem State.setAdGroup_pending (g : Nat) (v : AdGroup) : (s.setAdGroup g v).pending = s.pending := rfl
@[simp] theorem State.setAdGroup_timeNs (g : Nat) (v : AdGroup) : (s.setAdGroup g v).timeNs = s.timeNs := rfl
@[simp] theorem State.setAdGroup_sent (g : Nat) (v : AdGroup) : (s.setAdGroup g v).sent = s.sent := rfl
@[simp] theorem State.setAdGroup_dict (g : Nat) (v : AdGroup) : (s.setAdGroup g v).dict = s.dict := rfl
@[simp] theorem State.setAdGroup_mem (g : Nat) (v : AdGroup) : (s.setAdGroup g v).mem = s.mem := rfl
@[simp] theorem State.setAdGroup_poison (g : Nat) (v : AdGroup) : (s.setAdGroup g v).poison = s.poison := rfl
@[simp] theorem State.setAdGroup_ecc (g : Nat) (v : AdGroup) : (s.setAdGroup g v).ecc = s.ecc := rfl
@[simp] theorem State.setAdGroup_hostMem (g : Nat) (v : AdGroup) : (s.setAdGroup g v).hostMem = s.hostMem := rfl
@[simp] theorem State.setAdGroup_ringsOn (g : Nat) (v : AdGroup) : (s.setAdGroup g v).ringsOn = s.ringsOn := rfl
@[simp] theorem State.setAdGroup_lpRings (g : Nat) (v : AdGroup) : (s.setAdGroup g v).lpRings = s.lpRings := rfl
@[simp] theorem State.setAdGroup_freeIx (g : Nat) (v : AdGroup) : (s.setAdGroup g v).freeIx = s.freeIx := rfl
@[simp] theorem State.setAdGroup_pairs (g : Nat) (v : AdGroup) : (s.setAdGroup g v).pairs = s.pairs := rfl
@[simp] theorem State.setAdGroup_slots (g : Nat) (v : AdGroup) : (s.setAdGroup g v).slots = s.slots := rfl
@[simp] theorem State.setAdGroup_splits (g : Nat) (v : AdGroup) : (s.setAdGroup g v).splits = s.splits := rfl
@[simp] theorem State.setAdGroup_groups (g : Nat) (v : AdGroup) : (s.setAdGroup g v).groups = s.groups := rfl
@[simp] theorem State.setAdGroup_accs (g : Nat) (v : AdGroup) : (s.setAdGroup g v).accs = s.accs := rfl
@[simp] theorem State.setAdGroup_flags (g : Nat) (v : AdGroup) : (s.setAdGroup g v).flags = s.flags := rfl
@[simp] theorem State.setAdGroup_overruns (g : Nat) (v : AdGroup) : (s.setAdGroup g v).overruns = s.overruns := rfl
@[simp] theorem State.setAdGroup_windows (g : Nat) (v : AdGroup) : (s.setAdGroup g v).windows = s.windows := rfl
@[simp] theorem State.setAdGroup_lastClose (g : Nat) (v : AdGroup) : (s.setAdGroup g v).lastClose = s.lastClose := rfl
@[simp] theorem State.setAdGroup_closing (g : Nat) (v : AdGroup) : (s.setAdGroup g v).closing = s.closing := rfl
@[simp] theorem State.setAdGroup_rounds (g : Nat) (v : AdGroup) : (s.setAdGroup g v).rounds = s.rounds := rfl
@[simp] theorem State.setAdGroup_fabric (g : Nat) (v : AdGroup) : (s.setAdGroup g v).fabric = s.fabric := rfl
@[simp] theorem State.setAdGroup_sputBad (g : Nat) (v : AdGroup) : (s.setAdGroup g v).sputBad = s.sputBad := rfl
@[simp] theorem State.setAdGroup_late (g : Nat) (v : AdGroup) : (s.setAdGroup g v).late = s.late := rfl
@[simp] theorem State.setAdGroup_timeouts (g : Nat) (v : AdGroup) : (s.setAdGroup g v).timeouts = s.timeouts := rfl
@[simp] theorem State.setAdGroup_ctxs (g : Nat) (v : AdGroup) : (s.setAdGroup g v).ctxs = s.ctxs := rfl
@[simp] theorem State.setAdGroup_waiting (g : Nat) (v : AdGroup) : (s.setAdGroup g v).waiting = s.waiting := rfl
@[simp] theorem State.setAdGroup_clearing (g : Nat) (v : AdGroup) : (s.setAdGroup g v).clearing = s.clearing := rfl
@[simp] theorem State.setAdGroup_fullNow (g : Nat) (v : AdGroup) : (s.setAdGroup g v).fullNow = s.fullNow := rfl
@[simp] theorem State.setAdGroup_promotions (g : Nat) (v : AdGroup) : (s.setAdGroup g v).promotions = s.promotions := rfl
@[simp] theorem State.setAdGroup_barred (g : Nat) (v : AdGroup) : (s.setAdGroup g v).barred = s.barred := rfl
@[simp] theorem State.setAdGroup_handles (g : Nat) (v : AdGroup) : (s.setAdGroup g v).handles = s.handles := rfl
@[simp] theorem State.setAdGroup_lastSlot (g : Nat) (v : AdGroup) : (s.setAdGroup g v).lastSlot = s.lastSlot := rfl
@[simp] theorem State.setAdGroup_seqs (g : Nat) (v : AdGroup) : (s.setAdGroup g v).seqs = s.seqs := rfl
@[simp] theorem State.setAdGroup_stateWait (g : Nat) (v : AdGroup) : (s.setAdGroup g v).stateWait = s.stateWait := rfl
@[simp] theorem State.setAdGroup_portA (g : Nat) (v : AdGroup) : (s.setAdGroup g v).portA = s.portA := rfl
@[simp] theorem State.setAdGroup_portB (g : Nat) (v : AdGroup) : (s.setAdGroup g v).portB = s.portB := rfl
@[simp] theorem State.setAdGroup_emcy (g : Nat) (v : AdGroup) : (s.setAdGroup g v).emcy = s.emcy := rfl
@[simp] theorem State.setAdGroup_busOffA (g : Nat) (v : AdGroup) : (s.setAdGroup g v).busOffA = s.busOffA := rfl
@[simp] theorem State.setAdGroup_busOffB (g : Nat) (v : AdGroup) : (s.setAdGroup g v).busOffB = s.busOffB := rfl
@[simp] theorem State.setAdGroup_busOffRecent (g : Nat) (v : AdGroup) : (s.setAdGroup g v).busOffRecent = s.busOffRecent := rfl
@[simp] theorem State.setAdGroup_canParams (g : Nat) (v : AdGroup) : (s.setAdGroup g v).canParams = s.canParams := rfl
@[simp] theorem State.setAdGroup_eps (g : Nat) (v : AdGroup) : (s.setAdGroup g v).eps = s.eps := rfl
@[simp] theorem State.setAdGroup_life (g : Nat) (v : AdGroup) : (s.setAdGroup g v).life = s.life := rfl
@[simp] theorem State.setAdGroup_unbound (g : Nat) (v : AdGroup) : (s.setAdGroup g v).unbound = s.unbound := rfl
@[simp] theorem State.setAdGroup_announced (g : Nat) (v : AdGroup) : (s.setAdGroup g v).announced = s.announced := rfl
@[simp] theorem State.setAdGroup_discards (g : Nat) (v : AdGroup) : (s.setAdGroup g v).discards = s.discards := rfl
@[simp] theorem State.setAdGroup_eccFixed (g : Nat) (v : AdGroup) : (s.setAdGroup g v).eccFixed = s.eccFixed := rfl
@[simp] theorem State.setAdGroup_skipped (g : Nat) (v : AdGroup) : (s.setAdGroup g v).skipped = s.skipped := rfl
@[simp] theorem State.setAdGroup_dgramDrops (g : Nat) (v : AdGroup) : (s.setAdGroup g v).dgramDrops = s.dgramDrops := rfl
@[simp] theorem State.setAdGroup_tables (g : Nat) (v : AdGroup) : (s.setAdGroup g v).tables = s.tables := rfl
@[simp] theorem State.setAdGroup_meshBase (g : Nat) (v : AdGroup) : (s.setAdGroup g v).meshBase = s.meshBase := rfl
@[simp] theorem State.setAdGroup_raw (g : Nat) (v : AdGroup) : (s.setAdGroup g v).raw = s.raw := rfl
@[simp] theorem State.setAdGroup_views (g : Nat) (v : AdGroup) : (s.setAdGroup g v).views = s.views := rfl
@[simp] theorem State.setAdGroup_sweeps (g : Nat) (v : AdGroup) : (s.setAdGroup g v).sweeps = s.sweeps := rfl
@[simp] theorem State.setAdGroup_sweepsPrev (g : Nat) (v : AdGroup) : (s.setAdGroup g v).sweepsPrev = s.sweepsPrev := rfl
@[simp] theorem State.setAdGroup_meshQueue (g : Nat) (v : AdGroup) : (s.setAdGroup g v).meshQueue = s.meshQueue := rfl
@[simp] theorem State.setAdGroup_fetched (g : Nat) (v : AdGroup) : (s.setAdGroup g v).fetched = s.fetched := rfl
@[simp] theorem State.setAdGroup_calib (g : Nat) (v : AdGroup) : (s.setAdGroup g v).calib = s.calib := rfl
@[simp] theorem State.setAdGroup_lensMesh (g : Nat) (v : AdGroup) : (s.setAdGroup g v).lensMesh = s.lensMesh := rfl
@[simp] theorem State.setAdGroup_motion (g : Nat) (v : AdGroup) : (s.setAdGroup g v).motion = s.motion := rfl
@[simp] theorem State.setAdGroup_egoLate (g : Nat) (v : AdGroup) : (s.setAdGroup g v).egoLate = s.egoLate := rfl
@[simp] theorem State.setAdGroup_triggers (g : Nat) (v : AdGroup) : (s.setAdGroup g v).triggers = s.triggers := rfl
@[simp] theorem State.setAdGroup_gptpSync (g : Nat) (v : AdGroup) : (s.setAdGroup g v).gptpSync = s.gptpSync := rfl
@[simp] theorem State.setAdGroup_ticked (g : Nat) (v : AdGroup) : (s.setAdGroup g v).ticked = s.ticked := rfl
@[simp] theorem State.setAdGroup_tickPredicted (g : Nat) (v : AdGroup) : (s.setAdGroup g v).tickPredicted = s.tickPredicted := rfl
@[simp] theorem State.setAdGroup_tickPrev (g : Nat) (v : AdGroup) : (s.setAdGroup g v).tickPrev = s.tickPrev := rfl
@[simp] theorem State.setAdGroup_lockGood (g : Nat) (v : AdGroup) : (s.setAdGroup g v).lockGood = s.lockGood := rfl
@[simp] theorem State.setAdGroup_frame (g : Nat) (v : AdGroup) : (s.setAdGroup g v).frame = s.frame := rfl
@[simp] theorem State.setAdGroup_disagreements (g : Nat) (v : AdGroup) : (s.setAdGroup g v).disagreements = s.disagreements := rfl
@[simp] theorem State.setAdGroup_logOpen (g : Nat) (v : AdGroup) : (s.setAdGroup g v).logOpen = s.logOpen := rfl
@[simp] theorem State.setAdGroup_safeOk (g : Nat) (v : AdGroup) : (s.setAdGroup g v).safeOk = s.safeOk := rfl
@[simp] theorem State.setAdGroup_faultN (g : Nat) (v : AdGroup) : (s.setAdGroup g v).faultN = s.faultN := rfl
@[simp] theorem State.setAdGroup_poresetN (g : Nat) (v : AdGroup) : (s.setAdGroup g v).poresetN = s.poresetN := rfl
@[simp] theorem State.setAdGroup_pwrEn (g : Nat) (v : AdGroup) : (s.setAdGroup g v).pwrEn = s.pwrEn := rfl
@[simp] theorem State.setAdGroup_pwrGood (g : Nat) (v : AdGroup) : (s.setAdGroup g v).pwrGood = s.pwrGood := rfl
@[simp] theorem State.setAdGroup_thermalHold (g : Nat) (v : AdGroup) : (s.setAdGroup g v).thermalHold = s.thermalHold := rfl
@[simp] theorem State.setAdGroup_laterCauses (g : Nat) (v : AdGroup) : (s.setAdGroup g v).laterCauses = s.laterCauses := rfl
@[simp] theorem State.setAdGroup_parts (g : Nat) (v : AdGroup) : (s.setAdGroup g v).parts = s.parts := rfl
@[simp] theorem State.setAdGroup_devReset (g : Nat) (v : AdGroup) : (s.setAdGroup g v).devReset = s.devReset := rfl
@[simp] theorem State.setAdGroup_devCause (g : Nat) (v : AdGroup) : (s.setAdGroup g v).devCause = s.devCause := rfl
@[simp] theorem State.setAdGroup_devLater (g : Nat) (v : AdGroup) : (s.setAdGroup g v).devLater = s.devLater := rfl
@[simp] theorem State.setAdGroup_aonLog (g : Nat) (v : AdGroup) : (s.setAdGroup g v).aonLog = s.aonLog := rfl
@[simp] theorem State.setAdGroup_aonCodes (g : Nat) (v : AdGroup) : (s.setAdGroup g v).aonCodes = s.aonCodes := rfl
@[simp] theorem State.setAdGroup_aonDict (g : Nat) (v : AdGroup) : (s.setAdGroup g v).aonDict = s.aonDict := rfl
@[simp] theorem State.setAdGroup_resetCause (g : Nat) (v : AdGroup) : (s.setAdGroup g v).resetCause = s.resetCause := rfl
@[simp] theorem State.setAdGroup_activity (g : Nat) (v : AdGroup) : (s.setAdGroup g v).activity = s.activity := rfl
@[simp] theorem State.setAdGroup_lpFrom (g : Nat) (v : AdGroup) : (s.setAdGroup g v).lpFrom = s.lpFrom := rfl
@[simp] theorem State.setAdGroup_wake (g : Nat) (v : AdGroup) : (s.setAdGroup g v).wake = s.wake := rfl
@[simp] theorem State.setAdGroup_wakeMask (g : Nat) (v : AdGroup) : (s.setAdGroup g v).wakeMask = s.wakeMask := rfl
@[simp] theorem State.setAdGroup_wakeTimer (g : Nat) (v : AdGroup) : (s.setAdGroup g v).wakeTimer = s.wakeTimer := rfl
@[simp] theorem State.setAdGroup_lpExitBegun (g : Nat) (v : AdGroup) : (s.setAdGroup g v).lpExitBegun = s.lpExitBegun := rfl
@[simp] theorem State.setAdGroup_lpRails (g : Nat) (v : AdGroup) : (s.setAdGroup g v).lpRails = s.lpRails := rfl
@[simp] theorem State.setAdGroup_graceDue (g : Nat) (v : AdGroup) : (s.setAdGroup g v).graceDue = s.graceDue := rfl
@[simp] theorem State.setAdGroup_lpStuck (g : Nat) (v : AdGroup) : (s.setAdGroup g v).lpStuck = s.lpStuck := rfl
@[simp] theorem State.setAdGroup_testCap (g : Nat) (v : AdGroup) : (s.setAdGroup g v).testCap = s.testCap := rfl
@[simp] theorem State.setAdGroup_rateAt (g : Nat) (v : AdGroup) : (s.setAdGroup g v).rateAt = s.rateAt := rfl
@[simp] theorem State.setAdGroup_rateMark (g : Nat) (v : AdGroup) : (s.setAdGroup g v).rateMark = s.rateMark := rfl
@[simp] theorem State.setAdGroup_slowHeld (g : Nat) (v : AdGroup) : (s.setAdGroup g v).slowHeld = s.slowHeld := rfl
@[simp] theorem State.setAdGroup_fuses (g : Nat) (v : AdGroup) : (s.setAdGroup g v).fuses = s.fuses := rfl
@[simp] theorem State.setAdGroup_fitted (g : Nat) (v : AdGroup) : (s.setAdGroup g v).fitted = s.fitted := rfl
@[simp] theorem State.setAdGroup_safeState (g : Nat) (v : AdGroup) : (s.setAdGroup g v).safeState = s.safeState := rfl
@[simp] theorem State.setAdGroup_romWait (g : Nat) (v : AdGroup) : (s.setAdGroup g v).romWait = s.romWait := rfl
@[simp] theorem State.setAdGroup_bootDue (g : Nat) (v : AdGroup) : (s.setAdGroup g v).bootDue = s.bootDue := rfl
@[simp] theorem State.setAdGroup_owedReset (g : Nat) (v : AdGroup) : (s.setAdGroup g v).owedReset = s.owedReset := rfl
@[simp] theorem State.setAdGroup_romSource (g : Nat) (v : AdGroup) : (s.setAdGroup g v).romSource = s.romSource := rfl
@[simp] theorem State.setAdGroup_bootDigest (g : Nat) (v : AdGroup) : (s.setAdGroup g v).bootDigest = s.bootDigest := rfl
@[simp] theorem State.setAdGroup_imageLevel (g : Nat) (v : AdGroup) : (s.setAdGroup g v).imageLevel = s.imageLevel := rfl
@[simp] theorem State.setAdGroup_imageRevoke (g : Nat) (v : AdGroup) : (s.setAdGroup g v).imageRevoke = s.imageRevoke := rfl
@[simp] theorem State.setAdGroup_fuseBlowDue (g : Nat) (v : AdGroup) : (s.setAdGroup g v).fuseBlowDue = s.fuseBlowDue := rfl
@[simp] theorem State.setAdGroup_trustKey (g : Nat) (v : AdGroup) : (s.setAdGroup g v).trustKey = s.trustKey := rfl
@[simp] theorem State.setAdGroup_quotes (g : Nat) (v : AdGroup) : (s.setAdGroup g v).quotes = s.quotes := rfl
@[simp] theorem State.setAdGroup_scrubPos (g : Nat) (v : AdGroup) : (s.setAdGroup g v).scrubPos = s.scrubPos := rfl
@[simp] theorem State.setAdGroup_tempHeld (g : Nat) (v : AdGroup) : (s.setAdGroup g v).tempHeld = s.tempHeld := rfl
@[simp] theorem State.setAdGroup_tempBelow (g : Nat) (v : AdGroup) : (s.setAdGroup g v).tempBelow = s.tempBelow := rfl
@[simp] theorem State.setAdGroup_vset (g : Nat) (v : AdGroup) : (s.setAdGroup g v).vset = s.vset := rfl

/-! ### setPort -/

@[simp] theorem State.setPort_pending (h : HostPort) (p : PortState) : (s.setPort h p).pending = s.pending := by cases h <;> rfl
@[simp] theorem State.setPort_timeNs (h : HostPort) (p : PortState) : (s.setPort h p).timeNs = s.timeNs := by cases h <;> rfl
@[simp] theorem State.setPort_sent (h : HostPort) (p : PortState) : (s.setPort h p).sent = s.sent := by cases h <;> rfl
@[simp] theorem State.setPort_dict (h : HostPort) (p : PortState) : (s.setPort h p).dict = s.dict := by cases h <;> rfl
@[simp] theorem State.setPort_mem (h : HostPort) (p : PortState) : (s.setPort h p).mem = s.mem := by cases h <;> rfl
@[simp] theorem State.setPort_poison (h : HostPort) (p : PortState) : (s.setPort h p).poison = s.poison := by cases h <;> rfl
@[simp] theorem State.setPort_ecc (h : HostPort) (p : PortState) : (s.setPort h p).ecc = s.ecc := by cases h <;> rfl
@[simp] theorem State.setPort_hostMem (h : HostPort) (p : PortState) : (s.setPort h p).hostMem = s.hostMem := by cases h <;> rfl
@[simp] theorem State.setPort_ringsOn (h : HostPort) (p : PortState) : (s.setPort h p).ringsOn = s.ringsOn := by cases h <;> rfl
@[simp] theorem State.setPort_lpRings (h : HostPort) (p : PortState) : (s.setPort h p).lpRings = s.lpRings := by cases h <;> rfl
@[simp] theorem State.setPort_freeIx (h : HostPort) (p : PortState) : (s.setPort h p).freeIx = s.freeIx := by cases h <;> rfl
@[simp] theorem State.setPort_pairs (h : HostPort) (p : PortState) : (s.setPort h p).pairs = s.pairs := by cases h <;> rfl
@[simp] theorem State.setPort_slots (h : HostPort) (p : PortState) : (s.setPort h p).slots = s.slots := by cases h <;> rfl
@[simp] theorem State.setPort_splits (h : HostPort) (p : PortState) : (s.setPort h p).splits = s.splits := by cases h <;> rfl
@[simp] theorem State.setPort_groups (h : HostPort) (p : PortState) : (s.setPort h p).groups = s.groups := by cases h <;> rfl
@[simp] theorem State.setPort_accs (h : HostPort) (p : PortState) : (s.setPort h p).accs = s.accs := by cases h <;> rfl
@[simp] theorem State.setPort_flags (h : HostPort) (p : PortState) : (s.setPort h p).flags = s.flags := by cases h <;> rfl
@[simp] theorem State.setPort_overruns (h : HostPort) (p : PortState) : (s.setPort h p).overruns = s.overruns := by cases h <;> rfl
@[simp] theorem State.setPort_windows (h : HostPort) (p : PortState) : (s.setPort h p).windows = s.windows := by cases h <;> rfl
@[simp] theorem State.setPort_lastClose (h : HostPort) (p : PortState) : (s.setPort h p).lastClose = s.lastClose := by cases h <;> rfl
@[simp] theorem State.setPort_closing (h : HostPort) (p : PortState) : (s.setPort h p).closing = s.closing := by cases h <;> rfl
@[simp] theorem State.setPort_rounds (h : HostPort) (p : PortState) : (s.setPort h p).rounds = s.rounds := by cases h <;> rfl
@[simp] theorem State.setPort_fabric (h : HostPort) (p : PortState) : (s.setPort h p).fabric = s.fabric := by cases h <;> rfl
@[simp] theorem State.setPort_sputBad (h : HostPort) (p : PortState) : (s.setPort h p).sputBad = s.sputBad := by cases h <;> rfl
@[simp] theorem State.setPort_late (h : HostPort) (p : PortState) : (s.setPort h p).late = s.late := by cases h <;> rfl
@[simp] theorem State.setPort_timeouts (h : HostPort) (p : PortState) : (s.setPort h p).timeouts = s.timeouts := by cases h <;> rfl
@[simp] theorem State.setPort_ctxs (h : HostPort) (p : PortState) : (s.setPort h p).ctxs = s.ctxs := by cases h <;> rfl
@[simp] theorem State.setPort_waiting (h : HostPort) (p : PortState) : (s.setPort h p).waiting = s.waiting := by cases h <;> rfl
@[simp] theorem State.setPort_clearing (h : HostPort) (p : PortState) : (s.setPort h p).clearing = s.clearing := by cases h <;> rfl
@[simp] theorem State.setPort_fullNow (h : HostPort) (p : PortState) : (s.setPort h p).fullNow = s.fullNow := by cases h <;> rfl
@[simp] theorem State.setPort_adapt (h : HostPort) (p : PortState) : (s.setPort h p).adapt = s.adapt := by cases h <;> rfl
@[simp] theorem State.setPort_promotions (h : HostPort) (p : PortState) : (s.setPort h p).promotions = s.promotions := by cases h <;> rfl
@[simp] theorem State.setPort_barred (h : HostPort) (p : PortState) : (s.setPort h p).barred = s.barred := by cases h <;> rfl
@[simp] theorem State.setPort_handles (h : HostPort) (p : PortState) : (s.setPort h p).handles = s.handles := by cases h <;> rfl
@[simp] theorem State.setPort_lastSlot (h : HostPort) (p : PortState) : (s.setPort h p).lastSlot = s.lastSlot := by cases h <;> rfl
@[simp] theorem State.setPort_seqs (h : HostPort) (p : PortState) : (s.setPort h p).seqs = s.seqs := by cases h <;> rfl
@[simp] theorem State.setPort_stateWait (h : HostPort) (p : PortState) : (s.setPort h p).stateWait = s.stateWait := by cases h <;> rfl
@[simp] theorem State.setPort_emcy (h : HostPort) (p : PortState) : (s.setPort h p).emcy = s.emcy := by cases h <;> rfl
@[simp] theorem State.setPort_busOffA (h : HostPort) (p : PortState) : (s.setPort h p).busOffA = s.busOffA := by cases h <;> rfl
@[simp] theorem State.setPort_busOffB (h : HostPort) (p : PortState) : (s.setPort h p).busOffB = s.busOffB := by cases h <;> rfl
@[simp] theorem State.setPort_busOffRecent (h : HostPort) (p : PortState) : (s.setPort h p).busOffRecent = s.busOffRecent := by cases h <;> rfl
@[simp] theorem State.setPort_canParams (h : HostPort) (p : PortState) : (s.setPort h p).canParams = s.canParams := by cases h <;> rfl
@[simp] theorem State.setPort_eps (h : HostPort) (p : PortState) : (s.setPort h p).eps = s.eps := by cases h <;> rfl
@[simp] theorem State.setPort_life (h : HostPort) (p : PortState) : (s.setPort h p).life = s.life := by cases h <;> rfl
@[simp] theorem State.setPort_unbound (h : HostPort) (p : PortState) : (s.setPort h p).unbound = s.unbound := by cases h <;> rfl
@[simp] theorem State.setPort_announced (h : HostPort) (p : PortState) : (s.setPort h p).announced = s.announced := by cases h <;> rfl
@[simp] theorem State.setPort_discards (h : HostPort) (p : PortState) : (s.setPort h p).discards = s.discards := by cases h <;> rfl
@[simp] theorem State.setPort_eccFixed (h : HostPort) (p : PortState) : (s.setPort h p).eccFixed = s.eccFixed := by cases h <;> rfl
@[simp] theorem State.setPort_skipped (h : HostPort) (p : PortState) : (s.setPort h p).skipped = s.skipped := by cases h <;> rfl
@[simp] theorem State.setPort_dgramDrops (h : HostPort) (p : PortState) : (s.setPort h p).dgramDrops = s.dgramDrops := by cases h <;> rfl
@[simp] theorem State.setPort_tables (h : HostPort) (p : PortState) : (s.setPort h p).tables = s.tables := by cases h <;> rfl
@[simp] theorem State.setPort_meshBase (h : HostPort) (p : PortState) : (s.setPort h p).meshBase = s.meshBase := by cases h <;> rfl
@[simp] theorem State.setPort_raw (h : HostPort) (p : PortState) : (s.setPort h p).raw = s.raw := by cases h <;> rfl
@[simp] theorem State.setPort_views (h : HostPort) (p : PortState) : (s.setPort h p).views = s.views := by cases h <;> rfl
@[simp] theorem State.setPort_sweeps (h : HostPort) (p : PortState) : (s.setPort h p).sweeps = s.sweeps := by cases h <;> rfl
@[simp] theorem State.setPort_sweepsPrev (h : HostPort) (p : PortState) : (s.setPort h p).sweepsPrev = s.sweepsPrev := by cases h <;> rfl
@[simp] theorem State.setPort_meshQueue (h : HostPort) (p : PortState) : (s.setPort h p).meshQueue = s.meshQueue := by cases h <;> rfl
@[simp] theorem State.setPort_fetched (h : HostPort) (p : PortState) : (s.setPort h p).fetched = s.fetched := by cases h <;> rfl
@[simp] theorem State.setPort_calib (h : HostPort) (p : PortState) : (s.setPort h p).calib = s.calib := by cases h <;> rfl
@[simp] theorem State.setPort_lensMesh (h : HostPort) (p : PortState) : (s.setPort h p).lensMesh = s.lensMesh := by cases h <;> rfl
@[simp] theorem State.setPort_motion (h : HostPort) (p : PortState) : (s.setPort h p).motion = s.motion := by cases h <;> rfl
@[simp] theorem State.setPort_egoLate (h : HostPort) (p : PortState) : (s.setPort h p).egoLate = s.egoLate := by cases h <;> rfl
@[simp] theorem State.setPort_triggers (h : HostPort) (p : PortState) : (s.setPort h p).triggers = s.triggers := by cases h <;> rfl
@[simp] theorem State.setPort_gptpSync (h : HostPort) (p : PortState) : (s.setPort h p).gptpSync = s.gptpSync := by cases h <;> rfl
@[simp] theorem State.setPort_ticked (h : HostPort) (p : PortState) : (s.setPort h p).ticked = s.ticked := by cases h <;> rfl
@[simp] theorem State.setPort_tickPredicted (h : HostPort) (p : PortState) : (s.setPort h p).tickPredicted = s.tickPredicted := by cases h <;> rfl
@[simp] theorem State.setPort_tickPrev (h : HostPort) (p : PortState) : (s.setPort h p).tickPrev = s.tickPrev := by cases h <;> rfl
@[simp] theorem State.setPort_lockGood (h : HostPort) (p : PortState) : (s.setPort h p).lockGood = s.lockGood := by cases h <;> rfl
@[simp] theorem State.setPort_frame (h : HostPort) (p : PortState) : (s.setPort h p).frame = s.frame := by cases h <;> rfl
@[simp] theorem State.setPort_disagreements (h : HostPort) (p : PortState) : (s.setPort h p).disagreements = s.disagreements := by cases h <;> rfl
@[simp] theorem State.setPort_logOpen (h : HostPort) (p : PortState) : (s.setPort h p).logOpen = s.logOpen := by cases h <;> rfl
@[simp] theorem State.setPort_safeOk (h : HostPort) (p : PortState) : (s.setPort h p).safeOk = s.safeOk := by cases h <;> rfl
@[simp] theorem State.setPort_faultN (h : HostPort) (p : PortState) : (s.setPort h p).faultN = s.faultN := by cases h <;> rfl
@[simp] theorem State.setPort_poresetN (h : HostPort) (p : PortState) : (s.setPort h p).poresetN = s.poresetN := by cases h <;> rfl
@[simp] theorem State.setPort_pwrEn (h : HostPort) (p : PortState) : (s.setPort h p).pwrEn = s.pwrEn := by cases h <;> rfl
@[simp] theorem State.setPort_pwrGood (h : HostPort) (p : PortState) : (s.setPort h p).pwrGood = s.pwrGood := by cases h <;> rfl
@[simp] theorem State.setPort_thermalHold (h : HostPort) (p : PortState) : (s.setPort h p).thermalHold = s.thermalHold := by cases h <;> rfl
@[simp] theorem State.setPort_laterCauses (h : HostPort) (p : PortState) : (s.setPort h p).laterCauses = s.laterCauses := by cases h <;> rfl
@[simp] theorem State.setPort_parts (h : HostPort) (p : PortState) : (s.setPort h p).parts = s.parts := by cases h <;> rfl
@[simp] theorem State.setPort_devReset (h : HostPort) (p : PortState) : (s.setPort h p).devReset = s.devReset := by cases h <;> rfl
@[simp] theorem State.setPort_devCause (h : HostPort) (p : PortState) : (s.setPort h p).devCause = s.devCause := by cases h <;> rfl
@[simp] theorem State.setPort_devLater (h : HostPort) (p : PortState) : (s.setPort h p).devLater = s.devLater := by cases h <;> rfl
@[simp] theorem State.setPort_aonLog (h : HostPort) (p : PortState) : (s.setPort h p).aonLog = s.aonLog := by cases h <;> rfl
@[simp] theorem State.setPort_aonCodes (h : HostPort) (p : PortState) : (s.setPort h p).aonCodes = s.aonCodes := by cases h <;> rfl
@[simp] theorem State.setPort_aonDict (h : HostPort) (p : PortState) : (s.setPort h p).aonDict = s.aonDict := by cases h <;> rfl
@[simp] theorem State.setPort_resetCause (h : HostPort) (p : PortState) : (s.setPort h p).resetCause = s.resetCause := by cases h <;> rfl
@[simp] theorem State.setPort_activity (h : HostPort) (p : PortState) : (s.setPort h p).activity = s.activity := by cases h <;> rfl
@[simp] theorem State.setPort_lpFrom (h : HostPort) (p : PortState) : (s.setPort h p).lpFrom = s.lpFrom := by cases h <;> rfl
@[simp] theorem State.setPort_wake (h : HostPort) (p : PortState) : (s.setPort h p).wake = s.wake := by cases h <;> rfl
@[simp] theorem State.setPort_wakeMask (h : HostPort) (p : PortState) : (s.setPort h p).wakeMask = s.wakeMask := by cases h <;> rfl
@[simp] theorem State.setPort_wakeTimer (h : HostPort) (p : PortState) : (s.setPort h p).wakeTimer = s.wakeTimer := by cases h <;> rfl
@[simp] theorem State.setPort_lpExitBegun (h : HostPort) (p : PortState) : (s.setPort h p).lpExitBegun = s.lpExitBegun := by cases h <;> rfl
@[simp] theorem State.setPort_lpRails (h : HostPort) (p : PortState) : (s.setPort h p).lpRails = s.lpRails := by cases h <;> rfl
@[simp] theorem State.setPort_graceDue (h : HostPort) (p : PortState) : (s.setPort h p).graceDue = s.graceDue := by cases h <;> rfl
@[simp] theorem State.setPort_lpStuck (h : HostPort) (p : PortState) : (s.setPort h p).lpStuck = s.lpStuck := by cases h <;> rfl
@[simp] theorem State.setPort_testCap (h : HostPort) (p : PortState) : (s.setPort h p).testCap = s.testCap := by cases h <;> rfl
@[simp] theorem State.setPort_rateAt (h : HostPort) (p : PortState) : (s.setPort h p).rateAt = s.rateAt := by cases h <;> rfl
@[simp] theorem State.setPort_rateMark (h : HostPort) (p : PortState) : (s.setPort h p).rateMark = s.rateMark := by cases h <;> rfl
@[simp] theorem State.setPort_slowHeld (h : HostPort) (p : PortState) : (s.setPort h p).slowHeld = s.slowHeld := by cases h <;> rfl
@[simp] theorem State.setPort_fuses (h : HostPort) (p : PortState) : (s.setPort h p).fuses = s.fuses := by cases h <;> rfl
@[simp] theorem State.setPort_fitted (h : HostPort) (p : PortState) : (s.setPort h p).fitted = s.fitted := by cases h <;> rfl
@[simp] theorem State.setPort_safeState (h : HostPort) (p : PortState) : (s.setPort h p).safeState = s.safeState := by cases h <;> rfl
@[simp] theorem State.setPort_romWait (h : HostPort) (p : PortState) : (s.setPort h p).romWait = s.romWait := by cases h <;> rfl
@[simp] theorem State.setPort_bootDue (h : HostPort) (p : PortState) : (s.setPort h p).bootDue = s.bootDue := by cases h <;> rfl
@[simp] theorem State.setPort_owedReset (h : HostPort) (p : PortState) : (s.setPort h p).owedReset = s.owedReset := by cases h <;> rfl
@[simp] theorem State.setPort_romSource (h : HostPort) (p : PortState) : (s.setPort h p).romSource = s.romSource := by cases h <;> rfl
@[simp] theorem State.setPort_bootDigest (h : HostPort) (p : PortState) : (s.setPort h p).bootDigest = s.bootDigest := by cases h <;> rfl
@[simp] theorem State.setPort_imageLevel (h : HostPort) (p : PortState) : (s.setPort h p).imageLevel = s.imageLevel := by cases h <;> rfl
@[simp] theorem State.setPort_imageRevoke (h : HostPort) (p : PortState) : (s.setPort h p).imageRevoke = s.imageRevoke := by cases h <;> rfl
@[simp] theorem State.setPort_fuseBlowDue (h : HostPort) (p : PortState) : (s.setPort h p).fuseBlowDue = s.fuseBlowDue := by cases h <;> rfl
@[simp] theorem State.setPort_trustKey (h : HostPort) (p : PortState) : (s.setPort h p).trustKey = s.trustKey := by cases h <;> rfl
@[simp] theorem State.setPort_quotes (h : HostPort) (p : PortState) : (s.setPort h p).quotes = s.quotes := by cases h <;> rfl
@[simp] theorem State.setPort_scrubPos (h : HostPort) (p : PortState) : (s.setPort h p).scrubPos = s.scrubPos := by cases h <;> rfl
@[simp] theorem State.setPort_tempHeld (h : HostPort) (p : PortState) : (s.setPort h p).tempHeld = s.tempHeld := by cases h <;> rfl
@[simp] theorem State.setPort_tempBelow (h : HostPort) (p : PortState) : (s.setPort h p).tempBelow = s.tempBelow := by cases h <;> rfl
@[simp] theorem State.setPort_vset (h : HostPort) (p : PortState) : (s.setPort h p).vset = s.vset := by cases h <;> rfl

/-! ### setHslot -/

@[simp] theorem State.setHslot_pending (r : HRef) (v : HandleSlot) : (s.setHslot r v).pending = s.pending := rfl
@[simp] theorem State.setHslot_timeNs (r : HRef) (v : HandleSlot) : (s.setHslot r v).timeNs = s.timeNs := rfl
@[simp] theorem State.setHslot_sent (r : HRef) (v : HandleSlot) : (s.setHslot r v).sent = s.sent := rfl
@[simp] theorem State.setHslot_dict (r : HRef) (v : HandleSlot) : (s.setHslot r v).dict = s.dict := rfl
@[simp] theorem State.setHslot_mem (r : HRef) (v : HandleSlot) : (s.setHslot r v).mem = s.mem := rfl
@[simp] theorem State.setHslot_poison (r : HRef) (v : HandleSlot) : (s.setHslot r v).poison = s.poison := rfl
@[simp] theorem State.setHslot_ecc (r : HRef) (v : HandleSlot) : (s.setHslot r v).ecc = s.ecc := rfl
@[simp] theorem State.setHslot_hostMem (r : HRef) (v : HandleSlot) : (s.setHslot r v).hostMem = s.hostMem := rfl
@[simp] theorem State.setHslot_ringsOn (r : HRef) (v : HandleSlot) : (s.setHslot r v).ringsOn = s.ringsOn := rfl
@[simp] theorem State.setHslot_lpRings (r : HRef) (v : HandleSlot) : (s.setHslot r v).lpRings = s.lpRings := rfl
@[simp] theorem State.setHslot_freeIx (r : HRef) (v : HandleSlot) : (s.setHslot r v).freeIx = s.freeIx := rfl
@[simp] theorem State.setHslot_pairs (r : HRef) (v : HandleSlot) : (s.setHslot r v).pairs = s.pairs := rfl
@[simp] theorem State.setHslot_slots (r : HRef) (v : HandleSlot) : (s.setHslot r v).slots = s.slots := rfl
@[simp] theorem State.setHslot_splits (r : HRef) (v : HandleSlot) : (s.setHslot r v).splits = s.splits := rfl
@[simp] theorem State.setHslot_groups (r : HRef) (v : HandleSlot) : (s.setHslot r v).groups = s.groups := rfl
@[simp] theorem State.setHslot_accs (r : HRef) (v : HandleSlot) : (s.setHslot r v).accs = s.accs := rfl
@[simp] theorem State.setHslot_flags (r : HRef) (v : HandleSlot) : (s.setHslot r v).flags = s.flags := rfl
@[simp] theorem State.setHslot_overruns (r : HRef) (v : HandleSlot) : (s.setHslot r v).overruns = s.overruns := rfl
@[simp] theorem State.setHslot_windows (r : HRef) (v : HandleSlot) : (s.setHslot r v).windows = s.windows := rfl
@[simp] theorem State.setHslot_lastClose (r : HRef) (v : HandleSlot) : (s.setHslot r v).lastClose = s.lastClose := rfl
@[simp] theorem State.setHslot_closing (r : HRef) (v : HandleSlot) : (s.setHslot r v).closing = s.closing := rfl
@[simp] theorem State.setHslot_rounds (r : HRef) (v : HandleSlot) : (s.setHslot r v).rounds = s.rounds := rfl
@[simp] theorem State.setHslot_fabric (r : HRef) (v : HandleSlot) : (s.setHslot r v).fabric = s.fabric := rfl
@[simp] theorem State.setHslot_sputBad (r : HRef) (v : HandleSlot) : (s.setHslot r v).sputBad = s.sputBad := rfl
@[simp] theorem State.setHslot_late (r : HRef) (v : HandleSlot) : (s.setHslot r v).late = s.late := rfl
@[simp] theorem State.setHslot_timeouts (r : HRef) (v : HandleSlot) : (s.setHslot r v).timeouts = s.timeouts := rfl
@[simp] theorem State.setHslot_ctxs (r : HRef) (v : HandleSlot) : (s.setHslot r v).ctxs = s.ctxs := rfl
@[simp] theorem State.setHslot_waiting (r : HRef) (v : HandleSlot) : (s.setHslot r v).waiting = s.waiting := rfl
@[simp] theorem State.setHslot_clearing (r : HRef) (v : HandleSlot) : (s.setHslot r v).clearing = s.clearing := rfl
@[simp] theorem State.setHslot_fullNow (r : HRef) (v : HandleSlot) : (s.setHslot r v).fullNow = s.fullNow := rfl
@[simp] theorem State.setHslot_adapt (r : HRef) (v : HandleSlot) : (s.setHslot r v).adapt = s.adapt := rfl
@[simp] theorem State.setHslot_promotions (r : HRef) (v : HandleSlot) : (s.setHslot r v).promotions = s.promotions := rfl
@[simp] theorem State.setHslot_barred (r : HRef) (v : HandleSlot) : (s.setHslot r v).barred = s.barred := rfl
@[simp] theorem State.setHslot_lastSlot (r : HRef) (v : HandleSlot) : (s.setHslot r v).lastSlot = s.lastSlot := rfl
@[simp] theorem State.setHslot_seqs (r : HRef) (v : HandleSlot) : (s.setHslot r v).seqs = s.seqs := rfl
@[simp] theorem State.setHslot_stateWait (r : HRef) (v : HandleSlot) : (s.setHslot r v).stateWait = s.stateWait := rfl
@[simp] theorem State.setHslot_portA (r : HRef) (v : HandleSlot) : (s.setHslot r v).portA = s.portA := rfl
@[simp] theorem State.setHslot_portB (r : HRef) (v : HandleSlot) : (s.setHslot r v).portB = s.portB := rfl
@[simp] theorem State.setHslot_emcy (r : HRef) (v : HandleSlot) : (s.setHslot r v).emcy = s.emcy := rfl
@[simp] theorem State.setHslot_busOffA (r : HRef) (v : HandleSlot) : (s.setHslot r v).busOffA = s.busOffA := rfl
@[simp] theorem State.setHslot_busOffB (r : HRef) (v : HandleSlot) : (s.setHslot r v).busOffB = s.busOffB := rfl
@[simp] theorem State.setHslot_busOffRecent (r : HRef) (v : HandleSlot) : (s.setHslot r v).busOffRecent = s.busOffRecent := rfl
@[simp] theorem State.setHslot_canParams (r : HRef) (v : HandleSlot) : (s.setHslot r v).canParams = s.canParams := rfl
@[simp] theorem State.setHslot_eps (r : HRef) (v : HandleSlot) : (s.setHslot r v).eps = s.eps := rfl
@[simp] theorem State.setHslot_life (r : HRef) (v : HandleSlot) : (s.setHslot r v).life = s.life := rfl
@[simp] theorem State.setHslot_unbound (r : HRef) (v : HandleSlot) : (s.setHslot r v).unbound = s.unbound := rfl
@[simp] theorem State.setHslot_announced (r : HRef) (v : HandleSlot) : (s.setHslot r v).announced = s.announced := rfl
@[simp] theorem State.setHslot_discards (r : HRef) (v : HandleSlot) : (s.setHslot r v).discards = s.discards := rfl
@[simp] theorem State.setHslot_eccFixed (r : HRef) (v : HandleSlot) : (s.setHslot r v).eccFixed = s.eccFixed := rfl
@[simp] theorem State.setHslot_skipped (r : HRef) (v : HandleSlot) : (s.setHslot r v).skipped = s.skipped := rfl
@[simp] theorem State.setHslot_dgramDrops (r : HRef) (v : HandleSlot) : (s.setHslot r v).dgramDrops = s.dgramDrops := rfl
@[simp] theorem State.setHslot_tables (r : HRef) (v : HandleSlot) : (s.setHslot r v).tables = s.tables := rfl
@[simp] theorem State.setHslot_meshBase (r : HRef) (v : HandleSlot) : (s.setHslot r v).meshBase = s.meshBase := rfl
@[simp] theorem State.setHslot_raw (r : HRef) (v : HandleSlot) : (s.setHslot r v).raw = s.raw := rfl
@[simp] theorem State.setHslot_views (r : HRef) (v : HandleSlot) : (s.setHslot r v).views = s.views := rfl
@[simp] theorem State.setHslot_sweeps (r : HRef) (v : HandleSlot) : (s.setHslot r v).sweeps = s.sweeps := rfl
@[simp] theorem State.setHslot_sweepsPrev (r : HRef) (v : HandleSlot) : (s.setHslot r v).sweepsPrev = s.sweepsPrev := rfl
@[simp] theorem State.setHslot_meshQueue (r : HRef) (v : HandleSlot) : (s.setHslot r v).meshQueue = s.meshQueue := rfl
@[simp] theorem State.setHslot_fetched (r : HRef) (v : HandleSlot) : (s.setHslot r v).fetched = s.fetched := rfl
@[simp] theorem State.setHslot_calib (r : HRef) (v : HandleSlot) : (s.setHslot r v).calib = s.calib := rfl
@[simp] theorem State.setHslot_lensMesh (r : HRef) (v : HandleSlot) : (s.setHslot r v).lensMesh = s.lensMesh := rfl
@[simp] theorem State.setHslot_motion (r : HRef) (v : HandleSlot) : (s.setHslot r v).motion = s.motion := rfl
@[simp] theorem State.setHslot_egoLate (r : HRef) (v : HandleSlot) : (s.setHslot r v).egoLate = s.egoLate := rfl
@[simp] theorem State.setHslot_triggers (r : HRef) (v : HandleSlot) : (s.setHslot r v).triggers = s.triggers := rfl
@[simp] theorem State.setHslot_gptpSync (r : HRef) (v : HandleSlot) : (s.setHslot r v).gptpSync = s.gptpSync := rfl
@[simp] theorem State.setHslot_ticked (r : HRef) (v : HandleSlot) : (s.setHslot r v).ticked = s.ticked := rfl
@[simp] theorem State.setHslot_tickPredicted (r : HRef) (v : HandleSlot) : (s.setHslot r v).tickPredicted = s.tickPredicted := rfl
@[simp] theorem State.setHslot_tickPrev (r : HRef) (v : HandleSlot) : (s.setHslot r v).tickPrev = s.tickPrev := rfl
@[simp] theorem State.setHslot_lockGood (r : HRef) (v : HandleSlot) : (s.setHslot r v).lockGood = s.lockGood := rfl
@[simp] theorem State.setHslot_frame (r : HRef) (v : HandleSlot) : (s.setHslot r v).frame = s.frame := rfl
@[simp] theorem State.setHslot_disagreements (r : HRef) (v : HandleSlot) : (s.setHslot r v).disagreements = s.disagreements := rfl
@[simp] theorem State.setHslot_logOpen (r : HRef) (v : HandleSlot) : (s.setHslot r v).logOpen = s.logOpen := rfl
@[simp] theorem State.setHslot_safeOk (r : HRef) (v : HandleSlot) : (s.setHslot r v).safeOk = s.safeOk := rfl
@[simp] theorem State.setHslot_faultN (r : HRef) (v : HandleSlot) : (s.setHslot r v).faultN = s.faultN := rfl
@[simp] theorem State.setHslot_poresetN (r : HRef) (v : HandleSlot) : (s.setHslot r v).poresetN = s.poresetN := rfl
@[simp] theorem State.setHslot_pwrEn (r : HRef) (v : HandleSlot) : (s.setHslot r v).pwrEn = s.pwrEn := rfl
@[simp] theorem State.setHslot_pwrGood (r : HRef) (v : HandleSlot) : (s.setHslot r v).pwrGood = s.pwrGood := rfl
@[simp] theorem State.setHslot_thermalHold (r : HRef) (v : HandleSlot) : (s.setHslot r v).thermalHold = s.thermalHold := rfl
@[simp] theorem State.setHslot_laterCauses (r : HRef) (v : HandleSlot) : (s.setHslot r v).laterCauses = s.laterCauses := rfl
@[simp] theorem State.setHslot_parts (r : HRef) (v : HandleSlot) : (s.setHslot r v).parts = s.parts := rfl
@[simp] theorem State.setHslot_devReset (r : HRef) (v : HandleSlot) : (s.setHslot r v).devReset = s.devReset := rfl
@[simp] theorem State.setHslot_devCause (r : HRef) (v : HandleSlot) : (s.setHslot r v).devCause = s.devCause := rfl
@[simp] theorem State.setHslot_devLater (r : HRef) (v : HandleSlot) : (s.setHslot r v).devLater = s.devLater := rfl
@[simp] theorem State.setHslot_aonLog (r : HRef) (v : HandleSlot) : (s.setHslot r v).aonLog = s.aonLog := rfl
@[simp] theorem State.setHslot_aonCodes (r : HRef) (v : HandleSlot) : (s.setHslot r v).aonCodes = s.aonCodes := rfl
@[simp] theorem State.setHslot_aonDict (r : HRef) (v : HandleSlot) : (s.setHslot r v).aonDict = s.aonDict := rfl
@[simp] theorem State.setHslot_resetCause (r : HRef) (v : HandleSlot) : (s.setHslot r v).resetCause = s.resetCause := rfl
@[simp] theorem State.setHslot_activity (r : HRef) (v : HandleSlot) : (s.setHslot r v).activity = s.activity := rfl
@[simp] theorem State.setHslot_lpFrom (r : HRef) (v : HandleSlot) : (s.setHslot r v).lpFrom = s.lpFrom := rfl
@[simp] theorem State.setHslot_wake (r : HRef) (v : HandleSlot) : (s.setHslot r v).wake = s.wake := rfl
@[simp] theorem State.setHslot_wakeMask (r : HRef) (v : HandleSlot) : (s.setHslot r v).wakeMask = s.wakeMask := rfl
@[simp] theorem State.setHslot_wakeTimer (r : HRef) (v : HandleSlot) : (s.setHslot r v).wakeTimer = s.wakeTimer := rfl
@[simp] theorem State.setHslot_lpExitBegun (r : HRef) (v : HandleSlot) : (s.setHslot r v).lpExitBegun = s.lpExitBegun := rfl
@[simp] theorem State.setHslot_lpRails (r : HRef) (v : HandleSlot) : (s.setHslot r v).lpRails = s.lpRails := rfl
@[simp] theorem State.setHslot_graceDue (r : HRef) (v : HandleSlot) : (s.setHslot r v).graceDue = s.graceDue := rfl
@[simp] theorem State.setHslot_lpStuck (r : HRef) (v : HandleSlot) : (s.setHslot r v).lpStuck = s.lpStuck := rfl
@[simp] theorem State.setHslot_testCap (r : HRef) (v : HandleSlot) : (s.setHslot r v).testCap = s.testCap := rfl
@[simp] theorem State.setHslot_rateAt (r : HRef) (v : HandleSlot) : (s.setHslot r v).rateAt = s.rateAt := rfl
@[simp] theorem State.setHslot_rateMark (r : HRef) (v : HandleSlot) : (s.setHslot r v).rateMark = s.rateMark := rfl
@[simp] theorem State.setHslot_slowHeld (r : HRef) (v : HandleSlot) : (s.setHslot r v).slowHeld = s.slowHeld := rfl
@[simp] theorem State.setHslot_fuses (r : HRef) (v : HandleSlot) : (s.setHslot r v).fuses = s.fuses := rfl
@[simp] theorem State.setHslot_fitted (r : HRef) (v : HandleSlot) : (s.setHslot r v).fitted = s.fitted := rfl
@[simp] theorem State.setHslot_safeState (r : HRef) (v : HandleSlot) : (s.setHslot r v).safeState = s.safeState := rfl
@[simp] theorem State.setHslot_romWait (r : HRef) (v : HandleSlot) : (s.setHslot r v).romWait = s.romWait := rfl
@[simp] theorem State.setHslot_bootDue (r : HRef) (v : HandleSlot) : (s.setHslot r v).bootDue = s.bootDue := rfl
@[simp] theorem State.setHslot_owedReset (r : HRef) (v : HandleSlot) : (s.setHslot r v).owedReset = s.owedReset := rfl
@[simp] theorem State.setHslot_romSource (r : HRef) (v : HandleSlot) : (s.setHslot r v).romSource = s.romSource := rfl
@[simp] theorem State.setHslot_bootDigest (r : HRef) (v : HandleSlot) : (s.setHslot r v).bootDigest = s.bootDigest := rfl
@[simp] theorem State.setHslot_imageLevel (r : HRef) (v : HandleSlot) : (s.setHslot r v).imageLevel = s.imageLevel := rfl
@[simp] theorem State.setHslot_imageRevoke (r : HRef) (v : HandleSlot) : (s.setHslot r v).imageRevoke = s.imageRevoke := rfl
@[simp] theorem State.setHslot_fuseBlowDue (r : HRef) (v : HandleSlot) : (s.setHslot r v).fuseBlowDue = s.fuseBlowDue := rfl
@[simp] theorem State.setHslot_trustKey (r : HRef) (v : HandleSlot) : (s.setHslot r v).trustKey = s.trustKey := rfl
@[simp] theorem State.setHslot_quotes (r : HRef) (v : HandleSlot) : (s.setHslot r v).quotes = s.quotes := rfl
@[simp] theorem State.setHslot_scrubPos (r : HRef) (v : HandleSlot) : (s.setHslot r v).scrubPos = s.scrubPos := rfl
@[simp] theorem State.setHslot_tempHeld (r : HRef) (v : HandleSlot) : (s.setHslot r v).tempHeld = s.tempHeld := rfl
@[simp] theorem State.setHslot_tempBelow (r : HRef) (v : HandleSlot) : (s.setHslot r v).tempBelow = s.tempBelow := rfl
@[simp] theorem State.setHslot_vset (r : HRef) (v : HandleSlot) : (s.setHslot r v).vset = s.vset := rfl

/-! ### hostWrite -/

@[simp] theorem State.hostWrite_pending (h a : Nat) (l : List Byte) : (s.hostWrite h a l).pending = s.pending := rfl
@[simp] theorem State.hostWrite_timeNs (h a : Nat) (l : List Byte) : (s.hostWrite h a l).timeNs = s.timeNs := rfl
@[simp] theorem State.hostWrite_sent (h a : Nat) (l : List Byte) : (s.hostWrite h a l).sent = s.sent := rfl
@[simp] theorem State.hostWrite_dict (h a : Nat) (l : List Byte) : (s.hostWrite h a l).dict = s.dict := rfl
@[simp] theorem State.hostWrite_mem (h a : Nat) (l : List Byte) : (s.hostWrite h a l).mem = s.mem := rfl
@[simp] theorem State.hostWrite_poison (h a : Nat) (l : List Byte) : (s.hostWrite h a l).poison = s.poison := rfl
@[simp] theorem State.hostWrite_ecc (h a : Nat) (l : List Byte) : (s.hostWrite h a l).ecc = s.ecc := rfl
@[simp] theorem State.hostWrite_ringsOn (h a : Nat) (l : List Byte) : (s.hostWrite h a l).ringsOn = s.ringsOn := rfl
@[simp] theorem State.hostWrite_lpRings (h a : Nat) (l : List Byte) : (s.hostWrite h a l).lpRings = s.lpRings := rfl
@[simp] theorem State.hostWrite_freeIx (h a : Nat) (l : List Byte) : (s.hostWrite h a l).freeIx = s.freeIx := rfl
@[simp] theorem State.hostWrite_pairs (h a : Nat) (l : List Byte) : (s.hostWrite h a l).pairs = s.pairs := rfl
@[simp] theorem State.hostWrite_slots (h a : Nat) (l : List Byte) : (s.hostWrite h a l).slots = s.slots := rfl
@[simp] theorem State.hostWrite_splits (h a : Nat) (l : List Byte) : (s.hostWrite h a l).splits = s.splits := rfl
@[simp] theorem State.hostWrite_groups (h a : Nat) (l : List Byte) : (s.hostWrite h a l).groups = s.groups := rfl
@[simp] theorem State.hostWrite_accs (h a : Nat) (l : List Byte) : (s.hostWrite h a l).accs = s.accs := rfl
@[simp] theorem State.hostWrite_flags (h a : Nat) (l : List Byte) : (s.hostWrite h a l).flags = s.flags := rfl
@[simp] theorem State.hostWrite_overruns (h a : Nat) (l : List Byte) : (s.hostWrite h a l).overruns = s.overruns := rfl
@[simp] theorem State.hostWrite_windows (h a : Nat) (l : List Byte) : (s.hostWrite h a l).windows = s.windows := rfl
@[simp] theorem State.hostWrite_lastClose (h a : Nat) (l : List Byte) : (s.hostWrite h a l).lastClose = s.lastClose := rfl
@[simp] theorem State.hostWrite_closing (h a : Nat) (l : List Byte) : (s.hostWrite h a l).closing = s.closing := rfl
@[simp] theorem State.hostWrite_rounds (h a : Nat) (l : List Byte) : (s.hostWrite h a l).rounds = s.rounds := rfl
@[simp] theorem State.hostWrite_fabric (h a : Nat) (l : List Byte) : (s.hostWrite h a l).fabric = s.fabric := rfl
@[simp] theorem State.hostWrite_sputBad (h a : Nat) (l : List Byte) : (s.hostWrite h a l).sputBad = s.sputBad := rfl
@[simp] theorem State.hostWrite_late (h a : Nat) (l : List Byte) : (s.hostWrite h a l).late = s.late := rfl
@[simp] theorem State.hostWrite_timeouts (h a : Nat) (l : List Byte) : (s.hostWrite h a l).timeouts = s.timeouts := rfl
@[simp] theorem State.hostWrite_ctxs (h a : Nat) (l : List Byte) : (s.hostWrite h a l).ctxs = s.ctxs := rfl
@[simp] theorem State.hostWrite_waiting (h a : Nat) (l : List Byte) : (s.hostWrite h a l).waiting = s.waiting := rfl
@[simp] theorem State.hostWrite_clearing (h a : Nat) (l : List Byte) : (s.hostWrite h a l).clearing = s.clearing := rfl
@[simp] theorem State.hostWrite_fullNow (h a : Nat) (l : List Byte) : (s.hostWrite h a l).fullNow = s.fullNow := rfl
@[simp] theorem State.hostWrite_adapt (h a : Nat) (l : List Byte) : (s.hostWrite h a l).adapt = s.adapt := rfl
@[simp] theorem State.hostWrite_promotions (h a : Nat) (l : List Byte) : (s.hostWrite h a l).promotions = s.promotions := rfl
@[simp] theorem State.hostWrite_barred (h a : Nat) (l : List Byte) : (s.hostWrite h a l).barred = s.barred := rfl
@[simp] theorem State.hostWrite_handles (h a : Nat) (l : List Byte) : (s.hostWrite h a l).handles = s.handles := rfl
@[simp] theorem State.hostWrite_lastSlot (h a : Nat) (l : List Byte) : (s.hostWrite h a l).lastSlot = s.lastSlot := rfl
@[simp] theorem State.hostWrite_seqs (h a : Nat) (l : List Byte) : (s.hostWrite h a l).seqs = s.seqs := rfl
@[simp] theorem State.hostWrite_stateWait (h a : Nat) (l : List Byte) : (s.hostWrite h a l).stateWait = s.stateWait := rfl
@[simp] theorem State.hostWrite_portA (h a : Nat) (l : List Byte) : (s.hostWrite h a l).portA = s.portA := rfl
@[simp] theorem State.hostWrite_portB (h a : Nat) (l : List Byte) : (s.hostWrite h a l).portB = s.portB := rfl
@[simp] theorem State.hostWrite_emcy (h a : Nat) (l : List Byte) : (s.hostWrite h a l).emcy = s.emcy := rfl
@[simp] theorem State.hostWrite_busOffA (h a : Nat) (l : List Byte) : (s.hostWrite h a l).busOffA = s.busOffA := rfl
@[simp] theorem State.hostWrite_busOffB (h a : Nat) (l : List Byte) : (s.hostWrite h a l).busOffB = s.busOffB := rfl
@[simp] theorem State.hostWrite_busOffRecent (h a : Nat) (l : List Byte) : (s.hostWrite h a l).busOffRecent = s.busOffRecent := rfl
@[simp] theorem State.hostWrite_canParams (h a : Nat) (l : List Byte) : (s.hostWrite h a l).canParams = s.canParams := rfl
@[simp] theorem State.hostWrite_eps (h a : Nat) (l : List Byte) : (s.hostWrite h a l).eps = s.eps := rfl
@[simp] theorem State.hostWrite_life (h a : Nat) (l : List Byte) : (s.hostWrite h a l).life = s.life := rfl
@[simp] theorem State.hostWrite_unbound (h a : Nat) (l : List Byte) : (s.hostWrite h a l).unbound = s.unbound := rfl
@[simp] theorem State.hostWrite_announced (h a : Nat) (l : List Byte) : (s.hostWrite h a l).announced = s.announced := rfl
@[simp] theorem State.hostWrite_discards (h a : Nat) (l : List Byte) : (s.hostWrite h a l).discards = s.discards := rfl
@[simp] theorem State.hostWrite_eccFixed (h a : Nat) (l : List Byte) : (s.hostWrite h a l).eccFixed = s.eccFixed := rfl
@[simp] theorem State.hostWrite_skipped (h a : Nat) (l : List Byte) : (s.hostWrite h a l).skipped = s.skipped := rfl
@[simp] theorem State.hostWrite_dgramDrops (h a : Nat) (l : List Byte) : (s.hostWrite h a l).dgramDrops = s.dgramDrops := rfl
@[simp] theorem State.hostWrite_tables (h a : Nat) (l : List Byte) : (s.hostWrite h a l).tables = s.tables := rfl
@[simp] theorem State.hostWrite_meshBase (h a : Nat) (l : List Byte) : (s.hostWrite h a l).meshBase = s.meshBase := rfl
@[simp] theorem State.hostWrite_raw (h a : Nat) (l : List Byte) : (s.hostWrite h a l).raw = s.raw := rfl
@[simp] theorem State.hostWrite_views (h a : Nat) (l : List Byte) : (s.hostWrite h a l).views = s.views := rfl
@[simp] theorem State.hostWrite_sweeps (h a : Nat) (l : List Byte) : (s.hostWrite h a l).sweeps = s.sweeps := rfl
@[simp] theorem State.hostWrite_sweepsPrev (h a : Nat) (l : List Byte) : (s.hostWrite h a l).sweepsPrev = s.sweepsPrev := rfl
@[simp] theorem State.hostWrite_meshQueue (h a : Nat) (l : List Byte) : (s.hostWrite h a l).meshQueue = s.meshQueue := rfl
@[simp] theorem State.hostWrite_fetched (h a : Nat) (l : List Byte) : (s.hostWrite h a l).fetched = s.fetched := rfl
@[simp] theorem State.hostWrite_calib (h a : Nat) (l : List Byte) : (s.hostWrite h a l).calib = s.calib := rfl
@[simp] theorem State.hostWrite_lensMesh (h a : Nat) (l : List Byte) : (s.hostWrite h a l).lensMesh = s.lensMesh := rfl
@[simp] theorem State.hostWrite_motion (h a : Nat) (l : List Byte) : (s.hostWrite h a l).motion = s.motion := rfl
@[simp] theorem State.hostWrite_egoLate (h a : Nat) (l : List Byte) : (s.hostWrite h a l).egoLate = s.egoLate := rfl
@[simp] theorem State.hostWrite_triggers (h a : Nat) (l : List Byte) : (s.hostWrite h a l).triggers = s.triggers := rfl
@[simp] theorem State.hostWrite_gptpSync (h a : Nat) (l : List Byte) : (s.hostWrite h a l).gptpSync = s.gptpSync := rfl
@[simp] theorem State.hostWrite_ticked (h a : Nat) (l : List Byte) : (s.hostWrite h a l).ticked = s.ticked := rfl
@[simp] theorem State.hostWrite_tickPredicted (h a : Nat) (l : List Byte) : (s.hostWrite h a l).tickPredicted = s.tickPredicted := rfl
@[simp] theorem State.hostWrite_tickPrev (h a : Nat) (l : List Byte) : (s.hostWrite h a l).tickPrev = s.tickPrev := rfl
@[simp] theorem State.hostWrite_lockGood (h a : Nat) (l : List Byte) : (s.hostWrite h a l).lockGood = s.lockGood := rfl
@[simp] theorem State.hostWrite_frame (h a : Nat) (l : List Byte) : (s.hostWrite h a l).frame = s.frame := rfl
@[simp] theorem State.hostWrite_disagreements (h a : Nat) (l : List Byte) : (s.hostWrite h a l).disagreements = s.disagreements := rfl
@[simp] theorem State.hostWrite_logOpen (h a : Nat) (l : List Byte) : (s.hostWrite h a l).logOpen = s.logOpen := rfl
@[simp] theorem State.hostWrite_safeOk (h a : Nat) (l : List Byte) : (s.hostWrite h a l).safeOk = s.safeOk := rfl
@[simp] theorem State.hostWrite_faultN (h a : Nat) (l : List Byte) : (s.hostWrite h a l).faultN = s.faultN := rfl
@[simp] theorem State.hostWrite_poresetN (h a : Nat) (l : List Byte) : (s.hostWrite h a l).poresetN = s.poresetN := rfl
@[simp] theorem State.hostWrite_pwrEn (h a : Nat) (l : List Byte) : (s.hostWrite h a l).pwrEn = s.pwrEn := rfl
@[simp] theorem State.hostWrite_pwrGood (h a : Nat) (l : List Byte) : (s.hostWrite h a l).pwrGood = s.pwrGood := rfl
@[simp] theorem State.hostWrite_thermalHold (h a : Nat) (l : List Byte) : (s.hostWrite h a l).thermalHold = s.thermalHold := rfl
@[simp] theorem State.hostWrite_laterCauses (h a : Nat) (l : List Byte) : (s.hostWrite h a l).laterCauses = s.laterCauses := rfl
@[simp] theorem State.hostWrite_parts (h a : Nat) (l : List Byte) : (s.hostWrite h a l).parts = s.parts := rfl
@[simp] theorem State.hostWrite_devReset (h a : Nat) (l : List Byte) : (s.hostWrite h a l).devReset = s.devReset := rfl
@[simp] theorem State.hostWrite_devCause (h a : Nat) (l : List Byte) : (s.hostWrite h a l).devCause = s.devCause := rfl
@[simp] theorem State.hostWrite_devLater (h a : Nat) (l : List Byte) : (s.hostWrite h a l).devLater = s.devLater := rfl
@[simp] theorem State.hostWrite_aonLog (h a : Nat) (l : List Byte) : (s.hostWrite h a l).aonLog = s.aonLog := rfl
@[simp] theorem State.hostWrite_aonCodes (h a : Nat) (l : List Byte) : (s.hostWrite h a l).aonCodes = s.aonCodes := rfl
@[simp] theorem State.hostWrite_aonDict (h a : Nat) (l : List Byte) : (s.hostWrite h a l).aonDict = s.aonDict := rfl
@[simp] theorem State.hostWrite_resetCause (h a : Nat) (l : List Byte) : (s.hostWrite h a l).resetCause = s.resetCause := rfl
@[simp] theorem State.hostWrite_activity (h a : Nat) (l : List Byte) : (s.hostWrite h a l).activity = s.activity := rfl
@[simp] theorem State.hostWrite_lpFrom (h a : Nat) (l : List Byte) : (s.hostWrite h a l).lpFrom = s.lpFrom := rfl
@[simp] theorem State.hostWrite_wake (h a : Nat) (l : List Byte) : (s.hostWrite h a l).wake = s.wake := rfl
@[simp] theorem State.hostWrite_wakeMask (h a : Nat) (l : List Byte) : (s.hostWrite h a l).wakeMask = s.wakeMask := rfl
@[simp] theorem State.hostWrite_wakeTimer (h a : Nat) (l : List Byte) : (s.hostWrite h a l).wakeTimer = s.wakeTimer := rfl
@[simp] theorem State.hostWrite_lpExitBegun (h a : Nat) (l : List Byte) : (s.hostWrite h a l).lpExitBegun = s.lpExitBegun := rfl
@[simp] theorem State.hostWrite_lpRails (h a : Nat) (l : List Byte) : (s.hostWrite h a l).lpRails = s.lpRails := rfl
@[simp] theorem State.hostWrite_graceDue (h a : Nat) (l : List Byte) : (s.hostWrite h a l).graceDue = s.graceDue := rfl
@[simp] theorem State.hostWrite_lpStuck (h a : Nat) (l : List Byte) : (s.hostWrite h a l).lpStuck = s.lpStuck := rfl
@[simp] theorem State.hostWrite_testCap (h a : Nat) (l : List Byte) : (s.hostWrite h a l).testCap = s.testCap := rfl
@[simp] theorem State.hostWrite_rateAt (h a : Nat) (l : List Byte) : (s.hostWrite h a l).rateAt = s.rateAt := rfl
@[simp] theorem State.hostWrite_rateMark (h a : Nat) (l : List Byte) : (s.hostWrite h a l).rateMark = s.rateMark := rfl
@[simp] theorem State.hostWrite_slowHeld (h a : Nat) (l : List Byte) : (s.hostWrite h a l).slowHeld = s.slowHeld := rfl
@[simp] theorem State.hostWrite_fuses (h a : Nat) (l : List Byte) : (s.hostWrite h a l).fuses = s.fuses := rfl
@[simp] theorem State.hostWrite_fitted (h a : Nat) (l : List Byte) : (s.hostWrite h a l).fitted = s.fitted := rfl
@[simp] theorem State.hostWrite_safeState (h a : Nat) (l : List Byte) : (s.hostWrite h a l).safeState = s.safeState := rfl
@[simp] theorem State.hostWrite_romWait (h a : Nat) (l : List Byte) : (s.hostWrite h a l).romWait = s.romWait := rfl
@[simp] theorem State.hostWrite_bootDue (h a : Nat) (l : List Byte) : (s.hostWrite h a l).bootDue = s.bootDue := rfl
@[simp] theorem State.hostWrite_owedReset (h a : Nat) (l : List Byte) : (s.hostWrite h a l).owedReset = s.owedReset := rfl
@[simp] theorem State.hostWrite_romSource (h a : Nat) (l : List Byte) : (s.hostWrite h a l).romSource = s.romSource := rfl
@[simp] theorem State.hostWrite_bootDigest (h a : Nat) (l : List Byte) : (s.hostWrite h a l).bootDigest = s.bootDigest := rfl
@[simp] theorem State.hostWrite_imageLevel (h a : Nat) (l : List Byte) : (s.hostWrite h a l).imageLevel = s.imageLevel := rfl
@[simp] theorem State.hostWrite_imageRevoke (h a : Nat) (l : List Byte) : (s.hostWrite h a l).imageRevoke = s.imageRevoke := rfl
@[simp] theorem State.hostWrite_fuseBlowDue (h a : Nat) (l : List Byte) : (s.hostWrite h a l).fuseBlowDue = s.fuseBlowDue := rfl
@[simp] theorem State.hostWrite_trustKey (h a : Nat) (l : List Byte) : (s.hostWrite h a l).trustKey = s.trustKey := rfl
@[simp] theorem State.hostWrite_quotes (h a : Nat) (l : List Byte) : (s.hostWrite h a l).quotes = s.quotes := rfl
@[simp] theorem State.hostWrite_scrubPos (h a : Nat) (l : List Byte) : (s.hostWrite h a l).scrubPos = s.scrubPos := rfl
@[simp] theorem State.hostWrite_tempHeld (h a : Nat) (l : List Byte) : (s.hostWrite h a l).tempHeld = s.tempHeld := rfl
@[simp] theorem State.hostWrite_tempBelow (h a : Nat) (l : List Byte) : (s.hostWrite h a l).tempBelow = s.tempBelow := rfl
@[simp] theorem State.hostWrite_vset (h a : Nat) (l : List Byte) : (s.hostWrite h a l).vset = s.vset := rfl

/-! ### Reads after writes -/

@[simp] theorem State.fresh_sent : s.fresh.sent = [] := rfl
@[simp] theorem State.send_sent (m : Message) : (s.send m).sent = s.sent ++ [m] := rfl
@[simp] theorem State.atTime_timeNs (n : Nat) : (s.atTime n).timeNs = max s.timeNs n := rfl
@[simp] theorem State.pair_setPair (c q : Nat) (p : Pair) : (s.setPair c q p).pair c q = p := KV.get_set_same _ _ _ _
@[simp] theorem State.slot_setSlot (c q i : Nat) (v : ScaleSlot) : (s.setSlot c q i v).slot c q i = v := KV.get_set_same _ _ _ _
@[simp] theorem State.split_setSplit (c a v : Nat) : (s.setSplit c a v).split c a = v := KV.get_set_same _ _ _ _
@[simp] theorem State.group_setGroup (c a g : Nat) (v : Group) : (s.setGroup c a g v).group c a g = v := KV.get_set_same _ _ _ _
@[simp] theorem State.acc_setAcc (c a e j : Nat) (v : Acc) : (s.setAcc c a e j v).acc c a e j = v := KV.get_set_same _ _ _ _
@[simp] theorem State.flag_putFlag (c f : Nat) (b : Bool) : (s.putFlag c f b).flag c f = b := KV.get_set_same _ _ _ _
@[simp] theorem State.ctx_setCtx (k : Nat) (v : Ctx) : (s.setCtx k v).ctx k = v := KV.get_set_same _ _ _ _
@[simp] theorem State.ep_setEp (e : Nat) (v : Endpoint) : (s.setEp e v).ep e = v := KV.get_set_same _ _ _ _
@[simp] theorem State.part_setPart (p : Nat) (v : Partition) : (s.setPart p v).part p = v := KV.get_set_same _ _ _ _
@[simp] theorem State.view_setView (n : Nat) (v : ViewState) : (s.setView n v).view n = v := KV.get_set_same _ _ _ _
@[simp] theorem State.adGroup_setAdGroup (g : Nat) (v : AdGroup) : (s.setAdGroup g v).adGroup g = v := KV.get_set_same _ _ _ _
@[simp] theorem State.hslot_setHslot (r : HRef) (v : HandleSlot) : (s.setHslot r v).hslot r = v := KV.get_set_same _ _ _ _
@[simp] theorem State.port_setPort (h : HostPort) (p : PortState) : (s.setPort h p).port h = p := by cases h <;> rfl
@[simp] theorem State.strm_setStrm (c q : Nat) (i : StreamId) (t : Strm) : (s.setStrm c q i t).strm c q i = t := by
  cases i <;> simp [State.setStrm, State.strm, Pair.setStrm, Pair.strm]
theorem State.flag_putFlag_ne (c f c' f' : Nat) (b : Bool) (h : flagKey c' f' ≠ flagKey c f) :
    (s.putFlag c f b).flag c' f' = s.flag c' f' := KV.get_set_ne _ _ _ h
theorem State.pair_setPair_ne (c q c' q' : Nat) (p : Pair) (h : pairKey c' q' ≠ pairKey c q) :
    (s.setPair c q p).pair c' q' = s.pair c' q' := KV.get_set_ne _ _ _ h
theorem State.ctx_setCtx_ne (k k' : Nat) (v : Ctx) (h : k' ≠ k) : (s.setCtx k v).ctx k' = s.ctx k' := KV.get_set_ne _ _ _ h
theorem State.part_setPart_ne (p p' : Nat) (v : Partition) (h : p' ≠ p) : (s.setPart p v).part p' = s.part p' := KV.get_set_ne _ _ _ h
theorem State.ep_setEp_ne (e e' : Nat) (v : Endpoint) (h : e' ≠ e) : (s.setEp e v).ep e' = s.ep e' := KV.get_set_ne _ _ _ h
theorem State.hslot_setHslot_ne (r r' : HRef) (v : HandleSlot) (h : hKey r'.1 r'.2 ≠ hKey r.1 r.2) :
    (s.setHslot r v).hslot r' = s.hslot r' := KV.get_set_ne _ _ _ h

end Sys2Proof.Machine
end

