-- ==== Sys2Proof/Laws/Frames.lean ====
section
/-! SUPPORT. Frames: how `SameBut` and `DictBut` compose, and the frame of each shared operation. -/

namespace Sys2Proof.Machine

theorem SameBut.refl (l : List Field) (s : State) : SameBut l s s := by
  intro f _; cases f <;> rfl

theorem Field.same_trans {f : Field} {s t u : State} (h : f.same s t) (k : f.same t u) : f.same s u := by
  cases f <;> exact Eq.trans k h

theorem SameBut.trans {l : List Field} {s t u : State} (h : SameBut l s t) (k : SameBut l t u) : SameBut l s u :=
  fun f hf => Field.same_trans (h f hf) (k f hf)

theorem SameBut.mono {l m : List Field} {s t : State} (h : SameBut l s t) (hlm : ∀ f ∈ l, f ∈ m) : SameBut m s t :=
  fun f hf => h f (fun hl => hf (hlm f hl))

theorem DictBut.refl (l : List (Nat × Nat)) (s : State) : DictBut l s s := fun _ _ _ _ => rfl

theorem DictBut.trans {l : List (Nat × Nat)} {s t u : State} (h : DictBut l s t) (k : DictBut l t u) : DictBut l s u :=
  fun i b hb hn => (k i b hb hn).trans (h i b hb hn)

theorem DictBut.mono {l m : List (Nat × Nat)} {s t : State} (h : DictBut l s t) (hlm : ∀ e ∈ l, e ∈ m) : DictBut m s t :=
  fun i b hb hn => h i b hb (fun hl => hn (hlm _ hl))

/-- What the error register shows is decided by four fields (R412). -/
theorem errorRegister_congr {s t : State} (hd : t.dict = s.dict) (hs : t.safeState = s.safeState)
    (hb : t.busOffRecent = s.busOffRecent) (hl : t.logOpen = s.logOpen) : t.errorRegister = s.errorRegister := by
  unfold State.errorRegister
  rw [hd, hs, hb, hl]

/-- Nothing but the dictionary, the fuses and the error register's sources decides what an entry reads as. -/
theorem dget_congr {s t : State} (hd : t.dict = s.dict) (hf : t.fuses = s.fuses) (he : t.errorRegister = s.errorRegister)
    (i b : Nat) : t.dget i b = s.dget i b := by
  unfold State.dget State.dfltOf State.rollback State.fuse
  rw [hd, hf, he]

/-- An entry other than 0x1001:00 reads from the dictionary and the fuses alone. -/
theorem dget_congr_ne {s t : State} (hd : t.dict = s.dict) (hf : t.fuses = s.fuses) {i b : Nat} (h : (i, b) ≠ (0x1001, 0)) :
    t.dget i b = s.dget i b := by
  have h' : ¬ (i = 0x1001 ∧ b = 0) := fun e => h (by rw [e.1, e.2])
  unfold State.dget State.dfltOf State.rollback State.fuse
  simp only [hd, hf, Bool.and_eq_true, decide_eq_true_eq, if_neg h']

theorem DictBut.of_same {l : List (Nat × Nat)} {s t : State} (hd : t.dict = s.dict) (hf : t.fuses = s.fuses)
    (he : t.errorRegister = s.errorRegister) : DictBut l s t :=
  fun i b _ _ => dget_congr hd hf he i b

theorem State.errorRegister_dset (s : State) (i b v : Nat) (h : dkey 0x2500 0x05 ≠ dkey i b) :
    (s.dset i b v).errorRegister = s.errorRegister := by
  have e : KV.get none (s.dset i b v).dict (dkey 0x2500 0x05) = KV.get none s.dict (dkey 0x2500 0x05) := by
    simp only [State.dset]; exact KV.get_set_ne _ _ _ h
  unfold State.errorRegister
  rw [e]
  rfl

/-! ### Dictionary writes -/

theorem dkey_inj {i b i' b' : Nat} (hb : b < 256) (hb' : b' < 256) (h : dkey i b = dkey i' b') : (i, b) = (i', b') := by
  unfold dkey at h
  have h1 : i = i' := by omega
  have h2 : b = b' := by omega
  rw [h1, h2]

/-- A write to an entry reads back. -/
@[simp] theorem State.dget_dset_same (s : State) (i b v : Nat) : (s.dset i b v).dget i b = v := by
  simp [State.dget, State.dset]

theorem State.dget_dset_key (s : State) (i b v i' b' : Nat) (h : dkey i' b' ≠ dkey i b) (hn : dkey 0x2500 0x4A ≠ dkey i b)
    (ho : dkey 0x2500 0x05 ≠ dkey i b) :
    (s.dset i b v).dget i' b' = s.dget i' b' := by
  have e : KV.get none (s.dset i b v).dict (dkey i' b') = KV.get none s.dict (dkey i' b') := by
    simp only [State.dset]; exact KV.get_set_ne _ _ _ h
  have en : KV.get none (s.dset i b v).dict (dkey 0x2500 0x4A) = KV.get none s.dict (dkey 0x2500 0x4A) := by
    simp only [State.dset]; exact KV.get_set_ne _ _ _ hn
  unfold State.dget State.dfltOf State.rollback State.fuse
  rw [e, en, State.errorRegister_dset s i b v ho]
  rfl

/-- A write to an entry leaves every other one alone, the node ID's and the
out-of-service set's aside: other entries follow them (R434, R412). -/
theorem State.dget_dset_ne (s : State) {i b v i' b' : Nat} (hb : b < 256) (hb' : b' < 256) (h : (i', b') ≠ (i, b))
    (hn : (i, b) ≠ (0x2500, 0x4A)) (ho : (i, b) ≠ (0x2500, 0x05)) : (s.dset i b v).dget i' b' = s.dget i' b' :=
  s.dget_dset_key i b v i' b' (fun e => h (dkey_inj hb' hb e)) (fun e => hn (dkey_inj (by omega) hb e).symm)
    (fun e => ho (dkey_inj (by omega) hb e).symm)

theorem SameBut.dset (s : State) (i b v : Nat) : SameBut [.dict] s (s.dset i b v) := by
  intro f hf; cases f <;> first | rfl | exact absurd (by decide) hf

theorem DictBut.dset (s : State) (i b v : Nat) (hb : b < 256) (hn : (i, b) ≠ (0x2500, 0x4A))
    (ho : (i, b) ≠ (0x2500, 0x05)) : DictBut [(i, b)] s (s.dset i b v) :=
  fun _ _ hb' h => s.dget_dset_ne hb hb' (by simpa using h) hn ho

theorem SameBut.dbump (s : State) (i b : Nat) : SameBut [.dict] s (s.dbump i b) := SameBut.dset _ _ _ _

theorem DictBut.dbump (s : State) (i b : Nat) (hb : b < 256) (hn : (i, b) ≠ (0x2500, 0x4A))
    (ho : (i, b) ≠ (0x2500, 0x05)) : DictBut [(i, b)] s (s.dbump i b) :=
  DictBut.dset _ _ _ _ hb hn ho

theorem SameBut.fresh (s : State) : SameBut [.sent] s s.fresh := by
  intro f hf; cases f <;> first | rfl | exact absurd (by decide) hf

theorem SameBut.setPort (s : State) (h : HostPort) (p : PortState) : SameBut [.portA, .portB] s (s.setPort h p) := by
  intro f hf; cases h <;> cases f <;> first | rfl | exact absurd (by decide) hf

theorem DictBut.setPort (l : List (Nat × Nat)) (s : State) (h : HostPort) (p : PortState) : DictBut l s (s.setPort h p) :=
  DictBut.of_same (by simp) (by simp) (errorRegister_congr (by simp) (by simp) (by simp) (by simp))

theorem SameBut.setHslot (s : State) (r : HRef) (v : HandleSlot) : SameBut [.handles] s (s.setHslot r v) := by
  intro f hf; cases f <;> first | rfl | exact absurd (by decide) hf

theorem DictBut.setHslot (l : List (Nat × Nat)) (s : State) (r : HRef) (v : HandleSlot) : DictBut l s (s.setHslot r v) :=
  DictBut.of_same rfl rfl rfl

/-! ### Host records and completion (R423–R425) -/

def recordFields : List Field := [.hostMem, .portA, .portB, .sent, .dict]

theorem putRecord_same (s : State) (h handle code kind unit result : Nat) (body : List Byte) :
    SameBut recordFields s (s.putRecord h handle code kind unit result body) := by
  unfold State.putRecord
  intro f hf
  cases f <;> first | exact absurd (by decide) hf | simp [Field.same]

theorem putRecord_dict (s : State) (h handle code kind unit result : Nat) (body : List Byte) :
    (s.putRecord h handle code kind unit result body).dict = s.dict := by
  simp [State.putRecord]

theorem putRecord_fuses (s : State) (h handle code kind unit result : Nat) (body : List Byte) :
    (s.putRecord h handle code kind unit result body).fuses = s.fuses := by
  simp [State.putRecord]

/-- Whatever relation single steps of a record keep, the record keeps. -/
theorem hostRecord_rel {R : State → State → Prop} (hrefl : ∀ x, R x x) (htr : ∀ {x y z}, R x y → R y z → R x z)
    (hd : ∀ x : State, R x (x.dbump 0x2500 0x32)) (hp : ∀ (x : State) k p, R x (x.setPort k p))
    (hr : ∀ (x : State) a b c d e f g, R x (x.putRecord a b c d e f g))
    (s : State) (h handle code kind unit result : Nat) (body : List Byte) :
    R s (s.hostRecord h handle code kind unit result body) := by
  unfold State.hostRecord
  split
  · exact hd s
  · split
    · extract_lets p lose
      have hl : ∀ x, R x (lose x) := fun x => hp x _ _
      split
      · exact hl s
      · rename_i s1 _
        have h1 : R s s1 := by
          show R s (if p.lostSince = 0 then s else _)
          split
          · exact hrefl s
          · exact htr (hr _ _ _ _ _ _ _ _) (hp _ _ _)
        split
        · exact htr h1 (hr _ _ _ _ _ _ _ _)
        · exact htr h1 (hl _)
    · exact hrefl s

theorem hostRecord_same (s : State) (h handle code kind unit result : Nat) (body : List Byte) :
    SameBut recordFields s (s.hostRecord h handle code kind unit result body) :=
  hostRecord_rel (SameBut.refl _) SameBut.trans (fun x => (SameBut.dbump x _ _).mono (by decide))
    (fun x k p => (SameBut.setPort x k p).mono (by decide)) putRecord_same s h handle code kind unit result body

theorem hostRecord_dictBut (s : State) (h handle code kind unit result : Nat) (body : List Byte) :
    DictBut [(0x2500, 0x32)] s (s.hostRecord h handle code kind unit result body) :=
  hostRecord_rel (DictBut.refl _) DictBut.trans (fun x => DictBut.dbump x _ _ (by decide) (by decide) (by decide))
    (fun x k p => DictBut.setPort _ x k p)
    (fun x a b c d e f g => DictBut.of_same (putRecord_dict x a b c d e f g) (putRecord_fuses x a b c d e f g)
      (errorRegister_congr (putRecord_dict x a b c d e f g) (by simp [State.putRecord]) (by simp [State.putRecord])
        (by simp [State.putRecord])))
    s h handle code kind unit result body

theorem complete_same (s : State) (r : HRef) (code result : Nat) : SameBut (.handles :: recordFields) s (s.complete r code result) := by
  unfold State.complete State.completeBody
  dsimp only
  have h1 := (SameBut.setHslot s r { s.hslot r with st := 3, code := code }).mono (m := .handles :: recordFields) (by decide)
  split
  · exact h1.trans ((hostRecord_same _ _ _ _ _ _ _ _).mono (by decide))
  · exact h1

theorem complete_dictBut (s : State) (r : HRef) (code result : Nat) : DictBut [(0x2500, 0x32)] s (s.complete r code result) := by
  unfold State.complete State.completeBody
  dsimp only
  split
  · exact (DictBut.setHslot _ _ _ _).trans (hostRecord_dictBut _ _ _ _ _ _ _ _)
  · exact DictBut.setHslot _ _ _ _

theorem complete_done (s : State) (r : HRef) (code result : Nat) : Completed r code (s.complete r code result) := by
  have h : ∀ x y : State, y.handles = x.handles → y.hslot r = x.hslot r := fun x y e => by simp [State.hslot, e]
  unfold State.complete State.completeBody
  dsimp only
  split
  · constructor <;> rw [h _ _ (hostRecord_same _ _ _ _ _ _ _ _ .handles (by decide))] <;> simp
  · constructor <;> simp

/-! ### Taking a slot (R419, R420), and what an accepted command runs from -/

theorem takeHandle_same {s u : State} {i : Nat} {r : HRef} (h : s.takeHandle i = (some r, u)) :
    SameBut [.handles, .lastSlot, .seqs, .dict] s u := by
  unfold State.takeHandle at h
  dsimp only at h
  split at h
  · cases h
  · cases h
    intro f hf
    cases f <;> first | exact absurd (by decide) hf | simp [Field.same]

theorem takeHandle_dictBut {s u : State} {i : Nat} {r : HRef} (h : s.takeHandle i = (some r, u)) :
    DictBut [(0x5000 + i, 0x07), (0x5000 + i, 0x08)] s u := by
  unfold State.takeHandle at h
  dsimp only at h
  split at h
  · cases h
  · cases h
    intro i' b' hb' hn
    simp only [List.mem_cons, List.not_mem_nil, or_false, not_or] at hn
    rw [State.dget_dset_ne _ (by decide) hb' hn.2 (by simp) (by simp),
      State.dget_dset_ne _ (by decide) hb' hn.1 (by simp) (by simp)]
    exact dget_congr (by simp) (by simp) (errorRegister_congr (by simp) (by simp) (by simp) (by simp)) _ _

theorem takeHandle_ref {s u : State} {i : Nat} {r : HRef} (h : s.takeHandle i = (some r, u)) : r.1 = i := by
  unfold State.takeHandle at h
  dsimp only at h
  split at h
  · cases h
  · cases h; rfl

theorem Accepted.same {iss : Issuer} {na : Bool} {who : Who} {st : List Nat} {ok : Bool} {s u : State} {r : HRef}
    (h : Accepted iss na who st ok s r u) : SameBut [.sent, .handles, .lastSlot, .seqs, .dict] s u :=
  ((SameBut.fresh s).mono (by decide)).trans ((takeHandle_same h.2.2.1).mono (by decide))

theorem Accepted.dictBut {iss : Issuer} {na : Bool} {who : Who} {st : List Nat} {ok : Bool} {s u : State} {r : HRef}
    (h : Accepted iss na who st ok s r u) : DictBut [(0x5000 + issIx iss, 0x07), (0x5000 + issIx iss, 0x08)] s u :=
  (DictBut.of_same (s := s) (t := s.fresh) rfl rfl rfl).trans (takeHandle_dictBut h.2.2.1)

/-- An accepted command runs its own body on the state with its slot taken. -/
theorem Accepted.run {iss : Issuer} {na : Bool} {who : Who} {st : List Nat} {ok : Bool} {s u : State} {r : HRef}
    (h : Accepted iss na who st ok s r u) (body : HRef → State → State) :
    runCommand iss na who st ok body s.fresh = body r u := by
  obtain ⟨h1, h2, h3, h4⟩ := h
  have ha : s.fresh.asleep = false := h1
  have hc : (decide (iss = .can) && s.fresh.devForWrites == dsStopped) = false := by
    by_cases hi : iss = .can
    · have := h2 hi
      have h5 : s.fresh.devForWrites = s.devForWrites := rfl
      simp [hi, h5, this]
    · simp [hi]
  unfold runCommand
  rw [ha, hc, h3]
  simp [h4]

/-- The frame and the completion of a command whose body completes it with a code after changes of its own. -/
theorem Accepted.completes {iss : Issuer} {na : Bool} {who : Who} {st : List Nat} {ok : Bool} {s u : State} {r : HRef}
    (h : Accepted iss na who st ok s r u) (code result : Nat) :
    Completed r code (u.complete r code result) ∧ SameBut commandFields s (u.complete r code result)
      ∧ DictBut (commandEntries iss) s (u.complete r code result) :=
  ⟨complete_done _ _ _ _, (h.same.mono (by decide)).trans ((complete_same _ _ _ _).mono (by decide)),
    (h.dictBut.mono (by simp [commandEntries])).trans ((complete_dictBut _ _ _ _).mono (by simp [commandEntries]))⟩

end Sys2Proof.Machine
end

