-- ==== Sys2Proof/Laws/Reads.lean ====
section
/-! SUPPORT. Reads through the ECC of a state that holds no latent error answer the words and leave the state as it is. -/

namespace Sys2Proof.Machine

theorem foldS_id {α : Type} (l : List α) (f : State → α → State) (s : State) (h : ∀ a ∈ l, f s a = s) : foldS l f s = s := by
  induction l with
  | nil => rfl
  | cons a l ih =>
    show foldS l f (f s a) = s
    rw [h a (List.mem_cons_self ..)]
    exact ih (fun b hb => h b (List.mem_cons_of_mem _ hb))

theorem touch_clean (s : State) (a : Nat) (h : s.ecc = []) : s.touch a = s :=
  foldS_id _ _ s (fun i _ => by rw [h]; rfl)

theorem touchRange_clean (s : State) (a n : Nat) (h : s.ecc = []) : s.touchRange a n = s :=
  foldS_id _ _ s (fun _ _ => touch_clean s _ h)

theorem smTouch_clean (s : State) (a n : Nat) (h : s.ecc = []) (hp : s.poison = []) : s.smTouch a n = s := by
  unfold State.smTouch
  rw [touchRange_clean s a n h]
  exact foldS_id _ _ s (fun i _ => by rw [hp]; rfl)

theorem readK_clean (s : State) (k w : Nat) (h : s.ecc = []) : s.readK k w = (s.kWord k w, s) := by
  unfold State.readK
  simp only [touch_clean s _ h, ite_self]

theorem readKs_clean (s : State) (k : Nat) (l : List Nat) (h : s.ecc = []) : s.readKs k l = (l.map (s.kWord k), s) := by
  induction l with
  | nil => rfl
  | cons w l ih => simp only [State.readKs, readK_clean s k w h, ih, List.map_cons]

theorem smReadKs_clean (s : State) (k : Nat) (l : List Nat) (h : s.ecc = []) (hp : (l.map (s.kWord k)).all (fun p => !p.2) = true) :
    s.smReadKs k l = (l.map (s.kWord k), s) := by
  unfold State.smReadKs
  simp only [readKs_clean s k l h]
  rw [List.filter_eq_nil_iff.mpr]
  · rfl
  · intro p hm
    have := List.all_eq_true.mp hp p.2 (List.of_mem_zip hm).2
    simpa using this

/-- A read that the window admits, of words without an error, answers them. -/
theorem winRead_clean (s : State) (src c w off n : Nat) (l : List (SWord × Bool))
    (h : s.windowCheck c w (wnGen (s.win c w)) src [rGet] off n = none) (he : s.ecc = [])
    (hl : (List.range n).map (fun i => s.kWord (wnOwner (s.win c w)) (wnBase (s.win c w) + off + i)) = l)
    (hp : src = 9 → l.all (fun p => !p.2) = true) :
    s.winRead src c w off n = (.ok l, s) := by
  unfold State.winRead
  simp only [h]
  have hm : ((List.range n).map (fun i => wnBase (s.win c w) + off + i)).map (s.kWord (wnOwner (s.win c w))) = l := by
    rw [List.map_map]; exact hl
  split
  · rename_i hs
    rw [smReadKs_clean s _ _ he (by rw [hm]; exact hp hs), hm]
  · rw [readKs_clean s _ _ he, hm]

end Sys2Proof.Machine
end

