-- ==== Sys2Proof/WellFormed.lean ====
section
/-! DEFINITION. What a command's operands must satisfy beyond their types, so that it can come from outside: widths of numbers held as
`Nat`, shapes of packets and messages (R46, R241, R404, R433, R350, R381, R389, R440). The meanings answer for every term all the same. -/

namespace Sys2Proof

/-- A gPTP time in ns is 64 bits (R441). -/
def timeOk (t : Nat) : Bool := decide (t < 2 ^ 64)

/-- A message or datagram payload has a 16-bit length (R46). -/
def payloadOk (l : List Byte) : Bool := decide (l.length < 65536)

/-- Kinds that carry data words, and requests that only name them (R241). -/
def Packet.carries (p : Packet) : Bool := p.kind == 0 || p.kind == 1 || (4 ≤ p.kind && p.kind ≤ 6) || p.kind == 10 || p.kind == 12
def Packet.bare (p : Packet) : Bool := p.kind == 3 || (7 ≤ p.kind && p.kind ≤ 9) || p.kind == 11 || p.kind == 13

/-- A packet of R241: at most 8 words, as many as its header says, one alone where it is poisoned; the last of an SPUT may be bare; fields
that its kind does not use are 0. -/
def Packet.wf (p : Packet) : Bool :=
  p.words < 8
    && (if p.carries then p.data.length == p.words.toNat + 1
        else if p.kind == 2 then p.data.isEmpty || p.data.length == p.words.toNat + 1
        else p.bare && p.data.isEmpty)
    && (!p.poison || p.data.length == 1)
    && (p.kind == 2 || p.kind == 7 || p.flag == 0) && (p.kind == 9 || p.status == 0)
    && (if p.kind.toNat < 8 then p.addr.toNat < 2 ^ 35 else 10 ≤ p.kind && p.kind ≤ 12 || p.addr == 0)
    && (p.carries || p.kind == 3 || p.kind == 11 || !p.data.isEmpty || p.words == 0)
    && (p.ctxValid || p.srcCtx == 0 && p.srcPair == 0)

/-- A packet of one kind. -/
def Packet.wfOf (k : BitVec 4) (p : Packet) : Bool := p.kind == k && p.wf

/-- A location of R38 to R40. -/
def Location.wf (l : Location) : Bool :=
  if l.kind = 1 then decide (l.port < 48) && decide (l.pos < 4) && decide (l.vc < 16)
  else l.kind == 2 && decide (l.port < 16) && decide (l.pos < 8)

def Datagram.wf (d : Datagram) : Bool := payloadOk d.frame

/-- A VBED found is a setpoint; a count of errors is 32 bits; fuse numbers lie in the array (R394–R396, R447). -/
def MaintOutcome.wf : MaintOutcome → Bool
  | .stress _ v _ => decide (550 ≤ v) && decide (v ≤ 800)
  | .retrain _ => true
  | .sweep n => decide (n < 2 ^ 32)
  | .update _ l => l.all (fun i => decide (i < 2048))

/-- Blocks of a partition: 8 channels of 1,792 data bytes a block, at most 14 GiB together (R21, R256, R257). -/
def PartStep.wf : PartStep → Bool
  | .contexts | .hold | .selfTest _ | .links _ _ _ | .dram _ | .replace => true
  | .verify b _ => b.all (fun n => decide (1792 * n < 14 * 2 ^ 30))

/-- Beds and links are 4 and 8 (R15); the flash ends with the trust record (R453). -/
def DevStep.wf : DevStep → Bool
  | .record | .resetHold | .clear => true
  | .boot f => decide (f.length ≤ 2 ^ 24)
  | .selfTest ok links => ok.length == 4 && links.length == 8
  | .dram ok _ _ => ok.length == 4

def GptpInfo.wf : GptpInfo → Bool
  | .sync m => timeOk m
  | .other => true

/-- A host access to BAR2 is at most 4,096 bytes within it (R403, R404). -/
def bar2Ok (off n : Nat) : Bool := decide (off < 2 ^ 26) && decide (1 ≤ n) && decide (n ≤ 4096)

/-- A host access to BAR0 (R402). -/
def regOk (off : Nat) (l : List Byte) : Bool := decide (off < 65536) && decide (1 ≤ l.length) && decide (l.length ≤ 4096)

/-- The operands of a command are such as the outside can give. DESIGN CHOICE, log entry 11. -/
def Instr.wf : Instr → Bool
  | .nopCommand _ | .hostAttach _ | .statePreOperational _ | .stateOperational _ | .stateStopped _ | .stateMaintenance _
  | .powerIdle _ | .powerStandby _ | .powerSleep _ | .powerExit _ | .deviceReset _ | .partitionReset _ _ | .partitionOut _ _
  | .partitionIn _ _ | .maintStressTest _ _ | .maintRetraining _ _ | .maintScrubSweep _ _ | .maintFirmwareUpdate _ _ _ | .maintAbort _ => true
  | .maintActivityEnd out => out.wf
  | .ctxCreate _ _ | .ctxStart _ _ | .ctxTeardown _ _ | .ctxSave _ _ _ _ | .windowOpen _ _ _ _ _ | .windowClose _ _ _ => true
  | .ctxLoad _ _ _ p2 data | .ctxRestore _ _ _ p2 data => data.length == p2.toNat
  | .closeTakesEffect _ _ t => timeOk t
  | .adaptBatch _ _ _ _ | .adaptPromote _ _ _ _ _ | .exportOpen _ _ _ _ | .exportClose _ _ | .attest _ _ _ _ _ => true
  | .quoteComplete t => timeOk t
  | .nopInstruction _ _ _ | .flagSet _ _ _ | .flagClear _ _ _ | .guardInstr _ _ _ | .jump _ _ _ | .cset _ _ _ | .cadd _ _ _
  | .ccopy _ _ _ | .cmp _ _ _ | .endInstr _ _ _ | .ldq _ _ | .ldt _ _ | .ldz _ _ | .stq _ _ | .stz _ _ | .dld _ _ | .dst _ _ | .put _ _
  | .sput _ _ | .getInstr _ _ | .aadd _ _ | .rflag _ _ | .fence _ _ | .mfill _ _ | .mcopy _ _ | .mtrans _ _ | .mdigest _ _ | .region _ _
  | .wload _ _ | .weightLoadStart _ _ _ | .splitChange _ _ | .stream _ _ | .narrow _ _ | .elementThread _ _ _ | .instructionComplete _ _ _
  | .vectorSlot _ _ _ | .columnSum _ _ _ | .tensorClose _ _ _ | .crossWait _ | .stopReached _ => true
  | .putPacket p => p.wfOf 0
  | .sputData p => p.wfOf 1
  | .sputLast p => p.wfOf 2
  | .getRequest p => p.wfOf 3
  | .getReply p => p.wfOf 4
  | .aaddInt32 p => p.wfOf 5
  | .aaddFp32 p => p.wfOf 6
  | .flagPacket p => p.wfOf 7
  | .ack p => p.wfOf 8
  | .nack p => p.wfOf 9
  | .hold p => p.wfOf 13
  | .memoryWrite p => p.wfOf 10
  | .memoryReadRequest p => p.wfOf 11
  | .memoryReadReply p => p.wfOf 12
  | .linkTimeout p t => p.wf && timeOk t
  | .lateReplyPause _ => true
  | .tick t | .sliceBoundary t | .fiwSeal t | .teardown _ t | .frameSyncIn t | .sweepClose _ t | .zeroTensor _ t => timeOk t
  | .switch _ | .slotClearing _ | .slotVerdictTimeout _ | .frameDeadline _ | .safeOkToggle | .smWatchdog | .lockstepMismatch => true
  | .almanacSlot _ outs _ => outs.length == 8
  | .hostLossGrace _ | .reloadTimeout _ | .poresetN | .thermalTrip | .thermalRelease | .beatSlow _ | .patrolScrub _ _ | .syncLost => true
  | .partitionResetSequence _ st t => st.wf && timeOk t
  | .deviceResetSequence st t => st.wf && timeOk t
  | .linkUp loc => loc.wf
  | .getCertResponse _ l | .challengeResponse _ l | .getCalResponse _ l | .getLifeResponse _ l => payloadOk l
  | .idTimeout _ | .authTimeout _ | .calTimeout _ | .discoveryRetry _ | .lifePoll _ | .meshBuild | .linkDown _ => true
  | .frameStart _ _ _ t => timeOk t
  | .frameEnd _ _ => true
  | .longPacket _ _ _ l _ => payloadOk l
  | .lineDatagram d t _ | .pointDatagram d t => d.wf && timeOk t
  | .arpRequest _ _ _ _ => true
  | .gptpMessage _ i t => i.wf && timeOk t
  | .gptpUnlocked | .trigger _ | .deskew _ | .stripeDelivery _ _ => true
  | .egoLate n => decide (n < 2 ^ 32)
  | .batchPoll _ | .digestPoll _ | .adaptLag _ | .exportPoll _ _ => true
  | .bar2Read _ off n => bar2Ok off n
  | .bar2Write _ off l => bar2Ok off l.length
  | .heartbeatWrite _ t | .heartbeatTimeout _ t => timeOk t
  | .perstAssert _ | .dlDown _ | .functionLevelReset _ | .busMasterEnableClear _ | .pcieLinkUp _ _ => true
  | .registerWrite _ off l _ t => regOk off l && timeOk t
  | .dictionaryWrite _ i sub off l _ t => decide (i < 65536) && decide (sub < 256) && decide (off < 64) && decide (l.length ≤ 64) && timeOk t
  | .handleQuery _ _ => true
  | .motionCommit _ t => timeOk t
  | .errorLogClear _ _ _ | .cleaningRequestAck _ _ _ | .enableSet _ _ | .enableClear _ _ | .go _ => true
  | .emcyTransmit | .producerHeartbeat | .canBusOff _ | .busOffRecovery _ | .nmtStart | .nmtStop | .nmtEnterPreOperational
  | .nmtResetNode | .nmtResetCommunication => true
  | .wakeCan | .wakeN | .perstDeassert _ | .wakeTimer | .railFault _ | .pmbAlert _ _ | .flitRetryFailure _ | .frameSyncOutPulse
  | .syncInterval | .poresetNRelease | .vaonApplied | .vaonRemoved => true
  | .lowPowerExit _ t => timeOk t
  | .temperatureRefresh l => l.length == 5

end Sys2Proof
end

