-- ==== Sys2Proof/Tests/Slice0.lean ====
section
/-! SUPPORT. Tests: the refusals of WellFormed, small runs of one command, and for each statement states and operands that meet
its hypotheses. -/

open Sys2Proof Sys2Proof.Machine

namespace Sys2Proof.Tests

set_option Elab.async false

/-! ### States and operands -/

/-- The state a command starts from: its slot taken. -/
def slotTaken (iss : Issuer) (s : State) : State := (s.fresh.takeHandle (issIx iss)).2

/-- A command with a free slot 0 that passes its checks, as a test that evaluates. -/
def acc (iss : Issuer) (na : Bool) (who : Who) (st : List Nat) (ok : Bool) (s : State) : Bool :=
  !s.asleep && (iss != .can || s.devForWrites != dsStopped) && (s.fresh.takeHandle (issIx iss)).1 == some (issIx iss, 0) &&
    (slotTaken iss s).cmdCheck (issIx iss) na who st ok == none

theorem acc_sound {iss : Issuer} {na : Bool} {who : Who} {st : List Nat} {ok : Bool} {s : State}
    (h : acc iss na who st ok s = true) : Accepted iss na who st ok s (issIx iss, 0) (slotTaken iss s) := by
  simp only [acc, Bool.and_eq_true, Bool.or_eq_true, Bool.not_eq_true', bne_iff_ne, beq_iff_eq, ne_eq] at h
  exact ⟨h.1.1.1, fun hc => h.1.1.2.resolve_left (fun hn => hn hc), Prod.ext h.1.2 rfl, h.2⟩

/-- The device in state `d` with no reset running, host A admitted and in the configuring owner set. -/
def tS (d : Nat) : State :=
  ({ State.reset with fuses := 1 <<< 1993, devReset := 0 }.dset 0x2500 0x40 d).dset 0x2500 0x41 2

/-- A state after one command, or after none where the command has no next state. -/
def after (c : Instr) (s : State) : State := match exec c s with | .next t => t | _ => s

/-! ### Hypotheses met: commands and their checks -/

theorem test_meets_StepRunsFrontCommand :
    (∃ (c : Instr) (rest : List Instr) (s : State), s.pending = c :: rest) ∧ ∃ s : State, s.pending = [] :=
  ⟨⟨.nmtStart, [.nmtStop], { State.reset with pending := [.nmtStart, .nmtStop] }, rfl⟩, State.reset, rfl⟩

theorem test_meets_StepKeepsMemoryCanonical : ∃ s t : State, s.memWf ∧ step s = .next t :=
  ⟨tS dsPreOp, _, ⟨by decide, by decide⟩, rfl⟩

theorem test_meets_CommandsKeepQueueTimeAndFuses : ∃ (c : Instr) (s t : State), exec c s = .next t := ⟨.nmtStop, tS dsOp, _, rfl⟩

/-- Every slot of host A taken. -/
def noSlot : State := { tS dsPreOp with handles := (List.range 256).map (fun k => (k, HandleSlot.mk 0 2 0)) }

/-- Slots 255 and 0 of host B taken, the last one taken 255. -/
def wrapSlot : State :=
  { tS dsPreOp with handles := [(256, HandleSlot.mk 0 2 0), (511, HandleSlot.mk 0 2 0)], lastSlot := [(1, 255)] }

theorem test_meets_ExecuteTakesTheFirstFreeSlot :
    (wrapSlot.takeHandle 1).1 = some (1, 1) ∧ (noSlot.takeHandle 0).1 = none := by decide +kernel

/-- A command that takes slot 0 and fails a check. -/
def refuses (iss : Issuer) (na : Bool) (who : Who) (st : List Nat) (ok : Bool) (s : State) (code : Nat) : Bool :=
  !s.asleep && iss != .can && (s.fresh.takeHandle (issIx iss)).1 == some (issIx iss, 0) &&
    (slotTaken iss s).cmdCheck (issIx iss) na who st ok == some code

theorem test_meets_RefusalChangesOnlyHandleAndLog :
    refuses .b true .any stAll true (tS dsPreOp) HOST_NOT_ADMITTED = true ∧
    refuses .b false .confHosts stAll true (tS dsPreOp) NOT_OWNER = true ∧
    refuses .a true .any stPOSM true (tS dsLowPower) STATE_CONFLICT = true ∧
    refuses .a true (.creator 63) stPOSM true (tS dsPreOp) STATE_CONFLICT = true ∧
    refuses .a true .conf stPOSM false (tS dsPreOp) CMD_PARAM = true ∧
    (tS dsPreOp).admitted 0 = true ∧ (tS dsPreOp).mayIssue 0 .conf = true := by decide +kernel

/-- Host A's link is up with a log of 16 records at 0x1000 for port A. -/
def linked (s : State) : State :=
  s.setPort .a { s.portA with linkUp := true, busMaster := true, logBase := 0x1000, logSize := 16 }

theorem test_meets_NopAndAttachComplete :
    (∃ u r, Accepted .a true .any stAll true (tS dsLowPower) r u) ∧
    ∃ u r, Accepted .a false .hosts stAll true (linked (tS dsPreOp)) r u ∧ (u.port (portOf r.1)).attachOk = true :=
  ⟨⟨_, _, acc_sound (by decide +kernel)⟩, _, _, acc_sound (by decide +kernel), by decide +kernel⟩

/-- An activity of a code on a partition under handle (2, 7). -/
def someActivity (code part : Nat) : Activity :=
  { code := code, part := part, handle := (2, 7), erased := false, image := [], prov := [], wasOut := false, start := 700, floor := 600, margin := 20 }

/-- The same with a valid SRDO configuration (R411). -/
def srdoOk (s : State) : State := (s.dset 0x13FE 0 0xA5).dset 0x13FF 1 s.srdoCrc

theorem opOk (s : State) (i : Nat) (hv : s.viewFailure = none) (h1 : s.dget 0x13FE 0 = 0xA5) (h2 : s.dget 0x13FF 1 = s.srdoCrc) :
    s.opFailure i = none := by
  unfold State.opFailure
  rw [hv]
  exact if_neg (by rw [h1, h2]; simp only [ne_eq, not_true, decide_false, Bool.or_self, Bool.false_eq_true, not_false_iff])

/-- MAINTENANCE with an activity of a code on a partition. -/
def busy (code part : Nat) : State := { tS dsMaint with activity := some (someActivity code part) }

theorem test_meets_StateCommandsFollowTheTable :
    (∃ u r, Accepted .a true .conf stPOSM true (busy 3 0) r u ∧ u.dev = dsMaint ∧
      u.activity.isSome = true) ∧
    (∀ d ∈ stPOSM, acc .a true .conf stPOSM true (tS d) = true ∧ (tS d).stateWait = none ∧ (slotTaken .a (tS d)).dev = d) ∧
    (∀ d ∈ [dsPreOp, dsStopped], ∃ u r, Accepted .a true .conf stPOSM true (srdoOk (tS d)) r u ∧ u.dev = d ∧
      u.opFailure r.1 = none) := by
  refine ⟨⟨_, _, acc_sound (by decide +kernel), by decide +kernel, by decide +kernel⟩, by decide +kernel, ?_⟩
  intro d hd
  simp only [List.mem_cons, List.not_mem_nil, or_false] at hd
  rcases hd with rfl | rfl
  · exact ⟨_, _, acc_sound (by decide +kernel), by decide +kernel, opOk _ _ (by decide +kernel) (by decide +kernel) rfl⟩
  · exact ⟨_, _, acc_sound (by decide +kernel), by decide +kernel, opOk _ _ (by decide +kernel) (by decide +kernel) rfl⟩

/-! ### Signed data (the key, the signatures and the digests were made outside Lean) -/

/-- A modulus of 3072 bits, big-endian. -/
def modulus : List Byte := bytesBE 384 0xbcc19303f77bbaccc5f6b198f3e6cdc4b28f0758c8408b66c8e88b7b330a8b0e5152826de6990811cd9bc52dc1c15c85e6c5e6a5007964d3dc18ccf416f220acde819224a3af6975316427f1e7206b12cf19d750f4e785377a96ffdde8544de5ba032e2ef9ffa46d5378dd5e06194dd4b4a9c44a6ef57e3d16cd0566b7d03ce26a5bb3151b4e7d08cbadf6606cc1fe88ac6d93907e2486a30195b8fed62c9ac71bb2777de7bd54be5f8dd756996243426aff61b098374a07bafc1ab0c7053e95d67ed8e1df5d8bac02440abd5f159ef3e1fcfc934597bbadcfebb8c21f051b836056b66af170f744561d5691c3a0fa55c14bfe9587206c23d288c5e8c17230779fec99e1edfd22736428da1bbd64b7342cf651a7fd7252c645fb5b8df8882ef65406f87582b392a55598fcbe206c1475ee5bbe85fd6765e4de0f26f627070650c80390be6a86afea2e0b3103ad99844d669e5c33637541b8f9da608ea75ca1e5d5180509e2316300ebae905af985c19b945a547d96ec401171f7da1b5341f873

/-- A firmware image of one body byte (R448): bytes 0 to 639, then the signature, then the body. -/
def bootHead : List Byte :=
  ascii "VXFW" ++ [1, 0, 0, 0, 4, 3, 2, 1, 3, 2, 0, 0, 1, 0, 0, 0] ++ List.replicate 12 0 ++
    bytesBE 32 0xbbeebd879e1dff6918546dc0c179fdde505f2a21591c9a9c96e36b054ec5af83 ++ modulus ++ [0, 1, 0, 1] ++ List.replicate 188 0
def bootSig : List Byte := bytesBE 384 0x1422b813e8940839d306d1797ca075cc5a8fa25e16311c882fc657dda12cffbcc984e21d768aafade62691ae0a983dcfac9fe03258e0d08e8fc7084fb785808638dc884e0a7947df0a2c94c75907c3a68662e9ec1c6c1c06e42c95ed5d2b0a0bcbb70f701eb01ac9f1327d835ffc51ed8aa6660a63791a54194af725f93e68ae804500818d36677be83e7122536520474c4cc5e74e5f6d4558f8390a11a6eaadab3192e998ecf9e97a1c978c4634db5ac96e9bf4b68e9ee0d55b0ebcf953ad769c392102ced4fe3006dc41072a525ecea45f3bf06346f54400bbabc2aec5e91ef2ddb1eb58c19aa0aa6f0df0262857ecce0111738e4a9e3600ad99a5ac25f8d0df8bcde694abd14e49eaf019a7acc247f823470433bdb291dcb9c6a5e83e1eab2d14338dc1013a5c855024c1cd5abfa3076b996bba222a096e2e56c9dc36c03b50ea3407479147efce9cf48216d27b2527a14985b1ca9f921187f713835eae3f1111f5927e534e89fb5df76cc4cf33697d4f3ba18d5658bc3c62f92199e8971a
def bootImage : List Byte := bootHead ++ bootSig ++ [0x5A]

/-- The fuses with the hash of its key as root key 0, and host A in the configuring owner set. -/
def bootFuses : BitVec 2048 := 1 <<< 1993 ||| 0xd872292c03c52fffbb15ae7bd04924f574bcb6384e35ae177ad9df7bd8f972ed <<< 320

/-- A head certificate of class 2 with serial 77 (R47). -/
def certHead : List Byte :=
  ascii "VXHC" ++ [1, 0, 2, 0, 77, 0, 0, 0, 0, 0, 0, 0] ++ modulus ++ [0, 1, 0, 1] ++ List.replicate 236 0
def certSig : List Byte := bytesBE 384 0x5589d45c99eb6336b056b0416c19309e2ea68468214289dac96d9b1422f4d9fed9dcac37c810eae5987edda2bfea3f42ed7e9c6d6f83ad4c8b03818f0dff2ebd349c49d8a5dba83140e9484562b19bc3168a70b6e80640d029893ec71c0ea19c8bfbe4f40445d6bc5e897b742715e063f7b1a23ec6091e22cf0420c72d8d90227ee34019eb3c82d000f2a8400ce431261e7c8898aab8aaaed708d8ea3d4c3a28fd4ac483aa356604e1ac03f1c2cc02e40e4dbe55dcd477058b0ba9d62553a63aa71e34a35853e46545a88086508d4b0f17d66bd521f12588d90b720c0c56f3935ebb75f3eb26b519cf4fbc78f4ab9ba559c95fbc5203c23906f46bcb9f64926f1fee21e893bfe8a1757db6e910d8904550a36720786e7e0e138beb5672e1b94fa74c0211a18ae14ddbe0f66fa1e5fb3f5fd4134161f75b95c9d78253964fa4d883abce3bcf845db5c7838f395655f036d53f77355189193bfda607ec5ba3693f414cb5874af3798e8303e3f5a34acf89b87bfe449754be207cc7123e0230dcf5

/-- Answers of endpoint 191 to a challenge with an empty nonce and to a life poll, with 5 and 6 operating hours (R46, R48, R54). -/
def challengeBody : List Byte := List.replicate 32 0 ++ [5, 0, 0, 0] ++ List.replicate 8 0
def challengeSig : List Byte := bytesBE 384 0x68f0f347efaa8388d8df220837a03078ad278b484b8cc5a16b2ce41d98622fe74cffa2ccd0c17c450a2c5d8a998c69e1375cd9778a15d75205b6e905f770eb51feae7f8cd16ab89a50e90bf6295865aa04ec080c2aaa654d5ac5005e0a686d7b5e747efed1e7e3a138c009395b045ee5eafe7f6967948ad93abbcf334ce5fd0cdc46732a2b2fefc405058a9e7fd63427426315e268c39363f749376620c7ef52b2a1266651e8d688a2c23cfa068b3b1cbfa3dd053c61010dd45bbf669df614ed3e79a1d0100d059d0398897a6339234f3236ae37bd00abc69b82e50f7867708d71434cd896c53f32da2954db74262fdf6bb4afb4ff337ef768be9b005f14fabafb5c315b7eddfe1f7651981d280a6cc5509692165b9b677072d97502f60ab7e40f51909d6750ce00d43f9a52cc54044e7856e820ba9bf0e7e032ec07a3092341329c74f65ee330f455b05d79a6420c08fa053677f4fb4d2ba585622dd2776d885bac7186f37dd95c3721f2304f9d65adc1772e04c1f5e482c740db0aca65e6aa
def lifeBody : List Byte := [6, 0, 0, 0] ++ List.replicate 8 0
def lifeSig : List Byte := bytesBE 384 0xa67f94b404cf4ba18e3f3326bec5f7a795e040339ed3eb6ceca88f6a3eacc72aed2421760ecbf77f9a614235ca493a3f49578739f1e53f9d2ab65463e02d3c0672280c7d8c12d85eee0485d3d075704951ed8dbd979a3e34b1d227a9b9cd56cce9941fa4a383d7dab4673d4cfcc74921b642bfaa65878262e1e51131ca1b95f80fb2f4bf45f343460c7eb12ac7bd702c4a663d2838b23574483bcdab23dc045d5727c3e8966bdaed580495c79dde4eae4c3e13d1b715f76c62fb84780831c06d75e2299cbd26a9336cf307d6bb3a8bbce23a89f1afa368324d0d8759fcd36202f8ca24162a9feceb6c3c9c6f01d216bb7d13919b605cf136d8464a809c8a16c070ca491e1077c3e4986e30b04f958eae6c6c0c74d55c41a01b163bcd4075acd796b4e3a30d77d7f01c7dbab9e3a02749beff9308a4fcdfc82c2b818fda8cf640022810fd9628202281a8de0c16dcd737903dadd3008656346adc03900ae26486b480ab4ef31cb005cef6225ae5d77523cd53a8b6e858a54b92b6919dd723553b

/-! ### Hypotheses met: device states, power, resets -/

/-- The same with only CAN-A in the configuring owner set. -/
def tC (d : Nat) : State := { tS d with fuses := 1 <<< 1995 }

theorem test_meets_NmtMovesTheStateWithoutAHandle :
    (∀ d ∈ stPOSM, (tC d).asleep = false ∧ (tC d).inConf 2 = true ∧ (tC d).dev = d ∧ (tC d).busOffA = false ∧
      (tC d).activity = none) ∧
    ∀ d ∈ [dsPreOp, dsStopped], (srdoOk (tC d)).asleep = false ∧ (srdoOk (tC d)).inConf 2 = true ∧ (srdoOk (tC d)).dev = d ∧
      (srdoOk (tC d)).fresh.opFailure 2 = none := by
  refine ⟨by decide +kernel, ?_⟩
  intro d hd
  simp only [List.mem_cons, List.not_mem_nil, or_false] at hd
  rcases hd with rfl | rfl
  · exact ⟨by decide +kernel, by decide +kernel, by decide +kernel, opOk _ _ (by decide +kernel) (by decide +kernel) rfl⟩
  · exact ⟨by decide +kernel, by decide +kernel, by decide +kernel, opOk _ _ (by decide +kernel) (by decide +kernel) rfl⟩

/-- A heartbeat time of 1 s and one EMCY frame that waits. -/
def onBus : State := { (tS dsPreOp).dset 0x1017 0 1000 with emcy := [CanFrame.mk 0x90 [0, 0xFF, 0, 0, 0, 0, 0, 0]] }

theorem test_meets_BusFramesAndBusOff :
    onBus.asleep = false ∧ onBus.dget 0x1017 0 ≠ 0 ∧ onBus.busOffA = false ∧ onBus.busOffB = false ∧
      (∃ f rest, onBus.emcy = f :: rest) ∧ onBus.devForWrites ≠ dsStopped :=
  ⟨by decide +kernel, by decide +kernel, rfl, rfl, ⟨_, _, rfl⟩, by decide +kernel⟩

/-- Partition 3 in a step of its reset. -/
def resetting (k : Nat) (s : State) : State := s.setPart 3 { Partition.zero with resetStep := k }

theorem test_meets_PowerCommandsEnterAndExit :
    acc .a true .conf stPS true (tS dsStopped) = true ∧ (∀ l ∈ [1, 2, 3], (slotTaken .a (tS dsStopped)).lpRefused l = false) ∧
    acc .a true .conf stPS true (resetting 1 (tS dsPreOp)) = true ∧
    (∀ l ∈ [1, 2, 3], (slotTaken .a (resetting 1 (tS dsPreOp))).lpRefused l = true) ∧
    acc .a true .conf [dsLowPower] true ((tS dsLowPower).dset 0x2100 1 2) = true ∧ (tS dsLowPower).wake = none ∧
    (tS dsLowPower).lpExitBegun = false := by decide +kernel

/-- Low power state `p` with every wake source, and what the exit has reached. -/
def asleepAt (p : Nat) (wake : Option Nat) (begun rails : Bool) : State :=
  { (tS dsLowPower).dset 0x2100 1 p with wakeMask := 15, wakeTimer := 5, wake := wake, lpExitBegun := begun, lpRails := rails }

theorem test_meets_WakeSourcesLatchAndExitsProceed :
    (∀ p ∈ [1, 2, 3], (asleepAt p none false false).dev = dsLowPower ∧ (∀ b < 4, (asleepAt p none false false).wakeMask.getLsbD b = true) ∧
      (asleepAt p none false false).wakeTimer ≠ 0) ∧
    (asleepAt 1 (some 0) false false).power = 1 ∧ (asleepAt 1 (some 0) false false).graceDue = [] ∧ (asleepAt 1 (some 0) false false).lpStuck = false ∧
    (∀ p ∈ [2, 3], 2 ≤ (asleepAt p (some 4) false false).power) ∧
    (asleepAt 2 (some 4) true false).power = 2 ∧ (asleepAt 3 (some 1) true false).power = 3 ∧
    (asleepAt 3 (some 1) true true).power = 3 ∧ (asleepAt 3 (some 1) true true).bootDue = false ∧
    (asleepAt 3 (some 1) true true).romWait = false ∧ (asleepAt 2 (some 4) true true).power = 2 ∧ (asleepAt 2 (some 4) true true).lpRails = true ∧
    (tS dsOp).dev ≠ dsLowPower ∧ (asleepAt 1 (some 0) true false).lpExitBegun = true ∧ (tS dsLowPower).wakeMask.getLsbD 3 = false ∧
    { asleepAt 2 none false false with wakeTimer := 0 }.wakeTimer = 0 ∧ { asleepAt 2 (some 4) true false with lpStuck := true }.lpStuck = true := by
  decide +kernel

theorem test_meets_ResetPinsAndThermalTrip :
    (∀ n ≤ 2, { tS dsOp with safeState := n }.safeState = n) ∧ (tS dsOp).pwrEn ≠ 0 ∧ (tS dsLowPower).dev = dsLowPower := by
  decide +kernel

/-- A device reset at a step, pins and thermal hold released. -/
def devResetAt (k : Nat) : State := { tS dsRecovering with devReset := k, poresetN := true }

theorem test_meets_DeviceResetCommandBeginsARecovery :
    acc .a true .confHosts stAll true (tS dsOp) = true ∧ (tS dsOp).devReset = 0 ∧
    (∀ n ∈ [3, 4], acc .a true .confHosts stAll true { tS dsLowPower with devReset := n } = true) := by decide +kernel

theorem test_meets_PartitionCommandsFenceAndReset :
    acc .a true .confHosts stPOM (partOk 3) (tS dsOp) = true ∧
    ((slotTaken .a (tS dsOp)).part 3).resetting = false ∧ bitAt (slotTaken .a (tS dsOp)).outSet 3 = false ∧
    acc .a true .confHosts stPOM (partOk 3) ((tS dsMaint).setOut 3 true) = true ∧
    ((slotTaken .a ((tS dsMaint).setOut 3 true)).part 3).resetting = false ∧ bitAt (slotTaken .a ((tS dsMaint).setOut 3 true)).outSet 3 = true ∧
    acc .a true .confHosts stPOM (partOk 3) (resetting 7 (tS dsPreOp)) = true ∧
    ((slotTaken .a (resetting 7 (tS dsPreOp))).part 3).resetting = true := by decide +kernel

/-- Five resets of partition 3 in the last hour. -/
def worn (k : Nat) : State := (tS dsOp).setPart 3 { Partition.zero with resetStep := k, resets := [5, 4, 3, 2, 1] }

/-- Context 63 runs and waits for its container. -/
def reloading : State := ((tS dsOp).cset 63 0x01 csRunning).setCtx 63 { Ctx.zero with move := .reloadWait }

/-- Partition 3 at step 7; window 5 of its held context 63 is to close. -/
def closingHeld : State :=
  { (((((resetting 7 (tS dsOp)).cset 63 0x07 7).cset 63 0x01 csRunning).cset 63 0x02 1).cset 63 0x08 7).setCtx 63 { Ctx.zero with move := .heldByReset, heldWins := [5] }
    with closing := [(winKey 7 5, some (Closing.mk 63 []))] }

/-- Whether a window of a context held on partition 3 is to close. -/
def closes (s : State) : Bool :=
  (s.heldOn 3 .heldByReset).any fun k => (s.ctx k).heldWins.any fun w => (KV.get none s.closing (winKey (s.cget k 0x08) w)).isSome

theorem test_meets_PartitionResetStepsInOrder :
    (∀ k ∈ [1, 2, 3, 4, 5, 6, 7], ((resetting k (tS dsOp)).part 3).resetStep = k) ∧ ((resetting 4 (tS dsOp)).part 3).failCode = 0 ∧
    ((resetting 7 (tS dsOp)).atTime 0).retired 3 = false ∧ ((worn 7).part 3).resetStep = 7 ∧ ((worn 7).atTime 6).retired 3 = true ∧
    closes (resetting 7 (tS dsOp)) = false ∧ closes (worn 7) = false ∧ closes closingHeld = true ∧ (closingHeld.part 3).resetStep = 7 ∧
    (tS dsOp).dget 0x2100 1 = 0 ∧ (let s := { (tS dsOp) with dict := [(dkey 0x2100 1, some 1)] }; ((resetting 3 s).part 3).resetStep = 3 ∧ (resetting 3 s).dget 0x2100 1 ≠ 0) ∧ reloading.cstate 63 = csRunning ∧ (reloading.ctx 63).move = .reloadWait := by decide +kernel

/-- Partition 3 has 16 GiB, and its patrol scrub runs; a correctable error lies at its first granule. -/
def scrubbing : State := { tS dsOp with fitted := 16, ringsOn := 0x1F }

/-- Partition 3 under the stress test. -/
def stressed : State :=
  { tS dsMaint with activity := some (someActivity 1 3), parts := [(3, { Partition.zero with fenced := true, underTest := true })] }

theorem test_meets_LinksBeatsAndScrubs :
    (∀ l < 8, (tS dsOp).linkFailed l = false) ∧ ((tS dsOp).part 3).resetting = false ∧
    (∀ b < 4, (tS dsOp).slowHeld.getLsbD b = false ∧ { tS dsOp with slowHeld := 15 }.slowHeld.getLsbD b = true) ∧ (stressed.part 3).underTest = true ∧ (∃ a, stressed.activity = some a ∧ a.code = 1) ∧
    scrubbing.scrubs 3 = true ∧ scrubbing.granules ≠ 0 ∧ scrubbing.ecc = [] ∧
    KV.get 0 scrubbing.scrubPos 31 < scrubbing.granules ∧ scrubbing.usable ≤ 0x400000000 :=
  ⟨by decide +kernel, by decide +kernel, by decide +kernel, by decide +kernel, ⟨_, rfl, rfl⟩, by decide +kernel, by decide +kernel, rfl, by decide +kernel,
    by decide +kernel⟩

/-! ### Hypotheses met: maintenance, quotes, contexts, windows -/

theorem test_meets_MaintenanceActivitiesEnd :
    (∀ c ∈ [1, 2, 3, 4], acc .a true .confHosts [dsMaint] true (busy c 3) = true ∧ (busy c 3).activity = some (someActivity c 3)) ∧
    hKey 2 7 ≠ hKey 0 0 ∧ (someActivity 1 3).part ≤ 4 ∧ (someActivity 1 3).floor < 640 ∧
    640 + (someActivity 1 3).margin ≤ (busy 1 3).dget 0x2100 (2 + 3) := by decide +kernel

/-- One quote waits. -/
def quoting : State := { tS dsOp with quotes := [Quote.mk 0 (0, 3) 5 []] }

theorem test_meets_QuotesWaitForTheEngine :
    acc .a true .any stPOSM true (tS dsStopped) = true ∧ ∃ q rest, quoting.quotes = q :: rest := ⟨by decide +kernel, _, _, rfl⟩

/-- Context `k` in a state and class, host A's. -/
def cx (k st cls : Nat) (s : State) : State := ((s.cset k 0x01 st).cset k 0x02 cls).cset k 0x03 1

/-- 16 GiB are fitted to each partition. -/
def fitted (d : Nat) : State := { tS d with fitted := 16 }

/-- Every context taken. -/
def full : State := (List.range 64).foldl (fun s k => s.cset k 0x01 csCreated) (tS dsPreOp)

/-- A BE container of one stream pair with empty programs and flag masks 0xF and 0x3 (R223, R224; digests made outside Lean). -/
def container : List Byte :=
  bytesOf 232 0x30000000f00000000000000000000000000000000a091ff8c34ad170dcc68296031c0086311cda5205cbc08db79520bf32e10cfbd0000000000000008000000e00000000555b852781b9995a44c939b64e441ae2724b96f99c8f4fb9a141cfc9842c4b0e30000000000000000000000e00000000255b852781b9995a44c939b64e441ae2724b96f99c8f4fb9a141cfc9842c4b0e30000000000000000000000e000000001277cfa4e6829fc609831d61b42f5c2cf66c0029c3e791373f00424c683e4e70e0000000700000001001800000480048000010003000000e80002000149435856

theorem container_ok (s : State) (h : s.fuses = 1 <<< 1993) : s.containerCode container 2 = none := by
  have e : s.containerCode container 2 = (tS dsPreOp).containerCode container 2 := by
    simp only [State.containerCode, State.signatureOk, State.fuse, h]; rfl
  rw [e]; decide +kernel

theorem test_meets_ContextsAreCreatedLoadedAndTornDown :
    acc .a true .hosts stPOSM ((1 : BitVec 64) == 1 || (1 : BitVec 64) == 2) (cx 0 csWaiting 2 (tS dsPreOp)) = true ∧
    (∀ i < 1, (cx 0 csWaiting 2 (tS dsPreOp)).cstate i ≠ csFree) ∧ (cx 0 csWaiting 2 (tS dsPreOp)).cstate 1 = csFree ∧
    acc .a true .hosts stPOSM true full = true ∧ (∀ j < 64, full.cstate j ≠ csFree) ∧
    acc .a true (.creator 63) stPOSM true (cx 63 csCreated 2 (fitted dsOp)) = true ∧
    (cx 63 csCreated 2 (fitted dsOp)).cstate 63 = csCreated ∧ (slotTaken .a (cx 63 csCreated 2 (fitted dsOp))).cclass 63 = 2 ∧
    (slotTaken .a (cx 63 csCreated 2 (fitted dsOp))).containerCode [] 2 = some codeFormat ∧
    (slotTaken .a (cx 63 csCreated 2 (fitted dsOp))).containerCode container 2 = none ∧
    (slotTaken .a (cx 63 csCreated 2 (fitted dsOp))).declOk 63 container = true ∧
    (slotTaken .a (cx 63 csCreated 2 (fitted dsOp))).findAllot ((slotTaken .a (cx 63 csCreated 2 (fitted dsOp))).cget 63 0x0B)
      (allotSize container.length (Cont.cls container) ((slotTaken .a (cx 63 csCreated 2 (fitted dsOp))).cget 63 0x0D)) = some 0 ∧
    (∀ st ∈ [csCreated, csLoaded, csRunning, csWaiting, csFinished, csTearing],
      acc .a true (.creator 63) stPOSM true (cx 63 st 1 (tS dsStopped)) = true) :=
  ⟨by decide +kernel, by decide +kernel, by decide +kernel, by decide +kernel, by decide +kernel, by decide +kernel, by decide +kernel,
    by decide +kernel, by decide +kernel, container_ok _ rfl, by decide +kernel, by decide +kernel, by decide +kernel⟩

/-- Context 63 is loaded, with an image of one stream pair and the device's frame period. -/
def loaded (cls : Nat) : State :=
  (cx 63 csLoaded cls (tS dsPreOp)).setCtx 63 { Ctx.zero with n := 1, period := (tS dsPreOp).dget 0x2401 0x01 }

theorem test_meets_ContextsStartAtTheirPlace :
    acc .a true (.creator 63) stPOSM true (cx 63 csCreated 1 (tS dsPreOp)) = true ∧ (cx 63 csCreated 1 (tS dsPreOp)).cstate 63 ≠ csLoaded ∧
    acc .a true (.creator 63) stPOSM true (loaded 1) = true ∧ (slotTaken .a (loaded 1)).startDeclOk 63 = true ∧
    (slotTaken .a (loaded 1)).isLC 63 = true ∧ (slotTaken .a (loaded 1)).lcCore 63 = some 0 ∧ (slotTaken .a (loaded 1)).slotRule 63 0 = true ∧
    ((slotTaken .a (loaded 1)).startLC 63 0).isSome = true ∧ (slotTaken .a (loaded 1)).namedCore 63 = 255 ∧
    acc .a true (.creator 63) stPOSM true ((loaded 2).cset 63 0x04 7) = true ∧
    (slotTaken .a ((loaded 2).cset 63 0x04 7)).startDeclOk 63 = true ∧ (slotTaken .a ((loaded 2).cset 63 0x04 7)).isLC 63 = false ∧
    (slotTaken .a ((loaded 2).cset 63 0x04 7)).beCore 63 = some 7 ∧ (slotTaken .a ((loaded 2).cset 63 0x04 7)).cget 63 0x90 = 0 ∧
    ((slotTaken .a ((loaded 2).cset 63 0x04 7)).startBE 63 7).isSome = true ∧
    acc .a true (.creator 63) stPOSM true ((loaded 1).dset 0x2500 0x05 15) = true ∧
    (slotTaken .a ((loaded 1).dset 0x2500 0x05 15)).startDeclOk 63 = true ∧ (slotTaken .a ((loaded 1).dset 0x2500 0x05 15)).lcCore 63 = none ∧
    acc .a true (.creator 63) stPOSM true ((loaded 2).dset 0x2500 0x05 15) = true ∧
    (slotTaken .a ((loaded 2).dset 0x2500 0x05 15)).startDeclOk 63 = true ∧
    (slotTaken .a ((loaded 2).dset 0x2500 0x05 15)).beCore 63 = none := by decide +kernel

theorem sha256_length (m : List Byte) : (sha256 m).length = 32 := by
  simp [sha256, bytesBE, bytesOf]

theorem savedImage_length (n : Nat) (l : List Byte) : (savedImage n l).length ≤ 0xFFFFFFFF := by
  simp [savedImage, sha256_length, bytesOf, geometry, ascii]
  omega

theorem findAllot_first (s : State) (n : Nat) (h : s.allotted = []) (hn : n ≤ s.usable) : s.findAllot 0 n = some 0 := by
  simp [State.findAllot, h, dramBase, hn]

/-- A saved image with an empty body (R335; the digest made outside Lean). -/
def savedHead : List Byte := bytesOf 64 0x32dd56fa976072b33eed12ee7a95fb554c68747fc7f0a69cd2c6d424dd01f0d600000000000000000018000004800480000000000000004000b0000156535856

/-- Room in partition 0 for whatever container the body of an image holds. -/
def roomy : State :=
  { cx 63 csCreated 2 (tS dsPreOp) with fitted := (let b := Config.saveDecode (savedHead.drop 64);
    allotSize b.container.length (Cont.cls b.container) 0) }

theorem roomy_usable (n : Nat) (s : State) (h : s.fitted = n) : n ≤ s.usable := by
  simp only [State.usable, h]; omega

theorem test_meets_ContextsAreSavedAndRestored :
    acc .a true (.creator 63) stPOSM true (cx 63 csWaiting 2 (tS dsOp)) = true ∧
    acc .a true (.creator 63) stPOSM true (cx 63 csFinished 2 (tS dsOp)) = true ∧
    (∀ body, (savedImage ((slotTaken .a (cx 63 csWaiting 2 (tS dsOp))).cget 63 0x14) body).length ≤ (0xFFFFFFFF : BitVec 64).toNat) ∧
    acc .a true (.creator 63) stPOSM true roomy = true ∧ roomy.cstate 63 = csCreated ∧ roomy.cclass 63 = 2 ∧
    savedHead.length = (64 : BitVec 64).toNat ∧ savedCode savedHead true = none ∧ ((slotTaken .a roomy).ctx 63).containerLen = 0 ∧
    (let b := Config.saveDecode (savedHead.drop 64);
      (slotTaken .a roomy).findAllot ((slotTaken .a roomy).cget 63 0x0B)
        (allotSize b.container.length (Cont.cls b.container) ((slotTaken .a roomy).cget 63 0x0D)) = some 0) := by
  refine ⟨by decide +kernel, by decide +kernel, fun body => savedImage_length _ _, by decide +kernel, by decide +kernel, by decide +kernel,
    by decide +kernel, by decide +kernel, by decide +kernel, ?_⟩
  have h1 : (slotTaken .a roomy).cget 63 0x0B = 0 := by decide +kernel
  have h2 : (slotTaken .a roomy).cget 63 0x0D = 0 := by decide +kernel
  have h3 : (slotTaken .a roomy).allotted = [] := by decide +kernel
  simp only [h1, h2]
  exact findAllot_first _ _ h3 (roomy_usable _ _ rfl)

/-- Context 63 runs on core 7 with all four stream pairs; it holds window 63, open or closed. -/
def holder (isOpen : Bool) : State :=
  let s := ((cx 63 csRunning 2 (tS dsOp)).cset 63 0x07 7).cset 63 0x08 7
  let s := s.setCtx 63 { Ctx.zero with n := 4, heldWins := [63], placed := true, ready := true }
  s.setWin 7 63 (if isOpen then wnPut (wnPut 0 72 72 1) 78 73 63 else 0)

/-- Its last close was 1 ns short of 32 µs ago, and a close waits. -/
def soon : State :=
  { holder true with lastClose := [(winKey 7 63, some 0)], timeNs := 31999, closing := [(winKey 7 63, some (Closing.mk 63 [(0, 1)]))] }

/-- An entry of 16 words from word 1572848 up, which core 0 may put to, in words 3 and 2 of a command (R237). -/
def entryWord : BitVec 128 := wnPut (wnPut (wnPut (wnPut 0 20 0 1572848) 41 21 16) 42 42 1) 59 48 1

theorem test_meets_WindowsOpenAndClose :
    acc .a true (.creator 63) stPOSM true (holder false) = true ∧ (slotTaken .a (holder false)).windowState 63 = true ∧
    (holder false).cget 63 0x08 = 7 ∧
    (slotTaken .a (holder false)).openBad 63 7 63 entryWord = false ∧ (slotTaken .a (holder false)).openBad 63 7 63 0 = true ∧
    62 ∉ ((holder false).ctx 63).heldWins ∧ 63 ∈ ((holder false).ctx 63).heldWins ∧ wnOpen ((holder false).win 7 63) = false ∧
    acc .a true (.creator 63) stPOSM true (holder true) = true ∧ wnOpen ((holder true).win 7 63) = true ∧
    (holder true).spaced 7 63 = true ∧ acc .a true (.creator 63) stPOSM true soon = true ∧ wnOpen (soon.win 7 63) = true ∧
    soon.spaced 7 63 = false ∧ KV.get none soon.closing (winKey 7 63) = some (Closing.mk 63 [(0, 1)]) ∧
    (soon.atTime 32000).spaced 7 63 = true := by decide +kernel

/-! ### Hypotheses met: instructions -/

/-- Instruction words as scratchpad words from word 0 up. -/
def programWords (l : List Nat) : List SWord :=
  (List.range (cdiv l.length 4)).map (fun i => BitVec.ofNat 256 ((List.range 4).foldl (fun a j => a + nth 0 l (4 * i + j) * 2 ^ (64 * j)) 0))

/-- Context 63, BE, runs on core 7 and owns its four stream pairs, every flag and every word; each of its programs is `l`, at word 0;
group 0 of both arrays is its pair 3's. -/
def running (l : List Nat) : State :=
  let s := ((cx 63 csRunning 2 (fitted dsOp)).cset 63 0x07 7).cset 63 0x08 7
  let s := { s with ringsOn := 0x1F }.setCtx 63 { Ctx.zero with
    n := 4, placed := true, ready := true, started := true, footprint := spmWords, localMask := 0xFFFFFFFF, remoteMask := 0xFFFFFFFF,
    programs := List.replicate 8 (0, l.length), bounds := List.replicate 8 (boundaryMap (l.map (BitVec.ofNat 64))).1,
    owned := [(0, 0, 3), (1, 0, 3)] }
  ((List.range (cdiv l.length 4)).zip (programWords l)).foldl (fun s p => s.setSpm 7 p.1 p.2 false) s

/-- Where stream `st` of pair 3 stands. -/
def siteOf (s : State) (st : StreamId) : Site :=
  (s.fresh.site 7 3 st).getD { c := 0, q := 0, st := .a, k := 0, t := .zero, i := [], load := 0, len := 0 }

/-- The stream can issue an instruction of the opcode, as a test that evaluates. -/
def canIssue (s : State) (st : StreamId) (op : Nat) : Bool :=
  let z := siteOf s st
  s.fresh.site 7 3 st == some z && s.fresh.fetchErrors z == (false, s.fresh) && z.i.op == op && z.i.illegal st == none &&
    s.waitMet z && s.commonChecks z == []

theorem canIssue_sound {s : State} {st : StreamId} {op : Nat} (h : canIssue s st op = true) : Issues s 7 3 st op (siteOf s st) := by
  simp only [canIssue, Bool.and_eq_true, beq_iff_eq] at h
  exact ⟨h.1.1.1.1.1, h.1.1.1.1.2, h.1.1.1.2, h.1.1.2, h.1.2, h.2⟩

theorem test_meets_CounterInstructionsIssue :
    ∀ p ∈ [(0x00, [0x100]), (0x04, [0xFFFFFFFF30000104]), (0x05, [0x8000000000000105]), (0x06, [0xF0000106]),
        (0x07, [0x280000207, 5]), (0x07, [0x1C10000207, 0]), (0x08, [0x108])], ∀ st ∈ [StreamId.a, .x], canIssue (running p.2) st p.1 = true := by decide +kernel

/-- The same with an operation of an opcode unfinished on the stream (on both streams of the pair). -/
def behind (op : Nat) (s : State) : State :=
  let o : Op := { seq := 0, pos := 0, words := [BitVec.ofNat 64 op], bases := [], thread := 0, sub := 0, buf := [], record := 0,
                  target := Target.mk 0 0 0, unanswered := 0, failed := false, ran := false, complete := false, held := false,
                  skipped := false, counted := false, aux := 0 }
  let t : Strm := { Strm.zero with ops := [o], nextSeq := 1 }
  (s.setStrm 7 3 .a t).setStrm 7 3 .x t

theorem test_meets_FlagsGuardsAndJumps : ∀ st ∈ [StreamId.a, .x],
    canIssue (running [0xFC0000101]) st 0x01 = true ∧ (siteOf (running [0xFC0000101]) st).t.ops = [] ∧
    bits (siteOf (running [0xFC0000101]) st).i.head 29 28 = 0 ∧
    canIssue (running [0xFD0000101]) st 0x01 = true ∧ bits (siteOf (running [0xFD0000101]) st).i.head 29 28 = 1 ∧
    (siteOf (running [0xFD0000101]) st).i.setOn = false ∧
    canIssue (running [0x4F0000102, 0x100]) st 0x02 = true ∧ (siteOf (running [0x4F0000102, 0x100]) st).t.ops = [] ∧
    (running [0x4F0000102, 0x100]).boundary (siteOf (running [0x4F0000102, 0x100]) st) (guardTarget (siteOf (running [0x4F0000102, 0x100]) st)) = true ∧
    canIssue (behind 0x27 (running [0x4F0000102, 0x100])) st 0x02 = true ∧
    (siteOf (behind 0x27 (running [0x4F0000102, 0x100])) st).t.ops ≠ [] ∧
    (behind 0x27 (running [0x4F0000102, 0x100])).boundary (siteOf (behind 0x27 (running [0x4F0000102, 0x100])) st)
      (guardTarget (siteOf (behind 0x27 (running [0x4F0000102, 0x100])) st)) = true ∧
    canIssue (running [0x140000103]) st 0x03 = true ∧
    (running [0x140000103]).boundary (siteOf (running [0x140000103]) st) (jumpTarget (siteOf (running [0x140000103]) st)) = true ∧
    canIssue (running [0xFFFF00000103]) st 0x03 = true ∧
    (running [0xFFFF00000103]).boundary (siteOf (running [0xFFFF00000103]) st) (jumpTarget (siteOf (running [0xFFFF00000103]) st)) = false ∧
    (running [0xFFFF00000103]).cget 63 0x31 < ((running [0xFFFF00000103]).ctx 63).skipLimit := by decide +kernel

/-- Access instructions of one thread: opcode, unit, words. -/
def accessWords : List (Nat × UnitId × List Nat) :=
  [(0x10, .loader, [0x81C0000510, 1, 0x17FFFF, 0, 0]), (0x12, .loader, [0xC0000312, 0x8000400040400000, 0]),
    (0x13, .storer, [0x81D0000513, 1, 0x17FFFF, 0, 0]), (0x14, .storer, [0xC0000214, 0x40400000]),
    (0x24, .engine, [0x8100000624, 7, 1, 0x17FFFF, 0, 0]), (0x25, .engine, [0x8100000825, 1, 0x17FFFF, 0, 0, 0, 0, 0]),
    (0x26, .engine, [0x8000000926, 0, 1, 0x17FFFF, 0, 0, 0, 0, 0]), (0x27, .engine, [0x8100000627, 0x17FFFF, 1, 0x17FFFF, 0, 0])]

theorem test_meets_AccessInstructionsIssue :
    (∀ p ∈ accessWords, canIssue (running p.2.2) .a p.1 = true ∧ (siteOf (running p.2.2) .a).t.unitBusy p.2.1 = false) ∧
    (∀ p ∈ accessWords, canIssue (behind p.1 (running p.2.2)) .a p.1 = true ∧ (siteOf (behind p.1 (running p.2.2)) .a).t.unitBusy p.2.1 = true) ∧
    (∀ p ∈ accessWords, p.1 ∈ [0x10, 0x13, 0x24, 0x25, 0x27] → nestRange 0 (siteOf (running p.2.2) .a) = false) ∧
    nestRange 1 (siteOf (running [0x8100000825, 1, 0x17FFFF, 0, 0, 0, 0, 0]) .a) = false ∧
    (∀ p ∈ accessWords, p.1 ∈ [0x12, 0x14] →
      spmWords ≥ ldzBase (siteOf (running p.2.2) .a).i + ldzPitch (siteOf (running p.2.2) .a).i * ldzTiles (siteOf (running p.2.2) .a).i ∧
      ldzTarget (siteOf (running [0xC0000312, 0x8000400040400000, 0]) .a).i = false) ∧
    (let z := siteOf (running [0x8000000926, 0, 1, 0x17FFFF, 0, 0, 0, 0, 0]) .a;
      z.localOk 0 ((mtBlock z.i - 1) * mtSrcPitch z.i) = true ∧ z.localOk 1 ((mtBlock z.i - 1) * mtDstPitch z.i) = true ∧ tooMany z = false) ∧
    wordOk (bits ((siteOf (running [0x8100000627, 0x17FFFF, 1, 0x17FFFF, 0, 0]) .a).i.w 1) 20 0) = true := by decide +kernel

/-- DLD and DST of one thread, with 2 MiB of staging. -/
def stagingWords (op : Nat) : List Nat := [0x8100000900 + op, 0xFFFF, 1, 0, 0, 0, 0x17FFFF, 0, 0]
def staged (op : Nat) : State :=
  let s := running (stagingWords op)
  s.setCtx 63 { s.ctx 63 with allotLen := 0x200000 }

/-- Context 63 as an LC context in strict mode. -/
def strictLC (s : State) : State := (s.cset 63 0x02 1).dset 0x2900 0x01 1

/-- PUT, SPUT, GET and AADD to window 63 of core 7 with generation 255, and RFLAG there. -/
def remoteWords : List (Nat × List Nat) :=
  [0x1C, 0x1D, 0x1E, 0x1F].map (fun op => (op, [0x8100000900 + op, 0x1FFFF, 1, 0x17FFFF, 0, 0, 0, 0, 0])) ++ [(0x20, [0x220, 0x1FFFF])]

/-- A PUT that has been sent and not answered stands before the stream's position. -/
def sentOff (s : State) : State := s.setStrm 7 3 .a ((behind 0x1C s).strm 7 3 .a |>.mapOp 0 (fun o => { o with ran := true }))

theorem test_meets_StagingAndRemoteInstructionsIssue :
    (∀ op ∈ [0x18, 0x19], canIssue (staged op) .a op = true ∧ (siteOf (staged op) .a).t.unitBusy .stager = false ∧
      stagingChecks (siteOf (staged op) .a) (staged op) = [] ∧ ((staged op).strict && (staged op).isLC 63) = false ∧
      canIssue (strictLC (staged op)) .a op = true ∧ stagingChecks (siteOf (strictLC (staged op)) .a) (strictLC (staged op)) = [] ∧
      ((strictLC (staged op)).strict && (strictLC (staged op)).isLC (siteOf (strictLC (staged op)) .a).k) = true) ∧
    (∀ p ∈ remoteWords, canIssue (running p.2) .a p.1 = true ∧ (siteOf (running p.2) .a).t.unitBusy .remote = false ∧
      remoteCheck (siteOf (running p.2) .a) (running p.2).fresh = [] ∧ (running p.2).fresh.targetPoison (siteOf (running p.2) .a) = false ∧
      (running p.2).fresh.targetOf (siteOf (running p.2) .a) = some (Target.mk 7 63 255) ∧ (running p.2).ecc = []) ∧
    canIssue (running [0x121]) .a 0x21 = true ∧ (siteOf (running [0x121]) .a).t.unitBusy .remote = false ∧
    (siteOf (running [0x121]) .a).t.remoteDone (siteOf (running [0x121]) .a).t.nextSeq = true ∧
    canIssue (sentOff (running [0x121])) .a 0x21 = true ∧ (siteOf (sentOff (running [0x121])) .a).t.unitBusy .remote = false ∧
    (siteOf (sentOff (running [0x121])) .a).t.remoteDone (siteOf (sentOff (running [0x121])) .a).t.nextSeq = false := by decide +kernel

/-- A tap record (R156), a region record (R172), and a column end record that opens and closes slot 15 (R127), each with every field in range. -/
def tapGood : SWord := wordOfBytes [1, 0, 1, 0, 1, 0, 0, 0, 0, 0, 0, 0, 0, 0, 1, 1, 1, 1, 1, 1, 1, 1, 0, 0, 0, 0, 0, 0, 1, 0, 0, 0]
def regionGood : SWord := wordOfBytes [0, 0, 0, 0, 1, 0, 1, 0, 0, 0, 0, 0, 1, 2, 1, 1, 0, 0, 0, 0, 66, 0, 0, 0, 1, 0, 0, 0, 0, 0, 0, 0]
def ceuGood : List Byte := bytesOf 96 0x80000000000000003f8000003f800000000000000000000000000000000000000001000100000000000000000000005200000050000000513f80000080000000000000000000000000000000000000000000000000030f040000000000010002

/-- The words of the records at 64 and up. -/
def withRecords (s : State) : State :=
  let w (i : Nat) : SWord := wordOfBytes (slice ceuGood (32 * i) 32)
  ((((s.setSpm 7 64 tapGood false).setSpm 7 65 regionGood false).setSpm 7 68 (w 0) false).setSpm 7 69 (w 1) false).setSpm 7 70 (w 2) false

/-- An LDT of the tap at word `a`, and a REGION of the record there. -/
def ldtAt (a : Nat) : State := withRecords (running [0xC0000311, a + 2 ^ 37, 1])
def regionAt (a : Nat) : State := withRecords (running [0x228, a])

theorem test_meets_RecordInstructionsReadTheirRecordOnce :
    (∀ a ∈ [64, 67], canIssue (ldtAt a) .a 0x11 = true ∧ (siteOf (ldtAt a) .a).t.unitBusy .loader = false ∧
      bits ((siteOf (ldtAt a) .a).i.w 1) 20 0 = a ∧ wordOk a = true ∧ ((ldtAt a).ctx 63).ownsWord a = true ∧
      (ldtAt a).consumeRead 63 7 a = (some ((ldtAt a).spm 7 a), ldtAt a) ∧
      tapBad ((ldtAt a).spm 7 a) (siteOf (ldtAt a) .a).i = (a == 67) ∧ (ldtAt a).cget 63 0x31 < ((ldtAt a).ctx 63).skipLimit) ∧
    (∀ a ∈ [65, 67], canIssue (regionAt a) .a 0x28 = true ∧ (siteOf (regionAt a) .a).t.unitBusy .region = false ∧
      (regionAt a).consumeRead 63 7 a = (some ((regionAt a).spm 7 a), regionAt a) ∧ regionBad ((regionAt a).spm 7 a) = (a == 67)) ∧
    rgList regionGood = 66 ∧ (regionAt 65).consumeRead 63 7 66 = (some 0, regionAt 65) := by decide +kernel

/-- WLOAD, STREAM and NARROW on group 0 of array 0, which streams through a set of one row of INT8; slot 15 of pair 3 has closed. -/
def arrayAt (l : List Nat) : State :=
  ((withRecords (running l)).setGroup 7 0 0 { Group.zero with active := some { rows := [[1]], fmt := 2, csum := [] } }).setSlot 7 3 15
    { ScaleSlot.zero with closed := true }
def wloadWords : List Nat := [0x140 + 2 ^ 33 * 2 + 2 ^ 37 * 1152 + 2 ^ 48 * 15]
def streamWords : List Nat := [0x341 + 2 ^ 34 * 2 + 2 ^ 39 * 128 + 2 ^ 47 * 12 + 2 ^ 51 * 12 + 2 ^ 55, 68, 1]
def narrowWords : List Nat := [0x342 + 2 ^ 30 * 15, 68 + 2 ^ 21 * 90, 1]

/-- The state in which a STREAM or NARROW reads its record. -/
def reading (l : List Nat) : State :=
  let s := arrayAt l
  let z := siteOf s .x
  ((s.fresh.takeWait z).advance z).pushOp z id

/-- The same with a close of slot 0 outstanding that writes word `w`. -/
def closingTo (w : Nat) (s : State) : State :=
  s.setSlot 7 3 0 { ScaleSlot.zero with closing := some (ScaleClose.mk 0 0 0 (bytesOf 96 (w * 2 ^ 352))) }

/-- A NARROW that takes its scale from word 67. -/
def narrowFrom : List Nat := [0x342 + 2 ^ 29, 68 + 2 ^ 21 * 90 + 2 ^ 42 * 67, 1]

theorem test_meets_ArrayInstructionsIssue_wload :
    (let z := siteOf (arrayAt wloadWords) .x;
      canIssue (arrayAt wloadWords) .x 0x40 = true ∧ wloadChecks z (arrayAt wloadWords).fresh = [] ∧ laneBusy z 0x40 z.i.arr (wlGroup z.i) = false ∧
      ((arrayAt wloadWords).group 7 z.i.arr (wlGroup z.i)).waiting = none) ∧
    (let s := behind 0x40 (arrayAt wloadWords);
      let z := siteOf s .x;
      canIssue s .x 0x40 = true ∧ wloadChecks z s.fresh = [] ∧
      laneBusy z 0x40 z.i.arr (wlGroup z.i) = true) := by decide +kernel

theorem test_meets_ArrayInstructionsIssue_stream :
    (let z := siteOf (arrayAt streamWords) .x;
      let v := reading streamWords;
      canIssue (arrayAt streamWords) .x 0x41 = true ∧ streamChecks z (arrayAt streamWords).fresh = [] ∧
      laneBusy z 0x41 z.i.arr (smGroup z.i) = false ∧ (arrayAt streamWords).fresh.xOrdered z ((arrayAt streamWords).fresh.streamWords z) = true ∧
      ((arrayAt streamWords).group 7 z.i.arr (smGroup z.i)).formatFor (smSwap z.i) = some 2 ∧
      v.recordAt z (bits (z.i.w 1) 20 0) 3 = (some ceuGood, v) ∧ v.streamLate z ceuGood 2 = none ∧
      v.statusOf z none = (some 0, 0, v) ∧ Rec.immScale ceuGood = true ∧ Rec.status2 ceuGood = none ∧
      v.recordAt z (Rec.params ceuGood) (cdiv (2 * smN z.i) 8) = (some (List.replicate 1024 0), v) ∧ Rec.act ceuGood ≠ 4 ∧
      Rec.opens ceuGood = true ∧ Rec.closes ceuGood = true) ∧
    (let s := closingTo 69 (arrayAt streamWords);
      let z := siteOf s .x;
      canIssue s .x 0x41 = true ∧ streamChecks z s.fresh = [] ∧ s.fresh.xOrdered z (s.fresh.streamWords z) = false) := by decide +kernel

theorem test_meets_ArrayInstructionsIssue_narrow :
    (let z := siteOf (arrayAt narrowWords) .x;
      let v := reading narrowWords;
      canIssue (arrayAt narrowWords) .x 0x42 = true ∧ narrowChecks z (arrayAt narrowWords).fresh = [] ∧ nrFromWord z.i = false ∧
      (arrayAt narrowWords).fresh.xOrdered z ((arrayAt narrowWords).fresh.narrowWordsRead z) = true ∧
      z.t.ops = [] ∧ v.recordAt z (bits (z.i.w 1) 20 0) 3 = (some ceuGood, v) ∧ narrowLate ceuGood = none ∧
      v.recordAt z (Rec.staging ceuGood) (cdiv (nrElements z.i) 16) = (some (List.replicate 32 0), v) ∧ (arrayAt narrowWords).ecc = [] ∧
      stagedCode ceuGood 0 0 (fDiv fOne 0) 0 (fieldAt (List.replicate 32 0) 0 2) = (0, false) ∧
      (∀ a ∈ [Rec.outWord ceuGood, nrDest z.i + 0], ((arrayAt narrowWords).ctx z.k).ownsWord a = true) ∧
      (Machine.narrowWords ceuGood [0]).map (·.1) = [0] ∧ [Rec.outWord ceuGood, nrDest z.i + 0].Nodup) ∧
    (let z := siteOf (arrayAt narrowFrom) .x;
      let v := reading narrowFrom;
      canIssue (arrayAt narrowFrom) .x 0x42 = true ∧ narrowChecks z (arrayAt narrowFrom).fresh = [] ∧ nrFromWord z.i = true ∧
      v.consumeRead z.k 7 (nrWord z.i) = (some 0, v) ∧ v.recordAt z (bits (z.i.w 1) 20 0) 3 = (some ceuGood, v)) ∧
    (let s := closingTo 80 (arrayAt narrowWords);
      let z := siteOf s .x;
      canIssue s .x 0x42 = true ∧ narrowChecks z s.fresh = [] ∧ s.fresh.xOrdered z (s.fresh.narrowWordsRead z) = false) := by decide +kernel

/-! ### Hypotheses met: skips, threads, completions, the arrays -/

/-- The same with context 63's skips one short of its limit. -/
def nearLimit (s : State) : State := s.cset 63 0x31 (((s.ctx 63).skipLimit) - 1)

theorem test_meets_SkipsMoveOnAndAreCounted : ∀ st ∈ [StreamId.a, .x],
    (running [0x1FF]).site 7 3 st = some (siteOf (running [0x1FF]) st) ∧ nopRow (siteOf (running [0x1FF]) st).i st = true ∧
    (running [0x1FF]).fetchErrors (siteOf (running [0x1FF]) st) = (false, running [0x1FF]) ∧
    (siteOf (running [0x1FF]) st).i.illegal st = some 0x2040 ∧
    (nearLimit (running [0x1FF])).cget 63 0x31 < ((nearLimit (running [0x1FF])).ctx 63).skipLimit ∧
    (running [0xFFFF00000103]).site 7 3 st = some (siteOf (running [0xFFFF00000103]) st) ∧
    (running [0xFFFF00000103]).fetchErrors (siteOf (running [0xFFFF00000103]) st) = (false, running [0xFFFF00000103]) ∧
    (siteOf (running [0xFFFF00000103]) st).i.illegal st = none ∧ (running [0xFFFF00000103]).waitMet (siteOf (running [0xFFFF00000103]) st) = true ∧
    (let z := siteOf (running [0xFFFF00000103]) st;
      (running [0xFFFF00000103]).commonChecks z ++ failIf (!(running [0xFFFF00000103]).boundary z (jumpTarget z)) 0x2070 = [0x2070]) ∧
    (running [0x1100]).site 7 3 st = some (siteOf (running [0x1100]) st) ∧ (siteOf (running [0x1100]) st).i.illegal st = none ∧
    (running [0x1100]).fetchErrors (siteOf (running [0x1100]) st) = (false, running [0x1100]) ∧
    (running [0x1100]).waitMet (siteOf (running [0x1100]) st) = false := by decide +kernel

/-- An operation of an instruction as it issued, last on stream A of pair 3. -/
def issued (l : List Nat) (f : Op → Op) : State :=
  let s := running l
  let z := siteOf s .a
  s.setStrm 7 3 .a { z.t with ops := [f (z.op 0)], nextSeq := 1 }

/-- The oldest unfinished operation of a unit on pair 3. -/
def oldest (s : State) (u : UnitId) : Option Op := (s.strm 7 3 .a).ops.find? (fun o => unitOf (Insn.op o.words) == some u && !o.ran)

/-- LDQ of 72 words from the third of them on, STQ of 72 words, MFILL of the last word, RFLAG, and a held DLD. -/
def ldqOp : State := issued [0xC8C0000510, 1, 0x1000, 0, 0] (fun o => { o with sub := 2 })
def stqOp : State :=
  let s := issued [0xC8D0000513, 1, 0x1000, 0, 0] id
  s.setPair 7 3 ((s.pair 7 3).setRq 13 [plainWord 5 false 0])
def fillOp : State := issued [0x8100000624, 7, 1, 0x17FFFF, 0, 0] id
def rflagOp : State := issued [0x220, 0x1FFFF] (fun o => { o with target := Target.mk 7 63 255 })
def heldOp : State := issued (stagingWords 0x18) (fun o => { o with held := true })

/-- The first operation on the stream. -/
def firstOp (s : State) : Op := ((s.strm 7 3 .a).ops.head?).getD (Site.op { c := 0, q := 0, st := .a, k := 0, t := .zero, i := [], load := 0, len := 0 } 0)

/-- The LDQ behind an STQ of the same words. -/
def orderedOps : State :=
  ldqOp.setStrm 7 3 .a { ldqOp.strm 7 3 .a with ops := [{ firstOp stqOp with seq := 0 }, { firstOp ldqOp with seq := 1 }] }

theorem test_meets_ElementThreadsMoveWords :
    (∀ p ∈ [(ldqOp, UnitId.loader, 0x10), (stqOp, .storer, 0x13), (fillOp, .engine, 0x24), (rflagOp, .remote, 0x20), (heldOp, .stager, 0x18)],
      p.1.runner 7 3 = some 63 ∧ oldest p.1 p.2.1 = some (firstOp p.1) ∧ p.1.ecc = [] ∧ Insn.op (firstOp p.1).words = p.2.2 ∧
      (firstOp p.1).held = (p.2.2 == 0x18)) ∧
    (∀ p ∈ [ldqOp, stqOp], (p.strm 7 3 .a).orderLimit (firstOp p) = none) ∧ orderedOps.runner 7 3 = some 63 ∧
    oldest orderedOps .loader = some { firstOp ldqOp with seq := 1 } ∧
    (orderedOps.strm 7 3 .a).orderLimit { firstOp ldqOp with seq := 1 } = some 0 ∧
    heldOp.allEnd 63 = false ∧
    min ((firstOp ldqOp).wpt - (firstOp ldqOp).sub) (ldqOp.oqRoom { k := 63, c := 7, q := 3, o := firstOp ldqOp, lim := none } 12) = 64 ∧
    (∀ i < 64, (ldqOp.ctx 63).ownsWord ((firstOp ldqOp).addr 0 + (firstOp ldqOp).sub + i) = true) ∧
    min ((firstOp stqOp).wpt - (firstOp stqOp).sub) ((stqOp.pair 7 3).rq 13).length = 1 ∧
    (stqOp.ctx 63).ownsWord ((firstOp stqOp).addr 0) = true ∧ (firstOp fillOp).wpt = 1 ∧
    (fillOp.ctx 63).ownsWord ((firstOp fillOp).addr 0) = true ∧
    rflagOp.portRoom { k := 63, c := 7, q := 3, o := firstOp rflagOp, lim := none } ≠ 0 := by decide +kernel

/-- An MDIGEST and an MFILL that have run, each with a done flag and a set flag. -/
def ranOp (l : List Nat) : State := issued l (fun o => { o with ran := true })
def digestWords : List Nat := [0x8100000627 + 2 ^ 58 + 2 ^ 52 * 63 + 2 ^ 20 + 2 ^ 21 * 62, 0x17FFFF, 1, 0, 0, 0]
def fillWords : List Nat := [0x8100000624 + 2 ^ 58 + 2 ^ 52 * 63 + 2 ^ 20 + 2 ^ 21 * 62, 7, 1, 0, 0, 0]

/-- Every stream but X of pair 3 has stopped at its mark. -/
def stopping : State :=
  ((running [0x1100]).ctx 63).streams.foldl (fun s p => if p = (3, .x) then s else s.setStrm 7 p.1 p.2 { s.strm 7 p.1 p.2 with stopped := true })
    ((running [0x1100]).cset 63 0x40 1)

/-- The same with the stall monitor at its limit. -/
def stalled (s : State) : State := s.setCtx 63 { s.ctx 63 with stall := 4096 }

theorem test_meets_InstructionsCompleteAndSetTheirFlags :
    (∀ l ∈ [digestWords, fillWords], (ranOp l).runner 7 3 = some 63 ∧ ((ranOp l).strm 7 3 .a).ops = [firstOp (ranOp l)] ∧
      (firstOp (ranOp l)).ran = true ∧ (firstOp (ranOp l)).complete = false ∧ (firstOp (ranOp l)).skipped = false ∧
      ((ranOp l).pair 7 3).outstanding = [] ∧ Insn.op (firstOp (ranOp l)).words ≠ 0x01 ∧
      Insn.doneFlag (firstOp (ranOp l)).words = some 63 ∧ Insn.setOn (firstOp (ranOp l)).words = true) ∧
    Insn.op (firstOp (ranOp digestWords)).words = 0x27 ∧
    ((ranOp digestWords).ctx 63).ownsWord (bits (Insn.w (firstOp (ranOp digestWords)).words 1) 20 0) = true ∧
    (∀ l ∈ [[0x1100], [0x100]], (running l).cstate 63 = csRunning ∧ (running l).runner 7 ((running l).ctx 63).o = some 63 ∧
      (running l).cget 63 0x40 ≠ 2) ∧
    (stalled (running [0x1100])).cstate 63 = csRunning ∧ (stalled (running [0x1100])).runner 7 ((stalled (running [0x1100])).ctx 63).o = some 63 ∧
    (stalled (running [0x1100])).cget 63 0x40 ≠ 2 ∧ stallLimit ≤ ((stalled (running [0x1100])).ctx 63).stall ∧
    (stalled (running [0x1100])).crossBlocked 63 = true ∧ (running [0x100]).crossBlocked 63 = false ∧ ((running [0x1100]).ctx 63).stall < stallLimit ∧
    stopping.cget 63 0x40 = 1 ∧ stopping.runner 7 0 = some 63 ∧
    (stopping.ctx 63).streams.filter (fun p => !(stopping.strm 7 p.1 p.2).stopped) = [(3, .x)] ∧
    (stopping.holdOf 7 3 .x).isSome = true ∧ stopping.quiet 63 = true ∧ stopping.groupsBlocked 63 = true ∧
    stopping.accessBlocked 63 = true ∧ stopping.closesBlocked 63 = true := by decide +kernel

/-- A weight load of one row on pair 3, waiting for group 0 of array 0, or begun with its row in operand queue 3. -/
def oneRow (split : Nat) : WLoad := WLoad.mk 3 0 1 2 split 3 false
def waitingLoad (split : Nat) : State := (running [0x100]).setGroup 7 0 0 { Group.zero with waiting := some (oneRow split) }
def begunLoad : State :=
  let s := (running [0x100]).setGroup 7 0 0 { Group.zero with loading := some (oneRow 0, []) }
  s.setPair 7 3 ((s.pair 7 3).setOq 3 ((List.range 5).map (fun i => plainWord (BitVec.ofNat 256 i) false 0)))

/-- A STREAM of two slots of INT8 through a set of one row, `f` applied. -/
def job (f : Job → Job) : Job :=
  f { pair := 3, seq := 0, mode := 0, fmt := 2, swap := false, swapped := false, checked := false, n := 1, oq := 0, rq := 0, slots := 2,
      record := ceuGood, mcol := [0x3F800000], bcol := [0], table := [], scale := 0x3F800000, inject := 0, popped := [], blockLen := 0,
      blockSum := [], flight := [], col := 0, elems := [], rowSums := [], pack := [], tile := [], tileFirst := 0, drained := 0, outq := [] }

/-- The split-changing load waits behind a job of group 1. -/
def heldChange : State := (waitingLoad 2).setGroup 7 0 1 { Group.zero with jobs := [job id] }

theorem test_meets_WeightsLoadAndSplitsChange :
    ((waitingLoad 0).group 7 0 0).waiting = some (oneRow 0) ∧ (waitingLoad 0).runner 7 3 = some 63 ∧ (waitingLoad 0).split 7 0 = 0 ∧
    ((waitingLoad 0).group 7 0 0).loading = none ∧ ((waitingLoad 0).group 7 0 0).shadow = none ∧ ((waitingLoad 0).pair 7 3).oq 3 = [] ∧
    (begunLoad.group 7 0 0).loading = some (oneRow 0, []) ∧ begunLoad.runner 7 3 = some 63 ∧
    (∀ w ∈ (takeRows (1 - 0) (splitWidth (begunLoad.split 7 0) / 32) ((begunLoad.pair 7 3).oq 3)).1.flatten, w.poison = false) ∧
    (takeRows (1 - 0) (splitWidth (begunLoad.split 7 0) / 32) ((begunLoad.pair 7 3).oq 3)).1.length = 1 ∧
    (waitingLoad 2).splitWanted 7 0 = some (oneRow 2) ∧ (waitingLoad 2).runner 7 3 = some 63 ∧
    (∀ g < 4, ((waitingLoad 2).group 7 0 g).holdsChange (oneRow 2) = false) ∧ heldChange.splitWanted 7 0 = some (oneRow 2) ∧
    heldChange.runner 7 3 = some 63 ∧ (heldChange.group 7 0 1).jobs = [job id] ∧ (job id).inject < (job id).slots ∧
    (heldChange.group 7 0 1).behind (oneRow 2) (job id) = false := by decide +kernel

/-- The column sums of slot 0. -/
def slot0 : SlotSums := { t := 0, isCheck := false, sums := List.replicate 128 (7, false), csum := 0 }

def streaming (f : Job → Job) : State :=
  let s := (running [0x100]).setGroup 7 0 0
    { Group.zero with active := some { rows := [List.replicate 128 3], fmt := 2, csum := [] }, jobs := [job f] }
  s.setPair 7 3 ((s.pair 7 3).setOq 0 [plainWord 9 false 0])

/-- A close of slot 15 that waits. -/
def closing15 : State := (running [0x100]).setSlot 7 3 15 { ScaleSlot.zero with isOpen := true, closing := some (ScaleClose.mk 4 0 0 ceuGood) }

theorem test_meets_SlotsPassThroughTheArray :
    ((streaming id).group 7 0 0).jobs = [job id] ∧ (job id).inject < (job id).slots ∧ (streaming id).runner 7 3 = some 63 ∧
    ((streaming id).group 7 0 0).active = some { rows := [List.replicate 128 3], fmt := 2, csum := [] } ∧
    (((streaming id).pair 7 3).oq 0).length = slotWords 2 1 ∧ (∀ x ∈ ((streaming id).pair 7 3).oq 0, x.poison = false ∧ x.under = false) ∧
    ((streaming (fun j => { j with inject := 1, flight := [slot0] })).group 7 0 0).jobs = [job (fun j => { j with inject := 1, flight := [slot0] })] ∧
    (streaming (fun j => { j with inject := 1, flight := [slot0] })).runner 7 3 = some 63 ∧
    (job (fun j => { j with inject := 1, flight := [slot0] })).col + 1 < splitWidth ((streaming id).split 7 0) ∧
    (job (fun j => { j with record := j.record.set 4 1 })).keeps = true ∧ Rec.phase ((job (fun j => { j with record := j.record.set 4 1 })).record) = 1 ∧
    closing15.runner 7 3 = some 63 ∧ (closing15.slot 7 3 15).closing = some (ScaleClose.mk 4 0 0 ceuGood) ∧
    (∀ a < 2, ∀ g < 4, (closing15.group 7 a g).jobs = []) := by decide +kernel

/-! ### Hypotheses met: packets -/

/-- Window 63 of core 7: 16 words up to the last one, generation 255, owner 63, core 0 may do all, two FP32 contributions a round. -/
def openEntry : BitVec 128 :=
  wnPut (wnPut (wnPut (wnPut (wnPut (wnPut (wnPut (wnPut 0 20 0 1572848) 41 21 16) 46 42 31) 59 48 1) 63 60 2) 71 64 255) 72 72 1) 78 73 63

/-- A packet of a kind from core 0, context 5, to the last word of that window. -/
def packet (kind : BitVec 4) (gen : Nat) : Packet :=
  { kind := kind, srcUnit := 0, srcCtx := 5, ctxValid := true, srcPair := 2, dstUnit := 7, addr := winAddr 63 gen 15, words := 0, flag := 31,
    seq := 9, tag := 3, status := 0, poison := false, data := if kind = 3 || kind = 7 then [] else [0x3F800000] }

/-- A packet has arrived at core 7, its window open. -/
def arriving (p : Packet) : State := { (running [0x100]).setWin 7 63 openEntry with fabric := [p] }

theorem test_meets_PutsAndFlagsArriveAtTheirWindow :
    (∀ kind ∈ [(0 : BitVec 4), 1, 2, 7], (arriving (packet kind 255)).sputPending (packet kind 255) = (kind == 1) ∧ (packet kind 255).dst < 8 ∧
      (arriving (packet kind 255)).windowCheck 7 (packet kind 255).window (packet kind 255).gen (packet kind 255).src (rightsOf kind)
        (packet kind 255).off (packet kind 255).count = none ∧
      wnOwner ((arriving (packet kind 255)).win 7 63) = 63 ∧ (arriving (packet kind 255)).ccore 63 = 7 ∧
      (arriving (packet kind 255)).cstate 63 = csRunning ∧ (arriving (packet kind 255)).switchCore 63 = none ∧
      (arriving (packet kind 254)).windowCheck 7 (packet kind 254).window (packet kind 254).gen (packet kind 254).src (rightsOf kind)
        (packet kind 254).off (packet kind 254).count = some 0x3003) := by decide +kernel

/-- The same in strict mode. -/
def strictArriving (p : Packet) : State := (arriving p).dset 0x2900 0x01 1

theorem test_meets_GetsAndAddsArriveAtTheirWindow :
    (∀ kind ∈ [(3 : BitVec 4), 5, 6], (arriving (packet kind 255)).windowCheck 7 (packet kind 255).window (packet kind 255).gen
        (packet kind 255).src (rightsOf kind) (packet kind 255).off (packet kind 255).count = none ∧
      (arriving (packet kind 255)).cstate 63 = csRunning ∧ (arriving (packet kind 255)).switchCore 63 = none ∧
      (arriving (packet kind 255)).strict = false ∧ (arriving (packet kind 255)).ecc = []) ∧
    (strictArriving (packet 6 255)).windowCheck 7 63 255 0 (rightsOf 6) 15 1 = none ∧ (strictArriving (packet 6 255)).strict = true ∧
    (strictArriving (packet 6 255)).cstate 63 = csRunning ∧ (strictArriving (packet 6 255)).switchCore 63 = none ∧
    (∀ i < (packet 6 255).data.length, ((strictArriving (packet 6 255)).round 7 (1572848 + 15 + i)).length + 1 < wnRed openEntry ∧
      (strictArriving (packet 6 255)).round 7 (1572848 + 15 + i) = []) := by decide +kernel

/-- An answer to operation 0 of context 63's pair 3 on core 7; one remote packet of it, sequence 9, is out. -/
def answer (kind : BitVec 4) : Packet :=
  { packet kind 255 with srcCtx := 63, srcPair := 3, srcUnit := 0, data := if kind = 4 || kind = 12 then [5] else [] }
def waitingFor (p : Packet) : State :=
  let s := issued [0x220, 0x1FFFF] id
  { s.setPair 7 3 { s.pair 7 3 with outstanding := [Out.mk 9 0 7 63 100 0 1 false] } with fabric := [p] }

/-- The same where nothing is out. -/
def notWaiting (p : Packet) : State := { running [0x100] with fabric := [p] }

/-- The same where context 63 owns pair 3 alone. -/
def oneQuarter (s : State) : State := s.setCtx 63 { s.ctx 63 with o := 3, n := 1 }

theorem test_meets_AnswersReachTheirOperation :
    (∀ kind ∈ [(4 : BitVec 4), 8, 9, 12, 13], (answer kind).dst < 8 ∧ (answer kind).ctxValid = true ∧ (answer kind).k = 63 ∧
      (waitingFor (answer kind)).cstate 63 = csRunning ∧ (waitingFor (answer kind)).ccore 63 = (answer kind).dst ∧
      ((waitingFor (answer kind)).ctx 63).move = .still ∧
      findOut ((waitingFor (answer kind)).pair 7 3).outstanding (answer kind).seq.toNat = some (Out.mk 9 0 7 63 100 0 1 false) ∧
      ((waitingFor (answer kind)).pair 7 3).sa.ops.any (fun x => x.seq == 0 && !x.failed) = true ∧
      (notWaiting (answer kind)).cstate 63 = csRunning ∧ ((notWaiting (answer kind)).ctx 63).move = .still ∧
      findOut ((notWaiting (answer kind)).pair 7 3).outstanding (answer kind).seq.toNat = none ∧
      ((waitingFor (answer kind)).ctx 63).ownsWord 100 = true ∧ ((oneQuarter (waitingFor (answer kind))).ctx 63).ownsWord 100 = false ∧
      (oneQuarter (waitingFor (answer kind))).matchWindow 7 7 rPut 100 = none ∧ (oneQuarter (waitingFor (answer kind))).cstate 63 = csRunning ∧
      (oneQuarter (waitingFor (answer kind))).ccore 63 = 7 ∧ ((oneQuarter (waitingFor (answer kind))).ctx 63).move = .still ∧
      findOut ((oneQuarter (waitingFor (answer kind))).pair 7 3).outstanding (answer kind).seq.toNat = some (Out.mk 9 0 7 63 100 0 1 false)) := by
  decide +kernel

/-- A memory packet of core 7 to word 1 of partition 0, and one to a word nothing has. -/
def memPacket (kind : BitVec 4) (addr : BitVec 43) : Packet :=
  { packet kind 0 with srcUnit := 7, dstUnit := 12, addr := addr, data := if kind = 10 then [5] else [] }

/-- One packet sent by pair 3 of core 7, timed out or held. -/
def timedOut (held : Bool) : State :=
  let s := issued [0x220, 0x1FFFF] id
  s.setPair 7 3 { s.pair 7 3 with outstanding := [Out.mk 9 0 7 63 100 0 1 held] }
def sentPacket : Packet := { packet 7 255 with srcUnit := 7, srcCtx := 63, srcPair := 3, dstUnit := 7 }

/-- The one put of a promotion under handle (0, 5), out. -/
def promoPut : Packet := { packet 0 255 with srcUnit := 9, ctxValid := false, tag := BitVec.ofNat 16 (hKey 0 5) }
def promo : Promotion :=
  { group := 1, checkpoint := 4, ctx := 63, window := 63, gen := 255, offset := 0, handle := (0, 5), digest := [], unanswered := [9], failed := none }

/-- A read of core 7 by a host. -/
def hostPacket (h : Nat) : Packet := { packet 3 0 with srcUnit := BitVec.ofNat 5 (10 + h), dstUnit := 7, ctxValid := false }

theorem test_meets_MemoryPacketsAndTimeouts :
    (∀ kind ∈ [(10 : BitVec 4), 11], (fitted dsOp).memRefusal (memPacket kind 1) = none ∧ (fitted dsOp).regionOf 32 = .dram 0 ∧
      (fitted dsOp).memRefusal (memPacket kind 0x7FFFFFFFFFF) = some ADDR_UNMAPPED) ∧ (fitted dsOp).ecc = [] ∧
    (∀ held ∈ [true, false], sentPacket.src < 8 ∧ sentPacket.ctxValid = true ∧ (timedOut held).cstate sentPacket.k = csRunning ∧
      (timedOut held).ccore sentPacket.k = sentPacket.src ∧
      findOut ((timedOut held).pair 7 3).outstanding sentPacket.seq.toNat = some (Out.mk 9 0 7 63 100 0 1 held)) ∧
    (timedOut false).linkOf 7 7 = none ∧ promoPut.src = 9 ∧ (tS dsOp).promoOf promoPut.tag.toNat promoPut.seq.toNat = none ∧
    { tS dsOp with promotions := [promo] }.promoOf promoPut.tag.toNat promoPut.seq.toNat = some promo ∧ promo.unanswered = [promoPut.seq.toNat] ∧
    (∀ h < 2, (hostPacket h).src = 10 + h ∧ (fitted dsOp).linkOf (hostPacket h).src (hostPacket h).dst = some 3) ∧
    (fitted dsOp).romWait = false ∧ (fitted dsOp).portsServe = true ∧ KV.get [] (fitted dsOp).timeouts 3 = [] ∧ KV.get [] ({ tS dsOp with late := [(7, [packet 0 255])] } : State).late 7 ≠ [] ∧
    KV.get [] (tS dsOp).late 7 = [] := by decide +kernel

/-! ### Hypotheses met: frames, slots, seals, teardowns -/

/-- The frame lock follows the pin, or nothing; the pin's edges come or not. -/
def lockedTo (source : Nat) (good : Bool) : State := { (tS dsOp).dset 0x2401 0x02 source with lockGood := good }

theorem test_meets_TicksNumberTheFrames :
    (∀ d ∈ stAll, (tS d).ticks = true) ∧ (tS dsInit).ticks = false ∧ ((tS dsLowPower).dset 0x2100 1 3).ticks = false ∧
    (lockedTo 1 true).dget 0x2401 0x02 = 1 ∧ (lockedTo 1 true).lockGood = true ∧ (lockedTo 1 false).dget 0x2401 0x02 = 1 ∧
    (lockedTo 1 false).lockGood = false ∧ (lockedTo 0 false).dget 0x2401 0x02 ≠ 1 ∧ (lockedTo 2 true).dget 0x2401 0x02 ≠ 1 ∧
    (lockedTo 2 true).dget 0x2401 0x02 ≠ 0 := by decide +kernel

/-- Context 63 waits for a core, alone in the queue. -/
def queued : State := { (cx 63 csWaiting 2 (tS dsOp)).cset 63 0x08 7 with waiting := [63], ctxs := [(63, { Ctx.zero with n := 4 })] }

/-- Context 63 runs for its second slice while context 62 waits. -/
def secondSlice : State := { running [0x100] with waiting := [62], ctxs := [(63, { Ctx.zero with n := 4, ready := true, ranSlices := 1 })] }

/-- Context 63 on its way out of core 7, or in. -/
def goingOut : State := { running [0x100] with ctxs := [(63, { Ctx.zero with n := 4, ready := true, move := .switchingOut })] }
def comingIn : State := { queued with waiting := [], ctxs := [(63, { Ctx.zero with n := 4, move := .switchingIn, dest := some 7 })] }

theorem test_meets_SlicesSwitchTheContexts :
    ((tS dsPreOp).dev ≠ dsOp ∧ (tS dsPreOp).dev ≠ dsMaint) ∧ ((tS dsMaint).dev = dsMaint ∧ (tS dsMaint).waiting = []) ∧
    secondSlice.waiting ≠ [] ∧ secondSlice.dev = dsOp ∧ secondSlice.runningBE (fun _ => true) = [63] ∧
    1 ≤ (secondSlice.ctx 63).ranSlices ∧ secondSlice.cget 63 0x40 ≠ 2 ∧
    queued.waiting = 63 :: [] ∧ queued.cstate 63 = csWaiting ∧ queued.runningBE (fun _ => true) = [] ∧
    allCores.find? (fun d => queued.mayDispatch 63 d) = some 0 := by decide +kernel

theorem test_meets_SlicesSwitchTheContexts_switches :
    goingOut.cstate 63 = csRunning ∧ (goingOut.ctx 63).move = .switchingOut ∧ (goingOut.ctx 63).dest = none ∧ goingOut.allotUp 63 = true ∧
    goingOut.isFenced (goingOut.ccore 63 / 2) = false ∧ KV.get [] goingOut.late (goingOut.ccore 63) = [] ∧
    (comingIn.ctx 63).move = .switchingIn ∧ (comingIn.ctx 63).dest = some 7 ∧ comingIn.isFenced (7 / 2) = false ∧
    comingIn.allotUp 63 = true ∧ comingIn.clearing.getLsbD 7 = false ∧ KV.get [] comingIn.late 7 = [] ∧
    (∀ m < 64, m ≠ 63 → comingIn.ccore m = 7 → comingIn.cstate m ≠ csTearing ∧
      ¬ (comingIn.cstate m = csRunning ∧ (comingIn.ctx m).move = .switchingOut)) ∧
    ((running [0x100]).ctx 63).move = .still ∧
    ((running [0x100]).cset 63 0x02 1).dev = dsOp ∧ ((running [0x100]).cset 63 0x02 1).lcReady 63 = true ∧
    (((running [0x100]).cset 63 0x02 1).ctx 63).started = true ∧ ((running [0x100]).cset 63 0x02 1).allEnd 63 = false ∧
    (((running [0x100]).cset 63 0x02 1).cset 63 0x40 2).cget 63 0x40 = 2 ∧
    (((running [0x100]).cset 63 0x02 1).cset 63 0x40 2).lcReady 63 = true := by decide +kernel

/-- A frame is open in OPERATIONAL; the slots done and passed are given. -/
def framed (done passed : BitVec 8) : State :=
  { tS dsOp with ringsOn := 0x1F, frame := { FrameRec.zero with isOpen := true, inOp := true, slotDone := done, slotPassed := passed } }

/-- Partition 3 is fenced. -/
def fenced3 : State := (framed 0 0).setPart 3 { Partition.zero with fenced := true }

/-- An LC context on core 7 has not reached END as the slot comes. -/
def lateLC : State := { (running [0x100]).cset 63 0x02 1 with frame := (framed 0 0).frame }

/-- The output codes of a core without a fault. -/
def goodOuts (s : State) (c : Nat) : List (List Byte) := (List.range 8).map (katCodes s.bootDigest (s.slotPasses c))

theorem goodOuts_pass (s : State) (c : Nat) : s.katFails c (goodOuts s c) = [] := by
  simp only [State.katFails, List.filter_eq_nil_iff, List.mem_range]
  intro g hg
  interval_cases g <;> simp [State.knownAnswer, goodOuts, nth, List.range, List.range.loop]

theorem badOuts_fail (s : State) (c : Nat) : ∃ outs, s.katFails c outs ≠ [] := by
  have mem : ∀ l : List Byte, signature l ≠ s.knownAnswer c 0 → s.katFails c [l] ≠ [] := by
    intro l hl he
    have h0 : 0 ∈ s.katFails c [l] := by simp [State.katFails, nth, hl]
    rw [he] at h0; cases h0
  by_cases h : signature [] = s.knownAnswer c 0
  · exact ⟨[[1]], mem [1] (by rw [← h]; decide)⟩
  · exact ⟨[[]], mem [] h⟩

theorem test_meets_SlotsTestEveryCore_verdicts :
    (∃ outs, (framed 0 0).katFails 7 outs = []) ∧ ∃ outs, (framed 0 0).katFails 7 outs ≠ [] :=
  ⟨⟨_, goodOuts_pass _ _⟩, badOuts_fail _ _⟩

theorem test_meets_SlotsTestEveryCore :
    (framed 0 0).sealing = true ∧ (framed 0 0).frame.isOpen = true ∧ (framed 0 0).frame.slotDone.getLsbD 7 = false ∧
    (framed 0 0).isFenced (7 / 2) = false ∧ (framed 0 0).ringsOn.getLsbD (7 / 2) = true ∧ (∃ x ∈ (framed 0 0).slotInstances 7, x.index ∈ [7]) ∧
    lateLC.sealing = true ∧ lateLC.lcReady 63 = true ∧ lateLC.ccore 63 = 7 ∧ (lateLC.ctx 63).started = true ∧ lateLC.allEnd 63 = false ∧
    (tS dsOp).ringsOn.getLsbD (7 / 2) = false ∧
    (framed 0x80 0).frame.slotDone.getLsbD 7 = true ∧ fenced3.isFenced (7 / 2) = true := by decide +kernel

theorem test_meets_TheSealGivesTheVerdict :
    (framed 0xFF 0xFF).sealing = true ∧ (framed 0xFF 0xFF).frame.isOpen = true ∧ (framed 0xFF 0xFF).inputsIn = true ∧
    (framed 0xFF 0xFF).verdictValid = true ∧ (framed 0xFF 0x7F).inputsIn = true ∧ (framed 0xFF 0x7F).verdictValid = false ∧
    (framed 0x7F 0x7F).inputsIn = false ∧ (framed 0 0).dev = dsOp ∧ (framed 0 0).safeState = 0 ∧ (framed 0 0).devReset = 0 ∧
    { framed 0 0 with safeState := 1 }.safeState ≠ 0 ∧ { framed 0 0 with devReset := 1 }.devReset ≠ 0 ∧ (tS dsStopped).dev ≠ dsOp := by decide +kernel

theorem test_meets_SafetyManagerFaultsResetTheDevice :
    (∀ d ∈ stAll, (tS d).asleep = false ∧ (tS d).devReset = 0 ∧ (tS d).safeState ≤ 1) ∧ { tS dsOp with safeState := 2 }.safeState ≤ 2 ∧
    (∀ k ∈ [1, 2, 4, 5, 6], (devResetAt k).asleep = false ∧ (devResetAt k).devReset ≠ 0 ∧ (devResetAt k).devReset ≠ 3) ∧ (devResetAt 3).devReset = 3 ∧
    ((tS dsLowPower).dset 0x2100 1 3).asleep = true := by decide +kernel

/-- Context 63 is torn down with handle (0, 9) waiting; its window 63 is open, closed 1 ns short of 32 µs ago. -/
def tearing : State :=
  { (holder true).cset 63 0x01 csTearing with
    ctxs := [(63, { Ctx.zero with n := 4, heldWins := [63], move := .tearing, handles := [(0, 9)] })], lastClose := [(winKey 7 63, some 0)] }

theorem test_meets_TeardownsEndAndHostsLoseTheirContexts :
    tearing.cstate 63 = csTearing ∧ (∀ c < 8, KV.get [] tearing.late c = []) ∧
    (∀ w ∈ (tearing.ctx 63).heldWins, (tearing.atTime 32000).spaced (tearing.home 63) w = true) ∧ tearing.home 63 = 7 ∧
    (holder true).cstate 63 ≠ csTearing ∧ (tS dsOp).hostState 0 = 2 ∧ (tS dsOp).hostState 1 ≠ 2 ∧ (tS dsLowPower).dev = dsLowPower ∧
    (tS dsLowPower).hostState 1 ≠ 2 ∧ (tS dsLowPower).asleep = false ∧ (tS dsOp).dev ≠ dsLowPower ∧
    (∀ keep ∈ [0, 1], (((holder false).cset 63 0x03 2).cset 63 0x05 keep).cget 63 0x05 = keep ∧
      (((holder false).cset 63 0x03 2).cset 63 0x05 keep).cstate 63 ≠ csFree ∧ (((holder false).cset 63 0x03 2).cset 63 0x05 keep).cget 63 0x03 = 1 + 1 ∧
      (((holder false).cset 63 0x03 2).cset 63 0x05 keep).cget 63 0x1F = 0) := by decide +kernel

/-! ### Hypotheses met: adaptation and exports -/

/-- Replica `ix` of group 1 is context `k`, running on core `c` with windows 0 to 4, all of 64 words from its first word up. -/
def replica (k c ix : Nat) (s : State) : State :=
  let s := (((cx k csRunning 2 s).cset k 0x07 c).cset k 0x08 c).setCtx k { Ctx.zero with n := 4, placed := true, ready := true, footprint := spmWords }
  let s := [(0x90, 1), (0x91, ix), (0x93, 1), (0x94, 0), (0x95, 64), (0x9F, 2 ^ 6 + 2 * 2 ^ 12 + 3 * 2 ^ 18 + 4 * 2 ^ 24)].foldl
    (fun s p => s.cset k p.1 p.2) s
  let e := wnPut (wnPut (wnPut (wnPut (wnPut 0 41 21 64) 46 42 31) 59 48 0xFFF) 72 72 1) 78 73 k
  [0, 1, 2, 3, 4].foldl (fun s w => s.setWin c w e) s

/-- Group 1 of contexts 62 and 63 with its batches, on 16 GiB. -/
def grouped (bs : List Batch) : State :=
  (replica 62 6 0 (replica 63 7 1 (fitted dsOp))).setAdGroup 1 { AdGroup.zero with replicas := [62, 63], batches := bs }

/-- A batch that replica 0 has received. -/
def batch (n : Nat) : Batch := { number := n, offset := 32, handle := (0, 5), done := false, status := [0], delivered := [62] }

/-- What a poll makes of replica 1's sample window before it delivers batch `n`. -/
def polled (n : Nat) (s : State) : State := (s.fresh.noteStep 63 0).touchBatch 1 (batch n)

/-- The partition that holds the batch area is fenced. -/
def areaFenced (s : State) : State := s.setPart 0 { Partition.zero with fenced := true }

theorem test_meets_BatchesAreCheckedKeptAndDelivered :
    (∀ x ∈ [(grouped [], 8, 0), (grouped [], 1, 0), (grouped [], 1, 0xFFFFFFFF), (areaFenced (grouped []), 1, 0)],
      acc .a true (.groupCreator x.2.1) stPOSM (groupOk x.2.1 && decide ((x.2.2 : BitVec 64).toNat < 2 ^ 32)) x.1 = true) ∧
    ((slotTaken .a (grouped [])).adGroup 8).replicas = [] ∧
    (∀ s ∈ [grouped [], areaFenced (grouped [])], ((slotTaken .a s).adGroup 1).replicas ≠ [] ∧ (slotTaken .a s).batchSize 1 = 1 ∧
      (slotTaken .a s).areaLen 1 = 64 ∧ (slotTaken .a s).areaBase 1 = 0) ∧
    (slotTaken .a (grouped [])).rangeCode (0 + 0) (32 * 1) = none ∧ (slotTaken .a (grouped [])).ecc = [] ∧ (slotTaken .a (grouped [])).poison = [] ∧
    (slotTaken .a (areaFenced (grouped []))).rangeCode (0 + 0) (32 * 1) = some codePartFenced ∧
    ((grouped []).adGroup 8).replicas.length < 2 ∧ (∀ b ∈ ((grouped []).adGroup 1).batches, ∀ k ∈ ((grouped []).adGroup 1).replicas, k ∈ b.delivered) ∧
    (∀ n ∈ [2, 3], ∀ s ∈ [grouped [batch n], areaFenced (grouped [batch n])], s.sealing = true ∧ (s.adGroup 1).replicas = [62, 63] ∧
      (s.adGroup 1).replicas.getLast? = some 63 ∧ (s.adGroup 1).batches = [batch n] ∧ 63 ∉ (batch n).delivered ∧ 62 ∈ (batch n).delivered ∧
      s.home 63 = 7 ∧ s.groupHost 1 = 0 ∧ (s.fresh.noteStep 63 0).areaBase 1 + (batch n).offset = 32) ∧
    (∀ s ∈ [grouped [batch 2], grouped [batch 3], areaFenced (grouped [batch 2])],
      s.fresh.winRead 10 7 (s.adWin 63 wSample) 0 1 = (.ok [(0, false)], s.fresh)) ∧
    ((grouped [batch 2]).fresh.noteStep 63 0).dramRange 32 (32 * 1) = true ∧
    (State.winWrite 10 7 ((grouped [batch 2]).adWin 63 wSample) (some ((polled 2 (grouped [batch 2])).batchFlag 63))
      ((polled 2 (grouped [batch 2])).batchWords 1 (batch 2) 63 2).length
      (1 + 2 % 2 * ((wnLen ((polled 2 (grouped [batch 2])).win 7 0) - 1) / 2))
      ((polled 2 (grouped [batch 2])).batchWords 1 (batch 2) 63 2) (polled 2 (grouped [batch 2]))).2 = none ∧
    ((areaFenced (grouped [batch 2])).fresh.noteStep 63 0).dramRange 32 (32 * 1) = false := by
  refine ⟨by decide +kernel, by decide +kernel, by decide +kernel, by decide +kernel, rfl, rfl, by decide +kernel, by decide +kernel,
    by decide +kernel, by decide +kernel, ?_, by decide +kernel, by decide +kernel, by decide +kernel⟩
  intro s hs
  simp only [List.mem_cons, List.not_mem_nil, or_false] at hs
  rcases hs with rfl | rfl | rfl <;>
    exact winRead_clean _ _ _ _ _ _ _ (by decide +kernel) rfl (by decide +kernel) (by decide)

/-- Both replicas show a complete digest record of checkpoint 4, replica 1 with digest `d`. -/
def digests (d : SWord) : State :=
  let rec1 (ix : Nat) : SWord := wordOfBytes (bytesOf 4 4 ++ [1, BitVec.ofNat 8 ix, 0xD1])
  ((((grouped [batch 4]).setSpm 6 0 9 false).setSpm 6 1 (rec1 0) false).setSpm 7 0 d false).setSpm 7 1 (rec1 1) false

/-- Replica 0 has shown its record, replica 1 not. -/
def lagging : State := (grouped []).setAdGroup 1 { AdGroup.zero with replicas := [62, 63], seen := [(62, 4, 9)] }

/-- The same at the third time without an agreement. -/
def thirdTime (s : State) : State := s.setAdGroup 1 { s.adGroup 1 with rollbacks := 2 }

/-- Both replicas have shown a record of one checkpoint. -/
def bothSeen : State := (grouped []).setAdGroup 1 { AdGroup.zero with replicas := [62, 63], seen := [(62, 4, 9), (63, 4, 9)] }

theorem digestRecord_clean (s : State) (g k : Nat) (x : Nat × Nat) (a b : SWord × Bool)
    (h : s.windowCheck (s.home k) (s.adWin k wDigest) (wnGen (s.win (s.home k) (s.adWin k wDigest))) 9 [rGet] 0 2 = none) (he : s.ecc = [])
    (hl : (List.range 2).map (fun i => s.kWord (wnOwner (s.win (s.home k) (s.adWin k wDigest)))
      (wnBase (s.win (s.home k) (s.adWin k wDigest)) + 0 + i)) = [a, b]) (hp : a.2 = false ∧ b.2 = false)
    (hx : (nth 0 (bytesOfWord b.1) 6 = 0xD1 && fieldAt (bytesOfWord b.1) 4 1 = g && fieldAt (bytesOfWord b.1) 5 1 = s.cget k 0x91) = true)
    (hv : (fieldAt (bytesOfWord b.1) 0 4, a.1.toNat) = x) : s.digestRecord g k = (s, some x) := by
  unfold State.digestRecord
  simp only [winRead_clean s 9 _ _ 0 2 [a, b] h he hl (by simp [hp.1, hp.2])]
  show (s, if (nth 0 (bytesOfWord b.1) 6 = 0xD1 && fieldAt (bytesOfWord b.1) 4 1 = g && fieldAt (bytesOfWord b.1) 5 1 = s.cget k 0x91) = true
    then some (fieldAt (bytesOfWord b.1) 0 4, a.1.toNat) else none) = _
  rw [if_pos hx, hv]

/-- What a digest poll asks of the group and of the two records. -/
def polls (s : State) (d : Nat) : Prop :=
  s.sealing = true ∧ (s.adGroup 1).replicas = [62, 63] ∧ s.cstate 62 ≠ csFree ∧ s.cstate 63 ≠ csFree ∧ (s.adGroup 1).seen = [] ∧
    (s.adGroup 1).judged = [] ∧ (s.adGroup 1).due = none ∧
    s.fresh.digestRecord 1 62 = (s.fresh, some (4, 9)) ∧ s.fresh.digestRecord 1 63 = (s.fresh, some (4, d))

theorem polls_of (s : State) (d : SWord)
    (h : s.sealing = true ∧ (s.adGroup 1).replicas = [62, 63] ∧ s.cstate 62 ≠ csFree ∧ s.cstate 63 ≠ csFree ∧ (s.adGroup 1).seen = [] ∧
      (s.adGroup 1).judged = [] ∧ (s.adGroup 1).due = none) (he : s.fresh.ecc = [])
    (hr : ∀ x ∈ [(62, 0, (9 : SWord)), (63, 1, d)],
      s.fresh.windowCheck (s.fresh.home x.1) (s.fresh.adWin x.1 wDigest) (wnGen (s.fresh.win (s.fresh.home x.1) (s.fresh.adWin x.1 wDigest))) 9
        [rGet] 0 2 = none ∧
      (List.range 2).map (fun i => s.fresh.kWord (wnOwner (s.fresh.win (s.fresh.home x.1) (s.fresh.adWin x.1 wDigest)))
        (wnBase (s.fresh.win (s.fresh.home x.1) (s.fresh.adWin x.1 wDigest)) + 0 + i)) =
          [(x.2.2, false), (wordOfBytes (bytesOf 4 4 ++ [1, x.2.1, 0xD1]), false)] ∧
      s.fresh.cget x.1 0x91 = x.2.1.toNat) : polls s d.toNat := by
  refine ⟨h.1, h.2.1, h.2.2.1, h.2.2.2.1, h.2.2.2.2.1, h.2.2.2.2.2.1, h.2.2.2.2.2.2, ?_, ?_⟩
  · have x := hr _ (List.mem_cons_self ..)
    exact digestRecord_clean _ _ _ _ _ _ x.1 he x.2.1 ⟨rfl, rfl⟩ (by rw [x.2.2]; decide +kernel) (by decide +kernel)
  · have x := hr _ (List.mem_cons_of_mem _ (List.mem_cons_self ..))
    have hw : fieldAt (bytesOfWord (wordOfBytes (bytesOf 4 4 ++ [1, 1, 0xD1]))) 0 4 = 4 := by decide +kernel
    have hx : (nth 0 (bytesOfWord (wordOfBytes (bytesOf 4 4 ++ [1, 1, 0xD1]))) 6 = 0xD1 &&
        fieldAt (bytesOfWord (wordOfBytes (bytesOf 4 4 ++ [1, 1, 0xD1]))) 4 1 = 1 &&
        fieldAt (bytesOfWord (wordOfBytes (bytesOf 4 4 ++ [1, 1, 0xD1]))) 5 1 = (1 : Byte).toNat) = true := by decide +kernel
    exact digestRecord_clean _ _ _ _ _ _ x.1 he x.2.1 ⟨rfl, rfl⟩ (by rw [x.2.2]; exact hx) (by rw [hw])

theorem test_meets_DigestsAgreeRollBackAndLag :
    (tS dsInit).sealing = false ∧ polls (digests 9) 9 ∧ polls (digests 8) 8 ∧ polls (thirdTime (digests 8)) 8 ∧
    ((digests 8).adGroup 1).rollbacks < 2 ∧ 2 ≤ ((thirdTime (digests 8)).adGroup 1).rollbacks ∧
    ((grouped []).adGroup 1).seen = [] ∧ (bothSeen.adGroup 1).seen = [(62, 4, 9), (63, 4, 9)] ∧ (bothSeen.adGroup 1).replicas = [62, 63] ∧
    (lagging.adGroup 1).seen = [(62, 4, 9)] ∧ (lagging.adGroup 1).replicas = [62, 63] ∧ (lagging.adGroup 1).replicas.Nodup ∧
    (lagging.adGroup 1).rollbacks < 2 ∧ lagging.cstate 63 ≠ csFree := by
  refine ⟨by decide +kernel, polls_of _ 9 ?_ rfl ?_, polls_of _ 8 ?_ rfl ?_, polls_of _ 8 ?_ rfl ?_, by decide +kernel⟩ <;> decide +kernel

/-- Contexts 62 and 63 are group 1, their windows closed; context 61, BE or LC, is in a state. -/
def promoting (st cls : Nat) : State :=
  (cx 61 st cls (cx 62 csRunning 2 (cx 63 csRunning 2 (tS dsOp)))).setAdGroup 1 { AdGroup.zero with replicas := [62, 63] }

/-- The same, with group 1 of one replica left. -/
def promotingAlone : State := (promoting csRunning 1).setAdGroup 1 { AdGroup.zero with replicas := [62] }

theorem kWord_unsaved (s : State) (k w : Nat) (h : s.isLive k = false) (hw : (s.saved k).words = []) : s.kWord k w = (0, false) := by
  unfold State.kWord
  rw [if_neg (by rw [h]; simp), hw]
  rfl

theorem agreedOf_unsaved (s : State) (k c : Nat) (he : s.ecc = []) (hw : s.win (s.home k) (s.adWin k wCheck) = 0)
    (h : s.isLive 0 = false) (hs : (s.saved 0).words = []) :
    s.agreedOf k c = ((Config.agreedWords (s.cget k 0x1D) c).map (fun _ => 0), s) := by
  have h0 : ∀ j, s.kWord 0 j = (0, false) := fun j => kWord_unsaved s 0 j h hs
  have ho : wnOwner (0 : BitVec 128) = 0 := by decide
  unfold State.agreedOf
  simp only [hw, ho]
  rw [smReadKs_clean s 0 _ he (by simp [h0])]
  simp only [List.map_map, Function.comp_def, h0]

theorem test_meets_PromotionsSendWhatAllAgreedOn :
    (∀ s ∈ [promoting csRunning 2, promoting csLoaded 1, promoting csRunning 1, promotingAlone],
      acc .a true (.groupCreator 1) [dsPreOp, dsOp] (groupOk 1 && decide ((0 : BitVec 64).toNat < 2 ^ 32) && decide ((61 : BitVec 64).toNat < 64) &&
        decide ((0x7FFFFFF : BitVec 64).toNat < 2 ^ 27)) s = true) ∧
    acc .a true (.groupCreator 1) [dsPreOp, dsOp] (groupOk 1 && decide ((5 : BitVec 64).toNat < 2 ^ 32) && decide ((61 : BitVec 64).toNat < 64) &&
      decide ((0 : BitVec 64).toNat < 2 ^ 27)) (promoting csRunning 1) = true ∧
    (∀ p ∈ [(csRunning, 2), (csLoaded, 1), (csRunning, 1)],
      (slotTaken .a (promoting p.1 p.2)).cclass 61 = p.2 ∧ (slotTaken .a (promoting p.1 p.2)).cstate 61 = p.1) ∧
    (slotTaken .a promotingAlone).cclass 61 = 1 ∧ (slotTaken .a promotingAlone).cstate 61 = csRunning ∧
    ((slotTaken .a promotingAlone).adGroup 1).replicas.length < 2 ∧
    ((slotTaken .a (promoting csRunning 1)).adGroup 1).replicas = 62 :: 63 :: [] ∧ ((slotTaken .a (promoting csRunning 1)).adGroup 1).agreed = 0 ∧
    (let u := slotTaken .a (promoting csRunning 1);
      (u.agreedOf 62 0).2 = u ∧ (u.agreedOf 63 0).2 = u ∧ (u.agreedOf 62 0).1 = (u.agreedOf 63 0).1) := by
  refine ⟨by decide +kernel, by decide +kernel, by decide +kernel, by decide +kernel, by decide +kernel, by decide +kernel, by decide +kernel,
    by decide +kernel, ?_⟩
  have e (k : Nat) (hw) := agreedOf_unsaved (slotTaken .a (promoting csRunning 1)) k 0 rfl hw (by decide +kernel) (by decide +kernel)
  have ha := e 62 (by decide +kernel)
  have hb := e 63 (by decide +kernel)
  have hc : (slotTaken .a (promoting csRunning 1)).cget 62 0x1D = (slotTaken .a (promoting csRunning 1)).cget 63 0x1D := by decide +kernel
  exact ⟨congrArg Prod.snd ha, congrArg Prod.snd hb, by rw [ha, hb, hc]⟩

/-- Context 63's window 63 opens to host A; channel 15 reads its word 3 and copies one word. -/
def exporting (ready : SWord) : State :=
  let e := wnPut (wnPut (wnPut (wnPut (wnPut 0 41 21 64) 46 42 31) 59 48 0xFFF) 72 72 1) 78 73 63
  let s := (((running [0x100]).cset 63 0x03 1).setWin 7 63 e).setSpm 7 3 ready false
  s.setPort .a { s.portA with channels := [(15, some (Export.mk 63 63 3 1 64 true none))] }

theorem exportWords_one (s : State) (src c w off : Nat) (p : SWord × Bool)
    (h : s.windowCheck c w (wnGen (s.win c w)) src [rGet] off 1 = none) (he : s.ecc = [])
    (hl : (List.range 1).map (fun i => s.kWord (wnOwner (s.win c w)) (wnBase (s.win c w) + off + i)) = [p]) (hs : src ≠ 9) :
    s.exportWords src c w 1 off 1 = ([p.1], none, s) := by
  unfold State.exportWords
  simp only [Nat.one_ne_zero, if_false, show min 8 1 = 1 from rfl, winRead_clean s src c w off 1 [p] h he hl (fun e => absurd e hs)]
  rfl

theorem test_meets_ExportsCopyWindowsToTheHost :
    acc .a true .hosts stPOSM (exportParams 0xFFFF 0x100000000 32) (tS dsOp) = true ∧
    (slotTaken .a (tS dsOp)).cget (exportOf 0xFFFF 0x100000000 32).ctx 0x03 ≠ 0 + 1 ∧
    acc .a true .hosts stPOSM (exportParams 0xFFFF 0x100000000 32) (exporting 0) = true ∧
    (exportOf 0xFFFF 0x100000000 32).ctx = 63 ∧ (exportOf 0xFFFF 0x100000000 32).window = 63 ∧ (slotTaken .a (exporting 0)).cget 63 0x03 = 0 + 1 ∧
    (slotTaken .a (exporting 0)).home 63 = 7 ∧ wnOpen ((exporting 0).win 7 63) = true ∧ wnOwner ((exporting 0).win 7 63) = 63 ∧
    wnBit ((exporting 0).win 7 63) rGet = true ∧ wnBit ((exporting 0).win 7 63) (48 + 10 + 0) = true ∧
    acc .a true .hosts stPOSM (decide ((15 : BitVec 64).toNat < 16)) (tS dsOp) = true ∧
    KV.get none ((tS dsOp).port .b).channels 15 = none ∧
    KV.get none ((exporting 0).port .a).channels 15 = some (Export.mk 63 63 3 1 64 true none) ∧
    (∀ w ∈ [(0 : SWord), 0xE500000001], (exporting w).dev = dsOp ∧ (exporting w).home 63 = 7 ∧
      (exporting w).fresh.winRead 10 7 63 3 1 = (.ok [(w, false)], (exporting w).fresh)) ∧
    nth 0 (bytesOfWord 0) 4 ≠ 0xE5 ∧ nth 0 (bytesOfWord 0xE500000001) 4 = 0xE5 ∧ fieldAt (bytesOfWord 0xE500000001) 0 4 = 1 ∧
    (let u := (exporting 0xE500000001).fresh.setChannel 0 15 (some (Export.mk 63 63 3 1 64 true (some 1)));
      u.exportWords 10 7 63 1 (3 + 1) 1 = ([0], none, u)) := by
  refine ⟨by decide +kernel, by decide +kernel, by decide +kernel, by decide +kernel, by decide +kernel, by decide +kernel, by decide +kernel,
    by decide +kernel, by decide +kernel, by decide +kernel, by decide +kernel, by decide +kernel, by decide +kernel, by decide +kernel, ?_,
    by decide +kernel, by decide +kernel, by decide +kernel, exportWords_one _ 10 7 63 4 (0, false) (by decide +kernel) rfl (by decide +kernel) (by decide)⟩
  intro w hw
  simp only [List.mem_cons, List.not_mem_nil, or_false] at hw
  rcases hw with rfl | rfl <;>
    exact ⟨by decide +kernel, by decide +kernel, winRead_clean _ _ _ _ _ _ _ (by decide +kernel) rfl (by decide +kernel) (by decide)⟩

/-! ### Hypotheses met: device reset, firmware update -/

theorem boot_ok (s : State) (h : s.fuses = bootFuses) : s.bootCode bootImage = none := by
  have e : s.bootCode bootImage = State.bootCode { State.reset with fuses := bootFuses } bootImage := by
    simp only [State.bootCode, State.fwKeyOk, State.rollback, State.fuse, h]; rfl
  rw [e]; decide +kernel

/-- A state with the fuses of the signed image. -/
def keyed (s : State) : State := { s with fuses := bootFuses }

theorem test_meets_DeviceResetStepsInOrder :
    (∀ k ∈ [1, 2, 3, 4, 5, 6], (devResetAt k).devReset = k) ∧ (keyed (devResetAt 3)).devReset = 3 ∧ (keyed (devResetAt 3)).poresetN = true ∧
    (keyed (devResetAt 3)).thermalHold = false ∧ (keyed (devResetAt 3)).romWait = false ∧ bootImage ≠ [] ∧
    (keyed (devResetAt 3)).bootCode bootImage = none ∧ (keyed (devResetAt 3)).bootCode [0] = some 0x5001 ∧
    (tS dsRecovering).poresetN = false ∧ nth true [true, true, true, false] 3 = false :=
  ⟨by decide +kernel, rfl, rfl, rfl, rfl, by decide +kernel, boot_ok _ rfl, by decide +kernel, rfl, rfl⟩

/-- A device in maintenance with 16 GiB to a partition and the signed image at the first address of partition 3. -/
def updating : State := (keyed (fitted dsMaint)).writeBytes (dramBase 3) bootImage

theorem readBytes_writeBytes (s : State) (a : Nat) (l : List Byte) (n : Nat) (h : n ≤ l.length) :
    (s.writeBytes a l).readBytes a n = l.take n := by
  apply List.ext_getElem
  · simp [State.readBytes]; omega
  · intro i h1 h2
    simp only [State.readBytes, List.length_map, List.length_range] at h1
    simp only [State.readBytes, List.getElem_map, List.getElem_range, List.getElem_take]
    exact byteAt_writeBytes_inside s a i l (by omega)

theorem readBytes_outside (s : State) (a b : Nat) (l : List Byte) (n : Nat) (h : b + n ≤ a ∨ a + l.length ≤ b) :
    (s.writeBytes a l).readBytes b n = s.readBytes b n := by
  apply List.map_congr_left
  intro i hi
  exact byteAt_writeBytes_outside s a (b + i) l (by simp at hi; omega)

theorem bootImage_length : bootImage.length = 1024 + 1 := by decide +kernel

theorem updating_image : updating.readBytes (dramBase 3) (1024 + fwBodyLen (updating.readBytes (dramBase 3) 1024)) = bootImage := by
  have h1 : updating.readBytes (dramBase 3) 1024 = bootImage.take 1024 :=
    readBytes_writeBytes _ _ _ _ (by rw [bootImage_length]; omega)
  have h2 : fwBodyLen (bootImage.take 1024) = 1 := by decide +kernel
  rw [h1, h2]
  exact (readBytes_writeBytes _ _ _ _ (by rw [bootImage_length])).trans (List.take_of_length_le (by rw [bootImage_length]))

theorem updating_bodyLen : fwBodyLen (updating.readBytes (dramBase 3) 1024) = 1 := by
  rw [show updating.readBytes (dramBase 3) 1024 = bootImage.take 1024 from readBytes_writeBytes _ _ _ _ (by rw [bootImage_length]; omega)]
  decide +kernel

theorem updating_prov : updating.provAt (dramBase 3 + (1024 + fwBodyLen (updating.readBytes (dramBase 3) 1024))) = [] := by
  rw [updating_bodyLen, State.provAt]
  rw [show updating.readBytes (dramBase 3 + (1024 + 1)) 4 = (keyed (fitted dsMaint)).readBytes (dramBase 3 + (1024 + 1)) 4 from
    readBytes_outside _ _ _ _ _ (.inr (by rw [bootImage_length]))]
  decide +kernel

theorem test_meets_MaintenanceActivitiesStart :
    acc .a true .confHosts [dsMaint] (partOk 3) (tS dsMaint) = true ∧ (tS dsMaint).activity = none ∧ ((tS dsMaint).part 3).resetStep = 0 ∧
    acc .a true .confHosts [dsMaint] (partOk 3) (busy 4 255) = true ∧ (busy 4 255).activity ≠ none ∧
    acc .a true .confHosts [dsMaint] true updating = true ∧ updating.activity = none ∧ updating.rangeCode (dramBase 3) 1024 = none ∧
    updating.rangeCode (dramBase 3) (1024 + fwBodyLen (updating.readBytes (dramBase 3) 1024)) = none ∧
    updating.bootCode (updating.readBytes (dramBase 3) (1024 + fwBodyLen (updating.readBytes (dramBase 3) 1024))) = none ∧
    updating.provAt (dramBase 3 + (1024 + fwBodyLen (updating.readBytes (dramBase 3) 1024))) = [] :=
  ⟨by decide +kernel, by decide +kernel, by decide +kernel, by decide +kernel, by decide +kernel, by decide +kernel, by decide +kernel,
    by decide +kernel, by rw [updating_bodyLen]; decide +kernel, by rw [updating_image]; exact boot_ok _ rfl, updating_prov⟩

/-! ### Hypotheses met: heads -/

/-- Endpoint 191, enabled on A-PHY port 3 with class 2 and serial 77 seen, with its discovery at `x`. -/
def head (x : Endpoint) : State :=
  { ([(0x01, 1), (0x02, 1), (0x03, 3), (0x08, 2), (0x09, 0x1E), (0x0A, 32), (0x0B, 16), (0x17, 77)].foldl (fun s p => s.eset 191 p.1 p.2)
      (tS dsPreOp)).setEp 191 x with trustKey := modulus ++ [0, 1, 0, 1] }

/-- Its discovery at a step, the link up. -/
def disc (d : Disc) : Endpoint := { Endpoint.zero with linkUp := true, disc := d, modulus := modulus }

/-- Its location, and one that belongs to no endpoint. -/
def place (port : Nat) : Location := { kind := 1, port := port, pos := 0, vc := 0, ip := 0, udp := 0 }

/-- The same with 9 operating hours of its serial on record. -/
def aged (x : Endpoint) : State := { head x with life := [(191, some (77, 9, 0, 0))] }

theorem noneWaits_head (x : Endpoint) (h : x.disc ≠ .challengeWait) : (head x).noneWaits := by
  intro f _
  simp only [head, State.ep, State.setEp]
  rw [KV.get_set]
  split
  · exact h
  · exact (by decide : Endpoint.zero.disc ≠ .challengeWait)

theorem test_meets_HeadsAreDiscoveredAndAuthenticated :
    (∀ x ∈ [Endpoint.zero, disc .certSent, disc .challengeSent, disc .calFetch, disc .meshWait, disc .retryWait], (head x).noneWaits) ∧
    ∀ d ∈ [Disc.certSent, .challengeSent, .calFetch, .meshWait, .retryWait], ((head (disc d)).ep 191).disc = d := by
  refine ⟨fun x hx => noneWaits_head x ?_, by decide +kernel⟩
  simp only [List.mem_cons, List.not_mem_nil, or_false] at hx
  rcases hx with rfl | rfl | rfl | rfl | rfl | rfl <;> decide

/-- Endpoints 1 to 4 of port 3 in discovery. -/
def crowded : State := [1, 2, 3, 4].foldl (fun s e => (((s.eset e 0x02 1).eset e 0x03 3).eset e 0x04 e).setEp e (disc .certSent)) (head .zero)

/-- Endpoint 0, enabled at the location of endpoint 191. -/
def rivalled (x : Endpoint) : State := ((((head x).eset 0 0x01 1).eset 0 0x02 1).eset 0 0x03 3)

/-- Endpoint 0 with two exposures on virtual channels 0 and 1, endpoint 191 on channel 1. -/
def overlapped : State :=
  let s := (((rivalled .zero).eset 191 0x05 1).eset 0 0x08 1).eset 0 0x09 0x2B
  { s with fetched := [0], calib := KV.set [] s.calib (calKey 0 1) [0, 0, 2] }

theorem noneWaits_with (s : State) (h : s.eps.all (fun p => decide (p.2.disc ≠ .challengeWait)) = true) : s.noneWaits := by
  intro f _
  have hg : ∀ (m : KV Endpoint), m.all (fun p => decide (p.2.disc ≠ .challengeWait)) = true → (KV.get Endpoint.zero m f).disc ≠ .challengeWait := by
    intro m
    induction m with
    | nil => intro _; exact (by decide : Endpoint.zero.disc ≠ .challengeWait)
    | cons p m ih =>
      intro hm
      simp only [List.all_cons, Bool.and_eq_true, decide_eq_true_eq] at hm
      unfold KV.get
      split
      · exact hm.1
      · exact ih hm.2
  exact hg s.eps h

theorem test_meets_HeadsAreDiscoveredAndAuthenticated_linkUp :
    (∀ s ∈ [head .zero, crowded], allEps.filter (s.atLocation (place 3)) = [191] ∧ (s.ep 191).linkUp = false ∧ s.conflict 191 = false) ∧
    (head .zero).portFull 191 = false ∧ crowded.portFull 191 = true ∧ crowded.noneWaits ∧
    allEps.filter (overlapped.atLocation { place 3 with vc := 1 }) = [191] ∧ (overlapped.ep 191).linkUp = false ∧
    overlapped.conflict 191 = true ∧ overlapped.noneWaits ∧
    (∀ s ∈ [head .zero, { head .zero with announced := [place 2] }], allEps.filter (s.atLocation (place 2)) = [] ∧ place 2 ∉ s.unbound) ∧
    place 2 ∉ (head .zero).announced ∧ place 2 ∈ { head .zero with announced := [place 2] }.announced := by
  refine ⟨by decide +kernel, by decide +kernel, by decide +kernel, noneWaits_with _ (by decide +kernel), by decide +kernel, by decide +kernel,
    by decide +kernel, noneWaits_with _ (by decide +kernel), by decide +kernel, by decide +kernel, by decide +kernel⟩

theorem test_meets_HeadsAreDiscoveredAndAuthenticated_certificate :
    (head (disc .certSent)).conflict 191 = false ∧
    certLayout (certHead ++ certSig) = true ∧ fieldAt (certHead ++ certSig) 6 1 = (head (disc .certSent)).eclass 191 ∧
    (head (disc .certSent)).certSigned (certHead ++ certSig) = true ∧ (head (disc .certSent)).eget 191 0x0E = 0 ∧
    (head (disc .certSent)).outstandingChallenges < 64 ∧ certLayout [] = false := by decide +kernel

theorem aged_text (d : List Byte) :
    (aged (disc .challengeSent)).challengeText 191 d = (head (disc .challengeSent)).challengeText 191 d ∧
      (aged (disc .challengeSent)).ep 191 = (head (disc .challengeSent)).ep 191 ∧ (aged (disc .challengeSent)).noneWaits := by
  refine ⟨?_, ?_, fun f hf => ?_⟩
  · simp only [aged, State.challengeText, State.ep, State.fuse]
  · simp only [aged, State.ep]
  · have h := noneWaits_head (disc .challengeSent) (by decide) f hf
    simpa only [aged, State.ep] using h

theorem test_meets_HeadsAreDiscoveredAndAuthenticated_challenge :
    (challengeBody ++ challengeSig).length = 428 ∧
    pssVerify ((head (disc .challengeSent)).ep 191).modulus 65537 ((head (disc .challengeSent)).challengeText 191 (challengeBody ++ challengeSig))
      (slice (challengeBody ++ challengeSig) 44 384) = true ∧
    (head (disc .challengeSent)).regress 191 (lifeOf (challengeBody ++ challengeSig) 32) = false ∧
    (aged (disc .challengeSent)).regress 191 (lifeOf (challengeBody ++ challengeSig) 32) = true ∧ ([] : List Byte).length ≠ 428 := by
  decide +kernel

/-- A calibration record of a lens section of 2 by 2 vertices (R72, R74). -/
def calRecord : List Byte :=
  [80, 0, 0, 0] ++ ascii "VXCR" ++ [1, 0, 1, 0, 0, 0, 0, 0] ++ [2, 0, 0, 0, 28, 0, 0, 0, 52, 0, 0, 0] ++ [2, 0, 2, 0] ++ List.replicate 48 0

/-- A record of two exposures (R73): a raw pipe section with transform 2 and a lens section. -/
def hdrRecord : List Byte :=
  let raw := [0, 0, 2] ++ List.replicate 17 0 ++ [4, 0] ++ List.replicate 136 0
  bytesOf 4 250 ++ ascii "VXCR" ++ [1, 0, 2, 0, 0, 0, 0, 0] ++ [1, 0, 0, 0, 40, 0, 0, 0, 158, 0, 0, 0] ++ [2, 0, 0, 0, 198, 0, 0, 0, 52, 0, 0, 0] ++
    raw ++ [2, 0, 2, 0] ++ List.replicate 48 0

/-- Endpoint 191 as an imager on virtual channel 15. -/
def imager (x : Endpoint) : State := (((head x).eset 191 0x08 1).eset 191 0x09 0x2B).eset 191 0x05 15

/-- The record of the lens section kept, its exposures counted. -/
def fetchedAs (s : State) : State := { s.keepCal 191 calRecord with fetched := s.fetched.filter (· != 191) ++ [191] }

/-- A record of which `n` bytes are asked for, with the digest of `d` signed. -/
def fetching (n : Nat) (d : List Byte) : Endpoint := { disc .calFetch with calAsked := n, calDigest := d }

/-- A head in the mesh queue. -/
def inQueue (d : Disc) : State := { head (disc d) with meshQueue := [191] }

theorem test_meets_HeadsAreCalibratedPolledAndLost :
    (∀ x : Endpoint, x.disc ≠ .challengeWait → (head x).noneWaits ∧ (head x).ep 191 = x) ∧
    (∀ (n : Nat) (d : List Byte), (fetching n d).disc = .calFetch ∧ (fetching n d).cal = [] ∧ (fetching n d).calAsked = n ∧
      (fetching n d).calDigest = d) :=
  ⟨fun x h => ⟨noneWaits_head x h, by simp [head, State.ep, State.setEp]⟩, fun _ _ => ⟨rfl, rfl, rfl, rfl⟩⟩

theorem test_meets_HeadsAreCalibratedPolledAndLost_record :
    ([5, 0, 0, 0] : List Byte).length = min 4 (fieldAt [5, 0, 0, 0] 0 4) ∧ ([5, 0, 0, 0] : List Byte).length ≠ fieldAt [5, 0, 0, 0] 0 4 ∧
    ([4, 0, 0, 0] : List Byte).length = min 10 (fieldAt [4, 0, 0, 0] 0 4) ∧ ([4, 0, 0, 0] : List Byte).length = fieldAt [4, 0, 0, 0] 0 4 ∧
    sha256 [4, 0, 0, 0] ≠ [] ∧ (head (fetching 10 (sha256 [4, 0, 0, 0]))).calOk 191 [4, 0, 0, 0] = false ∧
    calRecord.length = min 100 (fieldAt calRecord 0 4) ∧ calRecord.length = fieldAt calRecord 0 4 ∧
    (∀ s ∈ [head (fetching 100 (sha256 calRecord)), rivalled (fetching 100 (sha256 calRecord))],
      s.calOk 191 calRecord = true ∧ s.hdrFits 191 calRecord = true) ∧
    (fetchedAs (head (fetching 100 (sha256 calRecord)))).conflict 191 = false ∧
    (fetchedAs (rivalled (fetching 100 (sha256 calRecord)))).conflict 191 = true ∧
    (∀ f < 192, 191 < f → (fetchedAs (head (fetching 100 (sha256 calRecord)))).sameLocation 191 f = false) ∧
    hdrRecord.length = min 300 (fieldAt hdrRecord 0 4) ∧ hdrRecord.length = fieldAt hdrRecord 0 4 ∧
    (imager (fetching 300 (sha256 hdrRecord))).calOk 191 hdrRecord = true ∧
    (imager (fetching 300 (sha256 hdrRecord))).hdrFits 191 hdrRecord = false ∧
    (∀ x : Endpoint, x.disc ≠ .challengeWait → (rivalled x).noneWaits ∧ (rivalled x).ep 191 = x ∧ (imager x).noneWaits ∧ (imager x).ep 191 = x) := by
  refine ⟨by decide +kernel, by decide +kernel, by decide +kernel, by decide +kernel, by decide +kernel, by decide +kernel, by decide +kernel,
    by decide +kernel, by decide +kernel, by decide +kernel, by decide +kernel, fun f hf h => absurd h (by omega), by decide +kernel,
    by decide +kernel, by decide +kernel, by decide +kernel, fun x h => ?_⟩
  have e : (head x).ep 191 = x := by simp [head, State.ep, State.setEp]
  exact ⟨noneWaits_head x h, e, noneWaits_head x h, e⟩

/-- An admitted head that has been polled. -/
def polledHead : Endpoint := { disc .admitted with lifePending := true }

theorem test_meets_HeadsAreCalibratedPolledAndLost_life :
    (∀ d ∈ [Disc.meshWait, .admitted], (inQueue d).meshQueue = 191 :: [] ∧ ((inQueue d).ep 191).disc = d ∧ ((inQueue d).ep 191).linkUp = true) ∧
    (head .zero).meshQueue = [] ∧ ((head .zero).ep 191).linkUp = false ∧
    ((head polledHead).ep 191).disc = .admitted ∧ ((head polledHead).ep 191).lifePending = true ∧ (lifeBody ++ lifeSig).length = 396 ∧
    pssVerify ((head polledHead).ep 191).modulus 65537 (bytesOf 1 0x84 ++ bytesOf 1 191 ++ slice (lifeBody ++ lifeSig) 0 12)
      (slice (lifeBody ++ lifeSig) 12 384) = true ∧
    (head polledHead).regress 191 (lifeOf (lifeBody ++ lifeSig) 0) = false ∧ ([] : List Byte).length ≠ 396 := by decide +kernel

/-! ### Hypotheses met: ports, triggers, rails, images, sweeps, deliveries -/

/-- Port 15 is a gPTP slave. -/
def slave : State := (tS dsOp).dset 0x2401 0x04 (2 * 4 ^ 15)

/-- Endpoint 191 has a trigger that waits, over the kind of link `kind`. -/
def armed (kind : Nat) : State := { (tS dsOp).eset 191 0x02 kind with triggers := [(191, 0, 5, true), (191, 1, 7, false)] }

theorem test_meets_PortsTriggersAndRails :
    (∃ ip, ip = Config.portIp 15) ∧ (∃ ip, ip ≠ Config.portIp 15) ∧
    slave.role 15 = 2 ∧ slave.hasSlave = true ∧ slave.dget 0x2401 0x05 ≠ 2 ∧
    (∀ kind ∈ [1, 2], (armed kind).triggers.find? (fun y => y.1 == 191 && !y.2.2.2) = some (191, 1, 7, false) ∧ (armed kind).eget 191 0x02 = kind) ∧
    (tS dsOp).pwrEn.getLsbD 7 = true ∧ ¬ ((tS dsOp).dev = dsLowPower ∧ (tS dsOp).lpExitBegun = true) ∧
    (∀ p ∈ [2, 3], (asleepAt p none true false).pwrEn.getLsbD 7 = true ∧ (asleepAt p none true false).dev = dsLowPower ∧
      (asleepAt p none true false).lpExitBegun = true ∧ (asleepAt p none true false).power = p) ∧
    (none : Option (BitVec 16)) ≠ some 0 ∧ (tS dsOp).devReset = 0 := by
  refine ⟨⟨_, rfl⟩, ⟨Config.portIp 15 + 1, ?_⟩, by decide +kernel⟩
  intro h
  have := congrArg (fun x : BitVec 32 => x - Config.portIp 15) h
  simp at this

/-- Endpoint 191 in OPERATIONAL with its discovery at `x`; on Ethernet where `kind` is 2. -/
def camera (kind : Nat) (x : Endpoint) : State :=
  [(0x02, kind), (0x06, 0x0A000001), (0x07, 5000)].foldl (fun s p => s.eset 191 p.1 p.2) ((head x).dset 0x2500 0x40 dsOp)

/-- An admitted head, its last image numbered 65535, with an image at row `row` of exposure 0. -/
def imaging (open' : Bool) (row : Nat) : Endpoint :=
  { disc .admitted with haveNumber := true, lastNumber := 0xFFFF,
                        image := { Image.zero with isOpen := open', began := [true, false, false], got := [row, 0, 0], valid := true } }

/-- Packets of exposure 0 with a clean header and one with an uncorrectable header. -/
def inf (ecc : Fin 3) : CsiInfo := { ecc := ecc, crcOk := true, exposure := 0 }

/-- An IPv4 header of 20 bytes for UDP, with a checksum (R35). -/
def ipHead (len : Nat) (src dst : List Byte) (ck : Nat) : List Byte :=
  [0x45, 0] ++ bytesBE 2 len ++ [0, 0, 0, 0, 64, 17] ++ bytesBE 2 ck ++ src ++ dst

/-- The frame of a datagram without a UDP checksum, from 10.0.0.1 to the address of port 3; its length agrees or not. -/
def gram (ok : Bool) (payload : List Byte) : Datagram :=
  let len := payload.length + (if ok then 28 else 27)
  let head := ipHead len [10, 0, 0, 1] (bytesBE 4 (Config.portIp 3).toNat)
  { port := 3, pos := 0,
    frame := List.replicate 12 0 ++ [8, 0] ++ head (65535 - wordSum (head 0) % 65535) ++ bytesBE 2 5000 ++ bytesBE 2 5000 ++
      bytesBE 2 (payload.length + 8) ++ [0, 0] ++ payload }

theorem head_sum (len ck : Nat) (a b c d e f g h : Byte) (hk : ck < 65536) :
    wordSum (ipHead len [a, b, c, d] [e, f, g, h] ck) = wordSum (ipHead len [a, b, c, d] [e, f, g, h] 0) + ck := by
  have e (v : Nat) : bytesBE 2 v = [BitVec.ofNat 8 (v >>> 8), BitVec.ofNat 8 (v >>> 0)] := rfl
  simp only [ipHead, e, wordSum, List.cons_append, List.nil_append, BitVec.toNat_ofNat, Nat.shiftRight_eq_div_pow]
  omega

theorem head_ok (len : Nat) (a b c d e f g h : Byte) :
    sumOk (wordSum (ipHead len [a, b, c, d] [e, f, g, h] (65535 - wordSum (ipHead len [a, b, c, d] [e, f, g, h] 0) % 65535))) = true := by
  rw [head_sum _ _ _ _ _ _ _ _ _ _ (by omega)]
  simp only [sumOk, Bool.and_eq_true, bne_iff_ne, ne_eq, beq_iff_eq]
  omega

theorem ip_back (x : BitVec 32) : BitVec.ofNat 32 (natOfBE (bytesBE 4 x.toNat)) = x := by
  apply BitVec.eq_of_toNat_eq
  have h := x.isLt
  have e (v : Nat) : bytesBE 4 v = [BitVec.ofNat 8 (v >>> 24), BitVec.ofNat 8 (v >>> 16), BitVec.ofNat 8 (v >>> 8), BitVec.ofNat 8 (v >>> 0)] := rfl
  simp only [natOfBE, e, List.foldl_cons, List.foldl_nil, BitVec.toNat_ofNat, Nat.shiftRight_eq_div_pow]
  omega

/-- Line 15 of exposure 0 in a datagram. -/
def lineGram (ok : Bool) : Datagram := gram ok (ascii "VXLN" ++ [0, 0, 15, 0, 1, 0, 0, 0] ++ List.replicate 64 0x55)

theorem gram_ok (d : Datagram) (h : (decide (d.frame.length + 4 ≤ 9018) && decide (d.tags ≤ 1) && d.ipLen == 20 &&
      d.field (d.ipAt + 6) 2 % 0x4000 == 0 && d.field (d.ipAt + 2) 2 == d.ipLen + d.udpLen && decide (8 ≤ d.udpLen) &&
      decide (d.udpAt + d.udpLen ≤ d.frame.length)) = true) (hi : d.ipSum = true) (hu : d.udpSum = true) (hp : d.forPort = true) :
    d.checksOk = true := by
  unfold Datagram.checksOk
  rw [h, hi, hu, hp]
  rfl

theorem gram_there (x : Bool) (l : List Byte) :
    slice (gram x l).frame 14 20 = ipHead (l.length + (if x then 28 else 27)) [10, 0, 0, 1] (bytesBE 4 (Config.portIp 3).toNat)
      (65535 - wordSum (ipHead (l.length + (if x then 28 else 27)) [10, 0, 0, 1] (bytesBE 4 (Config.portIp 3).toNat) 0) % 65535) ∧
    slice (gram x l).frame 30 4 = bytesBE 4 (Config.portIp 3).toNat := ⟨rfl, rfl⟩

theorem gram_checks (l : List Byte) (h : let d := gram true l; (decide (d.frame.length + 4 ≤ 9018) && decide (d.tags ≤ 1) && d.ipLen == 20 &&
      d.field (d.ipAt + 6) 2 % 0x4000 == 0 && d.field (d.ipAt + 2) 2 == d.ipLen + d.udpLen && decide (8 ≤ d.udpLen) &&
      decide (d.udpAt + d.udpLen ≤ d.frame.length)) = true) (hu : (gram true l).udpSum = true)
    (ha : (gram true l).ipAt = 14) (hl : (gram true l).ipLen = 20) : (gram true l).checksOk = true := by
  refine gram_ok _ h ?_ hu ?_
  · unfold Datagram.ipSum
    rw [ha, hl, (gram_there true l).1]
    exact head_ok _ _ _ _ _ _ _ _ _
  · unfold Datagram.forPort Datagram.dstIp Datagram.field
    rw [ha, (gram_there true l).2, ip_back]
    simp [gram]

theorem lineGram_ok : (lineGram true).checksOk = true :=
  gram_checks _ (by decide +kernel) (by decide +kernel) (by decide +kernel) (by decide +kernel)

theorem test_meets_ImagesOpenTakeLinesAndClose :
    (camera 1 (imaging false 0)).pipeOn 191 = true ∧ (inf 0).ecc = 0 ∧ (inf 0).exposure.val < (camera 1 (imaging false 0)).exposures 191 ∧
    ((camera 1 (imaging false 0)).ep 191).image.isOpen = false ∧ (camera 1 (imaging false 0)).eget 191 0x0C ≠ 1 ∧
    ((camera 1 (imaging false 0)).ep 191).haveNumber = true ∧ (0 : BitVec 16) = ((camera 1 (imaging false 0)).ep 191).lastNumber + 1 ∧
    (∀ row ∈ [0, 15, 16], (camera 1 (imaging true row)).pipeOn 191 = true ∧ ((camera 1 (imaging true row)).ep 191).image.isOpen = true ∧
      nth false ((camera 1 (imaging true row)).ep 191).image.began 0 = true ∧ nth false ((camera 1 (imaging true row)).ep 191).image.ended 0 = false ∧
      nth 0 ((camera 1 (imaging true row)).ep 191).image.got 0 = row ∧ (camera 1 (imaging true row)).exposures 191 = 1 ∧
      0 < ((camera 1 (imaging true row)).ep 191).image.ended.length ∧ 0 < ((camera 1 (imaging true row)).ep 191).image.got.length) ∧
    (camera 1 (imaging true 15)).eheight 191 = 16 := by decide +kernel

theorem test_meets_ImagesOpenTakeLinesAndClose_lines :
    csiAccepted (BitVec.toNat (0 : BitVec 6)) = false ∧ csiAccepted (BitVec.toNat (0x1E : BitVec 6)) = true ∧ (0x1E : BitVec 6) ≠ 0x37 ∧
    (inf 0).crcOk = true ∧ BitVec.toNat (0x1E : BitVec 6) = (camera 1 (imaging true 15)).eget 191 0x09 ∧
    8 * (List.replicate 64 (0x55 : Byte)).length = (camera 1 (imaging true 15)).ewidth 191 * csiBits (BitVec.toNat (0x1E : BitVec 6)) ∧
    nth 0 (setAt [15, 0, 0] 0 (15 + 1)) 0 ≤ nth 0 (setAt [15, 0, 0] 0 (15 + 1)) (1 - 1) + 64 ∧ (inf 2).ecc = 2 ∧
    (∀ ok : Bool, (camera 2 (imaging true 15)).datagramEp (lineGram ok) = some 191) ∧
    (camera 2 (imaging true 15)).eclass 191 ≠ 3 ∧
    (camera 2 (imaging true 15)).pipeOn 191 = true ∧ (camera 1 (imaging true 15)).eget 191 0x01 = 1 ∧ (inf 0).ecc ≠ 2 ∧ { inf 0 with crcOk := false }.ecc = 0 ∧
    (camera 1 (imaging true 15)).lineFits 191 0x1E (List.replicate 64 0x55) = true ∧ (lineGram false).checksOk = false ∧
    12 ≤ (lineGram true).payload.length ∧
    slice (lineGram true).payload 0 4 = lineMagic ∧ fieldAt (lineGram true).payload 10 1 = 0 ∧ 0 < (camera 2 (imaging true 15)).exposures 191 ∧
    fieldAt (lineGram true).payload 11 1 = 0 ∧ fieldAt (lineGram true).payload 8 2 = 1 ∧ fieldAt (lineGram true).payload 6 2 = 15 ∧
    (lineGram true).payload.length = 12 + (camera 2 (imaging true 15)).ewidth 191 * lineBytes ((camera 2 (imaging true 15)).eget 191 0x09) ∧
    15 < (camera 2 (imaging true 15)).eheight 191 := by decide +kernel

/-- Bytes in the device's own tables, from `a` up. -/
def tableCells (a : Nat) (l : List Byte) : List Host.Cell := (List.range l.length).map (fun i => (a + i, nth 0 l i))

/-- A point section of 1 block of 1 point in 5 bytes, its range code at byte 3, and the channel table of one channel (R86). -/
def pointFormat : List Byte :=
  [1, 0, 4, 0, 1, 0, 1, 2, 2, 0, 0, 0] ++ [0, 0, 8, 0, 0xA5, 0, 0, 0, 0, 0, 0, 0] ++ [0, 0, 16, 0, 0, 0, 8, 0, 0, 0, 8, 0, 1, 0, 8, 0] ++
    bytesOf 4 36000 ++ List.replicate 20 0

/-- Endpoint 191 is a lidar with room for one point; its sweep of the frame before is `x`. -/
def lidar (x : Sweep) : State :=
  { (camera 2 (disc .admitted)).eset 191 0x08 3 with
      calib := [(calKey 191 3, pointFormat), (calKey 191 4, List.replicate 16 0)], tables := tableCells (pipeBase + 128 * 191 + 20) [1],
      sweepsPrev := [(191, x)] }

/-- A datagram of one point at 90 degrees, with its checks and magic number right or not. -/
def pointGram (ok : Bool) (magic : Byte) : Datagram := gram ok [magic, 0x28, 0x23, 7, 200]

theorem pointGram_ok (magic : Byte) (h : magic = 0xA4 ∨ magic = 0xA5) : (pointGram true magic).checksOk = true := by
  rcases h with rfl | rfl <;> exact gram_checks _ (by decide +kernel) (by decide +kernel) (by decide +kernel) (by decide +kernel)

/-- The device is in frame 1; frame 0 had no motion. -/
def frameOne : State := { (lidar .zero).dset 0x2401 0x06 1 with ticked := true }

/-- Motion of the present frame is known, and the sweep closed. -/
def moved : State := { lidar { Sweep.zero with closed := true } with motion := [(0, [0, 0, 0, 0, 0, 0])] }

theorem test_meets_SweepsCollectPointsAndClose :
    (pointGram false 0xA5).checksOk = false ∧ (pointGram true 0xA4).checksOk = true ∧ (pointGram true 0xA5).checksOk = true ∧
    (lidar .zero).pipeOn 191 = true ∧ (lidar .zero).eclass 191 = 3 ∧
    (∀ p ∈ [(false, (0xA5 : Byte)), (true, 0xA4), (true, 0xA5)], (lidar .zero).datagramEp (pointGram p.1 p.2) = some 191 ∧
      (specAt ((lidar .zero).calSec 191 3) 12 (pointGram p.1 p.2).payload 0 ==
        fieldAt ((lidar .zero).calSec 191 3) 16 8 % 2 ^ specWidth ((lidar .zero).calSec 191 3) 12) = decide (p.2 = 0xA5)) ∧
    blocksOf ((lidar .zero).calSec 191 3) (pointGram true 0xA5).payload = some 1 ∧
    (List.range 1).flatMap (fun i => (List.range (pointsPerBlock ((lidar .zero).calSec 191 3))).filterMap
      (fun j => readPoint ((lidar .zero).calSec 191 3) ((lidar .zero).calSec 191 4) (pointGram true 0xA5).payload i j 131071999)) =
      [(Point.mk 7 16384 0 200 0, 131071999)] ∧
    (((lidar .zero).tickNs : Nat) : Int) ≤ 131071999 ∧ ((131071999 : Int) - ((lidar .zero).tickNs : Nat)) / 2000 ≤ 65535 ∧
    ((lidar .zero).sweep 191 false).points.length < fieldAt ((lidar .zero).pipeRec 191) 20 4 ∧
    ((lidar .zero).sweep 191 true).frame = (lidar .zero).frameNo ∧ ((lidar .zero).sweep 191 true).closed = false ∧
    (lidar .zero).tickNs + 1000000 ≤ 1000000 ∧ 999999 < (lidar .zero).tickNs + 1000000 ∧ (moved.sweep 191 true).closed = true ∧
    KV.get [] (lidar .zero).motion (lidar .zero).frameNo = [] ∧ (lidar .zero).frameNo ∉ (lidar .zero).egoLate ∧
    State.frameNo { lidar .zero with egoLate := [0] } ∈ State.egoLate { lidar .zero with egoLate := [0] } ∧
    moved.pipeOn 191 = true ∧ moved.eclass 191 = 3 ∧ (moved.sweep 191 true).frame = moved.frameNo ∧ (moved.sweep 191 true).deskewed = false ∧
    KV.get [] moved.motion moved.frameNo ≠ [] ∧
    frameOne.ticked = true ∧ nextFrame 0 = frameOne.frameNo ∧ 0 ≠ frameOne.frameNo ∧ KV.get [] frameOne.motion 0 = [] ∧ 0 ∉ frameOne.egoLate ∧
    frameOne.pipeOn 191 = true ∧ frameOne.eclass 191 = 3 :=
  ⟨by decide +kernel, pointGram_ok _ (.inl rfl), pointGram_ok _ (.inr rfl), by decide +kernel⟩

/-- View 3 of endpoint 191: 32 by 16, kind 1, two stripes, into window 63 of core 7 with the one flag 31 (R69). -/
def viewing (x : Endpoint) (stripe : Nat) : State :=
  let e := wnPut (wnPut (wnPut (wnPut (wnPut 0 41 21 1024) 46 42 31) 59 48 0xFFF) 72 72 1) 78 73 63
  let s := ((camera 1 x).setWin 7 63 e).setView (4 * 191 + 3) { ViewState.zero with stripe := stripe }
  { s with tables := tableCells (viewBase + 128 * (4 * 191 + 3)) [1, 0, 3, 0, 32, 0, 16, 0, 1, 1, 8, 2, 7, 63, 31, 1],
           frame := { FrameRec.zero with isOpen := true, valid := List.replicate 192 false, delivered := List.replicate 192 false } }

/-- The same, its flags within the remote mask of the window's owner. -/
def allowed (s : State) : State := s.setCtx 63 { s.ctx 63 with remoteMask := 0xFFFFFFFF }

theorem test_meets_StripesAndZeroTensorsAreDelivered :
    ViewRec.kind ((tS dsOp).viewRec (4 * 191 + 3)) = 0 ∧
    (∀ x ∈ [imaging true 16, imaging false 16], ViewRec.kind ((viewing x 0).viewRec (4 * 191 + 3)) = 1 ∧ (viewing x 0).pipeOn 191 = true ∧
      (viewing x 0).built 191 = true ∧ ((viewing x 0).ep 191).image.any = true ∧ ((viewing x 0).view (4 * 191 + 3)).done = false) ∧
    ((viewing (imaging true 16) 0).ep 191).image.isOpen = true ∧ ((viewing (imaging true 16) 0).view (4 * 191 + 3)).stripe = 0 ∧
    0 + 1 ≠ ViewRec.stripes ((viewing (imaging true 16) 0).viewRec (4 * 191 + 3)) ∧
    (viewing (imaging true 16) 0).linesNeeded (4 * 191 + 3) 0 ≤ (viewing (imaging true 16) 0).linesIn 191 ∧
    ((viewing (imaging true 16) 0).view (4 * 191 + 3)).ended = false ∧
    (viewing (imaging true 16) 0).viewFlagsOk (4 * 191 + 3) = false ∧ (viewing (imaging true 16) 0).deliveryGen (4 * 191 + 3) 7 63 = some 0 ∧
    (let s := allowed (viewing (imaging true 16) 0);
      s.viewFlagsOk (4 * 191 + 3) = true ∧ (s.view (4 * 191 + 3)).ended = false ∧ s.deliveryGen (4 * 191 + 3) 7 63 = some 0 ∧
      (s.ep 191).image.isOpen = true ∧ (s.view (4 * 191 + 3)).stripe = 0 ∧ s.linesNeeded (4 * 191 + 3) 0 ≤ s.linesIn 191 ∧ s.built 191 = true ∧
      s.pipeOn 191 = true ∧
      s.windowCheck 7 63 0 8 [rPut] (stripeOff (s.viewRec (4 * 191 + 3)) 0) (s.stripeWords (4 * 191 + 3) 0 false).length = none ∧
      s.windowCheck 7 63 0 8 [rPut, rFlag] (stripeOff (s.viewRec (4 * 191 + 3)) 0) 1 = none) ∧
    ((viewing (imaging false 16) 1).ep 191).image.isOpen = false ∧ ((viewing (imaging false 16) 1).view (4 * 191 + 3)).stripe = 1 ∧
    1 + 1 = ViewRec.stripes ((viewing (imaging false 16) 1).viewRec (4 * 191 + 3)) ∧
    (tS dsPreOp).dev ≠ dsOp ∧ (viewing .zero 0).dev = dsOp ∧ (viewing .zero 0).frame.isOpen = true ∧ (viewing .zero 0).frame.n = (viewing .zero 0).frameNo ∧
    (viewing .zero 0).slotDone 191 = false ∧ (viewing .zero 0).viewsOf 191 ≠ [] ∧ ((viewing .zero 0).atTime 5).inputMissing 191 5 = true ∧
    (viewing .zero 0).pipeOn 191 = false ∧ 191 < (viewing .zero 0).frame.delivered.length ∧ 191 < (viewing .zero 0).frame.valid.length := by
  decide +kernel

/-! ### Hypotheses met: hosts and registers -/

/-- Register 15 of host B's port translates to `base` with `flags`. -/
def mapped (base flags : Nat) (s : State) : State :=
  s.setPort .b { s.portB with trans := List.replicate 15 0 ++ [BitVec.ofNat 64 (base + flags)] }

theorem test_meets_HostsReadAndWriteMemory :
    ({ tS dsRecovering with romWait := true } : State).romWait = true ∧ (tS dsOp).romWait = false ∧ (tS dsOp).portsServe = true ∧
    (tS dsOp).bar2Stop 1 (((tS dsOp).port .b).bar2Addr 0x3C00000) 4 ((((tS dsOp).port .b).transOf 0x3C00000).getLsbD 0) = some (codeHostDenied, ucHost 1) ∧
    (∀ s ∈ [mapped (dramBase 3) 3 (fitted dsOp), mapped (spmBase 7) 3 (exporting 0), mapped (spmBase 7) 3 (tS dsOp)],
      s.romWait = false ∧ s.portsServe = true ∧ s.bar2Stop 1 ((s.port .b).bar2Addr 0x3C00000) 32 (((s.port .b).transOf 0x3C00000).getLsbD 0) = none ∧
      s.bar2Stop 1 ((s.port .b).bar2Addr 0x3C00000) (List.replicate 32 (7 : Byte)).length
        (((s.port .b).transOf 0x3C00000).getLsbD 0 && ((s.port .b).transOf 0x3C00000).getLsbD 1) = none) := by
  decide +kernel

theorem hostWords_one (s : State) (h c w i : Nat) (hm : s.matchWindow c (10 + h) rGet w = some i) (he : s.ecc = []) :
    s.hostWords h c 1 w = some ([s.kWord (wnOwner (s.win c i)) w], s) := by
  unfold State.hostWords State.hostWord State.matchedRead
  simp only [hm, readK_clean s _ _ he]
  rfl

theorem test_meets_HostsReadAndWriteMemory_regions :
    (mapped (dramBase 3) 3 (fitted dsOp)).ecc = [] ∧ (mapped (spmBase 7) 3 (exporting 0)).ecc = [] ∧
    (mapped (dramBase 3) 3 (fitted dsOp)).spanRegion (((mapped (dramBase 3) 3 (fitted dsOp)).port .b).bar2Addr 0x3C00000) 32 = .dram 3 ∧
    (mapped (spmBase 7) 3 (exporting 0)).spanRegion (((mapped (spmBase 7) 3 (exporting 0)).port .b).bar2Addr 0x3C00000) 32 = .spm 7 ∧
    ((mapped (spmBase 7) 3 (exporting 0)).port .b).bar2Addr 0x3C00000 = spmBase 7 ∧ spmBase 7 % 32 = 0 ∧
    (mapped (spmBase 7) 3 (exporting 0)).fresh.hostWords 1 7 1 0 = some ([(mapped (spmBase 7) 3 (exporting 0)).fresh.kWord 63 0], (mapped (spmBase 7) 3 (exporting 0)).fresh) ∧
    (mapped (spmBase 7) 3 (tS dsOp)).fresh.hostWords 1 7 1 0 = none ∧
    (mapped (spmBase 7) 3 (exporting 0)).matchWindow 7 11 rPut 0 = some 63 ∧ wnOwner ((mapped (spmBase 7) 3 (exporting 0)).win 7 63) = 63 ∧
    (mapped (spmBase 7) 3 (exporting 0)).isLive 63 = true ∧ (mapped (spmBase 7) 3 (tS dsOp)).matchWindow 7 11 rPut 0 = none :=
  ⟨rfl, rfl, by decide +kernel, by decide +kernel, by decide +kernel, by decide +kernel,
    hostWords_one _ 1 7 0 63 (by decide +kernel) rfl, by decide +kernel, by decide +kernel, by decide +kernel, by decide +kernel,
    by decide +kernel⟩

/-- Register 15 of both ports translates to the last 4 MiB of Lodestar SRAM. -/
def onTables : State :=
  let s := mapped (lsBase + 0x3C00000) 3 (tS dsOp)
  s.setPort .a { s.portA with trans := s.portB.trans }

theorem test_meets_HostsReadAndWriteMemory_tables :
    (∀ x ∈ [(HostPort.a, 0x200000), (.a, 0x240000), (.a, 0x280000), (.b, 0x200000)], onTables.romWait = false ∧ onTables.portsServe = true ∧
      (onTables.port x.1).bar2Addr (0x3C00000 + x.2) = lsBase + 0x3C00000 + x.2 ∧ onTables.spanRegion (lsBase + 0x3C00000 + x.2) 32 = .ls ∧
      onTables.bar2Stop (hostIx x.1) (lsBase + 0x3C00000 + x.2) 32
        (((onTables.port x.1).transOf (0x3C00000 + x.2)).getLsbD 0 && ((onTables.port x.1).transOf (0x3C00000 + x.2)).getLsbD 1) = none) ∧
    tableRange 0x3E40000 32 = false ∧ calRange 0x3E40000 32 = false ∧ calRange 0x3E80000 32 = true ∧ tableRange 0x3E00000 32 = true ∧
    calRange 0x3E00000 32 = false ∧ onTables.inConf 1 = false ∧ onTables.inConf 0 = true ∧ onTables.meshView 0x3E00000 32 true = none := by
  decide +kernel

theorem test_meets_HostsAreLostAndLinked :
    (tS dsOp).admitted 0 = true ∧ (tS dsOp).dev ≠ dsLowPower ∧
    ((tS dsOp).port .a).heartbeat + (tS dsOp).dget 0x2500 (0x43 + 0) * 1000000 ≤ max (tS dsOp).timeNs (2 ^ 60) ∧
    (tS dsLowPower).dev = dsLowPower ∧ (tS dsOp).admitted 1 = false ∧ (tS dsOp).asleep = false ∧
    max (tS dsOp).timeNs 0 < (((tS dsOp).dset 0x2500 0x43 100).port .a).heartbeat + ((tS dsOp).dset 0x2500 0x43 100).dget 0x2500 0x43 * 1000000 ∧
    ((tS dsOp).dset 0x2500 0x42 1).hostState 1 = 1 := by decide +kernel

/-- The boot ROM waits with the signed image, or nothing, in its buffer, as host B told. -/
def waiting (img : List Byte) : State :=
  State.writeBytes { keyed ((devResetAt 3).setPort .b { PortState.reset .b with romLength := 1025 }) with romWait := true } romBuffer img

theorem waiting_image : (waiting bootImage).readBytes romBuffer ((waiting bootImage).port .b).romLength.toNat = bootImage :=
  (readBytes_writeBytes _ _ _ _ (by rw [bootImage_length]; decide +kernel)).trans
    (List.take_of_length_le (by rw [bootImage_length]; decide +kernel))

theorem test_meets_WritesSetEntriesAndRegisters :
    (∀ s ∈ [tS dsPreOp, tS dsOp, tC dsPreOp, cx 63 csRunning 2 (tS dsOp), head .zero, head (disc .admitted)], Reaches .a s) ∧
      Reaches .can (tC dsPreOp) := by
  refine ⟨fun s hs => ⟨?_, fun h => nomatch h⟩, by decide +kernel, fun _ => by decide +kernel⟩
  simp only [List.mem_cons, List.not_mem_nil, or_false] at hs
  rcases hs with rfl | rfl | rfl | rfl | rfl | rfl <;> decide +kernel

theorem test_meets_WritesSetEntriesAndRegisters_entries :
    (tS dsPreOp).writeFail 0 0x9999 0 4 = some .noIndex ∧
    (tS dsPreOp).writeFail 0 0x2500 0x43 2 = none ∧ (entryOf 0x2500 0x43).isSome = true ∧ plainEntry 0x2500 0x43 = true ∧
    ((entryOf 0x2500 0x43).map (fun e => decide (1 < e.size))) = some true ∧
    (tC dsPreOp).writeFail 2 0x1017 0 2 = none ∧ (entryOf 0x1017 0).isSome = true ∧ plainEntry 0x1017 0 = true ∧
    (tS dsOp).writeFail 0 (0x5000 + 0) 6 1 = none ∧ (tS dsOp).writeFail 0 0x5100 (1 + 2 * 0) 4 = none ∧
    (tS dsOp).writeFail 0 0x2400 0x17 1 = none ∧ (tS dsOp).motionFrame ((tS dsOp).dget 0x2400 0x10) = true ∧
    max (tS dsOp).timeNs 0 < (tS dsOp).motionDeadline 0 ∧ 0 ∉ (tS dsOp).egoLate ∧ KV.get [] (tS dsOp).motion 0 = [] ∧
    ((tS dsOp).dset 0x2400 0x10 2).writeFail 0 0x2400 0x17 1 = none ∧ ((tS dsOp).dset 0x2400 0x10 2).dget 0x2400 0x10 = 2 ∧
    ((tS dsOp).dset 0x2400 0x10 2).motionFrame 2 = false ∧
    ((cx 63 csRunning 2 (tS dsOp)).cset 63 0x33 64).writeFail 0 (0x2600 + 63) 0x35 1 = none ∧
    ((cx 63 csRunning 2 (tS dsOp)).cset 63 0x33 64).cget 63 0x33 ≠ 0 ∧
    (cx 63 csRunning 2 (tS dsOp)).writeFail 0 (0x2600 + 63) 0x35 1 = none ∧ (tS dsOp).writeFail 0 (0x2200 + 191) 0x1A 1 = none := by
  decide +kernel

/-- Endpoint 191 with its link up, not enabled. -/
def headPresent : State := (tS dsPreOp).setEp 191 (disc .idle)

/-- The same with the head known only as unbound, its endpoint on A-PHY port 3. -/
def headUnbound : State := { ((tS dsPreOp).eset 191 0x02 1).eset 191 0x03 3 with unbound := [place 3] }

theorem test_meets_WritesSetEntriesAndRegisters_enable :
    Reaches .a headUnbound ∧ headUnbound.writeFail 0 (0x2200 + 191) 0x01 1 = none ∧ headUnbound.eget 191 0x01 = 0 ∧
    headUnbound.placeOf (place 3) 191 = true ∧ place 3 ∈ headUnbound.unbound ∧ (headUnbound.ep 191).disc = .idle ∧
    headUnbound.portFull 191 = false ∧ (∀ f < 191, headUnbound.eget f 0x01 = 0) ∧ headPresent.portFull 191 = false ∧
    Reaches .a headPresent ∧ headPresent.writeFail 0 (0x2200 + 191) 0x01 1 = none ∧ headPresent.eget 191 0x01 = 0 ∧ headPresent.unbound = [] ∧
    (headPresent.ep 191).linkUp = true ∧ (headPresent.ep 191).disc = .idle ∧ (∀ f < 191, headPresent.eget f 0x01 = 0) ∧
    (head (disc .admitted)).writeFail 0 (0x2200 + 191) 0x01 1 = none ∧ (head (disc .admitted)).eget 191 0x01 = 1 ∧
    ((head (disc .admitted)).ep 191).disc = .admitted :=
  ⟨⟨by decide +kernel, fun h => nomatch h⟩, by decide +kernel, by decide +kernel, by decide +kernel, by decide +kernel, by decide +kernel,
    by decide +kernel, by decide +kernel, by decide +kernel,
    ⟨by decide +kernel, fun h => nomatch h⟩, by decide +kernel, by decide +kernel, by decide +kernel, by decide +kernel, by decide +kernel,
    by decide +kernel, by decide +kernel, by decide +kernel, by decide +kernel⟩

theorem test_meets_WritesSetEntriesAndRegisters_ports :
    (tS dsOp).romWait = false ∧ (tS dsOp).portsServe = true ∧ 15 < 32 ∧ 15 < ((tS dsOp).port .b).trans.length ∧
    ([0, 0, 0, 0, 0, 0, 0, 0] : List Byte).length = 8 ∧ ([0, 0] : List Byte).length = 2 ∧
    (waiting []).romWait = true ∧ (waiting bootImage).romWait = true ∧ (waiting bootImage).devReset ≠ 0 ∧
    (waiting []).bootCode ((waiting []).readBytes romBuffer ((waiting []).port .b).romLength.toNat) = some 0x5001 ∧
    (waiting bootImage).bootCode ((waiting bootImage).readBytes romBuffer ((waiting bootImage).port .b).romLength.toNat) = none :=
  ⟨by decide +kernel, by decide +kernel, by decide, by decide +kernel, rfl, rfl, by decide +kernel, by decide +kernel, by decide +kernel,
    by decide +kernel, by rw [waiting_image]; exact boot_ok _ rfl⟩

/-! ### What WellFormed refuses -/

/-- A packet of kind `k` with header length `n` and its data. -/
def pk (k : BitVec 4) (n : BitVec 4) (d : List SWord) (poison : Bool) : Packet :=
  { kind := k, srcUnit := 0, srcCtx := 0, ctxValid := false, srcPair := 0, dstUnit := 0, addr := 0, words := n, flag := 0, seq := 0, tag := 0,
    status := 0, poison := poison, data := d }

theorem test_wf_accepts : (Instr.nopCommand .a).wf = true ∧ (Instr.tick (2 ^ 64 - 1)).wf = true ∧
    (Instr.putPacket (pk 0 7 (List.replicate 8 1) false)).wf = true ∧ (Instr.sputLast (pk 2 0 [] false)).wf = true ∧
    (Instr.getRequest (pk 3 7 [] false)).wf = true ∧ (Instr.linkUp (place 47)).wf = true ∧
    (Instr.lineDatagram (lineGram true) 5 true).wf = true ∧ (Instr.ctxLoad .a 0 0 1 [7]).wf = true ∧
    (Instr.temperatureRefresh [1, 2, 3, 4, 5]).wf = true := by decide +kernel

theorem test_wf_time : (Instr.tick (2 ^ 64)).wf = false ∧ (Instr.gptpMessage 0 (.sync (2 ^ 64)) 0).wf = false ∧
    (Instr.registerWrite .a 0 [1] [] (2 ^ 64)).wf = false ∧ (Instr.lowPowerExit .begin (2 ^ 64)).wf = false := by decide +kernel

theorem test_wf_packets :
    (Instr.putPacket (pk 1 0 [1] false)).wf = false ∧ (Instr.sputData (pk 1 8 (List.replicate 9 1) false)).wf = false ∧
    (Instr.getReply (pk 4 1 [1] false)).wf = false ∧ (Instr.sputLast (pk 2 1 [1] false)).wf = false ∧
    (Instr.ack (pk 8 0 [1] false)).wf = false ∧ (Instr.memoryWrite (pk 10 1 [1, 2] true)).wf = false ∧
    (Instr.linkTimeout (pk 14 0 [] false) 0).wf = false ∧
    (Instr.ack { pk 8 0 [] false with addr := 1 }).wf = false ∧ (Instr.putPacket { pk 0 0 [1] false with flag := 1 }).wf = false ∧
    (Instr.nack { pk 9 0 [] false with status := 5 }).wf = true := by decide +kernel

theorem test_wf_sensors : (Instr.linkUp (place 48)).wf = false ∧ (Instr.linkUp { place 3 with kind := 3 }).wf = false ∧
    (Instr.linkUp { place 15 with kind := 2, pos := 8 }).wf = false ∧ (Instr.linkUp { place 3 with vc := 16 }).wf = false ∧
    (Instr.egoLate (2 ^ 32)).wf = false ∧ (Instr.temperatureRefresh [1]).wf = false := by decide +kernel

theorem payloadOk_replicate (n : Nat) : payloadOk (List.replicate n 0) = decide (n < 65536) := by
  rw [payloadOk, List.length_replicate]

theorem test_wf_payloads (n : Nat) (h : n = 65536) : (Instr.getCertResponse 0 (List.replicate n 0)).wf = false ∧
    (Instr.pointDatagram { pointGram true 0 with frame := List.replicate n 0 } 0).wf = false := by
  have e : payloadOk (List.replicate n 0) = false := by rw [payloadOk_replicate, h]; decide
  exact ⟨e, by show (payloadOk (List.replicate n 0) && _) = false; rw [e, Bool.false_and]⟩

theorem test_wf_steps :
    (Instr.maintActivityEnd (.stress true 801 0)).wf = false ∧ (Instr.maintActivityEnd (.sweep (2 ^ 32))).wf = false ∧
    (Instr.maintActivityEnd (.update true [2048])).wf = false ∧ (Instr.almanacSlot 0 [[]] []).wf = false ∧
    (Instr.partitionResetSequence 0 (.verify [8388608] []) 0).wf = false ∧ (Instr.deviceResetSequence (.selfTest [true] []) 0).wf = false ∧
    (Instr.deviceResetSequence (.dram [true] .r4266 .g16) 0).wf = false := by decide +kernel

theorem test_wf_flash (n : Nat) (h : n = 2 ^ 24 + 1) : (DevStep.boot (List.replicate n 0)).wf = false := by
  rw [DevStep.wf, List.length_replicate, h]; decide

theorem test_wf_hosts :
    (Instr.bar2Read .a (2 ^ 26) 4).wf = false ∧ (Instr.bar2Write .b 0 []).wf = false ∧ (Instr.registerWrite .a 65536 [1] [] 0).wf = false ∧
    (Instr.ctxRestore .a 0 0 2 [1]).wf = false ∧ (Instr.dictionaryWrite .a 65536 0 0 [] [] 0).wf = false ∧
    (Instr.dictionaryWrite .a 0 256 0 [] [] 0).wf = false ∧ (Instr.dictionaryWrite .a 0 0 64 [] [] 0).wf = false := by decide +kernel

end Sys2Proof.Tests
end

/-! PROOFS. What every command keeps: the queue, the time base's direction, blown fuses, and the canonical form of both memories
(`Kept`). One lemma per function of the model, in the order of the model, each from those of the functions it calls. -/

namespace Sys2Proof.Machine

section Kept

variable {s t u : State}

/-! ### `Kept` of a composed state -/

theorem Kept.refl (s : State) : Kept s s := ⟨id, rfl, le_rfl, BitVec.and_self⟩

theorem Kept.trans (h : Kept s t) (k : Kept t u) : Kept s u where
  memWf := k.memWf ∘ h.memWf
  pending := k.pending.trans h.pending
  time := h.time.trans k.time
  fuses := by rw [← h.fuses, BitVec.and_assoc, k.fuses]

/-- An update of other fields keeps what `Kept` speaks of. -/
theorem Kept.same (h : Kept s t)
    (e : (u.mem, u.hostMem, u.pending, u.timeNs, u.fuses) = (t.mem, t.hostMem, t.pending, t.timeNs, t.fuses)) :
      Kept s u := by
  simp only [Prod.mk.injEq] at e
  obtain ⟨hm, hh, hp, ht, hf⟩ := e
  exact h.trans ⟨fun w => by rwa [State.memWf, hm, hh], hp, ht.ge, by rw [hf, BitVec.and_self]⟩

theorem Kept.ite {c : Prop} {_ : Decidable c} (h : Kept s t) (k : Kept s u) : Kept s (if c then t else u) := by
  split
  · exact h
  · exact k

theorem Kept.ite_snd {α : Type} {c : Prop} {_ : Decidable c} {p q : α × State} (h : Kept s p.2) (k : Kept s q.2) :
    Kept s (if c then p else q).2 := by
  split
  · exact h
  · exact k

theorem Kept.foldS {α : Type} {l : List α} {f : State → α → State} (h : Kept s t)
    (hf : ∀ x a, Kept s x → Kept s (f x a)) : Kept s (foldS l f t) := by
  induction l generalizing t with
  | nil => exact h
  | cons a l ih => exact ih (hf t a h)

theorem Kept.snd {α : Type} {p : α × State} {a : α} (e : p = (a, t)) (h : Kept s p.2) : Kept s t := by
  rw [e] at h; exact h

theorem Kept.fst {α : Type} {p : State × α} {a : α} (e : p = (t, a)) (h : Kept s p.1) : Kept s t := by
  rw [e] at h; exact h

theorem Kept.snd_snd {α β : Type} {p : α × β × State} {a : α} {b : β} (e : p = (a, b, t)) (h : Kept s p.2.2) :
    Kept s t := by
  rw [e] at h; exact h

/-! ### Memory -/

theorem Kept.of_mem (h : Kept s t) (hm : KV.wf memDefault t.mem = true → KV.wf memDefault u.mem = true)
    (e : (u.hostMem, u.pending, u.timeNs, u.fuses) = (t.hostMem, t.pending, t.timeNs, t.fuses)) : Kept s u := by
  simp only [Prod.mk.injEq] at e
  obtain ⟨hh, hp, ht, hf⟩ := e
  exact h.trans ⟨fun w => ⟨hm w.1, by rw [hh]; exact w.2⟩, hp, ht.ge, by rw [hf, BitVec.and_self]⟩

theorem Kept.atTime {n : Nat} (h : Kept s t) : Kept s (t.atTime n) :=
  h.trans ⟨id, rfl, Nat.le_max_left _ _, BitVec.and_self⟩

theorem Kept.setByte {a : Nat} {b : Byte} (h : Kept s t) : Kept s (t.setByte a b) := h.of_mem (setByte_wf _ _ _) rfl

theorem Kept.writeBytes {a : Nat} {l : List Byte} (h : Kept s t) : Kept s (t.writeBytes a l) :=
    h.of_mem (writeBytes_wf _ _ _) rfl

theorem Kept.putWord {a : Nat} {w : SWord} {poison : Bool} (h : Kept s t) : Kept s (t.putWord a w poison) :=
  h.of_mem (putWord_wf _ _ _ _) rfl

theorem Kept.zeroRange {a n : Nat} (h : Kept s t) : Kept s (t.zeroRange a n) := h.of_mem (zeroRange_wf _ _ _) rfl

theorem Kept.hostWrite {host a : Nat} {l : List Byte} (h : Kept s t) : Kept s (t.hostWrite host a l) :=
  h.trans ⟨fun w => ⟨w.1, hostWrite_wf _ _ _ _ w.2⟩, rfl, le_rfl, BitVec.and_self⟩

/-! ### The functions of the model, by file -/

/-! #### Dict -/

theorem Kept.dset {index sub v : Nat} (h : Kept s t) : Kept s (t.dset index sub v) := .same h rfl

theorem Kept.dclear {index sub : Nat} (h : Kept s t) : Kept s (t.dclear index sub) := .same h rfl

theorem Kept.dadd {index sub n : Nat} (h : Kept s t) : Kept s (t.dadd index sub n) := .dset h

theorem Kept.dbump {index sub : Nat} (h : Kept s t) : Kept s (t.dbump index sub) := .dadd h

theorem Kept.cset {k sub v : Nat} (h : Kept s t) : Kept s (t.cset k sub v) := .dset h

theorem Kept.cbump {k sub : Nat} (h : Kept s t) : Kept s (t.cbump k sub) := .dbump h

theorem Kept.eset {e sub v : Nat} (h : Kept s t) : Kept s (t.eset e sub v) := .dset h

theorem Kept.ebump {e sub : Nat} (h : Kept s t) : Kept s (t.ebump e sub) := .dbump h

theorem Kept.clamped (h : Kept s t) : Kept s t.clamped := .dbump h

/-! #### Ops -/

theorem Kept.fresh (h : Kept s t) : Kept s t.fresh := .same h rfl

theorem Kept.send {m : Message} (h : Kept s t) : Kept s (t.send m) := .same h rfl

theorem Kept.freeStep (h : Kept s t) : Kept s t.freeStep := .same h rfl

theorem Kept.setSpm {c w : Nat} {v : SWord} {poison : Bool} (h : Kept s t) : Kept s (t.setSpm c w v poison) :=
    .putWord h

theorem Kept.setPair {c q : Nat} {p : Pair} (h : Kept s t) : Kept s (t.setPair c q p) := .same h rfl

theorem Kept.setStrm {c q : Nat} {i : StreamId} {t' : Strm} (h : Kept s t) : Kept s (t.setStrm c q i t') := .setPair h

theorem Kept.setSlot {c q i : Nat} {v : ScaleSlot} (h : Kept s t) : Kept s (t.setSlot c q i v) := .same h rfl

theorem Kept.setSplit {c a v : Nat} (h : Kept s t) : Kept s (t.setSplit c a v) := .same h rfl

theorem Kept.setGroup {c a g : Nat} {v : Group} (h : Kept s t) : Kept s (t.setGroup c a g v) := .same h rfl

theorem Kept.setAcc {c a e j : Nat} {v : Acc} (h : Kept s t) : Kept s (t.setAcc c a e j v) := .same h rfl

theorem Kept.putFlag {c f : Nat} {b : Bool} (h : Kept s t) : Kept s (t.putFlag c f b) := .same h rfl

theorem Kept.setCtx {k : Nat} {v : Ctx} (h : Kept s t) : Kept s (t.setCtx k v) := .same h rfl

theorem Kept.setEp {e : Nat} {v : Endpoint} (h : Kept s t) : Kept s (t.setEp e v) := .same h rfl

theorem Kept.setPart {p : Nat} {v : Partition} (h : Kept s t) : Kept s (t.setPart p v) := .same h rfl

theorem Kept.setView {v : Nat} {x : ViewState} (h : Kept s t) : Kept s (t.setView v x) := .same h rfl

theorem Kept.setAdGroup {g : Nat} {x : AdGroup} (h : Kept s t) : Kept s (t.setAdGroup g x) := .same h rfl

theorem Kept.setPort {h' : HostPort} {p : PortState} (h : Kept s t) : Kept s (t.setPort h' p) := by
  unfold State.setPort
  split
  · exact .same h rfl
  · exact .same h rfl

theorem Kept.emcySend {code unit : Nat} (h : Kept s t) : Kept s (t.emcySend code unit) :=
  .ite h (.ite (.dbump h) (.same h rfl))

theorem Kept.report {code unit origin : Nat} {detail : List Byte} {frameFault : Bool} (h : Kept s t) :
    Kept s (t.report code unit origin detail frameFault) := by
  unfold State.report
  extract_lets s₁ s₂ rec' s₃
  have h₁ : Kept s s₁ := .dbump h
  have h₂ : Kept s s₂ := .dbump h₁
  have h₃ : Kept s s₃ := by
    refine .ite (.dbump h₁) ?_
    extract_lets i bs s₄ s₅
    have h₄ : Kept s s₄ := .writeBytes h₁
    clear_value s₄
    exact .dset (.dset (.same h₄ rfl))
  split
  · extract_lets a n s₄ s₅ s₆
    have h₄ : Kept s s₄ := .writeBytes h₂
    have h₅ : Kept s s₅ := .writeBytes h₄
    have h₆ : Kept s s₆ := .ite (.setByte h₅) h₅
    exact .ite (.setByte h₆) h₆
  · exact .ite (.emcySend h₃) h₃

theorem Kept.rep {code unit : Nat} (h : Kept s t) : Kept s (t.rep code unit) := .report h

theorem Kept.closeLog (h : Kept s t) : Kept s t.closeLog := by
  unfold State.closeLog
  extract_lets s₁
  have h₁ : Kept s s₁ := .foldS h fun _ _ h₁ => .setByte h₁
  exact .same h₁ rfl

theorem Kept.frameFault {code : Nat} {core : Option Nat} {disagree invalid : Bool} (h : Kept s t) :
    Kept s (t.frameFault code core disagree invalid) :=
  .same h rfl

theorem Kept.ctxFault {k code : Nat} {disagree : Bool} (h : Kept s t) : Kept s (t.ctxFault k code disagree) :=
  .ite (.frameFault h) h

theorem Kept.ctxNote {k code : Nat} (h : Kept s t) : Kept s (t.ctxNote k code) := .ite (.frameFault h) h

theorem Kept.ctxDegrade {k code : Nat} (h : Kept s t) : Kept s (t.ctxDegrade k code) := by
  unfold State.ctxDegrade
  refine .ite ?_ h
  extract_lets s₁ __src
  have h₁ : Kept s s₁ := .ctxNote h
  exact .same h₁ rfl

theorem Kept.reportCtx {k code unit origin : Nat} {detail : List Byte} (h : Kept s t) :
    Kept s (t.reportCtx k code unit origin detail) :=
  .report h

theorem Kept.setHostState {h' v : Nat} (h : Kept s t) : Kept s (t.setHostState h' v) := .dset h

theorem Kept.putRecord {h' handle code kind unit result : Nat} {body : List Byte} (h : Kept s t) :
    Kept s (t.putRecord h' handle code kind unit result body) :=
  .send (.setPort (.hostWrite h))

theorem Kept.hostRecord {h' handle code kind unit result : Nat} {body : List Byte} (h : Kept s t) :
    Kept s (t.hostRecord h' handle code kind unit result body) :=
  .ite (.dbump h) (.ite (.ite (.setPort h) (.ite (.putRecord (.ite h (.setPort (.putRecord h))))
      (.setPort (.ite h (.setPort (.putRecord h)))))) h)

theorem Kept.statusTo {h' code unit : Nat} {body : List Byte} (h : Kept s t) : Kept s (t.statusTo h' code unit body) :=
  .hostRecord h

theorem Kept.statusAll {code unit : Nat} {body : List Byte} (h : Kept s t) : Kept s (t.statusAll code unit body) :=
  .statusTo (.statusTo h)

theorem Kept.statusCreator {k code unit : Nat} {body : List Byte} (h : Kept s t) :
    Kept s (t.statusCreator k code unit body) := by
  unfold State.statusCreator
  split
  · exact .statusTo h
  · exact h

theorem Kept.setHslot {r : HRef} {v : HandleSlot} (h : Kept s t) : Kept s (t.setHslot r v) := .same h rfl

theorem Kept.takeHandle {i : Nat} (h : Kept s t) : Kept s (t.takeHandle i).2 := by
  unfold State.takeHandle
  extract_lets obj seq
  split
  · exact .dset (.dset (.rep h))
  · extract_lets w s₁ s₂
    have h₁ : Kept s s₁ := .setHslot h
    have h₂ : Kept s s₂ := .same h₁ rfl
    exact .dset (.dset h₂)

theorem Kept.completeBody {r : HRef} {code result : Nat} {body : List Byte} (h : Kept s t) :
    Kept s (t.completeBody r code result body) :=
  .ite (.hostRecord (.setHslot h)) (.setHslot h)

theorem Kept.complete {r : HRef} {code result : Nat} (h : Kept s t) : Kept s (t.complete r code result) :=
    .completeBody h

theorem Kept.refuse {r : HRef} {code : Nat} (h : Kept s t) : Kept s (t.refuse r code) := .complete (.rep h)

theorem Kept.runCommand {iss : Issuer} {needAdmit : Bool} {who : Who} {states : List Nat} {paramsOk : Bool}
    {body : HRef → State → State} (h : Kept s t) (hbody : ∀ a y, Kept s y → Kept s (body a y)) :
        Kept s (runCommand iss needAdmit who states paramsOk body t) := by
  unfold Machine.runCommand
  refine .ite h ?_
  split
  · rename_i e
    exact .snd e (.takeHandle h)
  · rename_i e
    have h₁ : Kept s _ := .snd e (.takeHandle h)
    split
    · exact .refuse h₁
    · exact hbody _ _ h₁

/-! #### Base -/

theorem Kept.setWaiting {l : List Nat} (h : Kept s t) : Kept s (t.setWaiting l) := .dset (.same h rfl)

theorem Kept.tearOne {k cause : Nat} (h : Kept s t) : Kept s (t.tearOne k cause) :=
  .ite h (.ite (.setCtx h) (.cset (.cset (.setWaiting (.setCtx (.cset (.ite (.ctxFault h) h)))))))

theorem Kept.noteDetail {k : Nat} {l : List Byte} (h : Kept s t) : Kept s (t.noteDetail k l) := .ite h (.setCtx h)

theorem Kept.startTeardown {k cause : Nat} {alone : Bool} (h : Kept s t) : Kept s (t.startTeardown k cause alone) :=
  .foldS (.tearOne h) fun _ _ h₁ => .ite (.report (.tearOne h₁)) (.tearOne h₁)

theorem Kept.setOut {p : Nat} {b : Bool} (h : Kept s t) : Kept s (t.setOut p b) := .dset h

theorem Kept.setPstate {p v : Nat} (h : Kept s t) : Kept s (t.setPstate p v) := .dset h

theorem Kept.fence {p : Nat} (h : Kept s t) : Kept s (t.fence p) := by
  unfold State.fence
  extract_lets x s₁ s₂ __src
  have h₁ : Kept s s₁ := .ite (.frameFault h) h
  have h₂ : Kept s s₂ := .setOut (.setPart h₁)
  exact .same h₂ rfl

theorem Kept.endActivity {code : Nat} {aborted : Bool} (h : Kept s t) : Kept s (t.endActivity code aborted) := by
  unfold State.endActivity
  split
  · exact h
  · extract_lets s₁ s₂ s₃ s₄
    have h₁ : Kept s s₁ := .same h rfl
    have h₂ : Kept s s₂ := .dset (.dset (.dset h₁))
    have h₃ : Kept s s₃ := .dbump h₂
    have h₄ : Kept s s₄ := .ite (.dset h₃) h₃
    exact .complete h₄

theorem Kept.endOut {p code : Nat} (h : Kept s t) : Kept s (t.endOut p code) :=
  .foldS (.setPstate (.setPart h)) fun _ _ h₁ => .complete h₁

theorem Kept.startPartReset {p cause : Nat} {safe : Bool} {handle : Option HRef} {detail : Nat} (h : Kept s t) :
    Kept s (t.startPartReset p cause safe handle detail) := by
  unfold State.startPartReset
  extract_lets x hs s₁ x' s₂ s₃ s₄ s₅
  have h₁ : Kept s s₁ := by
    unfold s₁
    split
    · exact .ite (.endActivity (.rep h)) h
    · exact h
  have h₂ : Kept s s₂ := .setPart h₁
  have h₃ : Kept s s₃ := .dbump (.setPstate (.fence h₂))
  have h₄ : Kept s s₄ := .dset h₃
  have h₅ : Kept s s₅ := .report h₄
  exact .ite (.setPart h) (.statusAll h₅)

theorem Kept.linkFail {l : Nat} (h : Kept s t) : Kept s (t.linkFail l) := by
  unfold State.linkFail
  extract_lets s₁ s₂ x
  have h₁ : Kept s s₁ := .rep h
  have h₂ : Kept s s₂ := .dset (.dset h₁)
  exact .ite h₂ (.ite (.ite (.setPart h₂) (.ite (.endOut h₂) (.setPart h₂))) (.startPartReset h₂))

theorem Kept.pinsSafe (h : Kept s t) : Kept s t.pinsSafe := .same h rfl

theorem Kept.startDevReset {cause : Nat} {poreset : Bool} {detail : Nat} (h : Kept s t) :
    Kept s (t.startDevReset cause poreset detail) := by
  unfold State.startDevReset
  refine .ite (.ite ?_ (.rep (.same h rfl))) ?_
  · exact .same (.same h rfl) rfl
  · extract_lets s₁ s₂
    have h₁ : Kept s s₁ := .dbump (.pinsSafe h)
    have h₂ : Kept s s₂ := .dclear (.dset h₁)
    exact .same h₂ rfl

theorem Kept.setSafe {v : Nat} (h : Kept s t) : Kept s (t.setSafe v) := .dset (.same h rfl)

theorem Kept.enterSafe {cause : Nat} {r : SafeReset} {poreset : Bool} (h : Kept s t) :
    Kept s (t.enterSafe cause r poreset) := by
  unfold State.enterSafe
  extract_lets cur s₁ s₂ s₃ s₄
  have h₁ : Kept s s₁ := .pinsSafe h
  have h₂ : Kept s s₂ := .setSafe h₁
  have h₃ : Kept s s₃ := .dbump (.dset h₂)
  have h₄ : Kept s s₄ := .report h₃
  refine .ite ?_ ?_
  · split
    · exact .startPartReset h₄
    · exact .startDevReset h₄
  · split
    · exact .same h rfl
    · exact .ite (.startDevReset (.setSafe h)) (.startDevReset (.same h rfl))

theorem Kept.reportUnc {a : Nat} (h : Kept s t) : Kept s (t.reportUnc a) := by
  unfold State.reportUnc
  split
  · exact .report h
  · exact .dbump (.report h)
  · exact .report h

theorem Kept.contain {a : Nat} (h : Kept s t) : Kept s (t.contain a) := .enterSafe (.reportUnc h)

theorem Kept.uncorrectable {a : Nat} (h : Kept s t) : Kept s (t.uncorrectable a) := by
  unfold State.uncorrectable
  extract_lets shared s₁
  have h₁ : Kept s s₁ := .reportUnc h
  exact .ite (.same h₁ rfl) (.contain h)

theorem Kept.corrected {a : Nat} (h : Kept s t) : Kept s (t.corrected a) := by
  unfold State.corrected
  extract_lets s₁
  have h₁ : Kept s s₁ := .same h rfl
  split
  · exact .dbump (.rep h₁)
  · exact .dbump (.rep h₁)
  · exact .dbump (.rep h₁)

theorem Kept.touch {a : Nat} (h : Kept s t) : Kept s (t.touch a) := by
  unfold State.touch
  refine .foldS h ?_
  intro x' a' h₁
  split
  · exact h₁
  · exact .corrected h₁
  · exact .uncorrectable h₁

theorem Kept.consume {k c a : Nat} (h : Kept s t) : Kept s (t.consume k c a) :=
  .startTeardown (.noteDetail (.dbump (.reportCtx h)))

theorem Kept.touchRange {a n : Nat} (h : Kept s t) : Kept s (t.touchRange a n) := .foldS h fun _ _ h₁ => .touch h₁

theorem Kept.smTouch {a n : Nat} (h : Kept s t) : Kept s (t.smTouch a n) :=
  .foldS (.touchRange h) fun _ _ h₁ => .ite (.contain h₁) h₁

theorem Kept.choice {k kind : Nat} (h : Kept s t) : Kept s (t.choice k kind) := .ite h (.dbump (.cbump (.cset h)))

/-! #### Flags -/

theorem Kept.setSaved {k : Nat} {v : SaveArea} (h : Kept s t) : Kept s (t.setSaved k v) := .setCtx h

theorem Kept.kSetWord {k w : Nat} {v : SWord} {poison : Bool} (h : Kept s t) : Kept s (t.kSetWord k w v poison) :=
  .ite (.setSpm h) (.ite (.setSaved h) h)

theorem Kept.kSetPair {k q : Nat} {p : Pair} (h : Kept s t) : Kept s (t.kSetPair k q p) :=
    .ite (.setPair h) (.setSaved h)

theorem Kept.kPutFlag {k f : Nat} {b : Bool} (h : Kept s t) : Kept s (t.kPutFlag k f b) :=
    .ite (.putFlag h) (.setSaved h)

theorem Kept.readK {k w : Nat} (h : Kept s t) : Kept s (t.readK k w).2 := .ite (.touch h) h

theorem Kept.readKs {k : Nat} {l : List Nat} (h : Kept s t) : Kept s (t.readKs k l).2 := by
  induction l generalizing t with
  | nil => exact h
  | cons w l ih => exact ih (.readK h)

theorem Kept.kSetFlag {k f : Nat} (h : Kept s t) : Kept s (t.kSetFlag k f) := .ite (.cbump (.same h rfl)) (.kPutFlag h)

/-! #### Fabric -/

theorem Kept.setWin {c w : Nat} {e : BitVec 128} (h : Kept s t) : Kept s (t.setWin c w e) := .same h rfl

theorem Kept.showWin {k c w : Nat} (h : Kept s t) : Kept s (t.showWin k c w) := .cset h

theorem Kept.sendPacket {p : Packet} (h : Kept s t) : Kept s (t.sendPacket p) := .same h rfl

theorem Kept.arrive {p : Packet} (h : Kept s t) : Kept s (t.arrive p) := .same h rfl

theorem Kept.nackPacket {p : Packet} {code : Nat} (h : Kept s t) : Kept s (t.nackPacket p code) := by
  unfold State.nackPacket
  extract_lets unit s₁ s₂ s₃
  have h₁ : Kept s s₁ := .report h
  have h₂ : Kept s s₂ := .dbump h₁
  have h₃ : Kept s s₃ := .ite (.same h₂ rfl) h₂
  exact .sendPacket h₃

theorem Kept.addWord {k w : Nat} {f : SWord → SWord → SWord} {v : SWord} {poison : Bool} (h : Kept s t) :
    Kept s (t.addWord k w f v poison) :=
  .kSetWord (.readK h)

theorem Kept.setRound {c w : Nat} {l : List Contribution} (h : Kept s t) : Kept s (t.setRound c w l) := .same h rfl

theorem Kept.applyRound {k c w : Nat} (h : Kept s t) : Kept s (t.applyRound k c w) :=
  .foldS (.setRound (.foldS h (fun _ _ h₁ => .addWord h₁))) (fun _ _ h₁ => .ite h₁ (.sendPacket h₁))

theorem Kept.contribute {k c base red : Nat} {p : Packet} (h : Kept s t) : Kept s (t.contribute k c base red p) := by
  unfold State.contribute
  extract_lets ws s₁ s₂
  have h₁ : Kept s s₁ := .foldS h fun _ _ h₁ => .setRound h₁
  have h₂ : Kept s s₂ := .sendPacket h₁
  exact .ite (.nackPacket h) (.foldS h₂ (fun _ _ h₃ => .ite (.applyRound h₃) h₃))

theorem Kept.noteFp32 {k : Nat} {p : Packet} (h : Kept s t) : Kept s (t.noteFp32 k p) :=
  .ite h (.ite (.choice (.setCtx h)) (.setCtx h))

theorem Kept.putWords {k a : Nat} {ws : List SWord} {poison : Bool} (h : Kept s t) :
    Kept s (t.putWords k a ws poison) :=
  .foldS h fun _ _ h₁ => .kSetWord h₁

theorem Kept.sendReplies {p : Packet} {kind : BitVec 4} {l : List (SWord × Bool)} {addrAt : Nat → BitVec 43}
    (h : Kept s t) :
    Kept s (t.sendReplies p kind l addrAt) :=
  .foldS h fun _ _ h₁ => .sendPacket h₁

theorem Kept.noteSaved {k : Nat} (h : Kept s t) : Kept s (t.noteSaved k) := .ite h (.cbump h)

theorem Kept.applyPacket {k : Nat} {e : BitVec 128} {p : Packet} (h : Kept s t) : Kept s (t.applyPacket k e p) := by
  unfold State.applyPacket
  extract_lets a s₁ x s₂ s₃ s₄ s₅ s₆
  have h₁ : Kept s s₁ := .noteSaved h
  have h₂ : Kept s s₂ := .foldS h₁ fun _ _ h₂ => .addWord h₂
  have h₃ : Kept s s₃ := .noteFp32 h₁
  have h₄ : Kept s s₄ := .foldS h₃ fun _ _ h₄ => .addWord h₄
  have h₅ : Kept s s₅ := .putWords h₁
  have h₆ : Kept s s₆ := .ite (.ite (.same h₅ rfl) (.kSetFlag h₅)) h₅
  exact .ite (.sendReplies (.readKs h₁)) (.ite (.sendPacket h₂)
      (.ite (.ite (.contribute h₁) (.sendPacket h₄)) (.ite (.sendPacket (.kSetFlag h₁)) (.sendPacket h₆))))

theorem Kept.holdLate {c : Nat} {p : Packet} (h : Kept s t) : Kept s (t.holdLate c p) := .same h rfl

theorem Kept.windowPacket {p : Packet} {free : Bool} (h : Kept s t) : Kept s (t.windowPacket p free) := by
  unfold State.windowPacket
  refine .ite h ?_
  split
  · exact .nackPacket h
  · extract_lets e k
    split
    · exact .holdLate h
    · exact .applyPacket h

theorem Kept.matchedRead {c unit w : Nat} {v : (SWord × Bool) × State} (h : Kept s t)
    (e : t.matchedRead c unit w = some v) :
    Kept s v.2 := by
  obtain ⟨n, -, rfl⟩ := Option.map_eq_some_iff.mp e
  exact .readK h

theorem Kept.matchedWrite {c unit w : Nat} {v : SWord} {poison : Bool} (h : Kept s t)
    (e : t.matchedWrite c unit w v poison = some u) : Kept s u := by
  obtain ⟨n, -, rfl⟩ := Option.map_eq_some_iff.mp e
  exact .kSetWord h

theorem Kept.localRead {k c w : Nat} (h : Kept s t) : Kept s (t.localRead k c w).2 := by
  unfold State.localRead
  extract_lets s₁
  have h₁ : Kept s s₁ := .touch h
  refine .ite_snd h₁ ?_
  split
  · rename_i e
    exact .matchedRead h e
  · rename_i e
    exact .rep h

theorem Kept.localWrite {k c w : Nat} {v : SWord} {poison : Bool} (h : Kept s t) :
    Kept s (t.localWrite k c w v poison) := by
  unfold State.localWrite
  refine .ite (.setSpm h) ?_
  split
  · rename_i e
    exact .matchedWrite h e
  · rename_i e
    exact .rep h

theorem Kept.putLocal {k a : Nat} {ws : List SWord} {poison : Bool} (h : Kept s t) :
    Kept s (t.putLocal k a ws poison) :=
  .foldS h fun _ _ h₁ => .ite (.localWrite h₁) (.kSetWord h₁)

theorem Kept.dropAnswer {p : Packet} (h : Kept s t) : Kept s (t.dropAnswer p) := .report (.dbump h)

theorem Kept.failOp {k q seq code : Nat} (h : Kept s t) : Kept s (t.failOp k q seq code) :=
  .ite (.ctxFault (.cbump (.kSetPair h))) (.kSetPair h)

theorem Kept.applySets {k : Nat} {o : Op} (h : Kept s t) : Kept s (t.applySets k o) :=
  .ite h (.ite (.kSetFlag (.ite (.ite (.kSetFlag h) (.kPutFlag h)) h)) (.ite (.ite (.kSetFlag h) (.kPutFlag h)) h))

theorem Kept.retireGo {n k q : Nat} {st : StreamId} (h : Kept s t) : Kept s (retireGo n t k q st) := by
  induction n generalizing t with
  | zero => exact h
  | succ n ih =>
    unfold Machine.retireGo
    extract_lets p
    split
    · exact .ite (ih (.applySets (.kSetPair h))) h
    · exact h

theorem Kept.retire {k q : Nat} {st : StreamId} (h : Kept s t) : Kept s (t.retire k q st) := .retireGo h

theorem Kept.settleSaved {k q : Nat} (h : Kept s t) : Kept s (t.settleSaved k q) := by
  unfold State.settleSaved
  refine .ite h (.retire (.foldS (.kSetPair h) ?_))
  intro x' a' h₁
  split
  · exact .kSetFlag h₁
  · exact h₁

theorem Kept.applyAnswer {k q : Nat} {o : Out} {p : Packet} (h : Kept s t) : Kept s (t.applyAnswer k q o p) := by
  unfold State.applyAnswer
  extract_lets s₁ pr code unit s₂ s₃ at' s₄ left pr'
  have h₁ : Kept s s₁ := .noteSaved h
  have h₂ : Kept s s₂ := .reportCtx h₁
  have h₃ : Kept s s₃ := .kSetPair h₂
  have h₄ : Kept s s₄ := .putLocal h₁
  exact .ite (.kSetPair h₁)
    (.ite (.settleSaved (.kSetPair h₁)) (.ite (.settleSaved (.failOp h₃)) (.settleSaved (.kSetPair h₄))))

theorem Kept.answerPacket {p : Packet} {free : Bool} (h : Kept s t) : Kept s (t.answerPacket p free) := by
  unfold State.answerPacket
  extract_lets k q
  refine .ite (.dropAnswer h) ?_
  split
  · exact .holdLate h
  · split
    · exact .dropAnswer h
    · exact .applyAnswer h

theorem Kept.localReads {k c : Nat} {l : List Nat} (h : Kept s t) : Kept s (t.localReads k c l).2 := by
  induction l generalizing t with
  | nil => exact h
  | cons w l ih => exact ih (.localRead h)

theorem Kept.consumeRead {k c w : Nat} (h : Kept s t) : Kept s (t.consumeRead k c w).2 :=
  .ite_snd (.consume (.localRead h)) (.localRead h)

theorem Kept.consumeBytes {n k c w : Nat} (h : Kept s t) : Kept s (consumeBytes n t k c w).2 := by
  induction n generalizing t w with
  | zero => exact h
  | succ n ih =>
    unfold Machine.consumeBytes
    split
    · rename_i e
      exact .snd e (.consumeRead h)
    · rename_i e
      have h₁ : Kept s _ := .snd e (.consumeRead h)
      split
      · rename_i e₁
        exact .snd e₁ (ih h₁)
      · rename_i e₁
        exact .snd e₁ (ih h₁)

/-! #### Operands -/

theorem Kept.fetchErrors {z : Site} (h : Kept s t) : Kept s (t.fetchErrors z).2 := by
  unfold State.fetchErrors
  extract_lets s₁
  have h₁ : Kept s s₁ := .foldS h fun _ _ h₁ => .touch h₁
  split
  · exact .consume h₁
  · exact h₁

theorem Kept.logSkip {k c q pos code : Nat} {st : StreamId} {late : Bool} {start : Int} (h : Kept s t) :
    Kept s (t.logSkip k c q pos code st late start) :=
  .ite (.cset (.cset (.setCtx h))) (.cbump (.setCtx h))

theorem Kept.noteSkip {k c q pos code : Nat} {st : StreamId} {late : Bool} (h : Kept s t) :
    Kept s (t.noteSkip k c q pos code st late) := by
  unfold State.noteSkip
  extract_lets s₁ s₂ n s₃
  have h₁ : Kept s s₁ := .logSkip h
  have h₂ : Kept s s₂ := .ctxFault (.reportCtx h₁)
  have h₃ : Kept s s₃ := .cbump (.cset h₂)
  exact .ite (.startTeardown (.reportCtx h₃)) h₃

theorem Kept.advance {z : Site} (h : Kept s t) : Kept s (t.advance z) := .ite (.cset (.setStrm h)) (.setStrm h)

theorem Kept.skip {z : Site} {code : Nat} (h : Kept s t) : Kept s (t.skip z code) := .noteSkip (.advance h)

theorem Kept.takeWait {z : Site} (h : Kept s t) : Kept s (t.takeWait z) := .ite (.kPutFlag h) h

theorem Kept.holdBusy {z : Site} (h : Kept s t) : Kept s (t.holdBusy z) := .ite h (.setStrm (.takeWait h))

theorem Kept.noteDramHold {z : Site} (h : Kept s t) : Kept s (t.noteDramHold z) :=
  .foldS h fun _ _ h₁ => .foldS h₁ (fun _ _ h₂ => .ite (.choice (.setStrm h₂)) h₂)

theorem Kept.stopCheck {k : Nat} (h : Kept s t) : Kept s (t.stopCheck k) := by
  unfold State.stopCheck
  refine .ite h ?_
  extract_lets c
  split
  · exact .ite (.setStrm h) h
  · exact h

theorem Kept.finishCheck {k : Nat} (h : Kept s t) : Kept s (t.finishCheck k) :=
    .ite (.setCtx (.stopCheck h)) (.stopCheck h)

theorem Kept.issue {c q : Nat} {st : StreamId} {want : Insn → StreamId → Bool} {checks : Site → State → List Nat}
    {busy : Site → State → Bool} {body : Site → State → State} (h : Kept s t) (hbody : ∀ a y, Kept s y →
      Kept s (body a y)) :
        Kept s (t.issue c q st want checks busy body) := by
  unfold State.issue
  split
  · exact h
  · refine .ite h ?_
    split
    · rename_i e
      exact .snd e (.fetchErrors h)
    · rename_i e
      have h₁ : Kept s _ := .snd e (.fetchErrors h)
      split
      · exact .finishCheck (.skip h₁)
      · refine .ite (.stopCheck (.noteDramHold h₁)) ?_
        split
        · exact .finishCheck (.skip (.takeWait h₁))
        · exact .ite (.stopCheck (.holdBusy h₁)) (.finishCheck (hbody _ _ (.advance (.takeWait h₁))))

theorem Kept.pushOp {z : Site} {f : Op → Op} (h : Kept s t) : Kept s (t.pushOp z f) := .setStrm h

theorem Kept.pushDone {z : Site} (h : Kept s t) : Kept s (t.pushDone z) := .retire (.pushOp h)

theorem Kept.lateSkip {z : Site} {code : Nat} (h : Kept s t) : Kept s (t.lateSkip z code) :=
    .retire (.noteSkip (.setStrm h))

/-! #### Streams -/

theorem Kept.goTo {z : Site} {p : Nat} (h : Kept s t) : Kept s (t.goTo z p) := .setStrm h

theorem Kept.mapStrm {z : Site} {f : Strm → Strm} (h : Kept s t) : Kept s (t.mapStrm z f) := .setStrm h

theorem Kept.issueA {c q op : Nat} {u' : UnitId} {checks : Site → State → List Nat} {body : Site → State → State} (h :
    Kept s t) (hbody : ∀ a y, Kept s y → Kept s (body a y)) : Kept s (t.issueA c q op u' checks body) :=
  .issue h fun _ _ h₁ => hbody _ _ h₁

theorem Kept.pushPlain {z : Site} (h : Kept s t) : Kept s (pushPlain z t) := .pushOp h

theorem Kept.pushStaging {z : Site} (h : Kept s t) : Kept s (pushStaging z t) := .ite (.dbump (.pushOp h)) (.pushOp h)

theorem Kept.pushRemote {z : Site} (h : Kept s t) : Kept s (pushRemote z t) := by
  unfold Machine.pushRemote
  refine .ite (.consume h) (.pushOp ?_)
  exact .same (.ite (.localRead h) h) rfl

/-! #### Threads -/

theorem Kept.putOp {w : Work} {o : Op} (h : Kept s t) : Kept s (t.putOp w o) := .setStrm h

theorem Kept.mapPair {w : Work} {f : Pair → Pair} (h : Kept s t) : Kept s (t.mapPair w f) := .setPair h

theorem Kept.pushOq {w : Work} {ref : Nat} {l : List QWord} (h : Kept s t) : Kept s (t.pushOq w ref l) := .mapPair h

theorem Kept.threadLdq {w : Work} (h : Kept s t) : Kept s (threadLdq w t) := .ite h (.putOp (.pushOq (.localReads h)))

theorem Kept.tapReads {w : Work} {l : List (Nat ⊕ SWord)} (h : Kept s t) : Kept s (t.tapReads w l).2 := by
  induction l generalizing t with
  | nil => exact h
  | cons x l ih =>
    cases x with
    | inl a => exact ih (.localRead h)
    | inr v => exact ih h

theorem Kept.threadLdt {w : Work} (h : Kept s t) : Kept s (threadLdt w t) := .ite h (.putOp (.pushOq (.tapReads h)))

theorem Kept.readTile {w : Work} (h : Kept s t) : Kept s (t.readTile w).2 := by
  unfold State.readTile
  extract_lets i base ew unit
  split
  · rename_i e
    exact .snd e (.consumeRead h)
  · rename_i e
    have h₁ : Kept s _ := .snd e (.consumeRead h)
    extract_lets marked dh ph claim dh' ph'
    split
    · rename_i e₁
      exact .snd e₁ (.consumeBytes h₁)
    · rename_i e₁
      have h₂ : Kept s _ := .snd e₁ (.consumeBytes h₁)
      exact .ite (.ctxFault (.cbump (.reportCtx (.ite (.cbump (.rep h₂)) h₂)))) (.ite (.cbump (.rep h₂)) h₂)

theorem Kept.threadLdz {w : Work} (h : Kept s t) : Kept s (threadLdz w t) := by
  unfold Machine.threadLdz
  dsimp only
  split
  · rename_i e
    exact .snd e (.ite_snd (.readTile h) h)
  · rename_i e
    have h₁ : Kept s _ := .snd e (.ite_snd (.readTile h) h)
    exact .ite (.putOp (.foldS h₁ (fun _ _ h₂ => .localWrite h₂))) (.ite (.putOp (.pushOq h₁)) (.putOp (.pushOq h₁)))

theorem Kept.threadStq {w : Work} (h : Kept s t) : Kept s (threadStq w t) :=
  .ite h (.putOp (.foldS (.mapPair h) (fun _ _ h₁ => .localWrite h₁)))

theorem Kept.threadStz {w : Work} (h : Kept s t) : Kept s (threadStz w t) := by
  unfold Machine.threadStz
  extract_lets i ref base __src
  split
  · exact h
  · exact .ite (.putOp (.localWrite (.mapPair h))) (.putOp (.localWrite (.mapPair h)))

theorem Kept.emit {w : Work} {p : Packet} {loc off left : Nat} (h : Kept s t) : Kept s (t.emit w p loc off left) :=
  .sendPacket (.setPair h)

theorem Kept.threadSend {w : Work} (h : Kept s t) : Kept s (threadSend w t) :=
  .putOp (.foldS (.localReads h) (fun _ _ h₁ => .emit h₁))

theorem Kept.threadGet {w : Work} (h : Kept s t) : Kept s (threadGet w t) := .putOp (.foldS h (fun _ _ h₁ => .emit h₁))

theorem Kept.threadRflag {w : Work} (h : Kept s t) : Kept s (threadRflag w t) := .ite h (.putOp (.emit h))

theorem Kept.threadFence {w : Work} (h : Kept s t) : Kept s (threadFence w t) := .ite (.putOp h) h

theorem Kept.threadDld {w : Work} (h : Kept s t) : Kept s (threadDld w t) := .putOp (.foldS h (fun _ _ h₁ => .emit h₁))

theorem Kept.threadDst {w : Work} (h : Kept s t) : Kept s (threadDst w t) :=
  .putOp (.foldS (.localReads h) (fun _ _ h₁ => .emit h₁))

theorem Kept.threadMfill {w : Work} (h : Kept s t) : Kept s (threadMfill w t) :=
  .putOp (.foldS h (fun _ _ h₁ => .localWrite h₁))

theorem Kept.threadMcopy {w : Work} (h : Kept s t) : Kept s (threadMcopy w t) :=
  .putOp (.foldS (.localReads h) (fun _ _ h₁ => .localWrite h₁))

theorem Kept.threadMtrans {w : Work} (h : Kept s t) : Kept s (threadMtrans w t) :=
  .putOp (.foldS (.localReads h) (fun _ _ h₁ => .localWrite h₁))

theorem Kept.threadMdigest {w : Work} (h : Kept s t) : Kept s (threadMdigest w t) := by
  unfold Machine.threadMdigest
  split
  · rename_i e
    exact .snd e (.consumeBytes h)
  · rename_i e
    exact .putOp (.snd e (.consumeBytes h))

theorem Kept.rgTap {w : Work} {r : SWord} {x y : Int} {b : Nat} (h : Kept s t) : Kept s (t.rgTap w r x y b).2 := by
  unfold State.rgTap
  extract_lets p
  refine .ite_snd ?_ h
  split
  · rename_i e
    exact .snd e (.consumeRead h)
  · rename_i e
    exact .snd e (.consumeRead h)

theorem Kept.rgSample {w : Work} {r : SWord} {X Y : Int} {b : Nat} (h : Kept s t) :
    Kept s (t.rgSample w r X Y b).2 := by
  unfold State.rgSample
  extract_lets xi yi fx fy
  split
  · rename_i e
    exact .snd e (.rgTap h)
  · rename_i e
    have h₁ : Kept s _ := .snd e (.rgTap h)
    split
    · rename_i e₁
      exact .snd e₁ (.rgTap h₁)
    · rename_i e₁
      have h₂ : Kept s _ := .snd e₁ (.rgTap h₁)
      split
      · rename_i e₂
        exact .snd e₂ (.rgTap h₂)
      · rename_i e₂
        have h₃ : Kept s _ := .snd e₂ (.rgTap h₂)
        split
        · rename_i e₃
          exact .snd e₃ (.rgTap h₃)
        · rename_i e₃
          exact .snd e₃ (.rgTap h₃)

theorem Kept.rgSum {w : Work} {r : SWord} {b : Nat} {l : List (Int × Int)} {acc : List Int} (h : Kept s t) :
    Kept s (t.rgSum w r b l acc).2 := by
  induction l generalizing t acc with
  | nil => exact h
  | cons x l ih =>
    unfold State.rgSum
    split
    · rename_i e
      exact .snd e (.rgSample h)
    · rename_i e
      exact ih (.snd e (.rgSample h))

theorem Kept.rgPixels {l : List (Nat × Nat × Nat)} {w : Work} {r : SWord} {bx : Int × Int × Int × Int} {dest : Nat}
    (h : Kept s t) : Kept s (rgPixels l t w r bx dest).2 := by
  induction l generalizing t with
  | nil => exact h
  | cons x l ih =>
    unfold Machine.rgPixels
    split
    · rename_i e
      exact .snd e (.rgSum h)
    · rename_i e
      exact ih (.localWrite (.snd e (.rgSum h)))

theorem Kept.regionEnd {w : Work} (h : Kept s t) : Kept s (t.regionEnd w) := by
  unfold State.regionEnd
  extract_lets r n excess x l s₁ s₂ s₃ __src s₄ __src'
  have h₁ : Kept s s₁ := .localWrite h
  have h₂ : Kept s s₂ := .cbump (.rep h₁)
  have h₃ : Kept s s₃ := .cset h₂
  have h₄ : Kept s s₄ := .ite h₁ (.ite (.ctxNote (.same h₃ rfl)) h₃)
  exact .putOp h₄

theorem Kept.threadRegion {w : Work} (h : Kept s t) : Kept s (threadRegion w t) := by
  unfold Machine.threadRegion
  extract_lets r n b px __src o
  refine .ite (.regionEnd h) ?_
  split
  · rename_i e
    exact .snd e (.consumeRead h)
  · rename_i e
    have h₁ : Kept s _ := .snd e (.consumeRead h)
    extract_lets f
    split
    · rename_i e₁
      exact .snd e₁ (.rgPixels h₁)
    · rename_i e₁
      have h₂ : Kept s _ := .snd e₁ (.rgPixels h₁)
      exact .ite (.regionEnd h₂) (.putOp h₂)

theorem Kept.runThread {w : Work} (h : Kept s t) : Kept s (runThread w t) := by
  unfold Machine.runThread
  split
  · exact .threadLdq h
  · exact .threadLdt h
  · exact .threadLdz h
  · exact .threadStq h
  · exact .threadStz h
  · exact .threadDld h
  · exact .threadDst h
  · exact .threadSend h
  · exact .threadSend h
  · exact .threadSend h
  · exact .threadGet h
  · exact .threadRflag h
  · exact .threadFence h
  · exact .threadMfill h
  · exact .threadMcopy h
  · exact .threadMtrans h
  · exact .threadMdigest h
  · exact .threadRegion h
  · exact h

theorem Kept.elementThread {c q : Nat} {u' : UnitId} (h : Kept s t) : Kept s (t.elementThread c q u') := by
  unfold State.elementThread
  split
  · exact h
  · split
    · exact h
    · exact .ite h (.finishCheck (.runThread h))

theorem Kept.completeEffects {k c : Nat} {o : Op} (h : Kept s t) : Kept s (t.completeEffects k c o) :=
    .ite (.localWrite h) h

theorem Kept.instructionComplete {c q : Nat} {st : StreamId} (h : Kept s t) :
    Kept s (t.instructionComplete c q st) := by
  unfold State.instructionComplete
  split
  · exact h
  · extract_lets p waits
    split
    · exact .retire h
    · extract_lets s₁ t' s₂ s₃
      have h₁ : Kept s s₁ := .completeEffects h
      have h₂ : Kept s s₂ := .setStrm h₁
      have h₃ : Kept s s₃ := by
        unfold s₃
        split
        · exact .ite h₂ (.kSetFlag h₂)
        · exact h₂
      exact .finishCheck (.retire h₃)

/-! #### Array -/

theorem Kept.mapGroup {c a g : Nat} {f : Group → Group} (h : Kept s t) : Kept s (t.mapGroup c a g f) := .setGroup h

theorem Kept.mapX {c q seq : Nat} {f : Op → Op} (h : Kept s t) : Kept s (t.mapX c q seq f) := .setStrm h

theorem Kept.loadRows {k c a g : Nat} (h : Kept s t) : Kept s (t.loadRows k c a g) := by
  unfold State.loadRows
  extract_lets x
  split
  · exact h
  · extract_lets p r s₁ rows cs s₂
    have h₁ : Kept s s₁ := .setPair h
    have h₂ : Kept s s₂ := .mapGroup h₁
    split
    · exact .consume h₁
    · exact .ite (.mapGroup h₁) (.mapX h₂)

theorem Kept.weightLoad {c a g : Nat} (h : Kept s t) : Kept s (t.weightLoad c a g) := by
  unfold State.weightLoad
  extract_lets x s₁
  have h₁ : Kept s s₁ := by
    unfold s₁
    split
    · exact .ite (.mapGroup h) h
    · exact h
  split
  · exact h₁
  · split
    · exact .finishCheck (.loadRows h₁)
    · exact h₁

theorem Kept.splitChange {c a : Nat} (h : Kept s t) : Kept s (t.splitChange c a) := by
  unfold State.splitChange
  split
  · exact h
  · refine .ite h ?_
    split
    · exact h
    · exact .setCtx (.setSplit (.foldS h (fun _ _ h₁ => .mapGroup h₁)))

theorem Kept.injectSlot {c a g : Nat} {j : Job} {w : WSet} {words : List QWord} (h : Kept s t) :
    Kept s (t.injectSlot c a g j w words) :=
  .ite (.mapX (.mapGroup h)) (.mapGroup h)

theorem Kept.markUnder {c : Nat} {j : Job} {words : List QWord} (h : Kept s t) : Kept s (t.markUnder c j words) :=
  .ite (.setSlot h) h

theorem Kept.vectorSlot {c a g : Nat} (h : Kept s t) : Kept s (t.vectorSlot c a g) := by
  unfold State.vectorSlot
  extract_lets x
  split
  · exact h
  · split
    · exact h
    · refine .ite h ?_
      extract_lets carry p
      split
      · exact h
      · extract_lets need got s₁ s₂ words s₃
        have h₁ : Kept s s₁ := .setPair h
        have h₂ : Kept s s₂ := .markUnder h₁
        have h₃ : Kept s s₃ := .ite (.mapGroup h₂) h₂
        split
        · exact .consume h₁
        · exact .ite (.mapGroup h₂) (.finishCheck (.injectSlot h₃))

/-! #### Ceu -/

theorem Kept.recordAt {z : Site} {a n : Nat} (h : Kept s t) : Kept s (t.recordAt z a n).2 := .consumeBytes h

theorem Kept.statusOf {z : Site} {x2 : Option Nat} (h : Kept s t) : Kept s (t.statusOf z x2).2.2 := by
  unfold State.statusOf
  split
  · exact h
  · split
    · rename_i e
      exact .snd e (.consumeRead h)
    · rename_i e
      exact .snd e (.consumeRead h)

theorem Kept.startStream {z : Site} {r : Rec} {wfmt : Nat} {sa : F32} {st : BitVec 8} {cols table : List F32}
    (h : Kept s t) :
    Kept s (t.startStream z r wfmt sa st cols table) := by
  unfold State.startStream
  exact .mapGroup (.setSlot h)

theorem Kept.readStream {z : Site} {wfmt : Nat} (h : Kept s t) : Kept s (t.readStream z wfmt) := by
  unfold State.readStream
  split
  · rename_i e
    exact .snd e (.recordAt h)
  · rename_i e
    have h₁ : Kept s _ := .snd e (.recordAt h)
    split
    · exact .lateSkip h₁
    · split
      · rename_i e₁
        exact .snd_snd e₁ (.statusOf h₁)
      · rename_i e₁
        have h₂ : Kept s _ := .snd_snd e₁ (.statusOf h₁)
        extract_lets sa
        split
        · rename_i e₂
          exact .snd_snd e₂ (.statusOf h₂)
        · rename_i e₂
          have h₃ : Kept s _ := .snd_snd e₂ (.statusOf h₂)
          split
          · rename_i e₃
            exact .snd e₃ (.recordAt h₃)
          · rename_i e₃
            have h₄ : Kept s _ := .snd e₃ (.recordAt h₃)
            split
            · rename_i e₄
              exact .snd e₄ (.ite_snd (.recordAt h₄) h₄)
            · rename_i e₄
              exact .startStream (.snd e₄ (.ite_snd (.recordAt h₄) h₄))

theorem Kept.laneReport {k c a g slot code : Nat} {detail : List Byte} (h : Kept s t) :
    Kept s (t.laneReport k c a g slot code detail) := by
  unfold State.laneReport
  extract_lets s₁ s₂
  have h₁ : Kept s s₁ := .reportCtx h
  have h₂ : Kept s s₂ := by
    unfold s₂
    split
    · exact .cbump h₁
    · exact h₁
  exact .ite (.ctxDegrade h₂) (.ctxFault h₂)

theorem Kept.elemFault {k c a g q slot code : Nat} (h : Kept s t) : Kept s (t.elemFault k c a g q slot code) :=
  .setSlot (.laneReport h)

theorem Kept.elemCode {k c a g : Nat} {j : Job} {t' col : Nat} {recip : F32} {e : Elem} (h : Kept s t) :
    Kept s (t.elemCode k c a g j t' col recip e).2 := by
  unfold State.elemCode
  extract_lets r i take
  split
  · exact h
  · exact h
  · exact h
  · refine .ite_snd (.setSlot h) (.ite_snd (.setSlot h) (.ite_snd (.setSlot h) ?_))
    split
    · exact .elemFault h
    · exact .setSlot h

theorem Kept.elemCodes {k c a g : Nat} {j : Job} {n : Nat} {l : List (Nat × F32 × Elem)} (h : Kept s t) :
    Kept s (t.elemCodes k c a g j n l).2 := by
  induction l generalizing t with
  | nil => exact h
  | cons x l ih => exact ih (.elemCode h)

theorem Kept.blockScale {k c base ix : Nat} {v : F32} (h : Kept s t) : Kept s (t.blockScale k c base ix v) :=
  .localWrite (.localRead h)

theorem Kept.drain {c : Nat} {j : Job} (h : Kept s t) : Kept s (t.drain c j).2 := .setPair h

theorem Kept.putJob {c a g : Nat} {j : Job} (h : Kept s t) : Kept s (t.putJob c a g j) := .mapGroup h

theorem Kept.endSlot {k c a g : Nat} {j : Job} (h : Kept s t) : Kept s (t.endSlot k c a g j) := by
  unfold State.endSlot
  extract_lets t' rs x s₁ cut s₂ __src d
  have h₁ : Kept s s₁ := .foldS (.elemCodes h) fun _ _ h₁ => .blockScale h₁
  have h₂ : Kept s s₂ := .foldS h₁ fun _ _ h₂ => .localWrite h₂
  exact .ite (.putJob h) (.putJob (.drain h₂))

theorem Kept.abft {k c a g test t' col : Nat} (h : Kept s t) : Kept s (t.abft k c a g test t' col) := .laneReport h

theorem Kept.dataColumn {k c a g : Nat} {j : Job} {f : SlotSums} (h : Kept s t) :
    Kept s (t.dataColumn k c a g j f).2 := by
  unfold State.dataColumn
  extract_lets r p col e old pass acc s₁ v s₂ h' s₃
  have h₁ : Kept s s₁ := .ite (.setAcc h) h
  have h₂ : Kept s s₂ := by
    unfold s₂
    split
    · exact .elemFault h₁
    · exact h₁
  have h₃ : Kept s s₃ := by
    unfold s₃
    split
    · exact .elemFault h₂
    · exact h₂
  exact .ite_snd (.setAcc h) (.ite_snd h₁ h₃)

theorem Kept.columnWork {k c a g : Nat} {j : Job} (h : Kept s t) : Kept s (t.columnWork k c a g j) := by
  unfold State.columnWork
  split
  · exact .putJob h
  · dsimp only
    refine .ite (.ite (.putJob h) (.putJob (.ite (.abft ?_) ?_)))
        (.ite (.putJob (.dataColumn h)) (.endSlot (.ite (.abft (.dataColumn h)) (.dataColumn h))))
    · split
      · exact .abft h
      · exact h
    · split
      · exact .abft h
      · exact h

theorem Kept.columnStep {k c a g : Nat} {j : Job} (h : Kept s t) : Kept s (t.columnStep k c a g j) :=
  .ite (.columnWork h) (.putJob (.drain h))

theorem Kept.drainGroup {n k c a g : Nat} (h : Kept s t) : Kept s (drainGroup n t k c a g) := by
  induction n generalizing t with
  | zero => exact h
  | succ n ih =>
    unfold Machine.drainGroup
    split
    · exact h
    · exact .ite (ih (.putJob (.setPair h))) (.ite h (ih (.columnWork h)))

theorem Kept.drainAll {k c a g : Nat} (h : Kept s t) : Kept s (t.drainAll k c a g) := .drainGroup h

theorem Kept.columnSum {c a g : Nat} (h : Kept s t) : Kept s (t.columnSum c a g) := by
  unfold State.columnSum
  split
  · exact h
  · split
    · exact h
    · exact .finishCheck (.columnStep h)

theorem Kept.closeTensor {k c q i : Nat} {x : ScaleClose} (h : Kept s t) : Kept s (t.closeTensor k c q i x) := by
  unfold State.closeTensor
  extract_lets r v hasQ sc badP s₁ v' miss next strict s₂ s₃ s₄
  have h₁ : Kept s s₁ := .ite (.laneReport h) h
  have h₂ : Kept s s₂ := .ite (.laneReport h₁) h₁
  have h₃ : Kept s s₃ := .localWrite h₂
  have h₄ : Kept s s₄ := .setSlot h₃
  exact .ite (.choice (.kSetFlag h₄)) h₄

theorem Kept.tensorClose {c q i : Nat} (h : Kept s t) : Kept s (t.tensorClose c q i) := by
  unfold State.tensorClose
  split
  · exact .ite h (.finishCheck (.closeTensor h))
  · exact h

theorem Kept.narrow {z : Site} {r : Rec} {sc : F32} {stage : List Byte} (h : Kept s t) :
    Kept s (t.narrow z r sc stage) := by
  unfold State.narrow
  extract_lets x n recip cs forced s₁ s₂ w l f f' s₃
  have h₁ : Kept s s₁ := .foldS h fun _ _ h₁ => .laneReport h₁
  have h₂ : Kept s s₂ := .foldS h₁ fun _ _ h₂ => .localWrite h₂
  have h₃ : Kept s s₃ := .localWrite (.localRead h₂)
  exact .mapX h₃

theorem Kept.readNarrow {z : Site} (h : Kept s t) : Kept s (t.readNarrow z) := by
  unfold State.readNarrow
  split
  · rename_i e
    exact .snd e (.recordAt h)
  · rename_i e
    have h₁ : Kept s _ := .snd e (.recordAt h)
    split
    · exact .lateSkip h₁
    · split
      · rename_i e₁
        exact .snd e₁ (.ite_snd (.consumeRead h₁) h₁)
      · rename_i e₁
        have h₂ : Kept s _ := .snd e₁ (.ite_snd (.consumeRead h₁) h₁)
        extract_lets sc
        split
        · rename_i e₂
          exact .snd e₂ (.recordAt h₂)
        · rename_i e₂
          exact .narrow (.snd e₂ (.recordAt h₂))

/-! #### Packets -/

theorem Kept.releaseLate {c : Nat} (h : Kept s t) : Kept s (t.releaseLate c) :=
  .foldS (.same h rfl) fun _ _ h₁ => .ite (.windowPacket h₁) (.answerPacket h₁)

theorem Kept.lateReplyPause {c : Nat} (h : Kept s t) : Kept s (t.lateReplyPause c) :=
  .ite h (.foldS (.releaseLate h) (fun _ _ h₁ => .cbump h₁))

theorem Kept.pauseFull {before : KV (List Packet)} (h : Kept s t) : Kept s (t.pauseFull before) :=
  .ite h (.foldS h (fun _ _ h₁ => .ite (.lateReplyPause h₁) h₁))

theorem Kept.arriveWindow {kind : BitVec 4} {p : Packet} (h : Kept s t) : Kept s (t.arriveWindow kind p) :=
  .ite (.pauseFull (.windowPacket (.arrive (.fresh h)))) (.fresh h)

theorem Kept.promoPut {x : Promotion} {seq : Nat} {code : Option Nat} (h : Kept s t) :
    Kept s (t.promoPut x seq code) := by
  unfold State.promoPut
  extract_lets x'
  split
  · exact .complete (.same h rfl)
  · exact .same h rfl

theorem Kept.promoAnswer {p : Packet} (h : Kept s t) : Kept s (t.promoAnswer p) := by
  unfold State.promoAnswer
  split
  · exact .dropAnswer h
  · exact .ite (.promoPut (.report h)) (.promoPut h)

theorem Kept.arriveAnswer {kind : BitVec 4} {p : Packet} (h : Kept s t) : Kept s (t.arriveAnswer kind p) :=
  .ite (.ite (.pauseFull (.answerPacket (.arrive (.fresh h))))
    (.ite (.promoAnswer (.arrive (.fresh h))) (.arrive (.fresh h))))
      (.fresh h)

theorem Kept.memoryWrite {p : Packet} (h : Kept s t) : Kept s (t.memoryWrite p) := by
  unfold State.memoryWrite
  split
  · exact .nackPacket h
  · exact .sendPacket (.foldS h (fun _ _ h₁ => .ite h₁ (.putWord h₁)))

theorem Kept.memoryReadRequest {p : Packet} (h : Kept s t) : Kept s (t.memoryReadRequest p) := by
  unfold State.memoryReadRequest
  split
  · exact .nackPacket h
  · exact .sendReplies (.foldS h (fun _ _ h₁ => .touch h₁))

theorem Kept.noteTimeout {l : Nat} (h : Kept s t) : Kept s (t.noteTimeout l) :=
    .ite (.linkFail (.same h rfl)) (.same h rfl)

theorem Kept.noteLink {l : Option Nat} (h : Kept s t) : Kept s (t.noteLink l) := by
  unfold State.noteLink
  split
  · exact .noteTimeout h
  · exact h

theorem Kept.hostTimeout {h' : Nat} {p : Packet} (h : Kept s t) : Kept s (t.hostTimeout h' p) := by
  unfold State.hostTimeout
  split
  · exact h
  · exact .ite h (.noteTimeout (.ite (.send (.report h)) (.report h)))

theorem Kept.linkTimeout {p : Packet} (h : Kept s t) : Kept s (t.linkTimeout p) := by
  unfold State.linkTimeout
  extract_lets k q link s₁ unit s₂ s₃
  have h₁ : Kept s s₁ := .report h
  have h₂ : Kept s s₂ := .reportCtx h
  have h₃ : Kept s s₃ := .ite (.same h₂ rfl) h₂
  refine .ite ?_ (.ite (.hostTimeout h) (.ite (.hostTimeout h) (.ite h ?_)))
  · split
    · exact h
    · exact .noteLink (.promoPut h₁)
  · split
    · exact h
    · exact .ite h (.noteLink (.settleSaved (.failOp (.kSetPair h₃))))

/-! #### Places -/

theorem Kept.openWindow {k c w : Nat} {e : BitVec 128} (h : Kept s t) : Kept s (t.openWindow k c w e) :=
  .ite (.showWin (.setWin h)) (.setCtx (.showWin (.setWin h)))

theorem Kept.openAll {l : List (BitVec 128)} {k c : Nat} (h : Kept s t) (e : openAll l t k c = some u) : Kept s u := by
  induction l generalizing t with
  | nil => cases e; exact h
  | cons w l ih =>
    unfold Machine.openAll at e
    split at e
    · split at e
      · cases e
      · exact ih (.openWindow h) e
    · exact ih h e

theorem Kept.closeNow {c w : Nat} (h : Kept s t) : Kept s (t.closeNow c w) := by
  unfold State.closeNow
  extract_lets e s₁ s₂ ps s₃ s₄
  have h₁ : Kept s s₁ := .showWin (.setWin h)
  have h₂ : Kept s s₂ := .same h₁ rfl
  have h₃ : Kept s s₃ := .same h₂ rfl
  have h₄ : Kept s s₄ := .report h₃
  exact .ite h (.ite h₂ (.foldS h₄ (fun _ _ h₅ => .nackPacket h₅)))

theorem Kept.closeWindow {k c w : Nat} {h' : Option HRef} (h : Kept s t) : Kept s (t.closeWindow k c w h') := by
  unfold State.closeWindow
  refine .ite ?_ (.same h rfl)
  extract_lets s₁
  have h₁ : Kept s s₁ := .closeNow h
  split
  · exact .complete h₁
  · exact h₁

theorem Kept.closeDue {c w : Nat} (h : Kept s t) : Kept s (t.closeDue c w) := by
  unfold State.closeDue
  split
  · exact h
  · exact .ite h (.foldS (.closeNow (.same h rfl)) (fun _ _ h₁ => .complete h₁))

theorem Kept.clearAccs {c a g : Nat} (h : Kept s t) : Kept s (t.clearAccs c a g) := .same h rfl

theorem Kept.clearUnits {k c : Nat} (h : Kept s t) : Kept s (t.clearUnits k c) := by
  unfold State.clearUnits
  extract_lets x s₁ s₂
  have h₁ : Kept s s₁ := .foldS h fun _ _ h₁ => .foldS (.setPair h₁) (fun _ _ h₂ => .setSlot h₂)
  have h₂ : Kept s s₂ := .foldS h₁ fun _ _ h₂ => .setGroup (.clearAccs h₂)
  exact .foldS h₂ fun _ _ h₃ => .ite (.putFlag h₃) h₃

theorem Kept.clearQuarters {k c : Nat} (h : Kept s t) : Kept s (t.clearQuarters k c) := .zeroRange h

theorem Kept.takeGroups {k c : Nat} (h : Kept s t) : Kept s (t.takeGroups k c) :=
  .foldS (.setCtx h) fun _ _ h₁ => .setGroup (.setSplit h₁)

theorem Kept.placeLC {k c : Nat} (h : Kept s t) : Kept s (t.placeLC k c) := by
  unfold State.placeLC
  extract_lets s₁ s₂ s₃ x s₄ __src
  have h₁ : Kept s s₁ := .clearQuarters h
  have h₂ : Kept s s₂ := .foldS h₁ fun _ _ h₂ => .setSpm h₂
  have h₃ : Kept s s₃ := .takeGroups h₂
  have h₄ : Kept s s₄ := .foldS h₃ fun _ _ h₄ => .setPair h₄
  exact .setCtx h₄

theorem Kept.saveOut {k : Nat} (h : Kept s t) : Kept s (t.saveOut k) :=
  .cset (.cset (.setCtx (.clearUnits (.foldS h (fun _ _ h₁ => .drainAll h₁)))))

theorem Kept.restoreIn {k c : Nat} (h : Kept s t) : Kept s (t.restoreIn k c) := by
  unfold State.restoreIn
  extract_lets s₁ s₂ area x bed run s₃ s₄ s₅ s₆ s₇ s₈ __src s₉
  have h₁ : Kept s s₁ := .clearQuarters h
  have h₂ : Kept s s₂ := .takeGroups h₁
  have h₃ : Kept s s₃ := .foldS h₂ fun _ _ h₃ => .setSpm h₃
  have h₄ : Kept s s₄ := .foldS h₃ fun _ _ h₄ => .setPair h₄
  have h₅ : Kept s s₅ := .foldS h₄ fun _ _ h₅ => .setSlot h₅
  have h₆ : Kept s s₆ := .foldS h₅ (fun _ _ h₆ => .setGroup h₆)
  have h₇ : Kept s s₇ := .foldS h₆ (fun _ _ h₆ => .foldS h₆ (fun _ _ h₆ => .same h₆ rfl))
  have h₈ : Kept s s₈ := .foldS h₇ (fun _ _ h₆ => .putFlag h₆)
  have h₉ : Kept s s₉ := .setCtx h₈
  exact .cset (.cset h₉)

/-! #### Stalls -/

theorem Kept.crossWait {k : Nat} (h : Kept s t) : Kept s (t.crossWait k) :=
  .ite (.startTeardown (.noteDetail (.reportCtx h))) h

theorem Kept.stopReached {k : Nat} (h : Kept s t) : Kept s (t.stopReached k) :=
  .ite (.statusCreator (.cset (.stopCheck h))) (.stopCheck h)

/-! #### Clock -/

theorem Kept.stallBeat {bed : Nat} (h : Kept s t) : Kept s (t.stallBeat bed) := .foldS h fun _ _ h₁ =>
    .ite h₁ (.setCtx h₁)

theorem Kept.holdBeat {bed : Nat} (h : Kept s t) : Kept s (t.holdBeat bed) := by
  unfold State.holdBeat
  refine .foldS h ?_
  intro x' a' h₁
  extract_lets s₁
  have h₁ : Kept s s₁ := by
    unfold s₁
    refine .foldS h₁ ?_
    intro x' a' h₂
    split
    · exact .ite (.noteDramHold h₂) h₂
    · exact h₂
  exact .stopCheck h₁

theorem Kept.beat {d : Nat} (h : Kept s t) : Kept s (t.beat d) := .ite (.stallBeat (.holdBeat (.dset h))) (.dset h)

theorem Kept.measureRates (h : Kept s t) : Kept s t.measureRates := by
  unfold State.measureRates
  extract_lets ns s₁
  have h₁ : Kept s s₁ := by
    refine .foldS h fun x d h₁ => ?_
    extract_lets n rate src s₂
    have h₂ : Kept s s₂ := .same (t := src) (.dset h₁) rfl
    exact .ite (.same h₂ rfl) h₂
  clear_value s₁
  exact .ite h (.same h₁ rfl)

theorem Kept.idleTick (h : Kept s t) : Kept s (idleTick t) := by
  unfold Machine.idleTick
  extract_lets s₁
  have h₁ : Kept s s₁ := h.trans ⟨id, rfl, Nat.le_succ _, BitVec.and_self⟩
  exact .measureRates (.foldS h₁ fun _ _ h₂ => .ite (.beat h₂) h₂)

/-! #### Contexts -/

theorem Kept.refuseCtx {r : HRef} {k code : Nat} (h : Kept s t) : Kept s (t.refuseCtx r k code) := .refuse (.cset h)

theorem Kept.clearObject {index : Nat} (h : Kept s t) : Kept s (t.clearObject index) := .same h rfl

theorem Kept.ctxCreate {p0 : BitVec 64} {r : HRef} (h : Kept s t) : Kept s (ctxCreate p0 r t) := by
  unfold Machine.ctxCreate
  split
  · exact .refuse h
  · extract_lets s₁ s₂ s₃
    have h₁ : Kept s s₁ := .setCtx (.clearObject h)
    have h₂ : Kept s s₂ := .same h₁ rfl
    have h₃ : Kept s s₃ := .cset (.cset (.cset h₂))
    exact .complete h₃

theorem Kept.keepContainer {k : Nat} {d : Cont} (h : Kept s t) (e : t.keepContainer k d = some u) : Kept s u := by
  -- The body is taken as it is written: after any change in it the kernel would compute the allotment.
  obtain ⟨f, hf⟩ : ∃ f, f = State.keepContainer := ⟨_, rfl⟩
  rw [← hf] at e
  delta State.keepContainer at hf
  subst hf
  beta_reduce at e
  extract_lets +onlyGivenNames -lift cls at e
  split at e
  · cases e
  · obtain rfl := Option.some.inj e
    exact .cset (.cset (.cset (.cset (.cset (.cset (.cset (.cset (.cset (.setCtx (.writeBytes h))))))))))

theorem Kept.sendReturned {p k : Nat} (h : Kept s t) : Kept s (t.sendReturned p k) := .statusCreator h

theorem Kept.getD {o : Option State} (h : Kept s t) (ho : ∀ v, o = some v → Kept s v) : Kept s (o.getD t) := by
  cases o with
  | none => exact h
  | some v => exact ho v rfl

theorem Kept.replaceHeld {p k : Nat} (h : Kept s t) : Kept s (t.replaceHeld p k) := by
  unfold State.replaceHeld
  extract_lets c s₁ src s₂
  have h₂ : Kept s s₂ := .setCtx (.placeLC h)
  exact .sendReturned (.getD h₂ fun _ e => .openAll h₂ e)

theorem Kept.reloadEnd {p : Nat} (h : Kept s t) : Kept s (t.reloadEnd p) :=
  .ite h (.ite (.setPart (.ite (.setPstate h) h)) (.ite (.setPstate h) h))

theorem Kept.reload {k : Nat} {data : List Byte} (h : Kept s t) : Kept s (t.reload k data) :=
  .reloadEnd (.ite (.replaceHeld (.setCtx (.writeBytes h))) (.setCtx (.writeBytes h)))

theorem Kept.ctxLoad {k : Nat} {p2 : BitVec 64} {data : List Byte} {r : HRef} (h : Kept s t) :
    Kept s (ctxLoad k p2 data r t) := by
  unfold Machine.ctxLoad
  dsimp only
  refine .ite (.refuse h) ?_
  split
  · exact .refuseCtx h
  · refine .ite (.refuseCtx h) (.ite (.refuseCtx h) (.ite (.complete (.reload h)) ?_))
    split
    · rename_i e
      exact .refuseCtx h
    · rename_i e
      exact .complete (.keepContainer h e)

theorem Kept.latchStart {k : Nat} (h : Kept s t) : Kept s (t.latchStart k) :=
    .setCtx (.foldS h (fun _ _ h₁ => .cset h₁))

theorem Kept.loseDest {m : Nat} (h : Kept s t) : Kept s (t.loseDest m) := .setCtx h

theorem Kept.evict {k c : Nat} (h : Kept s t) : Kept s (t.evict k c) :=
  .setWaiting (.foldS h (fun _ _ h₁ => .ite (.saveOut h₁) (.loseDest h₁)))

theorem Kept.startLC {k c : Nat} (h : Kept s t) (e : t.startLC k c = some u) : Kept s u :=
  .openAll (.placeLC (.cset (.cset (.cset (.latchStart (.evict h)))))) e

theorem Kept.startBE {k c : Nat} (h : Kept s t) (e : t.startBE k c = some u) : Kept s u := by
  unfold State.startBE at e
  extract_lets s₁ src s₂ at e
  have h₂ : Kept s s₂ := .setCtx (.cset (.latchStart h))
  split at e
  · cases e
  · rename_i e₁
    cases e
    exact .setWaiting (.cset (.openAll h₂ e₁))

theorem Kept.joinGroup {k : Nat} (h : Kept s t) : Kept s (t.joinGroup k) := .ite h (.cset (.setAdGroup h))

theorem Kept.refuseReplica {r : HRef} {k : Nat} (h : Kept s t) : Kept s (t.refuseReplica r k) :=
    .complete (.rep (.cset h))

theorem Kept.completeStart {r : HRef} {k : Nat} (h : Kept s t) : Kept s (t.completeStart r k) := .completeBody h

theorem Kept.startAt {r : HRef} {k c : Nat} (h : Kept s t) : Kept s (t.startAt r k c) := by
  unfold State.startAt
  refine .ite (.ite (.refuseCtx h) ?_) (.ite (.refuseReplica h) ?_)
  · split
    · rename_i e
      exact .completeStart (.startLC h e)
    · exact .complete (.rep (.cset h))
  · split
    · rename_i e
      exact .completeStart (.joinGroup (.startBE h e))
    · exact .complete (.rep (.cset h))

theorem Kept.ctxStart {k : Nat} {r : HRef} (h : Kept s t) : Kept s (ctxStart k r t) := by
  unfold Machine.ctxStart
  refine .ite (.refuse h) (.ite (.refuseCtx h) (.ite (.refuseCtx h) ?_))
  split
  · exact .refuseCtx h
  · exact .startAt h

theorem Kept.ctxTeardown {k : Nat} {r : HRef} (h : Kept s t) : Kept s (ctxTeardown k r t) :=
  .ite (.complete (.tearOne h)) (.setCtx (.startTeardown (.report h)))

theorem Kept.ctxSave {k : Nat} {p1 p2 : BitVec 64} {r : HRef} (h : Kept s t) : Kept s (ctxSave k p1 p2 r t) :=
  .ite (.refuse h) (.ite (.refuse h) (.complete (.hostWrite h)))

theorem Kept.ctxRestore {k : Nat} {p2 : BitVec 64} {data : List Byte} {r : HRef} (h : Kept s t) :
    Kept s (ctxRestore k p2 data r t) := by
  unfold Machine.ctxRestore
  refine .ite (.refuse h) ?_
  dsimp only
  split
  · exact .refuseCtx h
  · refine .ite (.refuse h) ?_
    split
    · rename_i e
      exact .refuseCtx h
    · rename_i e
      exact .complete (.setSaved (.keepContainer h e))

theorem Kept.windowOpen {k w : Nat} {p2 p3 : BitVec 64} {r : HRef} (h : Kept s t) : Kept s (windowOpen k w p2 p3 r t) :=
  .ite (.refuse h) (.ite (.complete (.rep h)) (.complete (.openWindow h)))

theorem Kept.windowClose {k w : Nat} {r : HRef} (h : Kept s t) : Kept s (windowClose k w r t) :=
  .ite (.refuse h) (.ite (.refuse h) (.ite (.complete h) (.closeWindow h)))

/-! #### Sched -/

theorem Kept.abortLC {k : Nat} (h : Kept s t) : Kept s (t.abortLC k) := by
  unfold State.abortLC
  extract_lets x c stop s₁ s₂ src
  have h₁ : Kept s s₁ := .foldS h fun _ _ h₁ => .foldS (.setPair h₁) (fun _ _ h₂ => .setSlot h₂)
  have h₂ : Kept s s₂ := .foldS h₁ fun _ _ h₂ => .mapGroup h₂
  exact .setCtx h₂

theorem Kept.residue {k q n : Nat} (h : Kept s t) : Kept s (t.residue k q n) :=
    .ite h (.ctxFault (.reportCtx (.cset h)))

theorem Kept.startFrame {k : Nat} (h : Kept s t) : Kept s (t.startFrame k) := by
  unfold State.startFrame
  extract_lets src s₁ s₂ x c v s₃ s₄ vf s₅ s₆ src'
  have h₁ : Kept s s₁ := .setCtx h
  have h₂ : Kept s s₂ := .ite h₁ (.cbump (.abortLC h₁))
  have h₃ : Kept s s₃ := .cset (.cset h₂)
  have h₄ : Kept s s₄ := .foldS h₃ fun _ _ h₄ => .setPair (.foldS h₄ (fun _ _ h₅ => .residue h₅))
  have h₅ : Kept s s₅ := .ite h₄ (.foldS h₄ (fun _ _ h₅ => .putFlag h₅))
  have h₆ : Kept s s₆ := .cset h₅
  exact .ite h₁ (.setCtx h₆)

theorem Kept.frameCounts (h : Kept s t) : Kept s t.frameCounts := .foldS h fun _ _ h₁ => .setCtx (.cset (.cset h₁))

theorem Kept.frameDeadline {k : Nat} (h : Kept s t) : Kept s (t.frameDeadline k) :=
    .ite (.cbump (.ctxFault (.report h))) h

theorem Kept.leave {l : List Nat} (h : Kept s t) : Kept s (t.leave l) :=
    .setWaiting (.foldS h (fun _ _ h₁ => .setCtx h₁))

theorem Kept.walkQueue {l : List Nat} (h : Kept s t) : Kept s (walkQueue l t) := by
  induction l generalizing t with
  | nil => exact h
  | cons k l ih =>
    unfold Machine.walkQueue
    split
    · exact ih h
    · exact ih (.setWaiting (.setCtx h))

theorem Kept.sliceBoundary (h : Kept s t) : Kept s t.sliceBoundary :=
  .ite h (.walkQueue (.leave (.foldS h (fun _ _ h₁ => .setCtx h₁))))

theorem Kept.switchOut {k : Nat} (h : Kept s t) : Kept s (t.switchOut k) :=
  .releaseLate (.ite (.setCtx (.setWaiting (.saveOut h))) (.ite (.setCtx (.saveOut h)) (.saveOut h)))

theorem Kept.switchIn {k c : Nat} (h : Kept s t) : Kept s (t.switchIn k c) := by
  unfold State.switchIn
  extract_lets held last s₁ s₂ s₃
  have h₁ : Kept s s₁ := .cbump (.restoreIn h)
  have h₂ : Kept s s₂ := .ite (.choice h₁) h₁
  have h₃ : Kept s s₃ := .releaseLate h₂
  exact .ite h (.ite (.leave h₃) (.finishCheck h₃))

theorem Kept.switch {k : Nat} (h : Kept s t) : Kept s (t.switch k) := by
  unfold State.switch
  split
  · exact .ite (.switchOut h) h
  · exact .switchIn h
  · exact h

theorem Kept.slotClearing {c : Nat} (h : Kept s t) : Kept s (t.slotClearing c) := .leave (.same h rfl)

/-! #### Recovery -/

theorem Kept.closeHeld {k : Nat} (h : Kept s t) : Kept s (t.closeHeld k) :=
  .ite h (.foldS h (fun _ _ h₁ => .ite (.closeWindow h₁) h₁))

theorem Kept.holdLC {k : Nat} (h : Kept s t) : Kept s (t.holdLC k) := .setCtx (.clearUnits (.closeHeld h))

theorem Kept.turnBack {p : Nat} (h : Kept s t) : Kept s (t.turnBack p) :=
    .setWaiting (.foldS h (fun _ _ h₁ => .loseDest h₁))

theorem Kept.clearPart {p : Nat} (h : Kept s t) : Kept s (t.clearPart p) :=
  .foldS (.turnBack h) fun _ _ h₁ => .ite (.ite (.holdLC h₁) h₁) (.startTeardown (.rep h₁))

theorem Kept.returnPart {p : Nat} (h : Kept s t) : Kept s (t.returnPart p) := by
  unfold State.returnPart
  extract_lets x s₁ s₂ s₃ s₄ s₅
  have h₁ : Kept s s₁ := .setPart h
  have h₂ : Kept s s₂ := .setOut (.setPstate h₁)
  have h₃ : Kept s s₃ := .foldS h₂ fun _ _ h₃ => .setCtx h₃
  have h₄ : Kept s s₄ := by
    unfold s₄
    refine .foldS h₃ ?_
    intro x' a' h₄
    extract_lets s₆
    have h₆ : Kept s s₆ := .dset h₄
    exact .same h₆ rfl
  have h₅ : Kept s s₅ := .dset h₄
  exact .foldS h₅ (fun _ _ h₆ => .complete h₆)

theorem Kept.returnDue (h : Kept s t) : Kept s t.returnDue := by
  unfold State.returnDue
  refine .foldS h ?_
  intro x' a' h₁
  split
  · exact .ite (.returnPart h₁) h₁
  · exact h₁

theorem Kept.trainLink {l : Nat} {r : LinkTrain} (h : Kept s t) : Kept s (t.trainLink l r) := by
  unfold State.trainLink
  extract_lets bad ok
  split
  · exact .rep (.dset (.dset h))
  · exact .rep (.dset (.dset h))
  · exact .rep (.dset (.dset h))
  · exact .dset (.dset h)

theorem Kept.setStep {p n : Nat} (h : Kept s t) : Kept s (t.setStep p n) := .setPart h

theorem Kept.verifyPart {p : Nat} {blocks : List Nat} {bad : List (Fin 64)} (h : Kept s t) :
    Kept s (t.verifyPart p blocks bad) := by
  unfold State.verifyPart
  extract_lets own s₁
  have h₁ : Kept s s₁ := .foldS h fun _ _ h₁ => .foldS h₁ (fun _ _ h₂ => .zeroRange h₂)
  exact .foldS h₁ fun _ _ h₂ => .ite (.statusCreator (.setPstate (.setCtx (.rep h₂)))) h₂

theorem Kept.replacePart {p : Nat} (h : Kept s t) : Kept s (t.replacePart p) :=
  .ite h (.ite (.endOut (.rep h)) (.setPart (.foldS (.rep h) (fun _ _ h₁ => .replaceHeld h₁))))

theorem Kept.startRing {d : Nat} (h : Kept s t) : Kept s (t.startRing d) := .ite (.same h rfl) (.same h rfl)

theorem Kept.stopRing {d : Nat} (h : Kept s t) : Kept s (t.stopRing d) := .same h rfl

theorem Kept.partStep {p : Nat} {step : PartStep} (h : Kept s t) : Kept s (t.partStep p step) := by
  unfold State.partStep
  refine .ite h ?_
  split
  · exact .setStep (.clearPart h)
  · exact .setStep (.dset (.stopRing h))
  · extract_lets s₁
    have h₁ : Kept s s₁ := .foldS h fun _ _ h₁ => .zeroRange h₁
    exact .ite (.setStep (.startRing h₁)) (.endOut (.rep h₁))
  · extract_lets s₁
    have h₁ : Kept s s₁ := .trainLink (.trainLink (.trainLink h))
    exact .ite (.endOut h₁) (.setStep h₁)
  · exact .ite (.setStep h) (.endOut (.rep h))
  · exact .setStep (.verifyPart h)
  · exact .replacePart h

theorem Kept.reloadTimeout {k : Nat} (h : Kept s t) : Kept s (t.reloadTimeout k) :=
  .ite (.reloadEnd (.startTeardown (.rep h))) h

theorem Kept.partitionReset {p : Nat} {r : HRef} (h : Kept s t) : Kept s (partitionReset p r t) := .startPartReset h

theorem Kept.partitionOut {p : Nat} {r : HRef} (h : Kept s t) : Kept s (partitionOut p r t) :=
  .ite (.refuse h) (.ite (.complete h) (.complete (.setPstate (.clearPart (.fence h)))))

theorem Kept.partitionIn {p : Nat} {r : HRef} (h : Kept s t) : Kept s (partitionIn p r t) :=
  .ite (.refuse h) (.ite (.complete h) (.startPartReset h))

theorem Kept.flitRetryFailure {l : Nat} (h : Kept s t) : Kept s (t.flitRetryFailure l) := .ite h (.linkFail h)

theorem Kept.beatSlow {b : Nat} (h : Kept s t) : Kept s (t.beatSlow b) := by
  unfold State.beatSlow
  refine .ite h (.ite ?_ (.rep ?_))
  · extract_lets s₁
    have h₁ : Kept s s₁ := .dbump h
    exact .same h₁ rfl
  · extract_lets s₁
    have h₁ : Kept s s₁ := .dbump h
    exact .same h₁ rfl

theorem Kept.patrolScrub {ch : Nat} {f : EccFinding} (h : Kept s t) : Kept s (t.patrolScrub ch f) := by
  unfold State.patrolScrub
  refine .ite h ?_
  extract_lets n next s₁ s₂
  have h₁ : Kept s s₁ := .same h rfl
  have h₂ : Kept s s₂ := .ite (.foldS h₁ (fun _ _ h₂ => .touch h₂)) h₁
  split
  · exact h₂
  · exact .corrected h₂
  · exact .uncorrectable h₂

/-! #### Boot -/

theorem Kept.restoreLog (h : Kept s t) : Kept s t.restoreLog := by
  unfold State.restoreLog
  extract_lets n s₁ s₂
  have h₁ : Kept s s₁ := .foldS h fun _ _ h₁ => .writeBytes h₁
  have h₂ : Kept s s₂ := .dset (.dset h₁)
  exact .same h₂ rfl

theorem Kept.reportHeld (h : Kept s t) : Kept s t.reportHeld := .foldS (.same h rfl) fun _ _ h₁ => .rep h₁

theorem Kept.raiseGen {i : Nat} (h : Kept s t) : Kept s (t.raiseGen i) := .dset h

theorem Kept.carryDict {r : State} (h : Kept s t) : Kept s (r.carryDict t) := by
  unfold State.carryDict
  extract_lets s₁
  have h₁ : Kept s s₁ := .foldS h fun _ _ h₁ => .dset h₁
  exact .ite h₁ (.dset (.setSafe h₁))

theorem Kept.heldInReset (h : Kept s t) : Kept s t.heldInReset := by
  unfold State.heldInReset
  extract_lets src s₁
  have h₁ : Kept s s₁ := .of_mem h (fun _ => rfl) rfl
  exact .foldS (.carryDict h₁) fun _ _ h₂ => .raiseGen h₂

theorem Kept.startFirmware {src : Nat} {d : List Byte} (h : Kept s t) : Kept s (t.startFirmware src d) := by
  unfold State.startFirmware
  extract_lets s₁ s₂ s₃ s₄ s₅
  have h₁ : Kept s s₁ := .same h rfl
  have h₂ : Kept s s₂ := .dset (.dset (.dset h₁))
  have h₃ : Kept s s₃ := .dset h₂
  have h₄ : Kept s s₄ := .dset (.same h₃ rfl)
  have h₅ : Kept s s₅ := .reportHeld (.restoreLog h₄)
  exact .ite h₃ (.same h₅ rfl)

theorem Kept.bootFlash {flash : List Byte} (h : Kept s t) : Kept s (t.bootFlash flash) := by
  unfold State.bootFlash
  extract_lets s₁
  have h₁ : Kept s s₁ := .same h rfl
  split
  · exact .same h₁ rfl
  · exact .startFirmware h₁

theorem Kept.leaveOut {p : Nat} (h : Kept s t) : Kept s (t.leaveOut p) := .setPstate (.fence h)

theorem Kept.resetTest {ok : List Bool} {links : List LinkTrain} (h : Kept s t) : Kept s (t.resetTest ok links) := by
  unfold State.resetTest
  extract_lets s₁ s₂
  have h₁ : Kept s s₁ := .foldS h fun _ _ h₁ => .ite (.startRing h₁) (.leaveOut (.rep h₁))
  have h₂ : Kept s s₂ := .foldS h₁ fun _ _ h₂ => .trainLink h₂
  exact .foldS h₂ fun _ _ h₃ => .ite (.leaveOut h₃) h₃

theorem Kept.resetDram {ok : List Bool} {rate : DramRate} {fitted : DramSize} (h : Kept s t) :
    Kept s (t.resetDram ok rate fitted) := by
  unfold State.resetDram
  extract_lets s₁ s₂
  have h₁ : Kept s s₁ := .foldS h fun _ _ h₁ => .ite h₁ (.leaveOut (.rep h₁))
  have h₂ : Kept s s₂ := .dset (.dset h₁)
  exact .same h₂ rfl

theorem Kept.resetDone (h : Kept s t) : Kept s t.resetDone := by
  unfold State.resetDone
  extract_lets s₁ s₂ s₃ s₄
  have h₁ : Kept s s₁ := .foldS h fun _ _ h₁ => .zeroRange h₁
  have h₂ : Kept s s₂ := .dset (.same h₁ rfl)
  have h₃ : Kept s s₃ := .foldS h₂ fun _ _ h₃ => .setHostState h₃
  have h₄ : Kept s s₄ := .dset (.dset h₃)
  exact .report h₄

theorem Kept.devStep {step : DevStep} (h : Kept s t) : Kept s (t.devStep step) := by
  unfold State.devStep
  split
  · exact .ite (.same h rfl) h
  · exact .ite (.heldInReset h) h
  · exact .ite (.bootFlash h) h
  · refine .ite ?_ h
    extract_lets s₁
    have h₁ : Kept s s₁ := .resetTest h
    exact .same h₁ rfl
  · refine .ite ?_ h
    extract_lets s₁
    have h₁ : Kept s s₁ := .resetDram h
    exact .same h₁ rfl
  · exact .ite (.resetDone h) h

theorem Kept.deviceReset {r : HRef} (h : Kept s t) : Kept s (deviceReset r t) := .startDevReset (.complete h)

theorem Kept.go {h' : Nat} (h : Kept s t) : Kept s (t.go h') := by
  unfold State.go
  refine .ite h ?_
  extract_lets p d
  split
  · exact .setPort (.same h rfl)
  · exact .startFirmware h

theorem Kept.powerOnReset (h : Kept s t) : Kept s t.powerOnReset := .enterSafe h

theorem Kept.poweredUp (h : Kept s t) : Kept s t.poweredUp := .of_mem h (fun _ => rfl) rfl

theorem Kept.attest {nonce : List Byte} {r : HRef} (h : Kept s t) : Kept s (attest nonce r t) := .same h rfl

theorem Kept.quoteComplete (h : Kept s t) : Kept s t.quoteComplete := by
  unfold State.quoteComplete
  split
  · exact h
  · exact .complete (.writeBytes (.freeStep (.same h rfl)))

/-! #### Views -/

theorem Kept.tsrReport {code unit : Nat} (h : Kept s t) : Kept s (t.tsrReport code unit) := .dset (.rep h)

theorem Kept.epReport {e code : Nat} (h : Kept s t) : Kept s (t.epReport e code) := .eset (.rep h)

theorem Kept.takeTables (h : Kept s t) : Kept s t.takeTables := by
  unfold State.takeTables
  extract_lets s₁ plan s₂ rings s₃
  have h₁ : Kept s s₁ := .same h rfl
  have h₂ : Kept s s₂ := .same h₁ rfl
  have h₃ : Kept s s₃ := .dset (.dset h₂)
  refine .foldS h₃ ?_
  intro x' a' h₄
  refine .ite ?_ h₄
  extract_lets a s₄
  have h₄ : Kept s s₄ := .writeBytes h₄
  exact .same h₄ rfl

theorem Kept.checkSpan {v : Nat} (h : Kept s t) : Kept s (t.checkSpan v) := .ite (.tsrReport (.setView h)) (.setView h)

theorem Kept.buildMesh {v : Nat} (h : Kept s t) : Kept s (t.buildMesh v) :=
  .checkSpan (.foldS h (fun _ _ h₁ => .foldS h₁ (fun _ _ h₂ => .writeBytes h₂)))

theorem Kept.meshStep (h : Kept s t) : Kept s t.meshStep := by
  unfold State.meshStep
  split
  · exact h
  · extract_lets s₁ s₂ src
    have h₁ : Kept s s₁ := .same h rfl
    have h₂ : Kept s s₂ := .foldS h₁ fun _ _ h₂ => .ite (.buildMesh h₂) h₂
    exact .ite (.eset (.setEp h₂)) h₂

/-! #### Pipe -/

theorem Kept.requestCleaning {e : Nat} (h : Kept s t) : Kept s (t.requestCleaning e) := .ite (.epReport (.eset h)) h

theorem Kept.evaluate {e : Nat} (h : Kept s t) : Kept s (t.evaluate e) := by
  unfold State.evaluate
  refine .ite h ?_
  split
  · exact h
  · exact .requestCleaning (.setEp (.eset h))

theorem Kept.invalidate {e : Nat} (h : Kept s t) : Kept s (t.invalidate e) := .ite (.setEp h) h

theorem Kept.spoil {e code : Nat} (h : Kept s t) : Kept s (t.spoil e code) := .invalidate (.epReport h)

theorem Kept.openImage {e k : Nat} {number : BitVec 16} {t' : Nat} (h : Kept s t) :
    Kept s (t.openImage e k number t') :=
  .ite h (.foldS (.setEp (.same h rfl)) (fun _ _ h₁ => .setView h₁))

theorem Kept.closeImage {e : Nat} (h : Kept s t) : Kept s (t.closeImage e) := .ite (.evaluate (.setEp h)) (.setEp h)

theorem Kept.frameBegin {e k : Nat} {number : BitVec 16} {t' : Nat} (h : Kept s t) :
    Kept s (t.frameBegin e k number t') :=
  .ite h (.ite (.setEp (.ite (.setEp (.ite (.same h rfl) h)) (.ite (.same h rfl) h)))
      (.openImage (.ite (.closeImage (.spoil (.ite (.setEp (.ite (.same h rfl) h)) (.ite (.same h rfl) h))))
          (.ite (.setEp (.ite (.same h rfl) h)) (.ite (.same h rfl) h)))))

theorem Kept.frameFinish {e k : Nat} (h : Kept s t) : Kept s (t.frameFinish e k) :=
  .ite h (.ite (.closeImage (.setEp (.ite h (.spoil h)))) (.setEp (.ite h (.spoil h))))

theorem Kept.takeLine {e k : Nat} {codes : List Nat} (h : Kept s t) : Kept s (t.takeLine e k codes) :=
  .ite h (.ite (.closeImage (.spoil (.setEp (.ite (.same h rfl) h)))) (.setEp (.ite (.same h rfl) h)))

theorem Kept.packetFault {e code : Nat} (h : Kept s t) : Kept s (t.packetFault e code) := .ite (.epReport h) h

theorem Kept.header {e : Nat} {info : CsiInfo} (h : Kept s t) : Kept s (t.header e info).1 := by
  unfold State.header
  split
  · exact .invalidate (.packetFault h)
  · split
    · exact .same h rfl
    · exact h

theorem Kept.frameStart {e : Nat} {info : CsiInfo} {number : BitVec 16} {t' : Nat} (h : Kept s t) :
    Kept s (t.frameStart e info number t') := by
  unfold State.frameStart
  split
  · rename_i e₁
    exact .fst e₁ (.header h)
  · rename_i e₁
    exact .ite (.frameBegin (.fst e₁ (.header h))) (.fst e₁ (.header h))

theorem Kept.frameEnd {e : Nat} {info : CsiInfo} (h : Kept s t) : Kept s (t.frameEnd e info) := by
  unfold State.frameEnd
  split
  · rename_i e₁
    exact .fst e₁ (.header h)
  · rename_i e₁
    exact .ite (.frameFinish (.fst e₁ (.header h))) (.fst e₁ (.header h))

theorem Kept.overrun {e k : Nat} (h : Kept s t) : Kept s (t.overrun e k) :=
    .takeLine (.dbump (.invalidate (.tsrReport h)))

theorem Kept.imageLine {e : Nat} {info : CsiInfo} {dt : Nat} {d : List Byte} {accepted : Bool} (h : Kept s t) :
    Kept s (t.imageLine e info dt d accepted) :=
  .ite h (.ite (.overrun h) (.takeLine (.ite h (.invalidate h))))

theorem Kept.lineChecks {e : Nat} {info : CsiInfo} {dt : Nat} {d : List Byte} (h : Kept s t) :
    Kept s (t.lineChecks e info dt d) :=
  .ite (.ite h (.packetFault h)) (.packetFault (.ite h (.packetFault h)))

theorem Kept.longPacket {e : Nat} {info : CsiInfo} {dt : Nat} {d : List Byte} {accepted : Bool} (h : Kept s t) :
    Kept s (t.longPacket e info dt d accepted) := by
  unfold State.longPacket
  split
  · rename_i e₁
    exact .fst e₁ (.header h)
  · rename_i e₁
    have h₁ : Kept s _ := .fst e₁ (.header h)
    exact .ite (.same h₁ rfl) (.ite (.lineChecks h₁) (.imageLine (.lineChecks h₁)))

theorem Kept.dropDatagram {e : Nat} (h : Kept s t) : Kept s (t.dropDatagram e) := by
  unfold State.dropDatagram
  extract_lets s₁
  have h₁ : Kept s s₁ := .epReport h
  exact .same h₁ rfl

theorem Kept.takeLines {e k : Nat} {d : List Byte} {n : Nat} (h : Kept s t) : Kept s (t.takeLines e k d n) :=
  .foldS h fun _ _ h₁ => .takeLine h₁

theorem Kept.lineData {e : Nat} {d : List Byte} {t' : Nat} {accepted : Bool} (h : Kept s t) :
    Kept s (t.lineData e d t' accepted) := by
  unfold State.lineData
  extract_lets k fl n s₁ im s₂ s₃ s₄
  have h₁ : Kept s s₁ := .ite (.frameBegin h) h
  have h₂ : Kept s s₂ := .ite h₁ (.spoil h₁)
  have h₃ : Kept s s₃ := .ite h₂ (.spoil h₂)
  have h₄ : Kept s s₄ := .ite (.takeLines h₃) (.foldS h₃ (fun _ _ h₄ => .overrun h₄))
  exact .ite (.spoil h) (.ite h₁ (.ite (.frameFinish h₄) h₄))

theorem Kept.lineDatagram {d : Datagram} {t' : Nat} {accepted : Bool} (h : Kept s t) :
    Kept s (t.lineDatagram d t' accepted) := by
  unfold State.lineDatagram
  split
  · exact h
  · exact .ite h (.ite (.dropDatagram h) (.ite (.lineData h) h))

/-! #### Points -/

theorem Kept.deliveryNack {code c w : Nat} (h : Kept s t) : Kept s (t.deliveryNack code c w) := .dbump (.report h)

theorem Kept.endDelivery {key e c w : Nat} (h : Kept s t) : Kept s (t.endDelivery key e c w) :=
  .dbump (.dset (.report (.setView h)))

theorem Kept.tsrPut {key e c w off : Nat} {ws : List SWord} (h : Kept s t) : Kept s (t.tsrPut key e c w off ws).1 := by
  unfold State.tsrPut
  extract_lets src
  split
  · exact .endDelivery h
  · extract_lets s₁ k s₂
    have h₁ : Kept s s₁ := .setView h
    have h₂ : Kept s s₂ := .foldS h₁ fun _ _ h₂ => .noteSaved h₂
    split
    · exact .endDelivery (.deliveryNack h₁)
    · exact .putWords h₂

theorem Kept.setSweep {e : Nat} {prev : Bool} {x : Sweep} (h : Kept s t) : Kept s (t.setSweep e prev x) :=
  .ite (.same h rfl) (.same h rfl)

theorem Kept.spoilSweep {e : Nat} {prev : Bool} (h : Kept s t) : Kept s (t.spoilSweep e prev) := .setSweep h

theorem Kept.pointLoss {e : Nat} {prev : Bool} (h : Kept s t) : Kept s (t.pointLoss e prev) :=
  .spoilSweep (.dbump (.tsrReport h))

theorem Kept.writePoint {e : Nat} {prev : Bool} {i : Nat} {p : Point} (h : Kept s t) :
    Kept s (t.writePoint e prev i p) := by
  unfold State.writePoint
  extract_lets r n key c w at8 off old word
  refine .ite (.spoilSweep h) ?_
  split
  · rename_i e₁
    exact .fst e₁ (.tsrPut h)
  · rename_i e₁
    exact .spoilSweep (.fst e₁ (.tsrPut h))

theorem Kept.takePoint {e : Nat} {p : Point} {t' : Int} (h : Kept s t) : Kept s (t.takePoint e p t') :=
  .ite (.dbump (.tsrReport h)) (.ite (.pointLoss h) (.writePoint (.setSweep h)))

theorem Kept.pointData {e : Nat} {dg : List Byte} {t' : Nat} (h : Kept s t) : Kept s (t.pointData e dg t') := by
  unfold State.pointData
  extract_lets d ch magicOk
  split
  · exact .spoilSweep (.tsrReport h)
  · exact .foldS h fun _ _ h₁ => .takePoint h₁

theorem Kept.pointDatagram {d : Datagram} {t' : Nat} (h : Kept s t) : Kept s (t.pointDatagram d t') := by
  unfold State.pointDatagram
  split
  · exact h
  · exact .ite h (.ite (.spoilSweep (.dropDatagram h)) (.ite (.pointData h) h))

theorem Kept.beginViews {e kind : Nat} (h : Kept s t) : Kept s (t.beginViews e kind) :=
  .foldS h fun _ _ h₁ => .ite (.setView h₁) h₁

theorem Kept.sweepClose {e t' : Nat} (h : Kept s t) : Kept s (t.sweepClose e t') := .ite (.beginViews (.setSweep h)) h

theorem Kept.motionCommit (h : Kept s t) : Kept s t.motionCommit := .ite (.same h rfl) (.dbump h)

theorem Kept.noEgo {f : Nat} (h : Kept s t) : Kept s (t.noEgo f) :=
  .ite (.ite (.foldS (.ite (.tsrReport (.same h rfl)) (.foldS (.same h rfl) (fun _ _ h₁ => .tsrReport h₁)))
      (fun _ _ h₁ => .ite (.beginViews h₁) h₁)) (.ite (.tsrReport (.same h rfl))
          (.foldS (.same h rfl) (fun _ _ h₁ => .tsrReport h₁)))) h

theorem Kept.deskew {e : Nat} (h : Kept s t) : Kept s (t.deskew e) := .ite (.beginViews (.setSweep h)) h

/-! #### Delivery -/

theorem Kept.stripeFlag {v i : Nat} (h : Kept s t) : Kept s (t.stripeFlag v i) := by
  unfold State.stripeFlag
  extract_lets d c w k f s₁
  have h₁ : Kept s s₁ := .ite (.dbump (.tsrReport h)) h
  split
  · exact .endDelivery h
  · split
    · exact .endDelivery (.deliveryNack h)
    · exact .kSetFlag h₁

theorem Kept.putStripe {v i : Nat} {ws : List SWord} {desc : Option SWord} (h : Kept s t) :
    Kept s (t.putStripe v i ws desc) := by
  unfold State.putStripe
  extract_lets d c w e src
  refine .ite (.setView h) (.ite (.endDelivery h) ?_)
  split
  · rename_i e₁
    exact .fst e₁ (.tsrPut h)
  · rename_i e₁
    have h₁ : Kept s _ := .fst e₁ (.tsrPut h)
    split
    · exact .stripeFlag h₁
    · split
      · rename_i e₂
        exact .fst e₂ (.tsrPut h₁)
      · rename_i e₂
        exact .stripeFlag (.fst e₂ (.tsrPut h₁))

theorem Kept.slotDelivered {e n : Nat} {valid : Bool} (h : Kept s t) : Kept s (t.slotDelivered e n valid) := by
  unfold State.slotDelivered
  extract_lets s₁ src
  have h₁ : Kept s s₁ := .ebump h
  exact .ite (.same h₁ rfl) h₁

theorem Kept.viewDone {v n : Nat} (h : Kept s t) : Kept s (t.viewDone v n) :=
  .ite (.ite (.slotDelivered (.setView h)) (.setEp (.setView h))) (.setView h)

theorem Kept.imageStripe {v : Nat} {force : Bool} (h : Kept s t) : Kept s (t.imageStripe v force) :=
  .ite h (.ite (.viewDone (.setView (.putStripe h))) (.setView (.putStripe h)))

theorem Kept.sweepStripe {v : Nat} {force : Bool} (h : Kept s t) : Kept s (t.sweepStripe v force) :=
  .ite h (.ite (.viewDone (.setView (.putStripe h))) (.setView (.putStripe h)))

theorem Kept.stripeDelivery {v : Nat} (h : Kept s t) : Kept s (t.stripeDelivery v) :=
  .ite h (.ite (.sweepStripe h) (.imageStripe h))

theorem Kept.finishZeros {e : Nat} (h : Kept s t) : Kept s (t.finishZeros e) :=
  .ite h (.setEp (.foldS (.setEp h) (fun _ _ h₁ => .foldS h₁ (fun _ _ h₂ => .imageStripe h₂))))

theorem Kept.finishSweep {e : Nat} (h : Kept s t) : Kept s (t.finishSweep e) :=
  .foldS h fun _ _ h₁ => .foldS h₁ (fun _ _ h₂ => .sweepStripe h₂)

theorem Kept.zeroView {v : Nat} (h : Kept s t) : Kept s (t.zeroView v) := by
  unfold State.zeroView
  extract_lets d time n s₁ src
  have h₁ : Kept s s₁ := .foldS h fun _ _ h₁ => .putStripe h₁
  exact .ite (.freeStep (.setView h₁)) (.freeStep h₁)

theorem Kept.zeroTensor {e t' : Nat} (h : Kept s t) : Kept s (t.zeroTensor e t') :=
  .ite (.ite (.slotDelivered (.foldS h (fun _ _ h₁ => .zeroView h₁))) (.foldS h (fun _ _ h₁ => .zeroView h₁))) h

/-! #### Heads -/

theorem Kept.request {e ty : Nat} {payload : List Byte} (h : Kept s t) : Kept s (t.request e ty payload) := .send h

theorem Kept.setDisc {e : Nat} {d : Disc} (h : Kept s t) : Kept s (t.setDisc e d) := .setEp h

theorem Kept.askCert {e : Nat} (h : Kept s t) : Kept s (t.askCert e) := .request (.eset (.setDisc h))

theorem Kept.sendChallenge {e : Nat} (h : Kept s t) : Kept s (t.sendChallenge e) := .request (.freeStep (.setEp h))

theorem Kept.challengeWaiting (h : Kept s t) : Kept s t.challengeWaiting :=
  .foldS h fun _ _ h₁ => .ite (.sendChallenge h₁) h₁

theorem Kept.retryLater {e code : Nat} (h : Kept s t) : Kept s (t.retryLater e code) :=
  .challengeWaiting (.eset (.ebump (.epReport (.setDisc (.same h rfl)))))

theorem Kept.refuseHead {e code : Nat} (h : Kept s t) : Kept s (t.refuseHead e code) :=
  .challengeWaiting (.eset (.ebump (.epReport (.setDisc (.same h rfl)))))

theorem Kept.refuseContent {e : Nat} {retry : Bool} (h : Kept s t) : Kept s (t.refuseContent e retry) :=
  .challengeWaiting (.eset (.ebump (.tsrReport (.setEp h))))

theorem Kept.releaseLater {e code : Nat} (h : Kept s t) : Kept s (t.releaseLater e code) :=
    .setEp (.ebump (.epReport h))

theorem Kept.claim {e : Nat} (h : Kept s t) : Kept s (t.claim e) :=
  .foldS h fun _ _ h₁ => .ite (.releaseLater h₁) (.refuseHead h₁)

theorem Kept.linkIsUp {e : Nat} (h : Kept s t) : Kept s (t.linkIsUp e) :=
  .ite (.refuseHead (.eset (.setEp h))) (.ite (.eset (.setEp h)) (.askCert (.eset (.setEp h))))

theorem Kept.relocate {e : Nat} (h : Kept s t) : Kept s (t.relocate e) :=
  .ite h (.ite (.ite (.releaseLater (.claim h)) (.refuseHead (.claim h))) (.claim h))

theorem Kept.linkUpAt {l : Location} (h : Kept s t) : Kept s (t.linkUpAt l) := by
  unfold State.linkUpAt
  split
  · extract_lets s₁
    have h₁ : Kept s s₁ := .ite h (.same h rfl)
    exact .ite h₁ (.rep (.same h₁ rfl))
  · exact .foldS h fun _ _ h₁ => .ite h₁ (.linkIsUp h₁)

theorem Kept.certResponse {e : Nat} {d : List Byte} (h : Kept s t) : Kept s (t.certResponse e d) :=
  .ite h (.ite (.refuseHead h) (.ite (.refuseHead h) (.ite (.refuseHead h)
      (.ite (.refuseHead h) (.ite (.refuseHead h) (.challengeWaiting (.eset (.eset (.setEp h)))))))))

theorem Kept.takeLife {e : Nat} {l : Nat × Nat × Nat} (h : Kept s t) : Kept s (t.takeLife e l) := by
  unfold State.takeLife
  extract_lets serial same s₁ s₂ old new new' s₃
  have h₁ : Kept s s₁ := .same h rfl
  have h₂ : Kept s s₂ := .eset (.eset (.eset h₁))
  have h₃ : Kept s s₃ := .eset h₂
  exact .ite h₃ (.ite (.epReport h₃) (.ite (.epReport h₃) h₃))

theorem Kept.askCal {e off n : Nat} (h : Kept s t) : Kept s (t.askCal e off n) := .request (.setEp h)

theorem Kept.authResponse {e : Nat} {d : List Byte} (h : Kept s t) : Kept s (t.authResponse e d) :=
  .ite h (.ite (.refuseHead h) (.ite (.refuseHead h) (.challengeWaiting (.askCal (.setEp (.eset (.takeLife h)))))))

theorem Kept.keepCal {e : Nat} {d : List Byte} (h : Kept s t) : Kept s (t.keepCal e d) :=
    .freeStep (.writeBytes (.same h rfl))

theorem Kept.calComplete {e : Nat} (h : Kept s t) : Kept s (t.calComplete e) := by
  unfold State.calComplete
  extract_lets x src s₁ s₂
  have h₀ : Kept s src := .keepCal h
  clear_value src
  have h₁ : Kept s s₁ := .same h₀ rfl
  have h₂ : Kept s s₂ := .claim h₁
  refine .ite (.retryLater h) (.ite (.refuseContent h) (.ite (.refuseContent h) (.ite (.refuseHead h₁) (.setEp ?_))))
  exact .same h₂ rfl

theorem Kept.calResponse {e : Nat} {d : List Byte} (h : Kept s t) : Kept s (t.calResponse e d) :=
  .ite h (.ite (.refuseContent h) (.ite (.calComplete (.setEp h)) (.askCal (.setEp h))))

theorem Kept.lifeResponse {e : Nat} {d : List Byte} (h : Kept s t) : Kept s (t.lifeResponse e d) := by
  unfold State.lifeResponse
  extract_lets x s₁ s₂ src
  have h₁ : Kept s s₁ := .setEp h
  have h₂ : Kept s s₂ := .takeLife h₁
  exact .ite h (.ite (.releaseLater h₁) (.ite (.releaseLater h₁) (.ite (.setEp h₂) h₂)))

theorem Kept.lifePoll {e : Nat} (h : Kept s t) : Kept s (t.lifePoll e) := .ite (.request (.setEp h)) h

theorem Kept.forgetHead {e : Nat} {linkUp : Bool} {d : Disc} (h : Kept s t) : Kept s (t.forgetHead e linkUp d) :=
  .setEp (.same h rfl)

theorem Kept.endStream {e : Nat} (h : Kept s t) : Kept s (t.endStream e) :=
  .ite (.spoilSweep (.spoilSweep (.finishSweep (.finishZeros h)))) (.finishZeros h)

theorem Kept.linkGone {e : Nat} (h : Kept s t) : Kept s (t.linkGone e) := by
  unfold State.linkGone
  extract_lets s₁ was s₂
  have h₁ : Kept s s₁ := .same h rfl
  have h₂ : Kept s s₂ := .ite (.endStream (.epReport h₁)) h₁
  exact .ite h₁ (.challengeWaiting (.eset (.forgetHead h₂)))

theorem Kept.startDiscovery {e : Nat} (h : Kept s t) : Kept s (t.startDiscovery e) := .ite (.linkIsUp h) h

theorem Kept.enableChanged {e old new : Nat} (h : Kept s t) : Kept s (t.enableChanged e old new) := by
  unfold State.enableChanged
  refine .ite h (.ite (.startDiscovery (.ite (.setEp ?_) (.claim h)))
      (.ite (.setEp h) (.ite h (.ite h (.challengeWaiting (.eset (.forgetHead h)))))))
  exact .same (.claim h) rfl

theorem Kept.releaseHeads (h : Kept s t) : Kept s t.releaseHeads :=
  .foldS h fun _ _ h₁ =>
    .ite (.eset (.forgetHead (.endStream h₁))) (.startDiscovery (.eset (.forgetHead (.endStream h₁))))

theorem Kept.admitHeads (h : Kept s t) : Kept s t.admitHeads :=
  .foldS h fun _ _ h₁ => .ite (.refuseHead h₁) (.eset (.setEp h₁))

theorem Kept.fixTriggers (h : Kept s t) : Kept s t.fixTriggers := .same h rfl

theorem Kept.sendTrigger {e : Nat} (h : Kept s t) : Kept s (t.sendTrigger e) := by
  unfold State.sendTrigger
  split
  · exact h
  · exact .ite (.request (.same h rfl)) (.send (.same h rfl))

theorem Kept.gptp {q : Nat} {i : GptpInfo} (h : Kept s t) : Kept s (t.gptp q i) := by
  cases i with
  | other => exact h
  | sync m => exact .ite (.dset (.same (.atTime (n := m) h) rfl)) h

theorem Kept.rolesWritten (h : Kept s t) : Kept s t.rolesWritten := .ite (.dset (.same h rfl)) (.dset h)

/-! #### Power -/

theorem Kept.lpBegin {lvl : Nat} (h : Kept s t) : Kept s (t.lpBegin lvl) := .dset (.dset (.same h rfl))

theorem Kept.releaseAllHeads (h : Kept s t) : Kept s t.releaseAllHeads :=
  .foldS h fun _ _ h₁ => .eset (.forgetHead (.endStream h₁))

theorem Kept.standbyEntry (h : Kept s t) : Kept s t.standbyEntry := by
  unfold State.standbyEntry
  extract_lets s₁
  have h₁ : Kept s s₁ := .releaseAllHeads (.same h rfl)
  exact .same h₁ rfl

theorem Kept.sleepEntry (h : Kept s t) : Kept s t.sleepEntry := by
  unfold State.sleepEntry
  extract_lets lost pA pB s₁
  have h₁ : Kept s s₁ := .of_mem h (fun _ => rfl) rfl
  exact .foldS h₁ fun _ _ h₂ => .dset h₂

theorem Kept.powerEntry {lvl : Nat} {r : HRef} (h : Kept s t) : Kept s (powerEntry lvl r t) := by
  unfold Machine.powerEntry
  refine .ite (.refuse h)
    (.ite (.complete ?_) (.ite (.complete (.standbyEntry (.lpBegin h))) (.sleepEntry (.complete ?_))))
  · exact .same (t := t.lpBegin lvl) (.lpBegin h) rfl
  · exact .same (t := t.lpBegin lvl) (.lpBegin h) rfl

theorem Kept.latchWake {v : Nat} (h : Kept s t) : Kept s (t.latchWake v) := .ite (.dset (.same h rfl)) h

theorem Kept.wakeSource {b : Nat} (h : Kept s t) : Kept s (t.wakeSource b) := .ite (.latchWake h) h

theorem Kept.powerExit {r : HRef} (h : Kept s t) : Kept s (powerExit r t) := .complete (.latchWake h)

theorem Kept.endGrace {h' : Nat} (h : Kept s t) : Kept s (t.endGrace h') :=
  .ite h (.foldS h (fun _ _ h₁ => .ite h₁ (.startTeardown (.report h₁))))

theorem Kept.lpLeave {lvl : Nat} (h : Kept s t) : Kept s (t.lpLeave lvl) :=
  .dset (.dclear (.foldS (.same h rfl) (fun _ _ h₁ => .setPort h₁)))

theorem Kept.idleExit (h : Kept s t) : Kept s t.idleExit := by
  unfold State.idleExit
  extract_lets due s₁
  have h₁ : Kept s s₁ := .lpLeave h
  exact .foldS (.same h₁ rfl) fun _ _ h₂ => .endGrace h₂

theorem Kept.standbyExit (h : Kept s t) : Kept s t.standbyExit := by
  unfold State.standbyExit
  extract_lets due s₁ s₂ s₃
  have h₁ : Kept s s₁ := .lpLeave h
  have h₂ : Kept s s₂ := .dset (.same h₁ rfl)
  have h₃ : Kept s s₃ := .foldS h₂ fun _ _ h₃ => .startDiscovery h₃
  exact .foldS h₃ fun _ _ h₄ => .endGrace h₄

theorem Kept.sleepExit (h : Kept s t) : Kept s t.sleepExit := by
  unfold State.sleepExit
  extract_lets s₁ s₂ s₃ s₄ s₅
  have h₁ : Kept s s₁ := .same h rfl
  have h₂ : Kept s s₂ := .dset (.dclear h₁)
  have h₃ : Kept s s₃ := .foldS h₂ fun _ _ h₃ => .raiseGen h₃
  have h₄ : Kept s s₄ := .foldS h₃ fun _ _ h₄ => .dset h₄
  have h₅ : Kept s s₅ := .dset (.foldS h₄ (fun _ _ h₅ => .setHostState h₅))
  exact .reportHeld h₅

theorem Kept.lpStep {step : ExitStep} (h : Kept s t) : Kept s (t.lpStep step) := by
  unfold State.lpStep
  extract_lets lvl s₁ s₂
  have h₁ : Kept s s₁ := .same h rfl
  have h₂ : Kept s s₂ := .foldS h₁ fun _ _ h₂ => .zeroRange h₂
  refine .ite h ?_
  split
  · exact .ite h (.ite (.idleExit h) (.same h rfl))
  · exact .ite h (.ite (.foldS h₂ (fun _ _ h₃ => .dset h₃)) (.same h₁ rfl))
  · exact .ite h (.ite (.standbyExit h) (.ite h (.sleepExit h)))

theorem Kept.railFault {g : Nat} (h : Kept s t) : Kept s (t.railFault g) := by
  unfold State.railFault
  extract_lets s₁ s₂
  have h₁ : Kept s s₁ := .report h
  have h₂ : Kept s s₂ := .same h₁ rfl
  exact .ite h (.ite (.same h₂ rfl) h₂)

theorem Kept.pmbAlert {b : Nat} {st : Option (BitVec 16)} (h : Kept s t) : Kept s (t.pmbAlert b st) := by
  unfold State.pmbAlert
  split
  · exact .rep h
  · exact .ite h (.report h)

theorem Kept.sendVout {b mv : Nat} (h : Kept s t) : Kept s (t.sendVout b mv) := by
  unfold State.sendVout
  extract_lets now s₁
  have h₁ : Kept s s₁ := .foldS h fun _ _ h₁ => .send h₁
  exact .same h₁ rfl

theorem Kept.tempCheck (h : Kept s t) : Kept s t.tempCheck := by
  unfold State.tempCheck
  extract_lets thr l s₁
  have h₁ : Kept s s₁ := .dbump (.rep h)
  refine .ite (.ite ?_ (.same h rfl)) (.ite (.same h₁ rfl) h)
  split
  · exact .same h rfl
  · exact .ite (.same h rfl) h

theorem Kept.setTemps {l : List (BitVec 16)} (h : Kept s t) : Kept s (t.setTemps l) :=
  .tempCheck (.dset (.foldS h (fun _ _ h₁ => .dset h₁)))

/-! #### Device -/

theorem Kept.hostAttach {r : HRef} (h : Kept s t) : Kept s (hostAttach r t) := by
  unfold Machine.hostAttach
  extract_lets h' p s₁ s₂
  have h₁ : Kept s s₁ := .setPort h
  have h₂ : Kept s s₂ := .complete (.setHostState h₁)
  exact .ite (.refuse h) (.ite (.statusTo (.same h₂ rfl)) h₂)

theorem Kept.setDev {d : Nat} (h : Kept s t) : Kept s (t.setDev d) := .dset h

theorem Kept.doneWith {r : Option HRef} {code : Nat} (h : Kept s t) : Kept s (t.doneWith r code) := by
  unfold State.doneWith
  split
  · exact .complete h
  · exact h

theorem Kept.deny {r : Option HRef} {i code : Nat} (h : Kept s t) : Kept s (t.deny r i code) := .doneWith (.rep h)

theorem Kept.leaveRun (h : Kept s t) : Kept s t.leaveRun := by
  unfold State.leaveRun
  extract_lets s₁ incoming s₂ leaving s₃ rest
  have h₁ : Kept s s₁ := .foldS h fun _ _ h₁ => .cbump (.abortLC h₁)
  have h₂ : Kept s s₂ := .foldS h₁ fun _ _ h₂ => .setCtx h₂
  have h₃ : Kept s s₃ := .foldS h₂ fun _ _ h₃ => .releaseLate (.setCtx (.saveOut h₃))
  exact .setWaiting h₃

theorem Kept.cancelWait (h : Kept s t) : Kept s t.cancelWait := by
  unfold State.cancelWait
  split
  · exact h
  · exact .foldS (.same h rfl) fun _ _ h₁ => .refuse h₁

theorem Kept.opReport {f : Nat × Nat} (h : Kept s t) : Kept s (t.opReport f) := .ite (.rep h) (.tsrReport h)

theorem Kept.toOperational {r : Option HRef} {i : Nat} (h : Kept s t) : Kept s (t.toOperational r i) := by
  unfold State.toOperational
  split
  · exact .doneWith (.opReport h)
  · exact .same h rfl

theorem Kept.enterState {d : Nat} (h : Kept s t) : Kept s (t.enterState d) := by
  unfold State.enterState
  extract_lets s₁ s₂ s₃
  have h₁ : Kept s s₁ := .cancelWait h
  have h₂ : Kept s s₂ := .ite (.leaveRun h₁) h₁
  have h₃ : Kept s s₃ := .ite h₂ (.same h₂ rfl)
  exact .setDev h₃

theorem Kept.stateTo {d : Nat} {r : Option HRef} {i : Nat} (h : Kept s t) : Kept s (t.stateTo d r i) :=
  .ite (.doneWith h) (.ite (.ite (.deny h) (.toOperational h))
      (.ite (.ite (.deny (.dbump h)) (.doneWith (.enterState h)))
          (.ite (.ite (.deny h) (.doneWith (.enterState h))) (.ite (.doneWith (.enterState h)) (.deny h)))))

theorem Kept.stateCommand {d : Nat} {r : HRef} (h : Kept s t) : Kept s (stateCommand d r t) := .stateTo h

theorem Kept.nmt {d : Nat} (h : Kept s t) : Kept s (t.nmt d) := .ite h (.ite (.rep h) (.ite (.rep h) (.stateTo h)))

theorem Kept.canSend {c : CanCtl} {f : CanFrame} (h : Kept s t) : Kept s (t.canSend c f) := .ite h (.send h)

theorem Kept.takeCanParams (h : Kept s t) : Kept s t.takeCanParams := .same h rfl

theorem Kept.nmtReset (h : Kept s t) : Kept s t.nmtReset := .ite h (.raiseGen (.canSend (.takeCanParams h)))

theorem Kept.heartbeat (h : Kept s t) : Kept s t.heartbeat := .ite h (.canSend (.canSend h))

theorem Kept.emcyOut (h : Kept s t) : Kept s t.emcyOut := by
  unfold State.emcyOut
  split
  · exact h
  · exact .ite h (.send (.same h rfl))

theorem Kept.busOff {c : CanCtl} (h : Kept s t) : Kept s (t.busOff c) := by
  unfold State.busOff
  extract_lets was s₁
  have h₁ : Kept s s₁ := by
    unfold s₁
    split
    · exact .same h rfl
    · exact .same h rfl
  exact .ite h (.rep h₁)

/-! #### Maint -/

theorem Kept.maintBusy {r : HRef} (h : Kept s t) : Kept s (t.maintBusy r) := .refuse (.dbump h)

theorem Kept.setActivity {a : Activity} (h : Kept s t) : Kept s (t.setActivity a) := .dset (.dset (.same h rfl))

theorem Kept.beOut {p : Nat} (h : Kept s t) : Kept s (t.beOut p) := .setWaiting (.foldS h (fun _ _ h₁ => .saveOut h₁))

theorem Kept.underMaint {p : Nat} (h : Kept s t) : Kept s (t.underMaint p) :=
  .setPart (.setPstate (.clearPart (.fence (.beOut h))))

theorem Kept.maintPart {code : Nat} {fences : Bool} {p : Nat} {r : HRef} (h : Kept s t) :
    Kept s (maintPart code fences p r t) := by
  unfold Machine.maintPart
  refine .ite (.maintBusy h) (.ite (.refuse h) (.ite (.underMaint (.ite ?_ (.setActivity h)))
      (.leave (.ite ?_ (.setActivity h)))))
  · exact .same (t := t.setActivity
  { code := code, part := p, handle := r, erased := false, image := [], prov := [], wasOut := t.isFenced p,
    start := t.dget 10752 3, floor := t.dget 10752 4, margin := t.dget 10752 9 }) (.setActivity h) rfl
  · exact .same (t := t.setActivity
  { code := code, part := p, handle := r, erased := false, image := [], prov := [], wasOut := t.isFenced p,
    start := t.dget 10752 3, floor := t.dget 10752 4, margin := t.dget 10752 9 }) (.setActivity h) rfl

theorem Kept.maintFirmware {a : Nat} {r : HRef} (h : Kept s t) : Kept s (maintFirmware a r t) := by
  unfold Machine.maintFirmware
  extract_lets n img prov s₁
  have h₁ : Kept s s₁ := .setActivity h
  refine .ite (.maintBusy h) ?_
  split
  · exact .refuse h
  · split
    · exact .complete (.rep h)
    · exact .ite (.complete (.rep h)) (.ite (.refuse h) (.send (.dset h₁)))

theorem Kept.maintReturn {a : Activity} (h : Kept s t) : Kept s (t.maintReturn a) :=
  .ite (.setPstate (.setPart h)) (.setPart (.setPart h))

theorem Kept.maintAbort {r : HRef} (h : Kept s t) : Kept s (maintAbort r t) := by
  unfold Machine.maintAbort
  split
  · exact .refuse h
  · exact .ite (.maintBusy h) (.complete (.ite (.maintReturn (.endActivity (.rep h))) (.endActivity (.rep h))))

theorem Kept.stressVout {a : Activity} {lowest : Nat} (h : Kept s t) : Kept s (t.stressVout a lowest) :=
  .sendVout (.sendVout (.sendVout h))

theorem Kept.stressEnd {a : Activity} {step0 : Bool} {lowest : Nat} {temp : BitVec 16} (h : Kept s t) :
    Kept s (t.stressEnd a step0 lowest temp) := by
  unfold State.stressEnd
  extract_lets s₁ s₂ s₃ low s₄ s₅ s₆
  have h₁ : Kept s s₁ := .dset (.dset h)
  have h₂ : Kept s s₂ := .rep (.dset (.dset h₁))
  have h₃ : Kept s s₃ := .stressVout h₁
  have h₄ : Kept s s₄ := .dset h₃
  have h₅ : Kept s s₅ := .dset h₄
  have h₆ : Kept s s₆ := .ite (.rep h₅) h₅
  exact .ite (.endOut (.endActivity h₂)) (.maintReturn (.endActivity h₆))

theorem Kept.retrainEnd {a : Activity} {ok : Bool} (h : Kept s t) : Kept s (t.retrainEnd a ok) :=
  .ite (.maintReturn (.endActivity (.dset h))) (.endOut (.endActivity (.rep (.dset h))))

theorem Kept.blow {want : BitVec 2048} {stuck : List Nat} (h : Kept s t) : Kept s (t.blow want stuck) :=
  h.trans ⟨id, rfl, le_rfl, by ext i; simp [State.blow]; tauto⟩

theorem Kept.provision {d : List Byte} {stuck : List Nat} (h : Kept s t) : Kept s (t.provision d stuck).1 := by
  unfold State.provision
  extract_lets want s₁ field
  have h₁ : Kept s s₁ := .send (.blow h)
  split
  · exact .blow h₁
  · exact .rep h₁

theorem Kept.updateEnd {a : Activity} {readBackOk : Bool} {stuck : List Nat} (h : Kept s t) :
    Kept s (t.updateEnd a readBackOk stuck) := by
  unfold State.updateEnd
  dsimp only
  refine .ite (.endActivity (.dset (.rep (.send h)))) (.endActivity (.dset ?_))
  split
  · exact .send h
  · exact .provision (.send h)

theorem Kept.maintEnd {out : MaintOutcome} (h : Kept s t) : Kept s (t.maintEnd out) := by
  unfold State.maintEnd
  split
  · exact .ite (.stressEnd h) h
  · exact .ite (.retrainEnd h) h
  · exact .ite (.endActivity (.dset h)) h
  · exact .ite (.updateEnd h) h
  · exact h

/-! #### Seal -/

theorem Kept.orreryMiss {x : OrreryInst} (h : Kept s t) : Kept s (t.orreryMiss x) := by
  unfold State.orreryMiss
  extract_lets s₁ src s₂
  have h₁ : Kept s s₁ := .dbump (.report h)
  have h₂ : Kept s s₂ := .frameFault (.same h₁ rfl)
  exact .enterSafe h₂

theorem Kept.orreryTest {inst : List OrreryInst} {missed : List Nat} (h : Kept s t) :
    Kept s (t.orreryTest inst missed) := by
  unfold State.orreryTest
  extract_lets bad s₁ src s₂
  have h₁ : Kept s s₁ := .dadd h
  have h₂ : Kept s s₂ := .ite (.same h₁ rfl) h₁
  exact .foldS h₂ fun _ _ h₃ => .orreryMiss h₃

theorem Kept.clearSets {c : Nat} (h : Kept s t) : Kept s (t.clearSets c) := .foldS h fun _ _ h₁ => .mapGroup h₁

theorem Kept.slotAborts {c : Nat} (h : Kept s t) : Kept s (t.slotAborts c) :=
  .foldS h fun _ _ h₁ => .dbump (.cbump (.abortLC (.ctxFault (.report h₁))))

theorem Kept.katFail {c a g step : Nat} (h : Kept s t) : Kept s (t.katFail c a g step) := .frameFault (.report h)

theorem Kept.slotVerdict {c : Nat} {passed : Bool} (h : Kept s t) : Kept s (t.slotVerdict c passed) :=
  .ite (.same h rfl) (.dbump (.same h rfl))

theorem Kept.passedFull {c : Nat} (h : Kept s t) : Kept s (t.passedFull c) := .ite h (.same h rfl)

theorem Kept.almanacSlot {c : Nat} {outs : List (List Byte)} {missed : List Nat} (h : Kept s t) :
    Kept s (t.almanacSlot c outs missed) :=
  .ite h
      (.orreryTest
          (.ite
              (.passedFull
                  (.slotVerdict (.foldS
                    (.dbump (.ite (.dbump (.clearSets (.slotAborts h))) (.clearSets (.slotAborts h))))
                      (fun _ _ h₁ => .katFail h₁)))) (.slotVerdict
                          (.foldS (.dbump (.ite (.dbump (.clearSets (.slotAborts h))) (.clearSets (.slotAborts h))))
                              (fun _ _ h₁ => .katFail h₁)))))

theorem Kept.verdictTimeout {c : Nat} (h : Kept s t) : Kept s (t.verdictTimeout c) :=
  .ite h (.slotVerdict (.katFail (.ite (.clearSets (.slotAborts h)) (.slotAborts h))))

theorem Kept.countCore {c : Nat} (h : Kept s t) : Kept s (t.countCore c) := by
  unfold State.countCore
  extract_lets l dis s₁ s₂
  have h₁ : Kept s s₁ := .dset (.same h rfl)
  have h₂ : Kept s s₂ := .ite (.dset h₁) h₁
  exact .ite (.enterSafe (.frameFault (.report h₂))) h₂

theorem Kept.blowDue (h : Kept s t) : Kept s t.blowDue := by
  unfold State.blowDue
  extract_lets need level keys want s₁ stuck s₂
  have h₁ : Kept s s₁ := .same h rfl
  have h₂ : Kept s s₂ := .freeStep (.blow h₁)
  exact .ite h₁ (.ite h₂ (.rep h₂))

theorem Kept.sealedValid (h : Kept s t) : Kept s t.sealedValid :=
  .ite (.blowDue (.setSafe (.same h rfl))) (.setSafe (.same h rfl))

theorem Kept.sendSrdo {sum : List Byte} (h : Kept s t) : Kept s (t.sendSrdo sum) := .ite (.canSend (.canSend h)) h

theorem Kept.publish {fiw : List Byte} (h : Kept s t) : Kept s (t.publish fiw) :=
  .hostRecord (.hostRecord (.sendSrdo (.dset (.dset h))))

theorem Kept.sealFrame {late ready : Bool} (h : Kept s t) : Kept s (t.sealFrame late ready) := by
  unfold State.sealFrame
  extract_lets s₁ s₂ valid fiw s₃ s₄ s₅ s₆ src s₇
  have h₁ : Kept s s₁ := .orreryTest h
  have h₂ : Kept s s₂ := .foldS h₁ fun _ _ h₂ => .countCore h₂
  have h₃ : Kept s s₃ := .dbump h₂
  have h₄ : Kept s s₄ := .ite (.dbump h₃) h₃
  have h₅ : Kept s s₅ := .ite (.dbump h₄) h₄
  have h₆ : Kept s s₆ := .publish h₅
  clear_value s₆
  have h₇ : Kept s s₇ := .same h₆ rfl
  exact .ite (.sealedValid h₇) (.report h₇)

theorem Kept.sealNow (h : Kept s t) : Kept s t.sealNow := .ite (.sealFrame h) h

theorem Kept.watchdog (h : Kept s t) : Kept s t.watchdog := by
  unfold State.watchdog
  refine .ite h (.ite ?_ (.enterSafe h))
  exact .same (.enterSafe h) rfl

theorem Kept.lockstep (h : Kept s t) : Kept s t.lockstep := .ite h (.enterSafe (.ite (.frameFault (.report h)) h))

/-! #### Adapt -/

theorem Kept.accessNack {code c w unit : Nat} (h : Kept s t) : Kept s (t.accessNack code c w unit) :=
    .report (.deliveryNack h)

theorem Kept.smReadKs {k : Nat} {ws : List Nat} (h : Kept s t) : Kept s (t.smReadKs k ws).2 :=
  .foldS (.readKs h) fun _ _ h₁ => .contain h₁

theorem Kept.winRead {src c w off n : Nat} (h : Kept s t) : Kept s (t.winRead src c w off n).2 := by
  unfold State.winRead
  extract_lets k ws x
  split
  · exact h
  · exact .ite_snd (.smReadKs h) (.readKs h)

theorem Kept.winWrite {src c w : Nat} {flag : Option Nat} {n off : Nat} {ws : List SWord} (h : Kept s t) :
    Kept s (State.winWrite src c w flag n off ws t).1 := by
  induction n generalizing t off ws with
  | zero => exact h
  | succ n ih =>
    unfold State.winWrite
    extract_lets run rest last rights k s₁
    have h₁ : Kept s s₁ := .putWords (.noteSaved h)
    split
    · exact h
    · split
      · cases flag with
        | none => exact h₁
        | some f => exact .kSetFlag h₁
      · exact ih h₁

theorem Kept.reopen {k c w : Nat} (h : Kept s t) : Kept s (t.reopen k c w) := .ite (.openWindow (.closeNow h)) h

theorem Kept.tell {g : Nat} {v : Verdict} (h : Kept s t) : Kept s (t.tell g v) := by
  unfold State.tell
  extract_lets dsts s₁
  have h₁ : Kept s s₁ := .ite h (.foldS h fun _ _ h₁ => .reopen h₁)
  refine .foldS h₁ fun x m h₂ => ?_
  extract_lets w
  split
  · rename_i e
    exact .fst e (.winWrite h₂)
  · rename_i e
    exact .accessNack (.fst e (.winWrite h₂))

theorem Kept.sendVerdict {g c outcome resume : Nat} {dsts : List Nat} (h : Kept s t) :
    Kept s (t.sendVerdict g c outcome resume dsts) :=
  .ite (.tell (.setAdGroup h)) (.setAdGroup h)

theorem Kept.regroup {g : Nat} {l : List Nat} (h : Kept s t) : Kept s (t.regroup g l) :=
  .foldS (.setAdGroup h) fun _ _ h₁ => .cset h₁

theorem Kept.endGroup {g code : Nat} (h : Kept s t) : Kept s (t.endGroup g code) :=
  .foldS (.setAdGroup h) fun _ _ h₁ => .complete h₁

theorem Kept.agree {g c : Nat} (h : Kept s t) : Kept s (t.agree g c) :=
  .foldS (.foldS (.setAdGroup h) (fun _ _ h₁ => .cset h₁)) (fun _ _ h₁ => .complete h₁)

theorem Kept.extraTest {k : Nat} (h : Kept s t) : Kept s (t.extraTest k) := .dset (.same h rfl)

theorem Kept.expel {g k code : Nat} (h : Kept s t) : Kept s (t.expel g k code) :=
  .setAdGroup (.startTeardown (.extraTest (.report h)))

theorem Kept.tryJoin {g : Nat} (h : Kept s t) : Kept s (t.tryJoin g) := by
  have hk : ∀ {t u k d}, Kept s t → t.keepContainer k d = some u → Kept s u := .keepContainer
  unfold State.tryJoin
  -- Proved for any `keep`, so that the kernel does not compute the allotment.
  generalize State.keepContainer = keep at hk ⊢
  as_aux_lemma =>
  refine .ite h ?_
  split
  · exact h
  · extract_lets t₁ t₂ t₃
    have h₃ : Kept s t₃ := .foldS (.cset (.cset (.cset (.setCtx (.clearObject h))))) fun _ _ h₁ => .cset h₁
    split
    · exact h
    · rename_i e
      split
      · exact h
      · split
        · exact h
        · rename_i e₁
          exact .cset (.joinGroup (.startBE (hk h₃ e) e₁))

theorem Kept.rollBack {g c : Nat} {l : List Nat} {join : Bool} (h : Kept s t) : Kept s (t.rollBack g c l join) := by
  unfold State.rollBack
  extract_lets x s₁ s₂ s₃ s₄ s₅
  have h₁ : Kept s s₁ := .report h
  have h₂ : Kept s s₂ := .foldS h₁ fun _ _ h₂ => .cbump h₂
  have h₃ : Kept s s₃ := .foldS h₂ fun _ _ h₃ => .expel h₃
  have h₄ : Kept s s₄ := .regroup (.setAdGroup h₂)
  have h₅ : Kept s s₅ := .ite (.tryJoin h₄) h₄
  exact .ite (.endGroup h₃) (.sendVerdict h₅)

theorem Kept.replicaGone {k code : Nat} (h : Kept s t) : Kept s (t.replicaGone k code) :=
  .ite h (.ite (.endGroup h) (.rollBack h))

theorem Kept.freeCtx {k : Nat} (h : Kept s t) : Kept s (t.freeCtx k) := by
  unfold State.freeCtx
  extract_lets x s₁ s₂ s₃ s₄ s₅
  have h₁ : Kept s s₁ := .statusCreator h
  have h₂ : Kept s s₂ := .foldS h₁ fun _ _ h₂ => .cset h₂
  have h₃ : Kept s s₃ := .setCtx h₂
  have h₄ : Kept s s₄ := .same h₃ rfl
  have h₅ : Kept s s₅ := .cset (.cset (.cset (.cset (.cset h₄))))
  exact .foldS h₅ (fun _ _ h₆ => .complete h₆)

theorem Kept.teardown {k : Nat} (h : Kept s t) : Kept s (t.teardown k) := by
  unfold State.teardown
  extract_lets home s₁ c s₂ s₃ s₄
  have h₁ : Kept s s₁ := .closeHeld h
  have h₂ : Kept s s₂ := .ite (.clearUnits h₁) h₁
  have h₃ : Kept s s₃ := .replicaGone h₂
  have h₄ : Kept s s₄ := .freeCtx h₃
  exact .ite h (.foldS h₄ (fun _ _ h₅ => .ite h₅ (.releaseLate h₅)))

theorem Kept.touchSample {g : Nat} {e : List Byte} (h : Kept s t) : Kept s (t.touchSample g e) := .ite (.smTouch h) h

theorem Kept.checkEntry {g num off i : Nat} (h : Kept s t) : Kept s (t.checkEntry g num off i) := by
  unfold State.checkEntry
  extract_lets s₁ e s₂ st s₃ s₄ s₅
  have h₁ : Kept s s₁ := .smTouch h
  have h₂ : Kept s s₂ := .touchSample h₁
  have h₃ : Kept s s₃ := .ite (.clamped h₂) h₂
  have h₄ : Kept s s₄ := .writeBytes h₃
  have h₅ : Kept s s₅ := .report h₄
  exact .ite h₄ (.foldS h₅ (fun _ _ h₆ => .cbump h₆))

theorem Kept.adaptBatch {g num off : Nat} {r : HRef} (h : Kept s t) : Kept s (adaptBatch g num off r t) := by
  unfold Machine.adaptBatch
  refine .ite (.refuse h) (.ite (.refuse h) ?_)
  split
  · exact .refuse h
  · exact .setAdGroup (.foldS h (fun _ _ h₁ => .checkEntry h₁))

theorem Kept.padBatch {g : Nat} {b : Batch} {code : Nat} (h : Kept s t) : Kept s (t.padBatch g b code) :=
  .ite (.setAdGroup h) (.complete (.setAdGroup h))

theorem Kept.noteStep {k step : Nat} (h : Kept s t) : Kept s (t.noteStep k step) := .ite h (.freeStep (.dadd (.cset h)))

theorem Kept.touchBatch {g : Nat} {b : Batch} (h : Kept s t) : Kept s (t.touchBatch g b) :=
  .foldS (.smTouch h) fun _ _ h₁ => .touchSample h₁

theorem Kept.deliverBatch {g k num : Nat} (h : Kept s t) : Kept s (t.deliverBatch g k num) := by
  unfold State.deliverBatch
  extract_lets x c w src
  split
  · exact h
  · split
    · rename_i e
      exact .accessNack (.snd e (.winRead h))
    · rename_i e
      extract_lets step s₁ s₂ half ws
      have h₁ : Kept s s₁ := .noteStep (.snd e (.winRead h))
      have h₂ : Kept s s₂ := .touchBatch h₁
      refine .ite h₁ (.ite (.padBatch h₁) ?_)
      split
      · rename_i e₁
        exact .setAdGroup (.fst e₁ (.winWrite h₂))
      · rename_i e₁
        exact .padBatch (.accessNack (.fst e₁ (.winWrite h₂)))

theorem Kept.batchPoll {g : Nat} (h : Kept s t) : Kept s (t.batchPoll g) :=
  .ite h (.foldS h (fun _ _ h₁ => .foldS h₁ (fun _ _ h₂ => .deliverBatch h₂)))

theorem Kept.digestRecord {g k : Nat} (h : Kept s t) : Kept s (t.digestRecord g k).1 := by
  unfold State.digestRecord
  extract_lets c w
  split
  · rename_i e
    exact .accessNack (.snd e (.winRead h))
  · rename_i e
    exact .snd e (.winRead h)

theorem Kept.noteRecord {g k : Nat} (h : Kept s t) : Kept s (t.noteRecord g k) := by
  unfold State.noteRecord
  extract_lets r s₁ x seen
  have h₁ : Kept s s₁ := .digestRecord h
  split
  · exact .setAdGroup h₁
  · exact .ite h₁ (.ite (.setAdGroup h₁) (.setAdGroup h₁))

theorem Kept.agreedByAll {g c : Nat} (h : Kept s t) : Kept s (t.agreedByAll g c) := by
  unfold State.agreedByAll
  exact .sendVerdict (.tryJoin (.setAdGroup (.agree h)))

theorem Kept.agreedByTwo {g c odd : Nat} (h : Kept s t) : Kept s (t.agreedByTwo g c odd) := by
  unfold State.agreedByTwo
  exact .sendVerdict (.tryJoin (.regroup (.expel (.agree h))))

theorem Kept.judge {g : Nat} (h : Kept s t) : Kept s (t.judge g) := by
  unfold State.judge
  extract_lets x
  split
  · refine .ite h ?_
    split
    · exact h
    · exact .ite (.agreedByAll h) (.rollBack h)
    · exact .ite (.agreedByAll h) (.ite (.agreedByTwo h) (.ite (.agreedByTwo h) (.ite (.agreedByTwo h) (.rollBack h))))
  · exact h

theorem Kept.digestPoll {g : Nat} (h : Kept s t) : Kept s (t.digestPoll g) := by
  unfold State.digestPoll
  refine .ite h ?_
  split
  · exact .sendVerdict h
  · exact .judge (.foldS h (fun _ _ h₁ => .noteRecord h₁))

theorem Kept.adaptLag {g : Nat} (h : Kept s t) : Kept s (t.adaptLag g) := by
  unfold State.adaptLag
  extract_lets x
  split
  · exact h
  · extract_lets late s₁ l
    have h₁ : Kept s s₁ := .foldS h fun _ _ h₁ => .expel h₁
    exact .ite h (.ite (.endGroup h₁) (.rollBack h₁))

theorem Kept.agreedOf {k c : Nat} (h : Kept s t) : Kept s (t.agreedOf k c).2 := .smReadKs h

theorem Kept.sendPromotion {p : Promotion} {ws : List SWord} (h : Kept s t) : Kept s (t.sendPromotion p ws) :=
  .foldS h fun _ _ h₁ => .sendPacket h₁

theorem Kept.adaptPromote {g c k w off : Nat} {r : HRef} (h : Kept s t) : Kept s (adaptPromote g c k w off r t) := by
  unfold Machine.adaptPromote
  extract_lets x deny
  refine .ite (.refuse h) (.ite (.refuse h) ?_)
  split
  · extract_lets wa wb ws s₁ p s₂
    have h₁ : Kept s s₁ := .agreedOf (.agreedOf h)
    have h₂ : Kept s s₂ := .sendPromotion h₁
    exact .ite (.complete (.rep h)) (.ite (.complete (.rep (.agreedOf (.agreedOf h)))) (.same h₂ rfl))
  · exact .complete (.rep h)

theorem Kept.promotionWords (h : Kept s t) : Kept s t.promotionWords := by
  unfold State.promotionWords
  refine .foldS h ?_
  intro x' a' h₁
  extract_lets s₁ c word e s₂
  have h₁ : Kept s s₁ := .same h₁ rfl
  have h₂ : Kept s s₂ := .putWords (.noteSaved h₁)
  split
  · exact .complete (.accessNack h₁)
  · exact .complete (.report h₂)

/-! #### Hosts -/

theorem Kept.hostLoss {h' : Nat} (h : Kept s t) : Kept s (t.hostLoss h') :=
  .ite h (.raiseGen (.setPort (.setHostState (.rep h))))

theorem Kept.linkDownState {h' : Nat} (h : Kept s t) : Kept s (t.linkDownState h') := .ite (.setHostState h) h

theorem Kept.perstAssert {port : HostPort} (h : Kept s t) : Kept s (t.perstAssert port) :=
  .linkDownState (.setPort (.hostLoss h))

theorem Kept.dlDown {port : HostPort} (h : Kept s t) : Kept s (t.dlDown port) := .linkDownState (.setPort (.hostLoss h))

theorem Kept.functionReset {port : HostPort} (h : Kept s t) : Kept s (t.functionReset port) := .setPort (.hostLoss h)

theorem Kept.pcieUp {port : HostPort} {busMaster : Bool} (h : Kept s t) : Kept s (t.pcieUp port busMaster) :=
  .ite h (.ite (.setHostState (.setPort h)) (.setPort h))

theorem Kept.heartbeatIn {port : HostPort} (h : Kept s t) : Kept s (t.heartbeatIn port) := .setPort h

theorem Kept.heartbeatOut {port : HostPort} (h : Kept s t) : Kept s (t.heartbeatOut port) := .ite (.hostLoss h) h

theorem Kept.hostWord {i c w : Nat} {v : (SWord × Bool) × State} (h : Kept s t) (e : t.hostWord i c w = some v) :
    Kept s v.2 := by
  unfold State.hostWord at e
  split at e
  · rename_i e₁
    cases e
    exact .matchedRead h e₁
  · obtain ⟨k, -, rfl⟩ := Option.map_eq_some_iff.mp e
    exact .readK h

theorem Kept.hostWords {i c n w : Nat} {v : List (SWord × Bool) × State} (h : Kept s t)
    (e : t.hostWords i c n w = some v) :
    Kept s v.2 := by
  induction n generalizing t w v with
  | zero => cases e; exact h
  | succ n ih =>
    unfold State.hostWords at e
    split at e
    · cases e
    · rename_i e₁
      split at e
      · rename_i e₂
        have h₂ := ih (.hostWord h e₁) e₂
        cases e
        exact h₂
      · cases e

theorem Kept.bar2Read {port : HostPort} {o n : Nat} (h : Kept s t) : Kept s (t.bar2Read port o n) := by
  have hw : ∀ {t i c n w v}, Kept s t → t.hostWords i c n w = some v → Kept s v.2 := .hostWords
  unfold State.bar2Read
  -- Proved for any `words`, so that the kernel does not compute them.
  generalize State.hostWords = words at hw ⊢
  as_aux_lemma =>
  refine .ite (.send h) (.ite h ?_)
  extract_lets a
  split
  · exact .send (.report h)
  · split
    · extract_lets w
      split
      · exact .send (.rep h)
      · rename_i e
        exact .send (hw h e)
    · exact .send (.touchRange h)

theorem Kept.hostPutWord {h' c w a : Nat} {data : List Byte} (h : Kept s t) : Kept s (t.hostPutWord h' c w a data) := by
  unfold State.hostPutWord
  split
  · exact .rep h
  · exact .kSetWord (.noteSaved h)

theorem Kept.hostPutBytes {a : Nat} {data : List Byte} (h : Kept s t) : Kept s (t.hostPutBytes a data) := by
  unfold State.hostPutBytes
  extract_lets s₁ full
  have h₁ : Kept s s₁ := .writeBytes h
  exact .same h₁ rfl

theorem Kept.lsWrite {h' a : Nat} {data : List Byte} (h : Kept s t) : Kept s (t.lsWrite h' a data) :=
  .ite (.clamped h) (.ite (.dbump (.tsrReport h)) (.hostPutBytes h))

theorem Kept.bar2Write {port : HostPort} {o : Nat} {data : List Byte} (h : Kept s t) :
    Kept s (t.bar2Write port o data) := by
  unfold State.bar2Write
  extract_lets h' p n a
  refine .ite (.ite (.writeBytes h) h) (.ite h ?_)
  split
  · exact .report h
  · split
    · exact .foldS h fun _ _ h₁ => .hostPutWord h₁
    · exact .lsWrite h
    · exact .hostPutBytes h

theorem Kept.setChannel {h' ch : Nat} {x : Option Export} (h : Kept s t) : Kept s (t.setChannel h' ch x) := .setPort h

theorem Kept.exportOpen {p0 p1 p2 : BitVec 64} {r : HRef} (h : Kept s t) : Kept s (exportOpen p0 p1 p2 r t) :=
  .ite (.refuse h) (.ite (.refuse h) (.complete (.setChannel h)))

theorem Kept.exportWords {src c w f off n : Nat} (h : Kept s t) : Kept s (t.exportWords src c w f off n).2.2 := by
  induction f generalizing t off n with
  | zero => exact h
  | succ f ih =>
    unfold State.exportWords
    split
    · exact h
    · split
      · rename_i e
        exact .snd e (.winRead h)
      · rename_i e
        exact ih (.snd e (.winRead h))

theorem Kept.exportNack {h' code c w : Nat} (h : Kept s t) : Kept s (t.exportNack h' code c w) :=
    .statusTo (.accessNack h)

theorem Kept.exportPoll {port : HostPort} {ch : Nat} (h : Kept s t) : Kept s (t.exportPoll port ch) := by
  unfold State.exportPoll
  extract_lets i
  split
  · exact h
  · refine .ite h ?_
    extract_lets c
    split
    · rename_i e
      exact .exportNack (.snd e (.winRead h))
    · rename_i e
      have h₁ : Kept s _ := .snd e (.winRead h)
      extract_lets b n s₁ a r s₂
      have h₂ : Kept s s₂ := .hostWrite (.exportWords (.setChannel h₁))
      refine .ite h₁ ?_
      split
      · exact .exportNack h₂
      · exact .hostRecord h₂

/-- What an outcome that gives a next state keeps. -/
def KeptNext (s : State) : Host.Outcome State Fault Refusal → Prop
  | .next t => Kept s t
  | _ => True

theorem KeptNext.next (h : Kept s t) : KeptNext s (.next t) := h

theorem KeptNext.ite {c : Prop} {_ : Decidable c} {o p : Host.Outcome State Fault Refusal} (h : KeptNext s o)
    (k : KeptNext s p) :
    KeptNext s (if c then o else p) := by
  split
  · exact h
  · exact k

/-! #### Writes -/

theorem Kept.stateOr {o : Host.Outcome State Fault Refusal} (h : Kept s t) (ho : KeptNext s o) :
    Kept s (stateOr t o) := by
  cases o with
  | next u => exact ho
  | _ => exact h

theorem KeptNext.execNopCommand {iss : Issuer} (h : Kept s t) : KeptNext s (execNopCommand iss t) :=
  .next (.runCommand (.fresh h) fun _ _ h₁ => .complete h₁)

theorem KeptNext.execHostAttach {iss : Issuer} (h : Kept s t) : KeptNext s (execHostAttach iss t) :=
  .next (.runCommand (.fresh h) fun _ _ h₁ => .hostAttach h₁)

theorem KeptNext.execStatePreOperational {iss : Issuer} (h : Kept s t) : KeptNext s (execStatePreOperational iss t) :=
  .next (.runCommand (.fresh h) fun _ _ h₁ => .stateCommand h₁)

theorem KeptNext.execStateOperational {iss : Issuer} (h : Kept s t) : KeptNext s (execStateOperational iss t) :=
  .next (.runCommand (.fresh h) fun _ _ h₁ => .stateCommand h₁)

theorem KeptNext.execStateStopped {iss : Issuer} (h : Kept s t) : KeptNext s (execStateStopped iss t) :=
  .next (.runCommand (.fresh h) fun _ _ h₁ => .stateCommand h₁)

theorem KeptNext.execStateMaintenance {iss : Issuer} (h : Kept s t) : KeptNext s (execStateMaintenance iss t) :=
  .next (.runCommand (.fresh h) fun _ _ h₁ => .stateCommand h₁)

theorem KeptNext.badParam {iss : Issuer} {who : Who} {states : List Nat} (h :
    Kept s t) : KeptNext s (badParam iss who states t) :=
  .next (.runCommand (.fresh h) fun _ _ h₁ => h₁)

theorem KeptNext.execPowerExit {iss : Issuer} (h : Kept s t) : KeptNext s (execPowerExit iss t) :=
  .next (.runCommand (.fresh h) fun _ _ h₁ => .powerExit h₁)

theorem KeptNext.execPowerIdle {iss : Issuer} (h : Kept s t) : KeptNext s (execPowerIdle iss t) :=
  .next (.runCommand (.fresh h) fun _ _ h₁ => .powerEntry h₁)

theorem KeptNext.execPowerStandby {iss : Issuer} (h : Kept s t) : KeptNext s (execPowerStandby iss t) :=
  .next (.runCommand (.fresh h) fun _ _ h₁ => .powerEntry h₁)

theorem KeptNext.execPowerSleep {iss : Issuer} (h : Kept s t) : KeptNext s (execPowerSleep iss t) :=
  .next (.runCommand (.fresh h) fun _ _ h₁ => .powerEntry h₁)

theorem KeptNext.execDeviceReset {iss : Issuer} (h : Kept s t) : KeptNext s (execDeviceReset iss t) :=
  .next (.runCommand (.fresh h) fun _ _ h₁ => .deviceReset h₁)

theorem KeptNext.execPartitionReset {iss : Issuer} {p0 : BitVec 64} (h : Kept s t) :
    KeptNext s (execPartitionReset iss p0 t) :=
  .next (.runCommand (.fresh h) fun _ _ h₁ => .partitionReset h₁)

theorem KeptNext.execPartitionOut {iss : Issuer} {p0 : BitVec 64} (h : Kept s t) :
    KeptNext s (execPartitionOut iss p0 t) :=
  .next (.runCommand (.fresh h) fun _ _ h₁ => .partitionOut h₁)

theorem KeptNext.execPartitionIn {iss : Issuer} {p0 : BitVec 64} (h : Kept s t) :
    KeptNext s (execPartitionIn iss p0 t) :=
  .next (.runCommand (.fresh h) fun _ _ h₁ => .partitionIn h₁)

theorem KeptNext.execMaintStressTest {iss : Issuer} {p1 : BitVec 64} (h : Kept s t) :
    KeptNext s (execMaintStressTest iss p1 t) :=
  .next (.runCommand (.fresh h) fun _ _ h₁ => .maintPart h₁)

theorem KeptNext.execMaintRetraining {iss : Issuer} {p1 : BitVec 64} (h : Kept s t) :
    KeptNext s (execMaintRetraining iss p1 t) :=
  .next (.runCommand (.fresh h) fun _ _ h₁ => .maintPart h₁)

theorem KeptNext.execMaintScrubSweep {iss : Issuer} {p1 : BitVec 64} (h : Kept s t) :
    KeptNext s (execMaintScrubSweep iss p1 t) :=
  .next (.runCommand (.fresh h) fun _ _ h₁ => .maintPart h₁)

theorem KeptNext.execMaintFirmwareUpdate {iss : Issuer} {p1 p2 : BitVec 64} (h :
    Kept s t) : KeptNext s (execMaintFirmwareUpdate iss p1 p2 t) :=
  .next (.runCommand (.fresh h) fun _ _ h₁ => .maintFirmware h₁)

theorem KeptNext.execMaintAbort {iss : Issuer} (h : Kept s t) : KeptNext s (execMaintAbort iss t) :=
  .next (.runCommand (.fresh h) fun _ _ h₁ => .maintAbort h₁)

theorem KeptNext.execCtxCreate {iss : Issuer} {p0 : BitVec 64} (h : Kept s t) : KeptNext s (execCtxCreate iss p0 t) :=
  .next (.runCommand (.fresh h) fun _ _ h₁ => .ctxCreate h₁)

theorem KeptNext.execCtxLoad {iss : Issuer} {p0 p1 p2 : BitVec 64} {data : List Byte} (h :
    Kept s t) : KeptNext s (execCtxLoad iss p0 p1 p2 data t) :=
  .next (.runCommand (.fresh h) fun _ _ h₁ => .ctxLoad h₁)

theorem KeptNext.execCtxStart {iss : Issuer} {p0 : BitVec 64} (h : Kept s t) : KeptNext s (execCtxStart iss p0 t) :=
  .next (.runCommand (.fresh h) fun _ _ h₁ => .ctxStart h₁)

theorem KeptNext.execCtxTeardown {iss : Issuer} {p0 : BitVec 64} (h : Kept s t) :
    KeptNext s (execCtxTeardown iss p0 t) :=
  .next (.runCommand (.fresh h) fun _ _ h₁ => .ctxTeardown h₁)

theorem KeptNext.execCtxSave {iss : Issuer} {p0 p1 p2 : BitVec 64} (h : Kept s t) :
    KeptNext s (execCtxSave iss p0 p1 p2 t) :=
  .next (.runCommand (.fresh h) fun _ _ h₁ => .ctxSave h₁)

theorem KeptNext.execCtxRestore {iss : Issuer} {p0 p1 p2 : BitVec 64} {data : List Byte} (h :
    Kept s t) : KeptNext s (execCtxRestore iss p0 p1 p2 data t) :=
  .next (.runCommand (.fresh h) fun _ _ h₁ => .ctxRestore h₁)

theorem KeptNext.execWindowOpen {iss : Issuer} {p0 p1 p2 p3 : BitVec 64} (h :
    Kept s t) : KeptNext s (execWindowOpen iss p0 p1 p2 p3 t) :=
  .next (.runCommand (.fresh h) fun _ _ h₁ => .windowOpen h₁)

theorem KeptNext.execWindowClose {iss : Issuer} {p0 p1 : BitVec 64} (h : Kept s t) :
    KeptNext s (execWindowClose iss p0 p1 t) :=
  .next (.runCommand (.fresh h) fun _ _ h₁ => .windowClose h₁)

theorem KeptNext.execAdaptBatch {iss : Issuer} {p0 p1 p2 : BitVec 64} (h :
    Kept s t) : KeptNext s (execAdaptBatch iss p0 p1 p2 t) :=
  .next (.runCommand (.fresh h) fun _ _ h₁ => .adaptBatch h₁)

theorem KeptNext.execAdaptPromote {iss : Issuer} {p0 p1 p2 p3 : BitVec 64} (h :
    Kept s t) : KeptNext s (execAdaptPromote iss p0 p1 p2 p3 t) :=
  .next (.runCommand (.fresh h) fun _ _ h₁ => .adaptPromote h₁)

theorem KeptNext.execExportOpen {iss : Issuer} {p0 p1 p2 : BitVec 64} (h :
    Kept s t) : KeptNext s (execExportOpen iss p0 p1 p2 t) :=
  .next (.runCommand (.fresh h) fun _ _ h₁ => .exportOpen h₁)

theorem KeptNext.execExportClose {iss : Issuer} {p0 : BitVec 64} (h : Kept s t) :
    KeptNext s (execExportClose iss p0 t) :=
  .next (.runCommand (.fresh h) fun _ _ h₁ => .complete (.setChannel h₁))

theorem KeptNext.execAttest {iss : Issuer} {p0 p1 p2 p3 : BitVec 64} (h : Kept s t) :
    KeptNext s (execAttest iss p0 p1 p2 p3 t) :=
  .next (.runCommand (.fresh h) fun _ _ h₁ => .attest h₁)

theorem KeptNext.runOpcode {iss : Issuer} {op : Nat} {p0 p1 p2 p3 : BitVec 64} {data : List Byte} (h : Kept s t) :
    KeptNext s (runOpcode iss op p0 p1 p2 p3 data t) := by
  unfold Machine.runOpcode
  split
  · exact .execNopCommand h
  · exact .execHostAttach h
  · exact .ite (.execStatePreOperational h) (.ite (.execStateOperational h) (.ite (.execStateStopped h)
      (.ite (.execStateMaintenance h) (.badParam h))))
  · exact .ite (.execPowerExit h)
      (.ite (.execPowerIdle h) (.ite (.execPowerStandby h) (.ite (.execPowerSleep h) (.badParam h))))
  · exact .execDeviceReset h
  · exact .execPartitionReset h
  · exact .execPartitionOut h
  · exact .execPartitionIn h
  · exact .ite (.execMaintStressTest h) (.ite (.execMaintRetraining h) (.ite (.execMaintScrubSweep h)
      (.ite (.execMaintFirmwareUpdate h) (.badParam h))))
  · exact .execMaintAbort h
  · exact .execCtxCreate h
  · exact .execCtxLoad h
  · exact .execCtxStart h
  · exact .execCtxTeardown h
  · exact .execCtxSave h
  · exact .execCtxRestore h
  · exact .execWindowOpen h
  · exact .execWindowClose h
  · exact .execAdaptBatch h
  · exact .execAdaptPromote h
  · exact .execExportOpen h
  · exact .execExportClose h
  · exact .execAttest h
  · exact .next h

theorem Kept.execute {i : Nat} {data : List Byte} (h : Kept s t) : Kept s (t.execute i data) :=
    .stateOr h (.runOpcode h)

theorem Kept.clearErrorLog {k : Nat} {sameBeat : Bool} (h : Kept s t) : Kept s (t.clearErrorLog k sameBeat) := by
  unfold State.clearErrorLog
  extract_lets n s₁ s₂
  have h₁ : Kept s s₁ := .foldS h fun _ _ h₁ => .dclear h₁
  have h₂ : Kept s s₂ := .cset (.cset h₁)
  exact .ite (.cset (.cset h₂)) h₂

theorem Kept.ackCleaning {e v : Nat} {sameBeat : Bool} (h : Kept s t) : Kept s (t.ackCleaning e v sameBeat) :=
  .ite h (.ite (.dbump (.eset h)) (.eset h))

theorem Kept.linkKind {e v : Nat} (h : Kept s t) : Kept s (t.linkKind e v) :=
  .ite (.clamped (.eset (.eset (.eset h)))) (.eset (.eset (.eset h)))

theorem Kept.swapNow {k : Nat} (h : Kept s t) : Kept s (t.swapNow k) := .ite (.cset h) h

theorem Kept.srdoWritten (h : Kept s t) : Kept s t.srdoWritten := .dset h

theorem Kept.applyWrite {i index sub v : Nat} {data : List Byte} {sameBeat : Bool} (h : Kept s t) :
    Kept s (t.applyWrite i index sub v data sameBeat) := by
  unfold State.applyWrite
  refine .ite (.ite (.execute h) h) (.ite (.ite (.clearErrorLog h) h)
      (.ite (.ite (.motionCommit h) h) (.ite (.ackCleaning h)
          (.ite (.relocate (.linkKind h)) (.ite (.enableChanged (.dset h))
              (.ite (.dset (.dset h)) (.ite (.ite (.dset h) (.srdoWritten (.dset (.dset h))))
                  (.ite ?_ (.ite (.rolesWritten (.dset h)) (.ite (.srdoWritten (.dset (.dset h)))
                      (.ite (.srdoWritten (.dset h)) (.ite (.relocate (.dset h))
                          (.ite (.swapNow (.dset h)) (.ite (.sendVout (.dset h))
                              (.ite (.tempCheck (.dset h)) (.dset h))))))))))))))))
  exact .same (t := t.dset index sub v) (.dset h) rfl

theorem Kept.failWrite {i index sub : Nat} {f : WriteFail} (h : Kept s t) : Kept s (t.failWrite i index sub f) := by
  unfold State.failWrite
  extract_lets s₁
  have h₁ : Kept s s₁ := by
    unfold s₁
    split
    · exact .rep h
    · exact h
    · exact .ite h (.ite (.clamped h) h)
  exact .ite (.send h₁) h₁

theorem Kept.passWrite {i index sub off : Nat} {e : Entry} {bytes data : List Byte} {sameBeat : Bool} (h : Kept s t) :
    Kept s (t.passWrite i index sub off e bytes data sameBeat) :=
  .applyWrite (.ite (.freeStep (.ite (.clamped h) h)) (.ite (.clamped h) h))

theorem Kept.dictWrite {i index sub off : Nat} {bytes data : List Byte} {sameBeat : Bool} (h : Kept s t) :
    Kept s (t.dictWrite i index sub off bytes data sameBeat) := by
  unfold State.dictWrite
  refine .ite h ?_
  split
  · exact .failWrite h
  · split
    · exact .ite h (.passWrite h)
    · exact h

theorem Kept.romWrite {port : HostPort} {off : Nat} {data : List Byte} (h : Kept s t) :
    Kept s (t.romWrite port off data) := by
  unfold State.romWrite
  extract_lets p len s₁ s₂ go
  have h₁ : Kept s s₁ := .ite (.setPort h) h
  have h₂ : Kept s s₂ := .ite (.clamped h₁) h₁
  exact .ite (.go h₂) h₂

theorem Kept.writeLogRegs {port : HostPort} {off : Nat} {data : List Byte} (h : Kept s t) :
    Kept s (t.writeLogRegs port off data) :=
  .ite h (.ite (.clamped h) (.setPort h))

theorem Kept.mirrorWrite {port : HostPort} {off : Nat} {data hostData : List Byte} (h : Kept s t) :
    Kept s (t.mirrorWrite port off data hostData) :=
  .foldS h fun _ _ h₁ => .dictWrite h₁

theorem Kept.registerWrite {port : HostPort} {off : Nat} {data hostData : List Byte} (h : Kept s t) :
    Kept s (t.registerWrite port off data hostData) :=
  .ite (.romWrite h)
      (.ite h (.ite (.clamped (.ite (.heartbeatIn (.writeLogRegs (.setPort (.mirrorWrite h))))
          (.writeLogRegs (.setPort (.mirrorWrite h))))) (.ite (.heartbeatIn (.writeLogRegs (.setPort (.mirrorWrite h))))
              (.writeLogRegs (.setPort (.mirrorWrite h))))))

/-! #### Tick -/

theorem Kept.endFrame (h : Kept s t) : Kept s t.endFrame := .ite (.sealFrame h) (.same h rfl)

theorem Kept.stamp (h : Kept s t) : Kept s t.stamp := .dset (.dset (.dset (.same h rfl)))

theorem Kept.periodCheck (h : Kept s t) : Kept s t.periodCheck := .foldS h fun _ _ h₁ => .startTeardown (.report h₁)

theorem Kept.clearImages (h : Kept s t) : Kept s t.clearImages :=
  .foldS (.foldS (.same h rfl) (fun _ _ h₁ => .setEp h₁)) (fun _ _ h₁ => .setSweep h₁)

theorem Kept.takeViews (h : Kept s t) : Kept s t.takeViews := by
  unfold State.takeViews
  extract_lets s₁ due s₂
  have h₁ : Kept s s₁ := .takeTables (.clearImages h)
  have h₂ : Kept s s₂ := by
    clear_value s₁
    exact .same h₁ rfl
  exact .foldS h₂ fun _ _ h₃ => .checkSpan h₃

theorem Kept.enterOp (h : Kept s t) : Kept s t.enterOp := by
  unfold State.enterOp
  split
  · exact h
  · refine .ite ?_ (.cancelWait h)
    split
    · exact .foldS (.opReport (.same h rfl)) fun _ _ h₁ => .complete h₁
    · have h₁ : Kept s t.periodCheck.takeViews := .takeViews (.periodCheck h)
      generalize t.periodCheck.takeViews = v at h₁ ⊢
      exact .foldS (.setDev (.same h₁ rfl)) fun _ _ h₂ => .complete h₂

theorem Kept.openFrame (h : Kept s t) : Kept s t.openFrame := by
  unfold State.openFrame
  extract_lets s₁
  have h₁ : Kept s s₁ := .dset (.same h rfl)
  exact .ite (.dset (.same h₁ rfl)) h₁

theorem Kept.takeComplete (h : Kept s t) : Kept s t.takeComplete := by
  unfold State.takeComplete
  refine .foldS h ?_
  intro x' a' h₁
  split
  · exact h₁
  · exact .setEp (.ite (.slotDelivered h₁) h₁)

theorem Kept.turnSweeps (h : Kept s t) : Kept s t.turnSweeps := .foldS h fun _ _ h₁ => .setSweep (.setSweep h₁)

theorem Kept.turnViews (h : Kept s t) : Kept s t.turnViews := by
  unfold State.turnViews
  extract_lets s₁ near
  have h₁ : Kept s s₁ := .foldS h fun _ _ h₁ => .ite (.setView h₁) (.ite (.setView h₁) h₁)
  exact .same h₁ rfl

theorem Kept.startPrograms (h : Kept s t) : Kept s t.startPrograms := .ite (.foldS h (fun _ _ h₁ => .startFrame h₁)) h

theorem Kept.readPower (h : Kept s t) : Kept s t.readPower := .freeStep (.dset h)

theorem Kept.turn (h : Kept s t) : Kept s t.turn := by
  unfold State.turn
  extract_lets s₁ s₂ s₃ s₄ s₅
  have h₁ : Kept s s₁ := .closeLog h
  have h₂ : Kept s s₂ := .same h₁ rfl
  have h₃ : Kept s s₃ := .admitHeads (.releaseHeads (.returnDue (.enterOp h₂)))
  have h₄ : Kept s s₄ := .turnViews (.turnSweeps (.takeComplete (.openFrame h₃)))
  have h₅ : Kept s s₅ := .startPrograms (.promotionWords (.frameCounts h₄))
  exact .readPower (.tempCheck (.fixTriggers h₅))

theorem Kept.tick (h : Kept s t) : Kept s t.tick := .ite (.turn (.stamp (.endFrame h))) h

theorem Kept.syncIn (h : Kept s t) : Kept s t.syncIn := .ite h (.ite (.tick h) (.same h rfl))

/-! ### The commands -/

theorem KeptNext.execLdt {core : Fin 8} {pair : Fin 4} (h : Kept s t) : KeptNext s (execLdt core pair t) := by
  refine .next (.issueA (.fresh h) fun z x h₁ => ?_)
  split
  · rename_i e
    exact .snd e (.consumeRead h₁)
  · rename_i e
    have h₂ : Kept s _ := .snd e (.consumeRead h₁)
    exact .ite (.lateSkip (.pushOp h₂)) (.pushOp h₂)

theorem KeptNext.execRegion {core : Fin 8} {pair : Fin 4} (h : Kept s t) : KeptNext s (execRegion core pair t) := by
  refine .next (.issueA (.fresh h) fun z x h₁ => ?_)
  split
  · rename_i e
    exact .snd e (.consumeRead h₁)
  · rename_i e
    have h₂ : Kept s _ := .snd e (.consumeRead h₁)
    refine .ite (.lateSkip (.pushOp h₂)) ?_
    split
    · rename_i e₁
      exact .snd e₁ (.consumeRead h₂)
    · rename_i e₁
      exact .pushOp (.snd e₁ (.consumeRead h₂))

theorem KeptNext.execBusOffRecovery {ctl : CanCtl} (h : Kept s t) : KeptNext s (execBusOffRecovery ctl t) := by
  cases ctl with
  | canA => exact .next (.same (.fresh h) rfl)
  | canB => exact .next (.same (.fresh h) rfl)

theorem KeptNext.exec {i : Instr} (h : Kept s t) : KeptNext s (exec i t) := by
  cases i with
  | nopCommand => exact .execNopCommand h
  | hostAttach => exact .execHostAttach h
  | statePreOperational => exact .execStatePreOperational h
  | stateOperational => exact .execStateOperational h
  | stateStopped => exact .execStateStopped h
  | stateMaintenance => exact .execStateMaintenance h
  | powerIdle => exact .execPowerIdle h
  | powerStandby => exact .execPowerStandby h
  | powerSleep => exact .execPowerSleep h
  | powerExit => exact .execPowerExit h
  | deviceReset => exact .execDeviceReset h
  | partitionReset => exact .execPartitionReset h
  | partitionOut => exact .execPartitionOut h
  | partitionIn => exact .execPartitionIn h
  | maintStressTest => exact .execMaintStressTest h
  | maintRetraining => exact .execMaintRetraining h
  | maintScrubSweep => exact .execMaintScrubSweep h
  | maintFirmwareUpdate iss p1 => exact .execMaintFirmwareUpdate (p1 := p1) h
  | maintAbort => exact .execMaintAbort h
  | maintActivityEnd => exact .next (.maintEnd (.fresh h))
  | ctxCreate => exact .execCtxCreate h
  | ctxLoad iss p0 p1 => exact .execCtxLoad (p1 := p1) h
  | ctxStart => exact .execCtxStart h
  | ctxTeardown => exact .execCtxTeardown h
  | ctxSave => exact .execCtxSave h
  | ctxRestore iss p0 p1 => exact .execCtxRestore (p1 := p1) h
  | windowOpen => exact .execWindowOpen h
  | windowClose => exact .execWindowClose h
  | closeTakesEffect => exact .next (.closeDue (.atTime (.fresh h)))
  | adaptBatch => exact .execAdaptBatch h
  | adaptPromote => exact .execAdaptPromote h
  | exportOpen => exact .execExportOpen h
  | exportClose => exact .execExportClose h
  | attest => exact .execAttest h
  | quoteComplete => exact .next (.quoteComplete (.atTime (.fresh h)))
  | nopInstruction => exact .next (.issue (.fresh h) fun _ _ h₁ => .pushDone h₁)
  | flagSet => exact .next (.issue (.fresh h) fun _ _ h₁ => .pushDone h₁)
  | flagClear => exact .next (.issue (.fresh h) fun _ _ h₁ => .pushDone h₁)
  | guardInstr => exact .next (.issue (.fresh h) fun _ _ h₁ => .pushDone (.ite h₁ (.goTo h₁)))
  | jump => exact .next (.issue (.fresh h) fun _ _ h₁ => .pushDone (.ite (.goTo h₁) h₁))
  | cset => exact .next (.issue (.fresh h) fun _ _ h₁ => .pushDone (.mapStrm h₁))
  | cadd => exact .next (.issue (.fresh h) fun _ _ h₁ => .pushDone (.mapStrm h₁))
  | ccopy => exact .next (.issue (.fresh h) fun _ _ h₁ => .pushDone (.mapStrm h₁))
  | cmp => exact .next (.issue (.fresh h) fun _ _ h₁ => .pushDone (.mapStrm h₁))
  | endInstr => exact .next (.issue (.fresh h) fun _ _ h₁ => .pushDone (.mapStrm h₁))
  | ldq => exact .next (.issueA (.fresh h) fun _ _ h₁ => .pushPlain h₁)
  | ldt => exact .execLdt h
  | ldz => exact .next (.issueA (.fresh h) fun _ _ h₁ => .pushPlain h₁)
  | stq => exact .next (.issueA (.fresh h) fun _ _ h₁ => .pushPlain h₁)
  | stz => exact .next (.issueA (.fresh h) fun _ _ h₁ => .pushPlain h₁)
  | dld => exact .next (.issueA (.fresh h) fun _ _ h₁ => .pushStaging h₁)
  | dst => exact .next (.issueA (.fresh h) fun _ _ h₁ => .pushStaging h₁)
  | put => exact .next (.issueA (.fresh h) fun _ _ h₁ => .pushRemote h₁)
  | sput => exact .next (.issueA (.fresh h) fun _ _ h₁ => .pushRemote h₁)
  | getInstr => exact .next (.issueA (.fresh h) fun _ _ h₁ => .pushRemote h₁)
  | aadd => exact .next (.issueA (.fresh h) fun _ _ h₁ => .pushRemote h₁)
  | rflag => exact .next (.issueA (.fresh h) fun _ _ h₁ => .pushRemote h₁)
  | fence => exact .next (.issueA (.fresh h) fun _ _ h₁ => .ite (.pushDone h₁) (.pushOp h₁))
  | mfill => exact .next (.issueA (.fresh h) fun _ _ h₁ => .pushPlain h₁)
  | mcopy => exact .next (.issueA (.fresh h) fun _ _ h₁ => .pushPlain h₁)
  | mtrans => exact .next (.issueA (.fresh h) fun _ _ h₁ => .pushPlain h₁)
  | mdigest => exact .next (.issueA (.fresh h) fun _ _ h₁ => .pushPlain h₁)
  | region => exact .execRegion h
  | wload => exact .next (.issue (.fresh h) fun _ _ h₁ => .mapGroup (.pushOp h₁))
  | weightLoadStart => exact .next (.weightLoad (.fresh h))
  | splitChange => exact .next (.splitChange (.fresh h))
  | stream => exact .next (.issue (.fresh h) fun _ _ h₁ => .readStream (.pushOp h₁))
  | narrow => exact .next (.issue (.fresh h) fun _ _ h₁ => .readNarrow (.pushOp h₁))
  | elementThread => exact .next (.elementThread (.fresh h))
  | instructionComplete => exact .next (.instructionComplete (.fresh h))
  | vectorSlot => exact .next (.vectorSlot (.fresh h))
  | columnSum => exact .next (.columnSum (.fresh h))
  | tensorClose => exact .next (.tensorClose (.fresh h))
  | crossWait => exact .next (.crossWait (.fresh h))
  | stopReached => exact .next (.stopReached (.fresh h))
  | putPacket => exact .next (.arriveWindow h)
  | sputData => exact .next (.arriveWindow h)
  | sputLast => exact .next (.ite (.fresh h) (.arriveWindow h))
  | getRequest => exact .next (.arriveWindow h)
  | getReply => exact .next (.arriveAnswer h)
  | aaddInt32 => exact .next (.arriveWindow h)
  | aaddFp32 => exact .next (.arriveWindow h)
  | flagPacket => exact .next (.arriveWindow h)
  | ack => exact .next (.arriveAnswer h)
  | nack => exact .next (.arriveAnswer h)
  | hold => exact .next (.arriveAnswer h)
  | memoryWrite => exact .next (.ite (.memoryWrite (.arrive (.fresh h))) (.fresh h))
  | memoryReadRequest => exact .next (.ite (.memoryReadRequest (.arrive (.fresh h))) (.fresh h))
  | memoryReadReply => exact .next (.arriveAnswer h)
  | linkTimeout => exact .next (.linkTimeout (.atTime (.fresh h)))
  | lateReplyPause => exact .next (.lateReplyPause (.fresh h))
  | tick => exact .next (.tick (.atTime (.fresh h)))
  | sliceBoundary => exact .next (.sliceBoundary (.atTime (.fresh h)))
  | switch => exact .next (.switch (.fresh h))
  | slotClearing => exact .next (.slotClearing (.fresh h))
  | almanacSlot => exact .next (.almanacSlot (.fresh h))
  | slotVerdictTimeout => exact .next (.verdictTimeout (.fresh h))
  | frameDeadline => exact .next (.frameDeadline (.fresh h))
  | fiwSeal => exact .next (.sealNow (.atTime (.fresh h)))
  | safeOkToggle => exact .next (.same (.fresh h) rfl)
  | smWatchdog => exact .next (.watchdog (.fresh h))
  | lockstepMismatch => exact .next (.lockstep (.fresh h))
  | teardown => exact .next (.teardown (.atTime (.fresh h)))
  | hostLossGrace => exact .next (.ite (.fresh h) (.ite (.same (.fresh h) rfl) (.endGrace (.fresh h))))
  | partitionResetSequence => exact .next (.partStep (.atTime (.fresh h)))
  | reloadTimeout => exact .next (.reloadTimeout (.fresh h))
  | deviceResetSequence => exact .next (.devStep (.atTime (.fresh h)))
  | poresetN => exact .next (.same (.powerOnReset (.fresh h)) rfl)
  | thermalTrip => exact .next (.same (.powerOnReset (.fresh h)) rfl)
  | thermalRelease => exact .next (.same (.fresh h) rfl)
  | beatSlow => exact .next (.beatSlow (.fresh h))
  | patrolScrub => exact .next (.patrolScrub (.fresh h))
  | frameSyncIn => exact .next (.syncIn (.atTime (.fresh h)))
  | syncLost => exact .next (.ite (.rep (.dbump (.same (.fresh h) rfl))) (.fresh h))
  | linkUp => exact .next (.linkUpAt (.fresh h))
  | getCertResponse => exact .next (.certResponse (.fresh h))
  | challengeResponse => exact .next (.authResponse (.fresh h))
  | getCalResponse => exact .next (.calResponse (.fresh h))
  | getLifeResponse => exact .next (.lifeResponse (.fresh h))
  | idTimeout => exact .next (.ite (.retryLater (.fresh h)) (.fresh h))
  | authTimeout => exact .next (.ite (.retryLater (.fresh h)) (.fresh h))
  | calTimeout => exact .next (.ite (.retryLater (.fresh h)) (.fresh h))
  | discoveryRetry => exact .next (.ite (.askCert (.fresh h)) (.fresh h))
  | lifePoll => exact .next (.lifePoll (.fresh h))
  | meshBuild => exact .next (.meshStep (.fresh h))
  | linkDown => exact .next (.linkGone (.fresh h))
  | frameStart => exact .next (.frameStart (.atTime (.fresh h)))
  | frameEnd => exact .next (.frameEnd (.fresh h))
  | longPacket => exact .next (.longPacket (.fresh h))
  | lineDatagram => exact .next (.lineDatagram (.atTime (.fresh h)))
  | pointDatagram => exact .next (.pointDatagram (.atTime (.fresh h)))
  | arpRequest => exact .next (.ite (.send (.fresh h)) (.fresh h))
  | gptpMessage => exact .next (.gptp (.atTime (.fresh h)))
  | gptpUnlocked => exact .next (.ite (.rep (.dset (.same (.fresh h) rfl))) (.fresh h))
  | trigger => exact .next (.sendTrigger (.fresh h))
  | sweepClose => exact .next (.sweepClose (.atTime (.fresh h)))
  | egoLate => exact .next (.noEgo (.fresh h))
  | deskew => exact .next (.deskew (.fresh h))
  | stripeDelivery => exact .next (.stripeDelivery (.fresh h))
  | zeroTensor => exact .next (.zeroTensor (.atTime (.fresh h)))
  | batchPoll => exact .next (.batchPoll (.fresh h))
  | digestPoll => exact .next (.digestPoll (.fresh h))
  | adaptLag => exact .next (.adaptLag (.fresh h))
  | exportPoll => exact .next (.exportPoll (.fresh h))
  | bar2Read => exact .next (.bar2Read (.fresh h))
  | bar2Write => exact .next (.bar2Write (.fresh h))
  | heartbeatWrite => exact .next (.heartbeatIn (.atTime (.fresh h)))
  | heartbeatTimeout => exact .next (.heartbeatOut (.atTime (.fresh h)))
  | perstAssert => exact .next (.perstAssert (.fresh h))
  | dlDown => exact .next (.dlDown (.fresh h))
  | functionLevelReset => exact .next (.functionReset (.fresh h))
  | busMasterEnableClear => exact .next (.setPort (.hostLoss (.fresh h)))
  | pcieLinkUp => exact .next (.pcieUp (.fresh h))
  | registerWrite => exact .next (.registerWrite (.atTime (.fresh h)))
  | dictionaryWrite => exact .next (.dictWrite (.atTime (.fresh h)))
  | handleQuery => exact .next (.dictWrite (.fresh h))
  | motionCommit => exact .next (.dictWrite (.atTime (.fresh h)))
  | errorLogClear => exact .next (.dictWrite (.fresh h))
  | cleaningRequestAck => exact .next (.dictWrite (.fresh h))
  | enableSet => exact .next (.dictWrite (.fresh h))
  | enableClear => exact .next (.dictWrite (.fresh h))
  | go => exact .next (.go (.fresh h))
  | emcyTransmit => exact .next (.emcyOut (.fresh h))
  | producerHeartbeat => exact .next (.heartbeat (.fresh h))
  | canBusOff => exact .next (.busOff (.fresh h))
  | busOffRecovery => exact .execBusOffRecovery h
  | nmtStart => exact .next (.nmt (.fresh h))
  | nmtStop => exact .next (.nmt (.fresh h))
  | nmtEnterPreOperational => exact .next (.nmt (.fresh h))
  | nmtResetNode => exact .next (.nmtReset (.fresh h))
  | nmtResetCommunication => exact .next (.nmtReset (.fresh h))
  | wakeCan => exact .next (.wakeSource (.fresh h))
  | wakeN => exact .next (.wakeSource (.fresh h))
  | perstDeassert => exact .next (.wakeSource (.setPort (.fresh h)))
  | wakeTimer => exact .next (.ite (.fresh h) (.wakeSource (.fresh h)))
  | lowPowerExit => exact .next (.lpStep (.atTime (.fresh h)))
  | railFault => exact .next (.railFault (.fresh h))
  | pmbAlert => exact .next (.pmbAlert (.fresh h))
  | flitRetryFailure => exact .next (.flitRetryFailure (.fresh h))
  | frameSyncOutPulse => exact .next (.send (.fresh h))
  | syncInterval => exact .next (.foldS (.fresh h) fun _ _ h₁ => .send h₁)
  | poresetNRelease => exact .next (.ite (.fresh h) (.same (.fresh h) rfl))
  | vaonApplied => exact .next (.poweredUp h)
  | vaonRemoved => exact .next (.same (.poweredUp h) rfl)
  | temperatureRefresh => exact .next (.ite (.fresh h) (.setTemps (.fresh h)))

theorem Kept.of_exec {i : Instr} (e : exec i s = .next t) : Kept s t := by
  have h : KeptNext s (exec i s) := .exec (.refl s)
  rwa [e] at h

end Kept

/-- Settles O4: every command keeps the form (`Kept.of_exec`), and so does the nanosecond that an empty queue lets
pass. -/
theorem stepKeepsMemoryCanonical : Obligations.StepKeepsMemoryCanonical := by
  intro s t hs e
  unfold step at e
  split at e
  · obtain rfl := Host.Outcome.next.inj e
    exact (Kept.idleTick (.refl s)).memWf hs
  · exact (Kept.of_exec e).memWf hs

/-- Settles O3: both memories are empty lists at reset, and so is the queue. -/
theorem resetMemoryIsCanonical : Obligations.ResetMemoryIsCanonical :=
  ⟨⟨rfl, rfl⟩, fun _ => rfl, rfl, rfl⟩

end Sys2Proof.Machine

/-! PROOFS. The frame of a report (R366–R370, R412). -/

namespace Sys2Proof.Machine

section Log

variable {s t u : State}

theorem length_bytesOf (n v : Nat) : (bytesOf n v).length = n := by simp [bytesOf]

theorem length_padTo (n : Nat) (l : List Byte) : (padTo n l).length = n := by simp [padTo]; omega

theorem MemBut.refl (a n : Nat) (s : State) : MemBut a n s s := fun _ _ => rfl

theorem MemBut.trans {a n : Nat} (h : MemBut a n s t) (k : MemBut a n t u) : MemBut a n s u :=
  fun b hb => (k b hb).trans (h b hb)

theorem MemBut.of_mem {a n : Nat} (h : t.mem = s.mem) : MemBut a n s t :=
    fun b _ => by rw [State.byteAt, h, State.byteAt]

theorem MemBut.writeBytes {a n b : Nat} {l : List Byte} (hb : a ≤ b) (hl : b + l.length ≤ a + n) :
    MemBut a n s (s.writeBytes b l) :=
  fun c _ => byteAt_writeBytes_outside s b c l (by omega)

theorem MemBut.setByte {a n b : Nat} {x : Byte} (hb : a ≤ b) (hl : b < a + n) : MemBut a n s (s.setByte b x) :=
  MemBut.writeBytes (l := [x]) hb hl

theorem SameBut.writeBytes (s : State) (a : Nat) (l : List Byte) : SameBut [.mem] s (s.writeBytes a l) := by
  intro f hf
  cases f
  case mem => exact absurd (by decide) hf
  all_goals rfl

theorem SameBut.setLogOpen (s : State) (l : List OpenRec) : SameBut [.logOpen] s { s with logOpen := l } := by
  intro f hf
  cases f
  case logOpen => exact absurd (by decide) hf
  all_goals rfl

theorem SameBut.setEmcy (s : State) (l : List CanFrame) : SameBut [.emcy] s { s with emcy := l } := by
  intro f hf
  cases f
  case emcy => exact absurd (by decide) hf
  all_goals rfl

/-- What a report changes: the event log, its counts, and the EMCY queue with the error register. -/
structure Logged (s t : State) : Prop where
  same : SameBut logFields s t
  log : LogOnly s t
  dict : DictBut logEntries s t

namespace Logged

theorem refl (s : State) : Logged s s := ⟨.refl _ s, .refl _ _ s, .refl _ s⟩

theorem trans (h : Logged s t) (k : Logged t u) : Logged s u :=
  ⟨h.same.trans k.same, h.log.trans k.log, h.dict.trans k.dict⟩

theorem dbump {i b : Nat} (hb : b < 256) (hm : (i, b) ∈ logEntries) (h : Logged s t) : Logged s (t.dbump i b) := by
  have hn : (i, b) ≠ (0x2500, 0x4A) := fun e => absurd (e ▸ hm) (by decide)
  have ho : (i, b) ≠ (0x2500, 0x05) := fun e => absurd (e ▸ hm) (by decide)
  exact h.trans ⟨(SameBut.dbump t i b).mono (by decide), .of_mem rfl,
    (DictBut.dbump t i b hb hn ho).mono (by simpa using hm)⟩

theorem dset {i b v : Nat} (hb : b < 256) (hm : (i, b) ∈ logEntries) (h : Logged s t) : Logged s (t.dset i b v) := by
  have hn : (i, b) ≠ (0x2500, 0x4A) := fun e => absurd (e ▸ hm) (by decide)
  have ho : (i, b) ≠ (0x2500, 0x05) := fun e => absurd (e ▸ hm) (by decide)
  exact h.trans ⟨(SameBut.dset t i b v).mono (by decide), .of_mem rfl,
    (DictBut.dset t i b v hb hn ho).mono (by simpa using hm)⟩

/-- Bytes written inside the event log. -/
theorem writeBytes {b : Nat} {l : List Byte} (hb : logBaseAddr ≤ b) (hl : b + l.length ≤ logBaseAddr + 0x40000)
    (h : Logged s t) :
    Logged s (t.writeBytes b l) :=
  h.trans ⟨(SameBut.writeBytes t b l).mono (by decide), .writeBytes hb hl, .of_same rfl rfl rfl⟩

theorem setByte {b : Nat} {x : Byte} (hb : logBaseAddr ≤ b) (hl : b < logBaseAddr + 0x40000) (h : Logged s t) :
    Logged s (t.setByte b x) :=
  h.writeBytes (l := [x]) hb hl

theorem logOpen {l : List OpenRec} (h : Logged s t) : Logged s { t with logOpen := l } :=
  h.trans ⟨(SameBut.setLogOpen t l).mono (by decide), .of_mem rfl,
    fun i b _ hn => dget_congr_ne (s := t) (t := { t with logOpen := l }) rfl rfl (fun e => hn (e ▸ by decide))⟩

theorem emcy {l : List CanFrame} (h : Logged s t) : Logged s { t with emcy := l } :=
  h.trans ⟨(SameBut.setEmcy t l).mono (by decide), .of_mem rfl, .of_same rfl rfl rfl⟩

theorem ite {c : Prop} {_ : Decidable c} (h : Logged s t) (k : Logged s u) : Logged s (if c then t else u) := by
  split
  · exact h
  · exact k

theorem emcySend {code unit : Nat} (h : Logged s t) : Logged s (t.emcySend code unit) :=
  .ite h (.ite (h.dbump (by decide) (by decide)) h.emcy)

theorem report (s : State) (code unit origin : Nat) (detail : List Byte) (frameFault : Bool) :
    Logged s (s.report code unit origin detail frameFault) := by
  unfold State.report
  extract_lets s₁ s₂ rec' s₃
  have h₁ : Logged s s₁ := (refl s).dbump (by decide) (by decide)
  split
  · rename_i r _
    have hr : r.index % 4096 < 4096 := Nat.mod_lt _ (by decide)
    extract_lets a n s₄ s₅ s₆
    have ha : logBaseAddr ≤ a ∧ a + 64 ≤ logBaseAddr + 0x40000 := ⟨by omega, by omega⟩
    have h₂ : Logged s s₂ := h₁.dbump (by decide) (by decide)
    have h₄ : Logged s s₄ := h₂.writeBytes (by omega) (by rw [length_bytesOf]; omega)
    have h₅ : Logged s s₅ := h₄.writeBytes (by omega) (by rw [length_bytesOf]; omega)
    have h₆ : Logged s s₆ := .ite (h₅.setByte (by omega) (by omega)) h₅
    exact .ite (h₆.setByte (by omega) (by omega)) h₆
  · have h₃ : Logged s s₃ := by
      refine .ite (h₁.dbump (by decide) (by decide)) ?_
      extract_lets i bs s₄ s₅
      have hi : i < 4096 := Nat.mod_lt _ (by decide)
      have h₄ : Logged s s₄ := h₁.writeBytes (by omega) (by simp [bs, length_bytesOf, length_padTo]; omega)
      clear_value s₄
      exact (h₄.logOpen.dset (by decide) (by decide)).dset (by decide) (by decide)
    exact .ite h₃.emcySend h₃

theorem rep (s : State) (code unit : Nat) : Logged s (s.rep code unit) := report ..

end Logged

end Log

end Sys2Proof.Machine

/-! PROOFS. Words of memory: their bytes, and what a word reads as after a word is put. -/

namespace Sys2Proof.Machine

section Words

variable (s : State)

theorem bytesOf_succ (n v : Nat) : bytesOf (n + 1) v = BitVec.ofNat 8 v :: bytesOf n (v >>> 8) := by
  unfold bytesOf
  rw [List.range_succ_eq_map, List.map_cons, List.map_map]
  simp [Function.comp_def, Nat.mul_add, ← Nat.shiftRight_add, Nat.add_comm]

theorem natOf_bytesOf (n v : Nat) : natOf (bytesOf n v) = v % 2 ^ (8 * n) := by
  induction n generalizing v with
  | zero => simp [bytesOf, natOf, Nat.mod_one]
  | succ n ih =>
    have hp : 2 ^ (8 * (n + 1)) = 256 * 2 ^ (8 * n) := by rw [Nat.mul_add, Nat.pow_add, Nat.mul_comm]
    rw [bytesOf_succ, natOf, ih, hp, Nat.mod_mul, BitVec.toNat_ofNat, Nat.shiftRight_eq_div_pow]

theorem length_bytesOfWord (w : SWord) : (bytesOfWord w).length = 32 := length_bytesOf _ _

@[simp] theorem wordOfBytes_bytesOfWord (w : SWord) : wordOfBytes (bytesOfWord w) = w := by
  unfold wordOfBytes
  rw [List.take_of_length_le (length_bytesOfWord w).le, bytesOfWord, natOf_bytesOf, Nat.mod_eq_of_lt w.isLt,
    BitVec.ofNat_toNat, BitVec.setWidth_eq]

theorem readBytes_congr {t : State} {a n : Nat} (h : ∀ i < n, t.byteAt (a + i) = s.byteAt (a + i)) :
    t.readBytes a n = s.readBytes a n :=
  List.map_congr_left fun i hi => h i (List.mem_range.mp hi)

theorem readBytes_writeBytes (a : Nat) (l : List Byte) : (s.writeBytes a l).readBytes a l.length = l := by
  refine List.ext_getElem (by simp [State.readBytes]) fun i _ hi => ?_
  simp only [State.readBytes, List.getElem_map, List.getElem_range]
  exact byteAt_writeBytes_inside s a i l hi

theorem byteAt_putWord (a b : Nat) (w : SWord) (p : Bool) (h : b < a ∨ a + 32 ≤ b) :
    (s.putWord a w p).byteAt b = s.byteAt b :=
  byteAt_writeBytes_outside s a b _ (by rw [length_bytesOfWord]; exact h)

@[simp] theorem wordAt_putWord_same (a : Nat) (w : SWord) (p : Bool) : (s.putWord a w p).wordAt a = w := by
  have h : (s.putWord a w p).readBytes a 32 = bytesOfWord w := by
    have := readBytes_writeBytes s a (bytesOfWord w)
    rwa [length_bytesOfWord] at this
  rw [State.wordAt, h, wordOfBytes_bytesOfWord]

theorem wordAt_putWord_ne {a b : Nat} (w : SWord) (p : Bool) (h : b + 32 ≤ a ∨ a + 32 ≤ b) :
    (s.putWord a w p).wordAt b = s.wordAt b := by
  unfold State.wordAt
  rw [readBytes_congr s fun i hi => byteAt_putWord s a (b + i) w p (by omega)]

theorem get_poisonSet (m : KV Bool) (p k : Nat) (b : Bool) :
    KV.get false (poisonSet m p b) k = if p ≤ k ∧ k < p + 4 then b else KV.get false m k := by
  simp only [poisonSet, List.foldl_cons, List.foldl_nil, KV.get_set]
  by_cases h : p ≤ k ∧ k < p + 4
  · have hk : k = p ∨ k = p + 1 ∨ k = p + 2 ∨ k = p + 3 := by omega
    rw [if_pos h]
    obtain rfl | rfl | rfl | rfl := hk <;> simp
  · rw [if_neg h, if_neg (by omega), if_neg (by omega), if_neg (by omega), if_neg (by omega)]

@[simp] theorem wordPoison_putWord_same (a : Nat) (w : SWord) (p : Bool) : (s.putWord a w p).wordPoison a = p := by
  simp [State.wordPoison, State.putWord, get_poisonSet]

theorem wordPoison_putWord_ne {a b : Nat} (w : SWord) (p : Bool) (h : b / 8 + 4 ≤ a / 8 ∨ a / 8 + 4 ≤ b / 8) :
    (s.putWord a w p).wordPoison b = s.wordPoison b := by
  have hk : ∀ i < 4, KV.get false (s.putWord a w p).poison (b / 8 + i) = KV.get false s.poison (b / 8 + i) :=
    fun i hi => by
    rw [State.putWord, get_poisonSet, if_neg (by omega)]
  unfold State.wordPoison
  dsimp only
  rw [hk 1 (by decide), hk 2 (by decide), hk 3 (by decide), ← Nat.add_zero (b / 8), hk 0 (by decide)]

end Words

end Sys2Proof.Machine

/-! PROOFS. What a host request reads and writes: bytes put, words put, and the frame of each (R66, R403, R404). -/

namespace Sys2Proof.Machine
section Bar2
variable {s t u : State} {port : HostPort} {o n a : Nat} {data : List Byte} {tr : BitVec 64}

theorem SameBut.send (s : State) (m : Message) : SameBut [.sent] s (s.send m) := by
  intro f hf
  cases f
  case sent => exact absurd (by decide) hf
  all_goals rfl

theorem Logged.of_fresh (h : Logged s.fresh t) : SameBut (.sent :: logFields) s t ∧ LogOnly s t ∧
    DictBut logEntries s t :=
  ⟨((SameBut.fresh s).mono (by decide)).trans (h.same.mono (by decide)), h.log, h.dict⟩

theorem Logged.of_fresh_send (h : Logged s.fresh t) (m : Message) :
    SameBut (.sent :: logFields) s (t.send m) ∧ LogOnly s (t.send m) ∧ DictBut logEntries s (t.send m) :=
  ⟨h.of_fresh.1.trans ((SameBut.send t m).mono (by decide)), h.log, h.dict⟩

theorem Logged.sent (h : Logged s t) : t.sent = s.sent := h.same .sent (by decide)

/-! ### Bytes put -/

theorem hostPutBytes_same (s : State) (a : Nat) (l : List Byte) :
    SameBut [.mem, .poison, .ecc] s (s.hostPutBytes a l) := by
  intro f hf
  cases f
  case mem | poison | ecc => exact absurd (by decide) hf
  all_goals rfl

theorem hostPutBytes_memBut (s : State) (a : Nat) (l : List Byte) : MemBut a l.length s (s.hostPutBytes a l) :=
  fun b hb => byteAt_writeBytes_outside s a b l hb

theorem byteAt_hostPutBytes (s : State) {a i : Nat} {l : List Byte} (h : i < l.length) :
    (s.hostPutBytes a l).byteAt (a + i) = l[i] :=
  byteAt_writeBytes_inside s a i l h

theorem length_mergeAt (old : List Byte) (b a : Nat) (l : List Byte) :
    (mergeAt old b a l).length = old.length := by simp [mergeAt]

/-- Bytes that cover the old ones replace them. -/
theorem mergeAt_cover {old l : List Byte} {b : Nat} (h : l.length = old.length) : mergeAt old b b l = l := by
  refine List.ext_getElem (by rw [length_mergeAt, h]) fun i hi hl => ?_
  have hi : i < l.length := hl
  simp [mergeAt, nth, hi]

/-! ### A word of a context's copy -/

theorem cstate_congr {k : Nat} (h : t.cget k 1 = s.cget k 1) : t.cstate k = s.cstate k := h

theorem ccore_congr {k : Nat} (h1 : t.cget k 1 = s.cget k 1) (h7 : t.cget k 7 = s.cget k 7)
    (ht : (t.ctx k).tearCore = (s.ctx k).tearCore) : t.ccore k = s.ccore k := by
  unfold State.ccore
  rw [cstate_congr h1, h7, ht]

theorem isLive_congr {k : Nat} (h1 : t.cget k 1 = s.cget k 1) (h7 : t.cget k 7 = s.cget k 7)
    (ht : (t.ctx k).tearCore = (s.ctx k).tearCore) : t.isLive k = s.isLive k := by
  unfold State.isLive
  rw [cstate_congr h1, ccore_congr h1 h7 ht]

theorem cget_cbump_ne (s : State) {k b x : Nat} (hb : b < 256) (hx : x < 256) (h : x ≠ b) :
    (s.cbump k b).cget k x = s.cget k x :=
  s.dget_dset_ne hb hx (fun e => h (Prod.mk.inj e).2) (fun e => by have := (Prod.mk.inj e).1; omega)
    (fun e => by have := (Prod.mk.inj e).1; omega)

theorem noteSaved_isLive (s : State) (k : Nat) : (s.noteSaved k).isLive k = s.isLive k := by
  unfold State.noteSaved
  split
  · rfl
  · exact isLive_congr (cget_cbump_ne s (by decide) (by decide) (by decide))
      (cget_cbump_ne s (by decide) (by decide) (by decide)) rfl

theorem noteSaved_ctx (s : State) (k : Nat) : (s.noteSaved k).ctx k = s.ctx k := by
  unfold State.noteSaved
  split <;> rfl

theorem setSaved_isLive (s : State) (k : Nat) (v : SaveArea) : (s.setSaved k v).isLive k = s.isLive k :=
  isLive_congr rfl rfl (by simp [State.setSaved])

/-- A word that has a place in the context's copy reads as it was set. -/
theorem kWord_kSetWord (s : State) {k w : Nat} {v : SWord} {p : Bool}
    (h : s.isLive k = true ∨ (s.ctx k).resident w = true) :
    (s.kSetWord k w v p).kWord k w = (v, p) := by
  unfold State.kSetWord
  by_cases hl : s.isLive k = true
  · have hl' : (s.setSpm (s.ccore k) w v p).isLive k = true := hl
    have hc : (s.setSpm (s.ccore k) w v p).ccore k = s.ccore k := rfl
    rw [if_pos hl, State.kWord, if_pos hl', hc]
    exact Prod.ext (wordAt_putWord_same s _ v p) (wordPoison_putWord_same s _ v p)
  · rw [if_neg hl, if_pos (h.resolve_left hl)]
    dsimp only
    rw [State.kWord, setSaved_isLive, if_neg hl]
    simp [State.saved, State.setSaved]

/-- A word address in a scratchpad is the address of its word. -/
theorem spmAddr_of_region {c : Nat} (h : s.regionOf a = .spm c) (ha : a % 32 = 0) :
    spmAddr c ((a - spmBase c) / 32) = a := by
  unfold State.regionOf at h
  split_ifs at h with _ _ hb
  cases h
  simp only [Bool.and_eq_true, decide_eq_true_eq] at hb
  unfold spmAddr
  unfold spmBase at hb ⊢
  omega

theorem regionOf_of_span {r : Region} (h : s.spanRegion a n = r) (hr : r ≠ .unmapped) : s.regionOf a = r := by
  unfold State.spanRegion at h
  split_ifs at h
  · exact h
  · exact absurd h.symm hr

/-- A whole word written by a host through a window. -/
theorem hostPutWord_whole {h c w i k : Nat} (hw : s.matchWindow c (10 + h) rPut w = some i)
    (hk : wnOwner (s.win c i) = k)
    (ha : spmAddr c w = a) (hl : data.length = 32) :
    s.hostPutWord h c w a data = (s.noteSaved k).kSetWord k w (wordOfBytes data) false := by
  subst hk ha
  unfold State.hostPutWord
  simp only [hw, mergeAt_cover (hl.trans (length_bytesOfWord _).symm), hl, le_refl, decide_true, Bool.and_self,
    Bool.not_true, Bool.and_false]

/-! ### Reads (R404) -/

theorem bar2Read_romWait (h : s.romWait = true) : s.bar2Read port o n = s.send (.unsupported port) := by
  unfold State.bar2Read
  exact if_pos h

section Served
variable (hr : s.romWait = false) (hp : s.portsServe = true) (ha : (s.port port).bar2Addr o = a)
  (htr : (s.port port).transOf o = tr)
include hr hp ha htr

theorem bar2Read_stopped {code origin : Nat}
    (h : s.bar2Stop (hostIx port) a n (tr.getLsbD 0) = some (code, origin)) :
    s.bar2Read port o n = (s.report code (bar2Unit (hostIx port) code) origin []).send
      (if code = codePartFenced then .completerAbort port else .unsupported port) := by
  simp only [State.bar2Read, hr, hp, ha, htr, h, Bool.not_true, Bool.false_eq_true, if_false]

theorem bar2Read_memory (h : s.bar2Stop (hostIx port) a n (tr.getLsbD 0) = none)
    (hm : ∀ c, s.spanRegion a n ≠ .spm c) (he : s.ecc = []) :
    s.bar2Read port o n = s.send (.readData port (s.readBytes a n) (s.rangeBad a n)) := by
  simp only [State.bar2Read, hr, hp, ha, htr, h, Bool.not_true, Bool.false_eq_true, if_false, touchRange_clean s _ _ he]

theorem bar2Read_refused {c : Nat} (h : s.bar2Stop (hostIx port) a n (tr.getLsbD 0) = none)
    (hm : s.spanRegion a n = .spm c)
      (hw : s.hostWords (hostIx port) c (cdiv (a % 32 + n) 32) ((a - spmBase c) / 32) = none) :
    s.bar2Read port o n = (s.rep codeWinNone (ucCore c)).send (.unsupported port) := by
  unfold State.bar2Read
  -- Proved for any `words`, so that the kernel does not compute them.
  generalize State.hostWords = words at hw ⊢
  as_aux_lemma =>
  simp only [hr, hp, ha, htr, h, Bool.not_true, Bool.false_eq_true, if_false, hm, hw]

theorem bar2Read_words {c : Nat} {l : List (SWord × Bool)}
    (h : s.bar2Stop (hostIx port) a n (tr.getLsbD 0) = none) (hm : s.spanRegion a n = .spm c)
    (hw : s.hostWords (hostIx port) c (cdiv (a % 32 + n) 32) ((a - spmBase c) / 32) = some (l, s)) :
    s.bar2Read port o n =
      s.send (.readData port (slice (l.flatMap (fun x => bytesOfWord x.1)) (a % 32) n)
        (l.any (fun x => x.2) || s.rangeBad a n)) := by
  unfold State.bar2Read
  -- Proved for any `words`, so that the kernel does not compute them.
  generalize State.hostWords = words at hw ⊢
  as_aux_lemma =>
  simp only [hr, hp, ha, htr, h, Bool.not_true, Bool.false_eq_true, if_false, hm, hw]
end Served

/-! ### Writes (R404) -/

theorem foldS_range_one (f : State → Nat → State) : foldS (List.range 1) f s = f s 0 := rfl

section Served
variable (hr : s.romWait = false) (hp : s.portsServe = true) (ha : (s.port port).bar2Addr o = a)
  (htr : (s.port port).transOf o = tr)
include hr hp ha htr

theorem bar2Write_stopped {code origin : Nat}
    (h : s.bar2Stop (hostIx port) a data.length (tr.getLsbD 0 && tr.getLsbD 1) = some (code, origin)) :
    s.bar2Write port o data = s.report code (bar2Unit (hostIx port) code) origin [] := by
  simp only [State.bar2Write, hr, hp, ha, htr, h, Bool.not_true, Bool.false_eq_true, if_false]

variable (h : s.bar2Stop (hostIx port) a data.length (tr.getLsbD 0 && tr.getLsbD 1) = none)
include h

theorem bar2Write_dram {p : Nat} (hm : s.spanRegion a data.length = .dram p) :
    s.bar2Write port o data = s.hostPutBytes a data := by
  simp only [State.bar2Write, hr, hp, ha, htr, h, hm, Bool.not_true, Bool.false_eq_true, if_false]

theorem bar2Write_ls (hm : s.spanRegion a data.length = .ls) :
    s.bar2Write port o data = s.lsWrite (hostIx port) a data := by
  simp only [State.bar2Write, hr, hp, ha, htr, h, hm, Bool.not_true, Bool.false_eq_true, if_false]

theorem bar2Write_word {c : Nat} (hm : s.spanRegion a data.length = .spm c) (hl : data.length = 32) (h32 : a % 32 = 0) :
    s.bar2Write port o data = s.hostPutWord (hostIx port) c ((a - spmBase c) / 32) a data := by
  have hc : cdiv (a % 32 + data.length) 32 = 1 := by rw [hl, h32]; rfl
  unfold State.bar2Write
  simp only [hr, hp, ha, htr, h, hm, Bool.not_true, Bool.false_eq_true, if_false, hc]
  rw [foldS_range_one, Nat.add_zero]

end Served

section Sram
variable {i : Nat}

theorem lsWrite_outside (ht : tableRange (a - lsBase) data.length = false)
    (hc : calRange (a - lsBase) data.length = false) :
    s.lsWrite i a data = s.clamped := by
  simp only [State.lsWrite, ht, hc, Bool.not_false, Bool.and_self, if_true]

theorem lsWrite_protected (h : calRange (a - lsBase) data.length = true ∨
      (tableRange (a - lsBase) data.length = true ∧
        (s.inConf i = false ∨ (s.meshView (a - lsBase) data.length true).isSome = true))) :
    s.lsWrite i a data = (s.tsrReport codeTsrProtected (s.tableUnit (a - lsBase) data.length)).dbump 0x2400 0x08 := by
  unfold State.lsWrite
  obtain hc | ⟨ht, hi | hv⟩ := h
  · simp [hc]
  · simp [ht, hi]
  · simp [ht, hv]

theorem lsWrite_tables (ht : tableRange (a - lsBase) data.length = true)
    (hc : calRange (a - lsBase) data.length = false)
    (hi : s.inConf i = true) (hv : s.meshView (a - lsBase) data.length true = none) :
    s.lsWrite i a data =
      s.hostPutBytes a (((List.range data.length).zip data).map fun p => tableByte (a - lsBase + p.1) p.2) := by
  simp [State.lsWrite, ht, hc, hi, hv]

end Sram

end Bar2
end Sys2Proof.Machine

namespace Sys2Proof.Machine

section Hosts
variable {s : State} {port : HostPort} {o n a : Nat} {data : List Byte}

theorem gives_bar2Read {P : State → Prop} {t : State} (e : s.fresh.bar2Read port o n = t) (h : P t) :
    Gives (.bar2Read port o n) s P :=
  ⟨t, congrArg Host.Outcome.next e, h⟩

theorem gives_bar2Write {P : State → Prop} {t : State} (e : s.fresh.bar2Write port o data = t) (h : P t) :
    Gives (.bar2Write port o data) s P :=
  ⟨t, congrArg Host.Outcome.next e, h⟩

theorem hostPutWord_refused {i c w : Nat} (hw : s.matchWindow c (10 + i) rPut w = none) :
    s.hostPutWord i c w a data = s.rep codeWinNone (ucCore c) := by
  simp only [State.hostPutWord, hw]

theorem fresh_port : s.fresh.port port = s.port port := by cases port <;> rfl

theorem fresh_bar2Stop {i : Nat} {e : Bool} : s.fresh.bar2Stop i a n e = s.bar2Stop i a n e := rfl

theorem fresh_spanRegion : s.fresh.spanRegion a n = s.spanRegion a n := rfl

theorem fresh_matchWindow {c u r w : Nat} : s.fresh.matchWindow c u r w = s.matchWindow c u r w := rfl

/-- What a read that is answered without an effect leaves. -/
theorem answered_same (m : Message) : SameBut [.sent] s (s.fresh.send m) := (SameBut.fresh s).trans (SameBut.send _ _)

theorem hostPutBytes_fresh_same (l : List Byte) : SameBut [.sent, .mem, .poison, .ecc] s (s.fresh.hostPutBytes a l) :=
  ((SameBut.fresh s).mono (by decide)).trans ((hostPutBytes_same _ _ _).mono (by decide))

theorem clamped_fresh :
    (s.fresh.clamped).dget 0x2500 0x48 = (s.dget 0x2500 0x48 + 1) % 2 ^ 32 ∧ SameBut [.sent, .dict] s s.fresh.clamped ∧
      DictBut [(0x2500, 0x48)] s s.fresh.clamped :=
  ⟨State.dget_dset_same _ _ _ _, ((SameBut.fresh s).mono (by decide)).trans ((SameBut.dbump _ _ _).mono (by decide)),
    DictBut.dbump s.fresh _ _ (by decide) (by decide) (by decide)⟩

/-- A TSR_PROTECTED report with its count (R64). -/
theorem tsrReport_counted (unit : Nat) : let t := (s.fresh.tsrReport codeTsrProtected unit).dbump 0x2400 0x08
    t.dget 0x2400 0x0A = codeTsrProtected ∧ t.dget 0x2400 0x08 = (s.dget 0x2400 0x08 + 1) % 2 ^ 32 ∧
      SameBut (.sent :: logFields) s t ∧ LogOnly s t ∧
        DictBut ([(0x2400, 0x0A), (0x2400, 0x08)] ++ logEntries) s t := by
  intro t
  obtain ⟨hs, hm, hd⟩ := (Logged.rep s.fresh codeTsrProtected unit).of_fresh
  have h8 : (s.fresh.tsrReport codeTsrProtected unit).dget 0x2400 0x08 = s.dget 0x2400 0x08 :=
    (State.dget_dset_ne _ (by decide) (by decide) (by decide) (by decide) (by decide)).trans
      (hd _ _ (by decide) (by decide))
  refine ⟨?_, ?_, ?_, hm, ?_⟩
  · exact (State.dget_dset_ne _ (by decide) (by decide) (by decide) (by decide) (by decide)).trans
      (State.dget_dset_same _ _ _ _)
  · rw [← h8]
    exact State.dget_dset_same _ _ _ _
  · exact (hs.trans ((SameBut.dset _ _ _ _).mono (by decide))).trans ((SameBut.dbump _ _ _).mono (by decide))
  · exact ((hd.mono (by decide)).trans
      ((DictBut.dset _ _ _ _ (by decide) (by decide) (by decide)).mono (by decide))).trans
      ((DictBut.dbump _ _ _ (by decide) (by decide) (by decide)).mono (by decide))

/-- Bytes put into the tables, reserved ones as 0. -/
theorem tableBytes_put {x : Nat} {l : List Byte}
    (hl : l = ((List.range data.length).zip data).map fun p => tableByte (x + p.1) p.2) :
    (∀ (i : Nat) (_ : i < data.length), (s.fresh.hostPutBytes a l).byteAt (a + i) = tableByte (x + i) data[i]) ∧
      MemBut a data.length s (s.fresh.hostPutBytes a l) ∧
        SameBut [.sent, .mem, .poison, .ecc] s (s.fresh.hostPutBytes a l) := by
  have hn : l.length = data.length := by simp [hl]
  refine ⟨fun i hi => ?_, hn ▸ hostPutBytes_memBut s.fresh a l, hostPutBytes_fresh_same l⟩
  rw [byteAt_hostPutBytes s.fresh (hn ▸ hi)]
  simp [hl]

end Hosts

/-- Settles O58: each request is one of the cases of `bar2Read_…` and `bar2Write_…`. -/
theorem hostsReadAndWriteMemory : Obligations.HostsReadAndWriteMemory := by
  intro s port o n data
  extract_lets h tr a x m
  have ha : (s.fresh.port port).bar2Addr o = a := by rw [fresh_port]
  have htr : (s.fresh.port port).transOf o = tr := by rw [fresh_port]
  refine ⟨fun hr => gives_bar2Read (bar2Read_romWait hr) ⟨rfl, answered_same _⟩,
    fun (hr : s.fresh.romWait = false) (hp : s.fresh.portsServe = true) => ?_⟩
  refine ⟨fun code unit hs => ?_, fun code unit hs => ?_, fun hs he => ⟨fun hm => ?_, fun c hm => ?_⟩, fun hs => ?_⟩
  · have hl : Logged s.fresh _ := .report s.fresh code (bar2Unit h code) unit [] false
    exact gives_bar2Read (bar2Read_stopped hr hp ha htr hs) ⟨by rw [State.send, hl.sent]; rfl, hl.of_fresh_send _⟩
  · exact gives_bar2Write (bar2Write_stopped hr hp ha htr hs) (Logged.report ..).of_fresh
  · exact gives_bar2Read (bar2Read_memory hr hp ha htr hs hm he) ⟨rfl, answered_same _⟩
  · intro ws
    refine ⟨fun l hw => gives_bar2Read (bar2Read_words hr hp ha htr hs hm hw) ⟨answered_same _, rfl⟩, fun hw => ?_⟩
    have hl : Logged s.fresh _ := .rep s.fresh codeWinNone (ucCore c)
    obtain ⟨hf, hm', -⟩ := hl.of_fresh_send (.unsupported port)
    exact gives_bar2Read (bar2Read_refused hr hp ha htr hs hm hw) ⟨by rw [State.send, hl.sent]; rfl, hf, hm'⟩
  · refine ⟨fun p hm => ?_, fun c hm hl h32 => ?_, fun hm => ?_⟩
    · exact gives_bar2Write (bar2Write_dram hr hp ha htr hs hm)
        ⟨fun i hi => byteAt_hostPutBytes s.fresh hi, hostPutBytes_memBut s.fresh a data, hostPutBytes_fresh_same data⟩
    · have e : s.fresh.bar2Write port o data = _ := bar2Write_word hr hp ha htr hs hm hl h32
      intro w
      refine ⟨fun i hw => ?_, fun hw => ?_⟩
      · intro k hk
        have hw' : spmAddr c w = a := spmAddr_of_region (regionOf_of_span hm (by simp)) h32
        refine gives_bar2Write (e.trans (hostPutWord_whole (fresh_matchWindow.trans hw) rfl hw' hl))
          (kWord_kSetWord _ ?_)
        rw [noteSaved_isLive, noteSaved_ctx]
        exact hk
      · exact gives_bar2Write (e.trans (hostPutWord_refused (fresh_matchWindow.trans hw))) (Logged.rep ..).of_fresh
    · have e : s.fresh.bar2Write port o data = _ := bar2Write_ls hr hp ha htr hs hm
      refine ⟨fun ht hc => ?_, fun hx => ?_, fun hc ht hi hv => ?_⟩
      · exact gives_bar2Write (e.trans (lsWrite_outside ht hc)) clamped_fresh
      · exact gives_bar2Write (e.trans (lsWrite_protected hx)) (tsrReport_counted _)
      · exact gives_bar2Write (e.trans (lsWrite_tables ht hc hi hv)) (tableBytes_put rfl)

end Sys2Proof.Machine

/-! PROOFS. The frame of a failed link: the reports, the partition's reset or its end, the handles that complete with it, and the
records that the hosts receive (R377, R379, R381). -/

namespace Sys2Proof.Machine

section Reset

variable {s t u : State} {l m : List Field}

theorem SameBut.step (h : SameBut m s t) (k : SameBut l t u) (hl : ∀ f ∈ l, f ∈ m) : SameBut m s u :=
    h.trans (k.mono hl)

theorem SameBut.ite {c : Prop} {_ : Decidable c} (h : SameBut l s t) (k : SameBut l s u) :
    SameBut l s (if c then t else u) := by
  split
  · exact h
  · exact k

theorem SameBut.foldS {α : Type} {as : List α} {f : State → α → State} (h : SameBut l s t)
    (hf : ∀ x a, SameBut l x (f x a)) :
    SameBut l s (foldS as f t) := by
  induction as generalizing t with
  | nil => exact h
  | cons a as ih => exact ih (h.trans (hf t a))

theorem SameBut.setPart (s : State) (p : Nat) (x : Partition) : SameBut [.parts] s (s.setPart p x) := by
  intro f hf
  cases f
  case parts => exact absurd (by decide) hf
  all_goals rfl

theorem SameBut.setFrame (s : State) (x : FrameRec) : SameBut [.frame] s { s with frame := x } := by
  intro f hf
  cases f
  case frame => exact absurd (by decide) hf
  all_goals rfl

theorem SameBut.setTimeouts (s : State) (x : KV (List Nat)) : SameBut [.timeouts] s { s with timeouts := x } := by
  intro f hf
  cases f
  case timeouts => exact absurd (by decide) hf
  all_goals rfl

theorem statusAll_same (s : State) (code unit : Nat) (body : List Byte) :
    SameBut recordFields s (s.statusAll code unit body) :=
  SameBut.trans (hostRecord_same s _ _ _ _ _ _ _) (hostRecord_same _ _ _ _ _ _ _ _)

theorem SameBut.setActivity (s : State) (x : Option Activity) (n : KV (Option Nat)) :
    SameBut [.activity, .testCap] s { s with activity := x, testCap := n } := by
  intro f hf
  cases f
  case activity | testCap => exact absurd (by decide) hf
  all_goals rfl

/-- What a partition's reset or its end may change. -/
def resetFields : List Field := logFields ++ .handles :: recordFields ++ [.activity, .testCap, .parts, .frame]

theorem fence_same (s : State) (p : Nat) : SameBut resetFields s (s.fence p) := by
  unfold State.fence
  extract_lets x s₁ s₂
  have h₁ : SameBut resetFields s s₁ := .ite ((SameBut.setFrame s _).mono (by decide)) (.refl _ s)
  have h₂ : SameBut resetFields s s₂ :=
    (h₁.step (SameBut.setPart s₁ p { x with fenced := true }) (by decide)).step (SameBut.dset _ _ _ _) (by decide)
  exact h₂.step (SameBut.setFrame s₂ _) (by decide)

theorem endActivity_same (s : State) (code : Nat) (aborted : Bool) :
    SameBut resetFields s (s.endActivity code aborted) := by
  have hd : ∀ {x : State} (i b v : Nat), SameBut resetFields s x → SameBut resetFields s (x.dset i b v) :=
    fun i b v h => h.step (SameBut.dset _ i b v) (by decide)
  unfold State.endActivity
  split
  · exact .refl _ s
  · rename_i a _
    extract_lets s₁ s₂ s₃ s₄
    have h₁ : SameBut resetFields s s₁ := (SameBut.setActivity s _ _).mono (by decide)
    have h₂ : SameBut resetFields s s₂ := hd _ _ _ (hd _ _ _ (hd _ _ _ h₁))
    have h₃ : SameBut resetFields s s₃ := hd _ _ _ h₂
    have h₄ : SameBut resetFields s s₄ := .ite (hd _ _ _ h₃) h₃
    exact h₄.step (complete_same s₄ a.handle code 0) (by decide)

theorem endOut_same (s : State) (p code : Nat) : SameBut resetFields s (s.endOut p code) := by
  unfold State.endOut
  extract_lets x s₁
  have h₁ : SameBut resetFields s s₁ := ((SameBut.setPart s p _).mono (by decide)).step (SameBut.dset _ _ _ _)
    (by decide)
  exact .foldS h₁ fun y r => (complete_same y r code 0).mono (by decide)

theorem startPartReset_same (s : State) (p cause : Nat) (safe : Bool) (handle : Option HRef) (detail : Nat) :
    SameBut resetFields s (s.startPartReset p cause safe handle detail) := by
  have hp : ∀ {x : State} (y : Partition), SameBut resetFields s x → SameBut resetFields s (x.setPart p y) :=
    fun y h => h.step (SameBut.setPart _ p y) (by decide)
  have hd : ∀ {x : State} (i b v : Nat), SameBut resetFields s x → SameBut resetFields s (x.dset i b v) :=
    fun i b v h => h.step (SameBut.dset _ i b v) (by decide)
  unfold State.startPartReset
  extract_lets x hs s₁ x₁ s₂ s₃ s₄ s₅
  have h₁ : SameBut resetFields s s₁ := by
    unfold s₁
    split
    · exact .ite (((Logged.rep s ..).same.mono (by decide)).step (endActivity_same _ _ _) (by decide)) (.refl _ s)
    · exact .refl _ s
  have h₂ : SameBut resetFields s s₂ := hp _ h₁
  have h₃ : SameBut resetFields s s₃ := hd _ _ _ (hd _ _ _ (h₂.step (fence_same s₂ p) (by decide)))
  have h₄ : SameBut resetFields s s₄ := hd _ _ _ h₃
  have h₅ : SameBut resetFields s s₅ := h₄.step (Logged.report s₄ ..).same (by decide)
  exact .ite (hp _ (.refl _ s)) (h₅.step (statusAll_same s₅ _ _ _) (by decide))

theorem linkFail_same (s : State) (i : Nat) : SameBut resetFields s (s.linkFail i) := by
  have hp : ∀ {x : State} (y : Partition), SameBut resetFields s x → SameBut resetFields s (x.setPart i y) :=
    fun y h => h.step (SameBut.setPart _ i y) (by decide)
  unfold State.linkFail
  extract_lets s₁ s₂ x
  have h₁ : SameBut resetFields s s₁ := (Logged.rep s ..).same.mono (by decide)
  have h₂ : SameBut resetFields s s₂ := (h₁.step (SameBut.dset s₁ _ _ _) (by decide)).step (SameBut.dset _ _ _ _)
    (by decide)
  refine .ite h₂ (.ite (.ite (hp _ h₂) (.ite (h₂.step (endOut_same s₂ _ _) (by decide)) (hp _ h₂))) ?_)
  exact h₂.step (startPartReset_same s₂ _ _ _ _ _) (by decide)

/-- What a timeout that counts on a link may change. -/
def timeoutFields : List Field := .timeouts :: resetFields

theorem noteTimeout_same (s : State) (i : Nat) : SameBut timeoutFields s (s.noteTimeout i) := by
  have h : ∀ x, SameBut timeoutFields s { s with timeouts := x } := fun x => (SameBut.setTimeouts s x).mono (by decide)
  exact .ite ((h _).step (linkFail_same _ i) (by decide)) (h _)

theorem noteLink_same (s : State) (i : Option Nat) : SameBut timeoutFields s (s.noteLink i) := by
  cases i with
  | none => exact .refl _ s
  | some i => exact noteTimeout_same s i

/-- A first timeout on a link is noted. -/
theorem noteTimeout_first {i : Nat} (h : KV.get [] s.timeouts i = []) :
    s.noteTimeout i = { s with timeouts := KV.set [] s.timeouts i [s.timeNs] } := by
  simp [State.noteTimeout, h]

end Reset

end Sys2Proof.Machine

/-! PROOFS. What applies a packet, or an answer, leaves the late-reply buffers alone: only an arrival for a context in a switch
joins one (R327). -/

namespace Sys2Proof.Machine

section Late

variable {s t u : State}

/-- The late-reply buffers are as they were. -/
def LateKept (s t : State) : Prop := t.late = s.late

theorem LateKept.refl (s : State) : LateKept s s := rfl

theorem LateKept.of_same {l : List Field} (h : LateKept s t) (k : SameBut l t u) (hl : .late ∉ l) : LateKept s u :=
  (k .late hl).trans h

/-- An update of other fields. -/
theorem LateKept.same (h : LateKept s t) (e : u.late = t.late) : LateKept s u := e.trans h

theorem LateKept.ite {c : Prop} {_ : Decidable c} (h : LateKept s t) (k : LateKept s u) :
    LateKept s (if c then t else u) := by
  split
  · exact h
  · exact k

theorem LateKept.foldS {α : Type} {l : List α} {f : State → α → State} (h : LateKept s t)
    (hf : ∀ x a, LateKept s x → LateKept s (f x a)) : LateKept s (foldS l f t) := by
  induction l generalizing t with
  | nil => exact h
  | cons a l ih => exact ih (hf t a h)

theorem LateKept.report {code unit origin : Nat} {detail : List Byte} {b : Bool} (h : LateKept s t) :
    LateKept s (t.report code unit origin detail b) :=
  h.of_same (Logged.report ..).same (by decide)

theorem LateKept.startPartReset {p cause : Nat} {safe : Bool} {r : Option HRef} {detail : Nat} (h : LateKept s t) :
    LateKept s (t.startPartReset p cause safe r detail) :=
  h.of_same (startPartReset_same _ _ _ _ _ _) (by decide)

theorem LateKept.dset {index sub v : Nat} (h : LateKept s t) : LateKept s (t.dset index sub v) := .same h rfl

theorem LateKept.dclear {index sub : Nat} (h : LateKept s t) : LateKept s (t.dclear index sub) := .same h rfl

theorem LateKept.dadd {index sub n : Nat} (h : LateKept s t) : LateKept s (t.dadd index sub n) := .dset h

theorem LateKept.dbump {index sub : Nat} (h : LateKept s t) : LateKept s (t.dbump index sub) := .dadd h

theorem LateKept.cset {k sub v : Nat} (h : LateKept s t) : LateKept s (t.cset k sub v) := .dset h

theorem LateKept.cbump {k sub : Nat} (h : LateKept s t) : LateKept s (t.cbump k sub) := .dbump h

theorem LateKept.putWord {a : Nat} {w : SWord} {poison : Bool} (h : LateKept s t) : LateKept s (t.putWord a w poison) :=
  .same h rfl

theorem LateKept.setSpm {c w : Nat} {v : SWord} {poison : Bool} (h : LateKept s t) :
    LateKept s (t.setSpm c w v poison) :=
  .putWord h

theorem LateKept.setPair {c q : Nat} {p : Pair} (h : LateKept s t) : LateKept s (t.setPair c q p) := .same h rfl

theorem LateKept.putFlag {c f : Nat} {b : Bool} (h : LateKept s t) : LateKept s (t.putFlag c f b) := .same h rfl

theorem LateKept.setCtx {k : Nat} {v : Ctx} (h : LateKept s t) : LateKept s (t.setCtx k v) := .same h rfl

theorem LateKept.rep {code unit : Nat} (h : LateKept s t) : LateKept s (t.rep code unit) := .report h

theorem LateKept.frameFault {code : Nat} {core : Option Nat} {disagree invalid : Bool} (h : LateKept s t) :
    LateKept s (t.frameFault code core disagree invalid) :=
  .same h rfl

theorem LateKept.ctxFault {k code : Nat} {disagree : Bool} (h : LateKept s t) :
    LateKept s (t.ctxFault k code disagree) :=
  .ite (.frameFault h) h

theorem LateKept.reportCtx {k code unit origin : Nat} {detail : List Byte} (h : LateKept s t) :
    LateKept s (t.reportCtx k code unit origin detail) :=
  .report h

theorem LateKept.pinsSafe (h : LateKept s t) : LateKept s t.pinsSafe := .same h rfl

theorem LateKept.startDevReset {cause : Nat} {poreset : Bool} {detail : Nat} (h : LateKept s t) :
    LateKept s (t.startDevReset cause poreset detail) := by
  unfold State.startDevReset
  refine .ite (.ite (.same (.same h rfl) rfl) (.rep (.same h rfl))) ?_
  extract_lets s₁ s₂
  have h₂ : LateKept s s₂ := .dclear (.dset (.dbump (.pinsSafe h)))
  exact .same h₂ rfl

theorem LateKept.setSafe {v : Nat} (h : LateKept s t) : LateKept s (t.setSafe v) := .dset (.same h rfl)

theorem LateKept.enterSafe {cause : Nat} {r : SafeReset} {poreset : Bool} (h : LateKept s t) :
    LateKept s (t.enterSafe cause r poreset) := by
  unfold State.enterSafe
  extract_lets cur s₁ s₂ s₃ s₄
  have h₁ : LateKept s s₁ := .pinsSafe h
  have h₂ : LateKept s s₂ := .setSafe h₁
  have h₃ : LateKept s s₃ := .dbump (.dset h₂)
  have h₄ : LateKept s s₄ := .report h₃
  refine .ite ?_ ?_
  · split
    · exact .startPartReset h₄
    · exact .startDevReset h₄
  · split
    · exact .same h rfl
    · exact .ite (.startDevReset (.setSafe h)) (.startDevReset (.same h rfl))

theorem LateKept.reportUnc {a : Nat} (h : LateKept s t) : LateKept s (t.reportUnc a) := by
  unfold State.reportUnc
  split
  · exact .report h
  · exact .dbump (.report h)
  · exact .report h

theorem LateKept.contain {a : Nat} (h : LateKept s t) : LateKept s (t.contain a) := .enterSafe (.reportUnc h)

theorem LateKept.uncorrectable {a : Nat} (h : LateKept s t) : LateKept s (t.uncorrectable a) := by
  unfold State.uncorrectable
  extract_lets shared s₁
  have h₁ : LateKept s s₁ := .reportUnc h
  exact .ite (.same h₁ rfl) (.contain h)

theorem LateKept.corrected {a : Nat} (h : LateKept s t) : LateKept s (t.corrected a) := by
  unfold State.corrected
  extract_lets s₁
  have h₁ : LateKept s s₁ := .same h rfl
  split
  · exact .dbump (.rep h₁)
  · exact .dbump (.rep h₁)
  · exact .dbump (.rep h₁)

theorem LateKept.touch {a : Nat} (h : LateKept s t) : LateKept s (t.touch a) := by
  unfold State.touch
  refine .foldS h fun x a h₁ => ?_
  split
  · exact h₁
  · exact .corrected h₁
  · exact .uncorrectable h₁

theorem LateKept.choice {k kind : Nat} (h : LateKept s t) : LateKept s (t.choice k kind) :=
    .ite h (.dbump (.cbump (.cset h)))

theorem LateKept.setSaved {k : Nat} {v : SaveArea} (h : LateKept s t) : LateKept s (t.setSaved k v) := .setCtx h

theorem LateKept.kSetWord {k w : Nat} {v : SWord} {poison : Bool} (h : LateKept s t) :
    LateKept s (t.kSetWord k w v poison) :=
  .ite (.setSpm h) (.ite (.setSaved h) h)

theorem LateKept.kSetPair {k q : Nat} {p : Pair} (h : LateKept s t) : LateKept s (t.kSetPair k q p) :=
  .ite (.setPair h) (.setSaved h)

theorem LateKept.kPutFlag {k f : Nat} {b : Bool} (h : LateKept s t) : LateKept s (t.kPutFlag k f b) :=
  .ite (.putFlag h) (.setSaved h)

theorem LateKept.readK {k w : Nat} (h : LateKept s t) : LateKept s (t.readK k w).2 := .ite (.touch h) h

theorem LateKept.readKs {k : Nat} {l : List Nat} (h : LateKept s t) : LateKept s (t.readKs k l).2 := by
  induction l generalizing t with
  | nil => exact h
  | cons w l ih => exact ih (.readK h)

theorem LateKept.kSetFlag {k f : Nat} (h : LateKept s t) : LateKept s (t.kSetFlag k f) :=
  .ite (.cbump (.same h rfl)) (.kPutFlag h)

theorem LateKept.sendPacket {p : Packet} (h : LateKept s t) : LateKept s (t.sendPacket p) := .same h rfl

theorem LateKept.nackPacket {p : Packet} {code : Nat} (h : LateKept s t) : LateKept s (t.nackPacket p code) := by
  unfold State.nackPacket
  extract_lets unit s₁ s₂ s₃
  have h₁ : LateKept s s₁ := .report h
  have h₂ : LateKept s s₂ := .dbump h₁
  have h₃ : LateKept s s₃ := .ite (.same h₂ rfl) h₂
  exact .sendPacket h₃

theorem LateKept.addWord {k w : Nat} {f : SWord → SWord → SWord} {v : SWord} {poison : Bool} (h : LateKept s t) :
   
    LateKept s (t.addWord k w f v poison) :=
  .kSetWord (.readK h)

theorem LateKept.setRound {c w : Nat} {l : List Contribution} (h : LateKept s t) : LateKept s (t.setRound c w l) :=
    .same h rfl

theorem LateKept.applyRound {k c w : Nat} (h : LateKept s t) : LateKept s (t.applyRound k c w) :=
  .foldS (.setRound (.foldS h (fun _ _ h₁ => .addWord h₁))) (fun _ _ h₁ => .ite h₁ (.sendPacket h₁))

theorem LateKept.contribute {k c base red : Nat} {p : Packet} (h : LateKept s t) :
    LateKept s (t.contribute k c base red p) := by
  unfold State.contribute
  extract_lets ws s₁ s₂
  have h₁ : LateKept s s₁ := .foldS h fun _ _ h₁ => .setRound h₁
  have h₂ : LateKept s s₂ := .sendPacket h₁
  exact .ite (.nackPacket h) (.foldS h₂ (fun _ _ h₃ => .ite (.applyRound h₃) h₃))

theorem LateKept.noteFp32 {k : Nat} {p : Packet} (h : LateKept s t) : LateKept s (t.noteFp32 k p) :=
  .ite h (.ite (.choice (.setCtx h)) (.setCtx h))

theorem LateKept.putWords {k a : Nat} {ws : List SWord} {poison : Bool} (h : LateKept s t) :
    LateKept s (t.putWords k a ws poison) :=
  .foldS h fun _ _ h₁ => .kSetWord h₁

theorem LateKept.sendReplies {p : Packet} {kind : BitVec 4} {l : List (SWord × Bool)} {addrAt : Nat → BitVec 43}
    (h : LateKept s t) : LateKept s (t.sendReplies p kind l addrAt) :=
  .foldS h fun _ _ h₁ => .sendPacket h₁

theorem LateKept.noteSaved {k : Nat} (h : LateKept s t) : LateKept s (t.noteSaved k) := .ite h (.cbump h)

theorem LateKept.applyPacket {k : Nat} {e : BitVec 128} {p : Packet} (h : LateKept s t) :
    LateKept s (t.applyPacket k e p) := by
  unfold State.applyPacket
  extract_lets a s₁ x s₂ s₃ s₄ s₅ s₆
  have h₁ : LateKept s s₁ := .noteSaved h
  have h₂ : LateKept s s₂ := .foldS h₁ fun _ _ h₂ => .addWord h₂
  have h₃ : LateKept s s₃ := .noteFp32 h₁
  have h₄ : LateKept s s₄ := .foldS h₃ fun _ _ h₄ => .addWord h₄
  have h₅ : LateKept s s₅ := .putWords h₁
  have h₆ : LateKept s s₆ := .ite (.ite (.same h₅ rfl) (.kSetFlag h₅)) h₅
  exact .ite (.sendReplies (.readKs h₁)) (.ite (.sendPacket h₂)
      (.ite (.ite (.contribute h₁) (.sendPacket h₄)) (.ite (.sendPacket (.kSetFlag h₁)) (.sendPacket h₆))))

theorem LateKept.matchedWrite {c unit w : Nat} {v : SWord} {poison : Bool} (h : LateKept s t)
    (e : t.matchedWrite c unit w v poison = some u) : LateKept s u := by
  obtain ⟨n, -, rfl⟩ := Option.map_eq_some_iff.mp e
  exact .kSetWord h

theorem LateKept.localWrite {k c w : Nat} {v : SWord} {poison : Bool} (h : LateKept s t) :
    LateKept s (t.localWrite k c w v poison) := by
  unfold State.localWrite
  refine .ite (.setSpm h) ?_
  split
  · rename_i e
    exact .matchedWrite h e
  · exact .rep h

theorem LateKept.putLocal {k a : Nat} {ws : List SWord} {poison : Bool} (h : LateKept s t) :
    LateKept s (t.putLocal k a ws poison) :=
  .foldS h fun _ _ h₁ => .ite (.localWrite h₁) (.kSetWord h₁)

theorem LateKept.dropAnswer {p : Packet} (h : LateKept s t) : LateKept s (t.dropAnswer p) := .report (.dbump h)

theorem LateKept.failOp {k q seq code : Nat} (h : LateKept s t) : LateKept s (t.failOp k q seq code) :=
  .ite (.ctxFault (.cbump (.kSetPair h))) (.kSetPair h)

theorem LateKept.applySets {k : Nat} {o : Op} (h : LateKept s t) : LateKept s (t.applySets k o) :=
  .ite h (.ite (.kSetFlag (.ite (.ite (.kSetFlag h) (.kPutFlag h)) h)) (.ite (.ite (.kSetFlag h) (.kPutFlag h)) h))

theorem LateKept.retireGo {n k q : Nat} {st : StreamId} (h : LateKept s t) : LateKept s (retireGo n t k q st) := by
  induction n generalizing t with
  | zero => exact h
  | succ n ih =>
    unfold Machine.retireGo
    extract_lets p
    split
    · exact .ite (ih (.applySets (.kSetPair h))) h
    · exact h

theorem LateKept.retire {k q : Nat} {st : StreamId} (h : LateKept s t) : LateKept s (t.retire k q st) := .retireGo h

theorem LateKept.settleSaved {k q : Nat} (h : LateKept s t) : LateKept s (t.settleSaved k q) := by
  unfold State.settleSaved
  refine .ite h (.retire (.foldS (.kSetPair h) ?_))
  intro x' a' h₁
  split
  · exact .kSetFlag h₁
  · exact h₁

theorem LateKept.applyAnswer {k q : Nat} {o : Out} {p : Packet} (h : LateKept s t) :
    LateKept s (t.applyAnswer k q o p) := by
  unfold State.applyAnswer
  extract_lets s₁ pr code unit s₂ s₃ at' s₄ left pr'
  have h₁ : LateKept s s₁ := .noteSaved h
  have h₂ : LateKept s s₂ := .reportCtx h₁
  have h₃ : LateKept s s₃ := .kSetPair h₂
  have h₄ : LateKept s s₄ := .putLocal h₁
  exact .ite (.kSetPair h₁)
    (.ite (.settleSaved (.kSetPair h₁)) (.ite (.settleSaved (.failOp h₃)) (.settleSaved (.kSetPair h₄))))

/-- A packet that is not held for a switch joins no buffer. -/
theorem LateKept.windowPacket {p : Packet} (h : LateKept s t) : LateKept s (t.windowPacket p true) := by
  unfold State.windowPacket
  refine .ite h ?_
  split
  · exact .nackPacket h
  · extract_lets e k
    cases t.switchCore k with
    | none => exact .applyPacket h
    | some c => exact .applyPacket h

theorem LateKept.answerPacket {p : Packet} (h : LateKept s t) : LateKept s (t.answerPacket p true) := by
  have ha : ∀ k q seq, LateKept s (match findOut (t.kPair k q).outstanding seq with
      | none => t.dropAnswer p
      | some o => t.applyAnswer k q o p) := fun k q seq => by
    split
    · exact .dropAnswer h
    · exact .applyAnswer h
  unfold State.answerPacket
  extract_lets k q
  refine .ite (.dropAnswer h) ?_
  cases t.switchCore k with
  | none => exact ha _ _ _
  | some c => exact ha _ _ _

/-- A core's buffer is empty once it is applied. -/
theorem late_releaseLate (c : Nat) : (s.releaseLate c).late = KV.set [] s.late c [] := by
  unfold State.releaseLate
  extract_lets l s₁
  change LateKept s₁ _
  exact .foldS (.refl s₁) fun x p h₁ => .ite (.windowPacket h₁) (.answerPacket h₁)

end Late

end Sys2Proof.Machine

/-! PROOFS. Memory packets, timeouts and the pause of a late-reply buffer (R22, R242–R245, R254, R327, R377). -/

namespace Sys2Proof.Machine

section Packets

variable {s t u : State} {p : Packet} {a : Nat} {poison : Bool}

theorem gives_of_eq {i : Instr} {P : State → Prop} (e : exec i s = .next t) (h : P t) : Gives i s P := ⟨t, e, h⟩

/-! ### Words put one behind the other -/

/-- The words of a memory write, from `a` up. -/
def State.putRun (s : State) (a : Nat) (poison : Bool) : List SWord → State
  | [] => s
  | w :: l => (s.putWord a w poison).putRun (a + 32) poison l

theorem putWord_same (s : State) (a : Nat) (w : SWord) (poison : Bool) :
    SameBut [.mem, .poison] s (s.putWord a w poison) := by
  intro f hf
  cases f
  case mem | poison => exact absurd (by decide) hf
  all_goals rfl

theorem putRun_same (s : State) (a : Nat) (poison : Bool) (l : List SWord) :
    SameBut [.mem, .poison] s (s.putRun a poison l) := by
  induction l generalizing s a with
  | nil => exact .refl _ s
  | cons w l ih => exact (putWord_same s a w poison).trans (ih _ _)

theorem putRun_memBut (s : State) (a : Nat) (poison : Bool) (l : List SWord) :
    MemBut a (32 * l.length) s (s.putRun a poison l) := by
  induction l generalizing s a with
  | nil => exact .refl _ _ s
  | cons w l ih =>
    intro b hb
    rw [List.length_cons] at hb
    rw [State.putRun, ih _ _ b (by omega), byteAt_putWord _ _ _ _ _ (by omega)]

theorem wordAt_putRun_below (s : State) {a b : Nat} (h : b + 32 ≤ a) (l : List SWord) :
    (s.putRun a poison l).wordAt b = s.wordAt b := by
  unfold State.wordAt
  rw [readBytes_congr s fun i hi => putRun_memBut s a poison l (b + i) (by omega)]

theorem wordPoison_putRun_below (s : State) {a b : Nat} (h : b / 8 + 4 ≤ a / 8) (l : List SWord) :
    (s.putRun a poison l).wordPoison b = s.wordPoison b := by
  induction l generalizing s a with
  | nil => rfl
  | cons w l ih => rw [State.putRun, ih _ (by omega), wordPoison_putWord_ne _ _ _ (by omega)]

theorem word_putRun (s : State) (a : Nat) (l : List SWord) (i : Nat) (h : i < l.length) :
    (s.putRun a poison l).wordAt (a + 32 * i) = l[i] ∧ (s.putRun a poison l).wordPoison (a + 32 * i) = poison := by
  induction l generalizing s a i with
  | nil => exact absurd h (Nat.not_lt_zero i)
  | cons w l ih =>
    cases i with
    | zero =>
      rw [State.putRun, Nat.mul_zero, Nat.add_zero, wordAt_putRun_below _ (by omega),
        wordPoison_putRun_below _ (by omega)]
      exact ⟨wordAt_putWord_same .., wordPoison_putWord_same ..⟩
    | succ i =>
      rw [show a + 32 * (i + 1) = a + 32 + 32 * i by omega]
      exact ih _ _ i (Nat.lt_of_succ_lt_succ h)

/-- Outside control space a memory write puts every word. -/
theorem foldS_putWord (s : State) (a k : Nat) (l : List SWord)
    (h : ∀ i < l.length, s.regionOf (a + 32 * (k + i)) ≠ .ctl) :
    foldS ((List.range' k l.length).zip l) (fun s x =>
      let b := a + 32 * x.1
      if s.regionOf b = .ctl then s else s.putWord b x.2 poison) s = s.putRun (a + 32 * k) poison l := by
  induction l generalizing s k with
  | nil => rfl
  | cons w l ih =>
    have h0 : s.regionOf (a + 32 * k) ≠ .ctl := h 0 (Nat.succ_pos _)
    have hl : ∀ i < l.length, (s.putWord (a + 32 * k) w poison).regionOf (a + 32 * (k + 1 + i)) ≠ .ctl := fun i hi => by
      rw [Nat.add_assoc k, Nat.add_comm 1]
      exact h (i + 1) (Nat.succ_lt_succ hi)
    rw [List.length_cons, List.range'_succ, List.zip_cons_cons, State.putRun]
    exact (congrArg (foldS _ _) (if_neg h0)).trans (ih _ _ hl)

/-! ### Packets sent -/

theorem foldS_sendPacket {α : Type} (l : List α) (f : α → Packet) (s : State) :
    foldS l (fun s x => s.sendPacket (f x)) s = { s with fabric := s.fabric ++ l.map f } := by
  induction l generalizing s with
  | nil => simp [foldS]
  | cons x l ih =>
    refine (ih (s.sendPacket (f x))).trans ?_
    simp [State.sendPacket]

theorem SameBut.setFabric (s : State) (l : List Packet) : SameBut [.fabric] s { s with fabric := l } := by
  intro f hf
  cases f
  case fabric => exact absurd (by decide) hf
  all_goals rfl

theorem SameBut.setPair (s : State) (c q : Nat) (x : Pair) : SameBut [.pairs] s (s.setPair c q x) := by
  intro f hf
  cases f
  case pairs => exact absurd (by decide) hf
  all_goals rfl

theorem SameBut.setSputBad (s : State) (l : List (Nat × Nat × Nat × Nat)) :
    SameBut [.sputBad] s { s with sputBad := l } := by
  intro f hf
  cases f
  case sputBad => exact absurd (by decide) hf
  all_goals rfl

theorem SameBut.arrived (s : State) (p : Packet) : SameBut [.sent, .fabric] s (s.fresh.arrive p) :=
  ((SameBut.fresh s).mono (by decide)).step (SameBut.setFabric s.fresh _) (by decide)

end Packets

end Sys2Proof.Machine

/-! PROOFS. Memory packets that arrive, timeouts, and the pause of a late-reply buffer: what O41 states of each. -/

namespace Sys2Proof.Machine

section Memory

variable {s t u : State} {p : Packet}

theorem arrive_memRefusal : (s.fresh.arrive p).memRefusal p = s.memRefusal p := rfl

theorem arrive_entryBytes : (s.fresh.arrive p).entryBytes = s.entryBytes := by
  funext i b
  have hd : (s.fresh.arrive p).dget i b = s.dget i b := dget_congr rfl rfl rfl i b
  unfold State.entryBytes
  rw [hd]

theorem arrive_ctlWord {a : Nat} : (s.fresh.arrive p).ctlWord a = s.ctlWord a := by
  -- The body is taken as it is written: in any other check of it the kernel would compute the page of the address.
  obtain ⟨f, hf⟩ : ∃ f, f = State.ctlWord := ⟨_, rfl⟩
  rw [← hf]
  delta State.ctlWord at hf
  subst hf
  beta_reduce
  rw [arrive_entryBytes]

theorem arrive_memWord {a : Nat} : (s.fresh.arrive p).memWord a = s.memWord a := by
  have hr : (s.fresh.arrive p).regionOf a = s.regionOf a := rfl
  unfold State.memWord
  rw [hr, arrive_ctlWord]
  rfl

theorem arrive_wordAddrs :
    p.wordAddrs.map (s.fresh.arrive p).memWord = (List.range p.count).map fun i =>
      s.memWord (32 * (p.addr.toNat + i)) :=
  List.map_map.trans (List.map_congr_left fun _ _ => arrive_memWord)

theorem memoryWrite_accepted (h : s.memRefusal p = none)
    (hc : ∀ i < p.data.length, s.regionOf (32 * p.addr.toNat + 32 * i) ≠ .ctl) :
    s.memoryWrite p = (s.putRun (32 * p.addr.toNat) p.poison p.data).sendPacket (p.answer pkAck 0) := by
  have hf := foldS_putWord (poison := p.poison) s (32 * p.addr.toNat) 0 p.data (by simpa using hc)
  rw [Nat.mul_zero, Nat.add_zero, ← List.range_eq_range'] at hf
  unfold State.memoryWrite
  rw [h]
  exact congrArg (State.sendPacket · _) hf

theorem memoryReadRequest_accepted (h : s.memRefusal p = none) (he : s.ecc = []) :
    s.memoryReadRequest p = { s with fabric := s.fabric ++ (packWords (p.wordAddrs.map s.memWord)).map fun r =>
      { p.answer 12 0 with addr := BitVec.ofNat 43 (p.addr.toNat + r.1), words := BitVec.ofNat 4 (r.2.1.length - 1),
                           data := r.2.1, poison := r.2.2 } } := by
  unfold State.memoryReadRequest
  rw [h]
  dsimp only
  rw [foldS_id p.wordAddrs _ s fun a _ => touch_clean s a he]
  exact foldS_sendPacket _ _ s

theorem memory_refused {code : Nat} (h : s.memRefusal p = some code) :
    s.memoryWrite p = s.nackPacket p code ∧ s.memoryReadRequest p = s.nackPacket p code := by
  unfold State.memoryWrite State.memoryReadRequest
  rw [h]
  exact ⟨rfl, rfl⟩

/-- A memory packet is refused: reported, counted and answered (R242, R245). -/
theorem nackPacket_memory {code : Nat} (hk : p.kind = 10 ∨ p.kind = 11) :
    (s.nackPacket p code).fabric = s.fabric ++ [p.answer pkNack code] ∧
      SameBut (.fabric :: logFields) s (s.nackPacket p code) ∧
      LogOnly s (s.nackPacket p code) := by
  unfold State.nackPacket
  extract_lets unit s₁ s₂ s₃
  have hl : Logged s s₁ := .report ..
  have h₂ : SameBut logFields s s₂ := hl.same.step (SameBut.dbump _ _ _) (by decide)
  have e : s₃ = s₂ := if_neg (by obtain hk | hk := hk <;> rw [hk] <;> decide)
  rw [e]
  refine ⟨congrArg (· ++ [p.answer pkNack code]) (h₂ .fabric (by decide)), ?_, hl.log⟩
  exact (h₂.mono (by decide)).step (SameBut.setFabric s₂ _) (by decide)

end Memory

section Timeouts

variable {s t u : State} {p : Packet}

theorem promoPut_last {x : Promotion} {seq code : Nat} (h : x.unanswered = [seq]) :
    (s.promoPut x seq (some code)).promotions = s.promotions.filter (· != x) := by
  have hf : ∃ c, x.failed.or (some code) = some c := by cases x.failed <;> exact ⟨_, rfl⟩
  obtain ⟨c, hc⟩ := hf
  unfold State.promoPut
  simp only [h, hc, List.filter_cons, bne_self_eq_false, List.filter_nil, Bool.false_eq_true, if_false]
  exact complete_same _ _ _ _ .promotions (by decide)

/-- A promotion's put that is not waited for. -/
theorem linkTimeout_noPromo (hs : p.src = 9) (h : s.promoOf p.tag.toNat p.seq.toNat = none) : s.linkTimeout p = s := by
  simp only [State.linkTimeout, hs, if_true, h]

theorem linkTimeout_promo {x : Promotion} (hs : p.src = 9) (h : s.promoOf p.tag.toNat p.seq.toNat = some x)
    (hx : x.unanswered = [p.seq.toNat]) : (s.linkTimeout p).promotions = s.promotions.filter (· != x) := by
  simp only [State.linkTimeout, hs, if_true, h]
  rw [noteLink_same _ _ .promotions (by decide), promoPut_last hx]
  exact congrArg _ ((Logged.report ..).same .promotions (by decide))

/-! #### A host's request on a die link -/

theorem linkTimeout_host {h : Nat} (hh : h < 2) (hs : p.src = 10 + h) : s.linkTimeout p = s.hostTimeout h p := by
  obtain rfl | rfl : h = 0 ∨ h = 1 := by omega
  · simp [State.linkTimeout, hs]
  · simp [State.linkTimeout, hs]

theorem hostTimeout_first {h i : Nat} (hl : s.linkOf p.src p.dst = some i) (hr : s.romWait = false)
    (hp : s.portsServe = true)
    (ht : KV.get [] s.timeouts i = []) (hn : s.sent = []) : let t := s.hostTimeout h p
    t.sent = (if p.kind = 3 ∨ p.kind = 11 then [.completerAbort (portOf h)] else []) ∧
      SameBut ([.sent, .timeouts] ++ logFields) s t ∧ LogOnly s t ∧ DictBut logEntries s t := by
  intro t
  have hg : Logged s (s.report codeLinkTimeout (ucHost h) (ucLink i) []) := .report ..
  have e : t = if p.kind = 3 ∨ p.kind = 11 then
    ((s.report codeLinkTimeout (ucHost h) (ucLink i) []).send (.completerAbort (portOf h))).noteTimeout i
      else (s.report codeLinkTimeout (ucHost h) (ucLink i) []).noteTimeout i := by
    unfold t State.hostTimeout
    simp only [hl, hr, hp, Bool.not_true, Bool.or_self, Bool.false_eq_true, if_false, Bool.or_eq_true,
      decide_eq_true_eq]
    split <;> rfl
  generalize s.report codeLinkTimeout (ucHost h) (ucLink i) [] = u at hg e
  have hu : KV.get [] u.timeouts i = [] := (congrArg (KV.get [] · i) (hg.same .timeouts (by decide))).trans ht
  have hs : SameBut ([.sent, .timeouts] ++ logFields) s u := hg.same.mono (by decide)
  rw [e]
  split
  · rw [noteTimeout_first (s := u.send _) hu]
    refine ⟨by rw [State.send, hg.sent, hn]; rfl, ?_, hg.log, hg.dict⟩
    exact (hs.step (SameBut.send u _) (by decide)).step (SameBut.setTimeouts _ _) (by decide)
  · rw [noteTimeout_first hu]
    exact ⟨hg.sent.trans hn, hs.step (SameBut.setTimeouts u _) (by decide), hg.log, hg.dict⟩

/-! #### An operation of a context that runs on its core -/

/-- A context that runs on core `c`: what decides where its pairs are. -/
def RunsOn (s : State) (k c : Nat) : Prop := s.cget k 1 = csRunning ∧ s.cget k 7 = c

theorem runsOn_of {k c : Nat} (hs : s.cstate k = csRunning) (hc : s.ccore k = c) : RunsOn s k c := by
  refine ⟨hs, ?_⟩
  rw [State.ccore, if_neg (by rw [hs]; decide)] at hc
  exact hc

namespace RunsOn

variable {k c q : Nat}

theorem isLive (h : RunsOn s k c) : s.isLive k = true := by
  have hs : s.cstate k = csRunning := h.1
  simp [State.isLive, hs]

theorem ccore (h : RunsOn s k c) : s.ccore k = c := by
  have hs : s.cstate k = csRunning := h.1
  rw [State.ccore, if_neg (by rw [hs]; decide)]
  exact h.2

theorem kPair (h : RunsOn s k c) : s.kPair k q = s.pair c q := by rw [State.kPair, if_pos h.isLive, h.ccore]

theorem kSetPair (h : RunsOn s k c) (x : Pair) : s.kSetPair k q x = s.setPair c q x := by
  rw [State.kSetPair, if_pos h.isLive, h.ccore]

theorem settleSaved (h : RunsOn s k c) : s.settleSaved k q = s := if_pos h.isLive

theorem of_cget (h : RunsOn s k c) (e1 : t.cget k 1 = s.cget k 1) (e7 : t.cget k 7 = s.cget k 7) : RunsOn t k c :=
  ⟨e1.trans h.1, e7.trans h.2⟩

theorem of_logged (h : RunsOn s k c) (hk : k < 64) (hl : Logged s t) : RunsOn t k c := by
  have hn : ∀ b, (0x2600 + k, b) ∉ logEntries := fun b hb => by
    simp only [logEntries, List.mem_cons, Prod.mk.injEq, List.not_mem_nil, or_false] at hb
    omega
  exact h.of_cget (hl.dict _ 1 (by decide) (hn 1)) (hl.dict _ 7 (by decide) (hn 7))

end RunsOn

/-- An operation whose packet fails. -/
def failedOp (o : Op) : Op := { o with failed := true, ran := true }

/-- A pair whose operation `seq` failed. -/
def Pair.failed (p : Pair) (seq : Nat) : Pair := { p with sa := p.sa.mapOp seq failedOp }

theorem failOp_runs {k c q seq code : Nat} (h : RunsOn s k c) : let t := s.failOp k q seq code
    t.pair c q = (s.pair c q).failed seq ∧ RunsOn t k c ∧ SameBut [.pairs, .dict, .frame] s t := by
  intro t
  have e : t = if (s.pair c q).sa.ops.any (fun o => o.seq == seq && !o.failed)
      then ((s.setPair c q ((s.pair c q).failed seq)).cbump k 0x2A).ctxFault k code false else s.setPair c q
        ((s.pair c q).failed seq) := by
    unfold t State.failOp
    rw [h.kPair]
    dsimp only
    rw [h.kSetPair]
    rfl
  have h₁ : SameBut [.pairs] s (s.setPair c q ((s.pair c q).failed seq)) := .setPair s c q _
  have hr : RunsOn (s.setPair c q ((s.pair c q).failed seq)) k c := h
  rw [e]
  split
  · have h₂ := h₁.mono (m := [.pairs, .dict, .frame]) (by decide)
    have hb : RunsOn ((s.setPair c q ((s.pair c q).failed seq)).cbump k 0x2A) k c :=
      hr.of_cget (cget_cbump_ne _ (by decide) (by decide) (by decide))
        (cget_cbump_ne _ (by decide) (by decide) (by decide))
    have hd : SameBut [.pairs, .dict, .frame] s ((s.setPair c q ((s.pair c q).failed seq)).cbump k 0x2A) :=
      h₂.step (SameBut.dbump _ _ _) (by decide)
    have hp : ((s.setPair c q ((s.pair c q).failed seq)).cbump k 0x2A).pair c q = (s.pair c q).failed seq :=
      State.pair_setPair s c q _
    unfold State.ctxFault
    split
    · exact ⟨hp, hb, hd.step (SameBut.setFrame _ _) (by decide)⟩
    · exact ⟨hp, hb, hd⟩
  · exact ⟨State.pair_setPair s c q _, hr, h₁.mono (by decide)⟩

theorem failed_ops (x : Pair) (seq : Nat) : ∀ y ∈ ((x.failed seq).strm .a).ops, y.seq = seq → y.failed = true ∧
    y.ran = true := by
  intro y hy hs
  obtain ⟨z, -, rfl⟩ := List.mem_map.mp hy
  by_cases h : (z.seq == seq) = true
  · rw [if_pos h]
    exact ⟨rfl, rfl⟩
  · rw [if_neg h] at hs
    exact absurd (beq_iff_eq.mpr hs) h

/-- The timeout of a packet of a running context: its operation fails and its wait ends, and it counts on its link. -/
theorem linkTimeout_runs {o : Out} (hs : p.src < 8) (hv : p.ctxValid = true) (hr : RunsOn s p.k p.src)
    (ho : findOut (s.pair p.src p.srcPair.toNat).outstanding p.seq.toNat = some o) :
    (o.held = true → s.linkTimeout p = s) ∧
    (o.held = false → ∃ u, s.linkTimeout p = u.noteLink (s.linkOf p.src p.dst) ∧
      u.pair p.src p.srcPair.toNat = ((s.pair p.src p.srcPair.toNat).dropOut o.seq).failed o.op ∧
      SameBut ([.pairs, .frame, .sputBad] ++ logFields) s u) := by
  have hst : s.cstate p.k = csRunning := hr.1
  have hc : ¬ (decide (8 ≤ p.src) || !p.ctxValid || decide (s.cstate p.k < csRunning) || decide
    (s.cstate p.k = csTearing)) = true := by
    simp [hv, hst, csRunning, csTearing, hs]
  unfold State.linkTimeout
  extract_lets k q link s₀ unit s₁ s₂
  rw [if_neg (by omega), if_neg (by omega), if_neg (by omega), if_neg hc, hr.kPair, ho]
  refine ⟨fun h => if_pos h, fun h => ?_⟩
  dsimp only
  rw [if_neg (by simp [h])]
  have hg : Logged s s₁ := .report ..
  have h₁ : SameBut ([.pairs, .frame, .sputBad] ++ logFields) s s₁ := hg.same.mono (by decide)
  have hr₁ : RunsOn s₁ k p.src := hr.of_logged p.srcCtx.isLt hg
  have hs₂ : SameBut [.sputBad] s₁ s₂ :=
    .ite (.setSputBad s₁ _) (.refl _ s₁)
  have hr₂ : RunsOn s₂ k p.src := by
    unfold s₂
    split
    · exact hr₁
    · exact hr₁
  have hp₂ : s₂.pair p.src q = s.pair p.src q := by
    rw [State.pair, hs₂ .pairs (by decide), hg.same .pairs (by decide), State.pair]
  clear_value s₂
  have hr₃ : RunsOn (s₂.setPair p.src q ((s.pair p.src q).dropOut o.seq)) k p.src := hr₂
  obtain ⟨hp, hr₄, hs₄⟩ := failOp_runs (q := q) (seq := o.op) (code := codeLinkTimeout) hr₃
  rw [State.pair_setPair] at hp
  have hs₃ : SameBut [.pairs] s₂ (s₂.setPair p.src q ((s.pair p.src q).dropOut o.seq)) :=
    .setPair s₂ _ _ _
  refine ⟨_, rfl, ?_⟩
  rw [hr₂.kPair, hr₂.kSetPair, hp₂, hr₄.settleSaved]
  exact ⟨hp, ((h₁.step hs₂ (by decide)).step hs₃ (by decide)).step hs₄ (by decide)⟩

end Timeouts
section Outcomes

variable {s t : State} {p : Packet} {n : Nat}

theorem SameBut.atTime (s : State) (n : Nat) : SameBut [.sent, .timeNs] s (s.fresh.atTime n) := by
  intro f hf
  cases f
  case sent | timeNs => exact absurd (by decide) hf
  all_goals rfl

theorem exec_memoryWrite (hk : p.kind = 10) : exec (.memoryWrite p) s = .next ((s.fresh.arrive p).memoryWrite p) :=
  congrArg Host.Outcome.next (if_pos hk)

theorem exec_memoryReadRequest (hk : p.kind = 11) :
    exec (.memoryReadRequest p) s = .next ((s.fresh.arrive p).memoryReadRequest p) :=
  congrArg Host.Outcome.next (if_pos hk)

/-- A refused memory packet that arrives. -/
theorem arrive_nackPacket {code : Nat} (hk : p.kind = 10 ∨ p.kind = 11) : let t := (s.fresh.arrive p).nackPacket p code
    t.fabric = s.fabric.erase p ++ [p.answer pkNack code] ∧ SameBut ([.sent, .fabric] ++ logFields) s t ∧
      LogOnly s t := by
  obtain ⟨hf, hs, hm⟩ := nackPacket_memory (s := s.fresh.arrive p) (code := code) hk
  exact ⟨hf, ((SameBut.arrived s p).mono (by decide)).step hs (by decide), hm⟩

theorem cbumps_late (l : List Nat) (b : Nat) (s : State) : (foldS l (fun s k => s.cbump k b) s).late = s.late :=
  LateKept.foldS (.refl s) fun _ _ h => .cbump h

end Outcomes

/-- Settles O41: a refused packet by `nackPacket_memory`, a write by `word_putRun`, a timeout by `linkTimeout_runs` and
`noteLink_same`, a pause by `late_releaseLate`. -/
theorem memoryPacketsAndTimeouts : Obligations.MemoryPacketsAndTimeouts := by
  intro s p a
  refine ⟨fun hk hr hc => ?_, fun hk hr he => ?_, fun code cmd kind hm hk hr => ?_, fun n o hs hv hst hcc ho => ?_,
    fun n hs => ?_, fun n h l hh hs hl hw hp ht => ?_, fun c hl => ?_, fun c hl => ?_⟩
  · refine gives_of_eq ((exec_memoryWrite hk).trans
      (congrArg _ (memoryWrite_accepted (arrive_memRefusal.trans hr) hc))) ⟨?_, ?_, ?_, ?_⟩
    · exact congrArg (· ++ _) (putRun_same _ _ _ _ .fabric (by decide))
    · exact fun i hi => word_putRun _ _ _ i hi
    · exact putRun_memBut (s.fresh.arrive p) _ _ _
    · exact (((SameBut.arrived s p).mono (by decide)).step (putRun_same _ _ _ _) (by decide)).step
        (SameBut.setFabric _ _) (by decide)
  · have e := memoryReadRequest_accepted (arrive_memRefusal.trans hr) he
    rw [arrive_wordAddrs] at e
    exact gives_of_eq ((exec_memoryReadRequest hk).trans (congrArg _ e))
      ⟨rfl, (SameBut.arrived s p).step (SameBut.setFabric _ _) (by decide)⟩
  · obtain ⟨hw, hq⟩ := memory_refused (arrive_memRefusal.trans hr)
    simp only [List.mem_cons, Prod.mk.injEq, List.not_mem_nil, or_false] at hm
    obtain ⟨rfl, rfl⟩ | ⟨rfl, rfl⟩ := hm
    · exact gives_of_eq ((exec_memoryWrite hk).trans (congrArg _ hw)) (arrive_nackPacket (.inl hk))
    · exact gives_of_eq ((exec_memoryReadRequest hk).trans (congrArg _ hq)) (arrive_nackPacket (.inr hk))
  · obtain ⟨hheld, hfree⟩ := linkTimeout_runs (s := s.fresh.atTime n) hs hv (runsOn_of hst hcc) ho
    refine ⟨fun h => gives_of_eq (congrArg Host.Outcome.next (hheld h)) (SameBut.atTime s n), fun h => ?_⟩
    obtain ⟨u, e, hu, hsu⟩ := hfree h
    have hpair : ((u.noteLink ((s.fresh.atTime n).linkOf p.src p.dst)).pair p.src p.srcPair.toNat) =
        ((s.pair p.src p.srcPair.toNat).dropOut o.seq).failed o.op := by
      rw [State.pair, noteLink_same u _ .pairs (by decide)]
      exact hu
    refine gives_of_eq (congrArg Host.Outcome.next e) ⟨?_, ?_, fun hn => ?_⟩
    · rw [hpair]
      rfl
    · rw [State.strm, hpair]
      exact failed_ops _ _
    · have hn' : (s.fresh.atTime n).linkOf p.src p.dst = none := hn
      rw [hn']
      exact ((SameBut.atTime s n).mono (by decide)).step hsu (by decide)
  · refine ⟨fun h => ?_, fun x h hx => ?_⟩
    · exact gives_of_eq (congrArg Host.Outcome.next (linkTimeout_noPromo (s := s.fresh.atTime n) hs h))
        (SameBut.atTime s n)
    · exact gives_of_eq rfl (linkTimeout_promo (s := s.fresh.atTime n) hs h hx)
  · obtain ⟨hsent, hsame, hlog, hdict⟩ := hostTimeout_first (s := s.fresh.atTime n) (h := h) hl hw hp ht rfl
    refine gives_of_eq (congrArg Host.Outcome.next (linkTimeout_host hh hs)) ⟨hsent, ?_, hlog, hdict⟩
    exact ((SameBut.atTime s n).mono (by decide)).step hsame (by decide)
  · have e : s.fresh.lateReplyPause c.val = foldS _ _ (s.fresh.releaseLate c.val) := if_neg hl
    refine gives_of_eq (congrArg Host.Outcome.next e) ?_
    rw [cbumps_late, late_releaseLate]
    exact KV.get_set_same _ _ _ _
  · have e : s.fresh.lateReplyPause c.val = s.fresh := if_pos hl
    exact gives_of_eq (congrArg Host.Outcome.next e) (SameBut.fresh s)

end Sys2Proof.Machine

/-! PROOFS. What no command touches: the queue's rest, the time base's direction, blown fuses (R45, R447). -/

namespace Sys2Proof.Machine

/-- Settles O5: these are three of the four things that every command keeps (`Kept.of_exec`). -/
theorem commandsKeepQueueTimeAndFuses : Obligations.CommandsKeepQueueTimeAndFuses := by
  intro c s t e
  obtain ⟨-, hpending, htime, hfuses⟩ := Kept.of_exec e
  exact ⟨hpending, htime, hfuses⟩

end Sys2Proof.Machine

/-! PROOFS. Frames: fields, dictionary entries and memory together, and the frames of the elementary updates that the sensor
side makes. -/

namespace Sys2Proof.Machine

section Framed

variable {s t u : State} {l m : List Field} {d d' : List (Nat × Nat)}

/-- At most the fields of `l`, the entries of `d`, and in memory the event log change. -/
structure Framed (l : List Field) (d : List (Nat × Nat)) (s t : State) : Prop where
  same : SameBut l s t
  log : LogOnly s t
  dict : DictBut d s t

/-- What an entry's value or a byte of memory depends on. -/
def readSources : List Field := [.dict, .fuses, .safeState, .busOffRecent, .logOpen, .mem]

theorem DictBut.of_sameBut (h : SameBut l s t) (hl : ∀ f ∈ readSources, f ∉ l) : DictBut d s t :=
  .of_same (h .dict (hl _ (by decide))) (h .fuses (hl _ (by decide)))
    (errorRegister_congr (h .dict (hl _ (by decide))) (h .safeState (hl _ (by decide)))
      (h .busOffRecent (hl _ (by decide))) (h .logOpen (hl _ (by decide))))

theorem dget_of_sameBut (h : SameBut l s t) (hl : ∀ f ∈ readSources, f ∉ l) (i b : Nat) : t.dget i b = s.dget i b :=
  dget_congr (h .dict (hl _ (by decide))) (h .fuses (hl _ (by decide)))
    (errorRegister_congr (h .dict (hl _ (by decide))) (h .safeState (hl _ (by decide)))
      (h .busOffRecent (hl _ (by decide))) (h .logOpen (hl _ (by decide)))) i b

namespace Framed

theorem refl (s : State) : Framed l d s s := ⟨.refl _ s, .refl _ _ s, .refl _ s⟩

theorem trans (h : Framed l d s t) (k : Framed l d t u) : Framed l d s u :=
  ⟨h.same.trans k.same, h.log.trans k.log, h.dict.trans k.dict⟩

theorem mono (h : Framed l d s t) (hl : ∀ f ∈ l, f ∈ m) (hd : ∀ e ∈ d, e ∈ d') : Framed m d' s t :=
  ⟨h.same.mono hl, h.log, h.dict.mono hd⟩

theorem step (h : Framed m d' s t) (k : Framed l d t u) (hl : ∀ f ∈ l, f ∈ m) (hd : ∀ e ∈ d, e ∈ d') : Framed m d' s u :=
  h.trans (k.mono hl hd)

/-- An update of fields that no entry and no byte is read from. -/
theorem of_same (h : SameBut l s t) (hl : ∀ f ∈ readSources, f ∉ l) : Framed l d s t :=
  ⟨h, .of_mem (h .mem (hl _ (by decide))), .of_sameBut h hl⟩

theorem then_same (h : Framed l d s t) (k : SameBut m t u) (hm : ∀ f ∈ m, f ∈ l) (hr : ∀ f ∈ readSources, f ∉ m) :
    Framed l d s u :=
  h.trans ((of_same k hr).mono hm fun _ => id)

theorem ite {c : Prop} {_ : Decidable c} (h : Framed l d s t) (k : Framed l d s u) : Framed l d s (if c then t else u) := by
  split
  · exact h
  · exact k

theorem foldS {α : Type} {as : List α} {f : State → α → State} (h : Framed l d s t)
    (hf : ∀ x, ∀ a ∈ as, Framed l d s x → Framed l d s (f x a)) : Framed l d s (foldS as f t) := by
  induction as generalizing t with
  | nil => exact h
  | cons a as ih =>
    exact ih (hf t a List.mem_cons_self h) fun x b hb => hf x b (List.mem_cons_of_mem _ hb)

theorem dset {i b v : Nat} (h : Framed l d s t) (hf : .dict ∈ l) (hm : (i, b) ∈ d) (hb : b < 256)
    (hn : (i, b) ≠ (0x2500, 0x4A)) (ho : (i, b) ≠ (0x2500, 0x05)) : Framed l d s (t.dset i b v) :=
  h.trans ⟨(SameBut.dset t i b v).mono (by simpa using hf), .of_mem rfl, (DictBut.dset t i b v hb hn ho).mono (by simpa using hm)⟩

theorem dbump {i b : Nat} (h : Framed l d s t) (hf : .dict ∈ l) (hm : (i, b) ∈ d) (hb : b < 256)
    (hn : (i, b) ≠ (0x2500, 0x4A)) (ho : (i, b) ≠ (0x2500, 0x05)) : Framed l d s (t.dbump i b) :=
  h.dset hf hm hb hn ho

theorem logged (h : Framed l d s t) (k : Logged t u) (hl : ∀ f ∈ logFields, f ∈ l) (hd : ∀ e ∈ logEntries, e ∈ d) :
    Framed l d s u :=
  h.trans ⟨k.same.mono hl, k.log, k.dict.mono hd⟩

theorem fresh (s : State) : Framed [.sent] d s s.fresh := of_same (SameBut.fresh s) (by decide)

theorem atTime (s : State) (n : Nat) : Framed [.sent, .timeNs] d s (s.fresh.atTime n) := of_same (SameBut.atTime s n) (by decide)

end Framed

/-! ### Frames of single fields -/

theorem SameBut.setEp (s : State) (e : Nat) (x : Endpoint) : SameBut [.eps] s (s.setEp e x) := by
  intro f hf
  cases f
  case eps => exact absurd (by decide) hf
  all_goals rfl

theorem SameBut.setView (s : State) (v : Nat) (x : ViewState) : SameBut [.views] s (s.setView v x) := by
  intro f hf
  cases f
  case views => exact absurd (by decide) hf
  all_goals rfl

theorem SameBut.setCtx (s : State) (k : Nat) (x : Ctx) : SameBut [.ctxs] s (s.setCtx k x) := by
  intro f hf
  cases f
  case ctxs => exact absurd (by decide) hf
  all_goals rfl

end Framed

end Sys2Proof.Machine

/-! PROOFS. A nanosecond without a command (R45, R195, R199, R266, R268, R269, R277): the entries it shows, and the fields that
its beats change. -/

namespace Sys2Proof.Machine

section Idle

variable {s t : State}

/-- The fields that the beats of an idle nanosecond may change. -/
def idleFields : List Field := [.dict, .ctxs, .pairs, .rateAt, .rateMark, .slowHeld]

/-- The entries they may change: beat rates and counters, the choices of the device, and of each context its stop state and the
choices counted for it. -/
def idleEntries : List (Nat × Nat) :=
  (List.range 10).map (fun i => (0x2900, 0x07 + i)) ++ [(0x2900, 0x15)] ++
    allCtx.flatMap (fun k => [(0x2600 + k, 0x40), (0x2600 + k, 0x83), (0x2600 + k, 0x87)])

/-- A state that the beats of a nanosecond may have made of `s` so far. -/
abbrev Idles (s t : State) : Prop := Framed idleFields idleEntries s t

theorem beatEntry_mem {b : Nat} (hl : 7 ≤ b) (hu : b ≤ 0x10) : (0x2900, b) ∈ idleEntries := by
  refine List.mem_append_left _ (List.mem_append_left _ (List.mem_map.mpr ⟨b - 7, List.mem_range.mpr (by omega), ?_⟩))
  rw [Nat.add_sub_cancel' hl]

theorem ctxEntry_mem {k b : Nat} (hk : k < 64) (hb : b = 0x83 ∨ b = 0x87) : (0x2600 + k, b) ∈ idleEntries := by
  refine List.mem_append_right _ (List.mem_flatMap.mpr ⟨k, List.mem_range.mpr hk, ?_⟩)
  obtain rfl | rfl := hb <;> simp

theorem Idles.setPair {c q : Nat} {x : Pair} (h : Idles s t) : Idles s (t.setPair c q x) :=
  h.then_same (.setPair t c q x) (by decide) (by decide)

theorem Idles.setCtx {k : Nat} {x : Ctx} (h : Idles s t) : Idles s (t.setCtx k x) :=
  h.then_same (.setCtx t k x) (by decide) (by decide)

theorem Idles.showBeats {b v : Nat} (h : Idles s t) (hl : 7 ≤ b) (hu : b ≤ 0x10) : Idles s (t.dset 0x2900 b v) :=
  h.dset (by decide) (beatEntry_mem hl hu) (by omega) (by simp) (by simp)

theorem Idles.ctxChoice {k b v : Nat} (h : Idles s t) (hk : k < 64) (hb : b = 0x83 ∨ b = 0x87) : Idles s (t.cset k b v) :=
  h.dset (by decide) (ctxEntry_mem hk hb) (by omega) (by simp; omega) (by simp; omega)

/-- A hold counted as a choice (R277). -/
theorem Idles.dramHold {k : Nat} (h : Idles s t) (hk : k < 64) : Idles s (t.choice k 3) :=
  .ite h (((h.ctxChoice hk (.inl rfl)).ctxChoice hk (.inr rfl)).dbump (by decide) (by decide) (by decide) (by simp) (by simp))

theorem owner_lt {c q k : Nat} (h : s.owner c q = some k) : k < 64 := List.mem_range.mp (List.mem_of_find?_eq_some h)

theorem runner_lt {c q k : Nat} (h : s.runner c q = some k) : k < 64 := by
  unfold State.runner at h
  split at h
  · split at h
    · rename_i ho _
      exact Option.some.inj h ▸ owner_lt ho
    · cases h
  · cases h

theorem site_ctx_lt {c q : Nat} {st : StreamId} {z : Site} (h : s.site c q st = some z) : z.k < 64 := by
  unfold State.site at h
  split at h
  · cases h
  · rename_i hr
    dsimp only at h
    split at h
    · cases h
    · exact Option.some.inj h ▸ runner_lt hr

theorem Idles.noteDramHold {z : Site} (h : Idles s t) (hz : z.k < 64) : Idles s (t.noteDramHold z) :=
  .foldS h fun _ _ _ h₁ => .foldS h₁ fun _ _ _ h₂ => .ite (Idles.dramHold (Idles.setPair h₂) hz) h₂

theorem Idles.stopCheck {k : Nat} (h : Idles s t) : Idles s (t.stopCheck k) := by
  unfold State.stopCheck
  split
  · exact h
  · dsimp only
    split
    · exact .ite (Idles.setPair h) h
    · exact h

theorem Idles.holdBeat {bed : Nat} (h : Idles s t) : Idles s (t.holdBeat bed) := by
  refine .foldS h fun x k _ h₁ => Idles.stopCheck (.foldS h₁ fun y p _ h₂ => ?_)
  split
  · rename_i hz
    exact .ite (Idles.noteDramHold h₂ (site_ctx_lt hz)) h₂
  · exact h₂

theorem Idles.stallBeat {bed : Nat} (h : Idles s t) : Idles s (t.stallBeat bed) :=
  .foldS h fun _ _ _ h₁ => .ite h₁ (Idles.setCtx h₁)

theorem Idles.beat {i : Nat} (h : Idles s t) (hi : i ≤ 4) : Idles s (t.beat i) := by
  have h₁ : Idles s (t.dset 0x2900 (0x0C + i) ((t.dget 0x2900 (0x0C + i) + 1) % 2 ^ 64)) :=
    h.showBeats (by omega) (by omega)
  exact .ite (Idles.stallBeat (Idles.holdBeat h₁)) h₁

theorem SameBut.setRateMark (s : State) (x : KV Nat) : SameBut [.rateMark] s { s with rateMark := x } := by
  intro f hf
  cases f
  case rateMark => exact absurd (by decide) hf
  all_goals rfl

theorem SameBut.setSlowHeld (s : State) (x : BitVec 4) : SameBut [.slowHeld] s { s with slowHeld := x } := by
  intro f hf
  cases f
  case slowHeld => exact absurd (by decide) hf
  all_goals rfl

theorem SameBut.setRateAt (s : State) (x : Nat) : SameBut [.rateAt] s { s with rateAt := x } := by
  intro f hf
  cases f
  case rateAt => exact absurd (by decide) hf
  all_goals rfl

theorem Idles.measureRates (h : Idles s t) : Idles s t.measureRates := by
  refine .ite h (.then_same (.foldS h fun x i hi h₁ => ?_) (.setRateAt _ _) (by decide) (by decide))
  have hi : i ≤ 4 := by
    simp only [List.mem_cons, List.not_mem_nil, or_false] at hi
    omega
  have h₂ := (Idles.showBeats h₁ (b := 7 + i) (v := min 65535 ((x.dget 0x2900 (0x0C + i) - KV.get 0 x.rateMark i) * 1000 /
    (t.timeNs - t.rateAt))) (by omega) (by omega)).then_same
      (.setRateMark _ (KV.set 0 x.rateMark i (x.dget 0x2900 (0x0C + i)))) (by decide) (by decide)
  exact .ite (h₂.then_same (.setSlowHeld _ _) (by decide) (by decide)) h₂

/-- The state a nanosecond on, before its beats. -/
def State.later (s : State) : State := { s with sent := [], timeNs := s.timeNs + 1 }

theorem SameBut.later (s : State) : SameBut [.sent, .timeNs] s s.later := by
  intro f hf
  cases f
  case sent | timeNs => exact absurd (by decide) hf
  all_goals rfl

theorem idleTick_idles (s : State) : Idles s.later (idleTick s) := by
  refine Idles.measureRates (.foldS (.refl s.later) fun x i hi h₁ => .ite (Idles.beat h₁ ?_) h₁)
  simp only [List.mem_cons, List.not_mem_nil, or_false] at hi
  omega

theorem idleTick_frame (s : State) : Framed ([.sent, .timeNs] ++ idleFields) idleEntries s (idleTick s) :=
  ((Framed.of_same (SameBut.later s) (by decide)).mono (by decide) fun _ => id).step (idleTick_idles s) (by decide) fun _ => id

end Idle

/-- Settles O1: `step` is this match, and of an idle nanosecond `idleTick_idles` tells what its beats change. -/
theorem stepRunsFrontCommand : Obligations.StepRunsFrontCommand := by
  refine ⟨fun c rest s h => by rw [step, h], fun s h => ⟨idleTick s, by rw [step, h], ?_⟩⟩
  have hi := idleTick_idles s
  have hf := idleTick_frame s
  exact ⟨hi.same .timeNs (by decide), hi.same .sent (by decide), hf.same.mono (by decide), hf.dict⟩

end Sys2Proof.Machine

/-! PROOFS. Reports and the entries they leave alone, and the Ethernet ports, triggers, rails, alerts and temperatures
(R36, R42, R44, R440, R442, R473, R474). -/

namespace Sys2Proof.Machine

section Reports

variable {s t : State}

/-! ### What a report counts and leaves alone -/

/-- The count of events reads as it did. -/
def CountKept (s t : State) : Prop := t.dget 0x2800 0x03 = s.dget 0x2800 0x03

namespace CountKept

theorem dset {i b v : Nat} (h : CountKept s t) (hb : b < 256) (hne : (0x2800, 0x03) ≠ (i, b)) (hn : (i, b) ≠ (0x2500, 0x4A))
    (ho : (i, b) ≠ (0x2500, 0x05)) : CountKept s (t.dset i b v) :=
  (t.dget_dset_ne hb (by decide) hne hn ho).trans h

theorem of_dict (h : CountKept s t) {u : State} (hd : u.dict = t.dict) (hf : u.fuses = t.fuses) : CountKept s u :=
  (dget_congr_ne hd hf (by decide)).trans h

theorem ite {u : State} {c : Prop} {_ : Decidable c} (h : CountKept s t) (k : CountKept s u) : CountKept s (if c then t else u) := by
  split
  · exact h
  · exact k

theorem emcySend {code unit : Nat} (h : CountKept s t) : CountKept s (t.emcySend code unit) :=
  .ite h (.ite (h.dset (by decide) (by decide) (by decide) (by decide)) (h.of_dict rfl rfl))

end CountKept

theorem report_counts (s : State) (code unit origin : Nat) (detail : List Byte) (frameFault : Bool) :
    (s.report code unit origin detail frameFault).dget 0x2800 0x03 = (s.dget 0x2800 0x03 + 1) % 2 ^ 32 := by
  have h₁ : CountKept (s.dbump 0x2800 0x03) (s.dbump 0x2800 0x03) := rfl
  refine Eq.trans (?_ : CountKept (s.dbump 0x2800 0x03) _) (State.dget_dset_same _ _ _ _)
  unfold State.report
  extract_lets s₁ s₂ rec' s₃
  split
  · extract_lets a n s₄ s₅ s₆
    have h₂ : CountKept s₁ s₂ := h₁.dset (by decide) (by decide) (by decide) (by decide)
    have h₅ : CountKept s₁ s₅ := h₂.of_dict rfl rfl
    have h₆ : CountKept s₁ s₆ := .ite (h₅.of_dict rfl rfl) h₅
    exact .ite (h₆.of_dict rfl rfl) h₆
  · have h₃ : CountKept s₁ s₃ := by
      refine .ite (h₁.dset (by decide) (by decide) (by decide) (by decide)) ?_
      extract_lets i bs s₄ s₅
      have h₄ : CountKept s₁ s₄ := h₁.of_dict rfl rfl
      exact .dset (.dset (.of_dict h₄ rfl rfl) (by decide) (by decide) (by decide) (by decide))
        (by decide) (by decide) (by decide) (by decide)
    exact .ite h₃.emcySend h₃

/-- An entry that is none of the log's reads as it did after a report. -/
theorem dget_report (s : State) (code unit origin : Nat) (detail : List Byte) (frameFault : Bool) {i b : Nat} (hb : b < 256)
    (h : (i, b) ∉ logEntries) : (s.report code unit origin detail frameFault).dget i b = s.dget i b :=
  (Logged.report s code unit origin detail frameFault).dict i b hb h

theorem dget_rep (s : State) (code unit : Nat) {i b : Nat} (hb : b < 256) (h : (i, b) ∉ logEntries) :
    (s.rep code unit).dget i b = s.dget i b :=
  dget_report s code unit unit [] false hb h

/-- A frame with a report in it, with the log's fields and entries in the lists. -/
theorem Framed.report {l : List Field} {d : List (Nat × Nat)} (h : Framed l d s t) (hl : ∀ f ∈ logFields, f ∈ l)
    (hd : ∀ e ∈ logEntries, e ∈ d) (code unit origin : Nat) (detail : List Byte) (frameFault : Bool) :
    Framed l d s (t.report code unit origin detail frameFault) :=
  h.logged (.report ..) hl hd

theorem Framed.rep {l : List Field} {d : List (Nat × Nat)} (h : Framed l d s t) (hl : ∀ f ∈ logFields, f ∈ l)
    (hd : ∀ e ∈ logEntries, e ∈ d) (code unit : Nat) : Framed l d s (t.rep code unit) :=
  h.logged (.rep ..) hl hd

end Reports

section Ports

variable {s t : State}

/-! ### ARP and gPTP -/

theorem SameBut.setSync (s : State) (n : Nat) (b : Bool) : SameBut [.timeNs, .gptpSync] s { s with timeNs := n, gptpSync := b } := by
  intro f hf
  cases f
  case timeNs | gptpSync => exact absurd (by decide) hf
  all_goals rfl

theorem SameBut.unsync (s : State) : SameBut [.gptpSync] s { s with gptpSync := false } := by
  intro f hf
  cases f
  case gptpSync => exact absurd (by decide) hf
  all_goals rfl

/-- A sync on a slave port. -/
theorem gptp_sync {q m : Nat} (h : s.role q = 2) :
    s.gptp q (.sync m) = { s with timeNs := max s.timeNs m, gptpSync := true }.dset 0x2401 0x05 1 := if_pos h

theorem gptpUnlocked_runs (h : s.hasSlave = true) (h5 : s.dget 0x2401 0x05 ≠ 2) :
    execGptpUnlocked s = .next (({ s.fresh with gptpSync := false }.dset 0x2401 0x05 2).rep codeGptpUnlocked ucDevice) :=
  congrArg Host.Outcome.next (if_pos (by simp [h, h5]))

/-! ### Triggers -/

theorem SameBut.setTriggers (s : State) (l : List (Nat × Nat × Nat × Bool)) : SameBut [.triggers] s { s with triggers := l } := by
  intro f hf
  cases f
  case triggers => exact absurd (by decide) hf
  all_goals rfl

/-- The trigger list with one of its triggers marked as sent. -/
def markSent (x : Nat × Nat × Nat × Bool) (l : List (Nat × Nat × Nat × Bool)) : List (Nat × Nat × Nat × Bool) :=
  l.map (fun y => if y = x then (x.1, x.2.1, x.2.2.1, true) else y)

/-- What goes out for a trigger: a message on Ethernet, an edge on A-PHY. -/
def State.triggerMessage (s : State) (e t : Nat) : Message :=
  if s.eget e 0x02 = 2 then .head e (bytesOf 1 5 ++ bytesOf 1 e ++ bytesOf 2 10 ++ (bytesOf 6 (t / 1000000000) ++ bytesOf 4 (t % 1000000000)))
  else .gpio e (t - Config.tunnelLatency (s.eget e 0x03) t)

theorem sendTrigger_found {e : Nat} {x : Nat × Nat × Nat × Bool}
    (h : s.triggers.find? (fun y => y.1 == e && !y.2.2.2) = some x) :
    s.sendTrigger e = { s with triggers := markSent x s.triggers }.send (s.triggerMessage e x.2.2.1) := by
  have hn : (bytesOf 6 (x.2.2.1 / 1000000000) ++ bytesOf 4 (x.2.2.1 % 1000000000)).length = 10 := by simp [length_bytesOf]
  unfold State.sendTrigger State.triggerMessage
  rw [h]
  dsimp only
  rw [State.request, hn]
  split <;> rename_i hk
  · rw [if_pos (show s.eget e 0x02 = 2 from hk)]
    rfl
  · rw [if_neg (show ¬ s.eget e 0x02 = 2 from hk)]
    rfl

/-! ### Rails -/

theorem getLsbD_clear_same (x : BitVec 8) {g : Nat} (hg : g < 8) : (x &&& ~~~(BitVec.ofNat 8 (2 ^ g))).getLsbD g = false := by
  rw [BitVec.getLsbD_and, BitVec.getLsbD_not, BitVec.getLsbD_ofNat, Nat.testBit_two_pow_self]
  simp [hg]

theorem SameBut.setPwrGood (s : State) (x : BitVec 8) : SameBut [.pwrGood] s { s with pwrGood := x } := by
  intro f hf
  cases f
  case pwrGood => exact absurd (by decide) hf
  all_goals rfl

/-- The state in which a rail group's failure is reported and the group no longer good. -/
def State.railReported (s : State) (g : Nat) : State :=
  let t := s.report codeRail ucDevice ucDevice (bytesOf 1 g)
  { t with pwrGood := t.pwrGood &&& ~~~(BitVec.ofNat 8 (2 ^ g)) }

theorem railReported_framed (s : State) (g : Nat) : Framed (.pwrGood :: logFields) logEntries s (s.railReported g) :=
  (((Framed.refl s).report (by decide) (by decide) ..).then_same (.setPwrGood _ _) (by decide) (by decide))

theorem railFault_runs {g : Nat} (h : s.pwrEn.getLsbD g = true) :
    (¬ (s.dev = dsLowPower ∧ s.lpExitBegun = true) → s.railFault g = s.railReported g) ∧
      (s.dev = dsLowPower → s.lpExitBegun = true → s.railFault g =
        { s.railReported g with lpStuck := true, pwrEn := if s.power = 2 then s.pwrEn &&& 0xE0 else 0 }) := by
  have hf := railReported_framed s g
  have hd : (s.railReported g).dev = s.dev := hf.dict _ _ (by decide) (by decide)
  have hp : (s.railReported g).power = s.power := hf.dict _ _ (by decide) (by decide)
  have he : (s.railReported g).lpExitBegun = s.lpExitBegun := hf.same .lpExitBegun (by decide)
  have hw : (s.railReported g).pwrEn = s.pwrEn := hf.same .pwrEn (by decide)
  have e : s.railFault g = if (s.railReported g).dev = dsLowPower && (s.railReported g).lpExitBegun then
      { s.railReported g with lpStuck := true, pwrEn := if (s.railReported g).power = 2 then (s.railReported g).pwrEn &&& 0xE0 else 0 }
      else s.railReported g := if_neg (by simp [h])
  rw [e, hd, hp, he, hw]
  exact ⟨fun hn => if_neg (by simpa using hn), fun h1 h2 => if_pos (by simp [h1, h2])⟩

/-! ### Temperatures -/

/-- The entries of the dies' temperatures, the highest, and the count of warnings. -/
def tempEntries : List (Nat × Nat) :=
  [(0x2100, 0x06), (0x2100, 0x07), (0x2100, 0x08), (0x2100, 0x09), (0x2100, 0x0A), (0x2100, 0x0B), (0x2100, 0x10)] ++ logEntries

theorem SameBut.setTempHeld (s : State) (b : Bool) (n : Option Nat) :
    SameBut [.tempHeld, .tempBelow] s { s with tempHeld := b, tempBelow := n } := by
  intro f hf
  cases f
  case tempHeld | tempBelow => exact absurd (by decide) hf
  all_goals rfl

/-- The check of the temperatures may report and count a warning, and shows no temperature anew. -/
theorem tempCheck_framed (s : State) :
    Framed ([.tempHeld, .tempBelow] ++ logFields) ((0x2100, 0x10) :: logEntries) s s.tempCheck := by
  have held (t : State) (b : Bool) (n : Option Nat) (h : Framed ([.tempHeld, .tempBelow] ++ logFields) ((0x2100, 0x10) :: logEntries) s t) :
      Framed ([.tempHeld, .tempBelow] ++ logFields) ((0x2100, 0x10) :: logEntries) s { t with tempHeld := b, tempBelow := n } :=
    h.then_same (.setTempHeld t b n) (by decide) (by decide)
  unfold State.tempCheck
  dsimp only
  split
  · split
    · split
      · exact held s s.tempHeld _ (.refl s)
      · exact .ite (held s _ _ (.refl s)) (.refl s)
    · exact held s s.tempHeld _ (.refl s)
  · refine .ite (held _ _ _ ?_) (.refl s)
    exact ((Framed.refl s).rep (by decide) (by decide) ..).dbump (by decide) (by decide) (by decide) (by decide) (by decide)

/-- A die's temperature reads as it was set, whatever is set after it. -/
theorem setTemps_shown (s : State) (a b c d e : BitVec 16) : let t := s.setTemps [a, b, c, d, e]
    (t.dget 0x2100 0x06 = a.toNat ∧ t.dget 0x2100 0x07 = b.toNat ∧ t.dget 0x2100 0x08 = c.toNat ∧ t.dget 0x2100 0x09 = d.toNat ∧
      t.dget 0x2100 0x0A = e.toNat) ∧ DictBut tempEntries s t := by
  intro t
  let u : State := ((((s.dset 0x2100 0x06 a.toNat).dset 0x2100 0x07 b.toNat).dset 0x2100 0x08 c.toNat).dset 0x2100 0x09 d.toNat).dset
    0x2100 0x0A e.toNat
  have hu : Framed [.dict] tempEntries s u := by
    refine .dset (.dset (.dset (.dset (.dset (.refl s) ?_ ?_ ?_ ?_ ?_) ?_ ?_ ?_ ?_ ?_) ?_ ?_ ?_ ?_ ?_) ?_ ?_ ?_ ?_ ?_) ?_ ?_ ?_ ?_ ?_
    all_goals decide
  obtain ⟨v, ht⟩ : ∃ v, t = (u.dset 0x2100 0x0B v).tempCheck := ⟨_, rfl⟩
  have hv : Framed [.dict] [(0x2100, 0x0B)] u (u.dset 0x2100 0x0B v) :=
    .dset (.refl u) (by decide) (by decide) (by decide) (by decide) (by decide)
  have hc := tempCheck_framed (u.dset 0x2100 0x0B v)
  have shown (i : Nat) (hi : i < 0x0B) : t.dget 0x2100 i = u.dget 0x2100 i := by
    rw [ht, hc.dict _ _ (by omega) (by simp [logEntries]; omega), hv.dict _ _ (by omega) (by simp; omega)]
  refine ⟨?_, ?_⟩
  · simp only [shown _ (show 6 < 0x0B by decide), shown _ (show 7 < 0x0B by decide), shown _ (show 8 < 0x0B by decide),
      shown _ (show 9 < 0x0B by decide), shown _ (show 0x0A < 0x0B by decide)]
    simp [u, State.dget_dset_ne]
  · rw [ht]
    exact (hu.dict.trans (hv.dict.mono (by decide))).trans (hc.dict.mono (by decide))

end Ports

/-- Settles O54: a sync by `gptp_sync`, a trigger by `sendTrigger_found`, a rail group by `railFault_runs`, reports by
`Logged.report` and `report_counts`, temperatures by `setTemps_shown`. -/
theorem portsTriggersAndRails : Obligations.PortsTriggersAndRails := by
  intro s
  refine ⟨fun q ip mac src => ⟨fun h => ?_, fun h => ?_⟩, fun q m n => ⟨fun h => ?_, ?_⟩, fun hs h5 => ?_, fun ep x hx => ?_,
    fun g hg => ?_, fun b => ⟨?_, fun st hst => ?_⟩, fun a b c d e hr => ?_⟩
  · exact gives_of_eq (congrArg Host.Outcome.next (if_pos h)) ⟨rfl, answered_same _⟩
  · exact gives_of_eq (congrArg Host.Outcome.next (if_neg h)) ⟨rfl, SameBut.fresh s⟩
  · have hs := SameBut.setSync (s.fresh.atTime n) (max (max s.timeNs n) m) true
    have hf : Framed [.sent, .timeNs, .gptpSync, .dict] [(0x2401, 0x05)] s _ :=
      ((((Framed.atTime s n).mono (by decide) fun _ => id).then_same hs (by decide) (by decide)).dset (i := 0x2401) (b := 0x05) (v := 1)
        (by decide) (by decide) (by decide) (by decide) (by decide))
    exact gives_of_eq (congrArg Host.Outcome.next (gptp_sync (s := s.fresh.atTime n) h))
      ⟨rfl, rfl, State.dget_dset_same _ _ _ _, hf.same, hf.dict⟩
  · exact gives_of_eq rfl ⟨rfl, SameBut.atTime s n⟩
  · have hf : Framed ([.sent, .gptpSync] ++ logFields) ((0x2401, 0x05) :: logEntries) s _ :=
      ((((Framed.fresh s).mono (by decide) fun _ => id).then_same (.unsync _) (by decide) (by decide)).dset (i := 0x2401) (b := 0x05) (v := 2)
        (by decide) (by decide) (by decide) (by decide) (by decide)).rep (by decide) (by decide) codeGptpUnlocked ucDevice
    refine gives_of_eq (gptpUnlocked_runs hs h5) ⟨?_, ?_, hf.same, hf.log, hf.dict⟩
    · exact (Logged.rep _ _ _).same .gptpSync (by decide)
    · exact (dget_rep _ _ _ (by decide) (by decide)).trans (State.dget_dset_same _ _ _ _)
  · refine gives_of_eq (congrArg Host.Outcome.next (sendTrigger_found (s := s.fresh) hx)) ⟨rfl, rfl, ?_⟩
    exact (((SameBut.fresh s).mono (by decide)).step (.setTriggers _ _) (by decide)).step (.send _ _) (by decide)
  · have hf : Framed ([.sent, .pwrGood] ++ logFields) logEntries s (s.fresh.railReported g.val) :=
      ((Framed.fresh s).mono (by decide) fun _ => id).step (railReported_framed _ _) (by decide) fun _ => id
    have hgood : (s.fresh.railReported g.val).pwrGood.getLsbD g.val = false := getLsbD_clear_same _ g.isLt
    obtain ⟨hrun, hexit⟩ := railFault_runs (s := s.fresh) hg
    by_cases hx : s.dev = dsLowPower ∧ s.lpExitBegun = true
    · refine gives_of_eq (congrArg Host.Outcome.next (hexit hx.1 hx.2)) ⟨hgood, fun hn => absurd hx hn, fun _ _ => ⟨rfl, rfl⟩⟩
    · refine gives_of_eq (congrArg Host.Outcome.next (hrun hx)) ⟨hgood, fun _ => ⟨hf.same, hf.log, hf.dict⟩, fun h1 h2 => ?_⟩
      exact absurd ⟨h1, h2⟩ hx
  · exact gives_of_eq rfl (SameBut.fresh s)
  · have reported (code : Nat) (detail : List Byte) : let t := s.fresh.report code (ucBed b.val) (ucBed b.val) detail
        t.dget 0x2800 0x03 = (s.dget 0x2800 0x03 + 1) % 2 ^ 32 ∧ SameBut (.sent :: logFields) s t ∧ LogOnly s t ∧
          DictBut logEntries s t :=
      ⟨report_counts .., (Logged.report ..).of_fresh⟩
    match st with
    | none => exact gives_of_eq rfl (reported codeVctl [])
    | some v => exact gives_of_eq (congrArg Host.Outcome.next (if_neg fun h => hst (congrArg some h))) (reported codeRail _)
  · have hn : ¬ ((s.devReset ≠ 0 && s.devReset < 4) = true) := by simp [hr]
    obtain ⟨⟨h6, h7, h8, h9, hA⟩, hd⟩ := setTemps_shown s.fresh a b c d e
    exact gives_of_eq (congrArg Host.Outcome.next (if_neg hn)) ⟨h6, h7, h8, h9, hA, hd⟩

end Sys2Proof.Machine

/-! PROOFS. Heads: what an endpoint's entries read after a write, who is challenged next (R51), what a failure leaves (R52), what
decides a location conflict (R41, R75), and what a life report shows (R54, R55). -/

namespace Sys2Proof.Machine

section Heads

variable {s t u : State} {e f : Nat} {l : List Field} {d : List (Nat × Nat)}

/-! ### Entries of an endpoint -/

theorem eget_eset_same (s : State) (e b v : Nat) : (s.eset e b v).eget e b = v := State.dget_dset_same _ _ _ _

theorem dget_eset_ne (s : State) {b v i c : Nat} (he : e < 192) (hb : b < 256) (hc : c < 256) (h : (i, c) ≠ (0x2200 + e, b)) :
    (s.eset e b v).dget i c = s.dget i c :=
  s.dget_dset_ne hb hc h (by simp; omega) (by simp; omega)

theorem eget_eset_ne (s : State) {b v c : Nat} (he : e < 192) (hb : b < 256) (hc : c < 256) (h : c ≠ b) :
    (s.eset e b v).eget f c = s.eget f c :=
  dget_eset_ne s he hb hc fun x => h (Prod.mk.inj x).2

theorem eget_ebump_same (s : State) (e b : Nat) : (s.ebump e b).eget e b = (s.eget e b + 1) % 2 ^ 32 := eget_eset_same _ _ _ _

theorem eget_ebump_ne (s : State) {b c : Nat} (he : e < 192) (hb : b < 256) (hc : c < 256) (h : c ≠ b) :
    (s.ebump e b).eget f c = s.eget f c :=
  eget_eset_ne s he hb hc h

/-- An endpoint's entry is none of the log's. -/
theorem endpoint_not_log {b : Nat} (he : e < 192) : (0x2200 + e, b) ∉ logEntries := by
  simp [logEntries]
  omega

theorem eget_rep (s : State) (code unit : Nat) {b : Nat} (he : e < 192) (hb : b < 256) : (s.rep code unit).eget e b = s.eget e b :=
  dget_rep _ _ _ hb (endpoint_not_log he)

theorem Framed.eset {b v : Nat} (h : Framed l d s t) (he : e < 192) (hb : b < 256) (hf : .dict ∈ l) (hm : (0x2200 + e, b) ∈ d) :
    Framed l d s (t.eset e b v) :=
  h.dset hf hm hb (by simp; omega) (by simp; omega)

theorem Framed.ebump {b : Nat} (h : Framed l d s t) (he : e < 192) (hb : b < 256) (hf : .dict ∈ l) (hm : (0x2200 + e, b) ∈ d) :
    Framed l d s (t.ebump e b) :=
  h.eset he hb hf hm

theorem Framed.setEp {x : Endpoint} (h : Framed l d s t) (hf : .eps ∈ l) : Framed l d s (t.setEp e x) :=
  h.then_same (.setEp t e x) (by simpa using hf) (by decide)

theorem Framed.setView {v : Nat} {x : ViewState} (h : Framed l d s t) (hf : .views ∈ l) : Framed l d s (t.setView v x) :=
  h.then_same (.setView t v x) (by simpa using hf) (by decide)

/-! ### Reports of the sensor side (R64) -/

theorem epReport_framed (s : State) (code : Nat) (he : e < 192) :
    Framed logFields ((0x2200 + e, 0x18) :: logEntries) s (s.epReport e code) :=
  ((Framed.refl s).rep (fun _ => id) (fun _ => List.mem_cons_of_mem _) _ _).eset he (by decide) (by decide) List.mem_cons_self

theorem epReport_shows (s : State) (e code : Nat) : (s.epReport e code).eget e 0x18 = code := eget_eset_same _ _ _ _

theorem epReport_eget (s : State) (code : Nat) {b : Nat} (he : e < 192) (hf : f < 192) (hb : b < 256) (h : b ≠ 0x18) :
    (s.epReport e code).eget f b = s.eget f b :=
  (eget_eset_ne _ he (by decide) hb h).trans (eget_rep s _ _ hf hb)

theorem tsrReport_framed (s : State) (code unit : Nat) :
    Framed logFields ((0x2400, 0x0A) :: logEntries) s (s.tsrReport code unit) :=
  ((Framed.refl s).rep (fun _ => id) (fun _ => List.mem_cons_of_mem _) _ _).dset (by decide) List.mem_cons_self (by decide)
    (by decide) (by decide)

theorem tsrReport_shows (s : State) (code unit : Nat) : (s.tsrReport code unit).dget 0x2400 0x0A = code := State.dget_dset_same _ _ _ _

/-! ### Who is challenged (R51) -/

theorem ep_of_eps (h : t.eps = s.eps) (e : Nat) : t.ep e = s.ep e := by rw [State.ep, h, State.ep]

theorem State.noneWaits.of_eps (hn : s.noneWaits) (h : t.eps = s.eps) : t.noneWaits := fun f hf => by
  rw [ep_of_eps h]
  exact hn f hf

theorem ep_after_setEp (s : State) (e f : Nat) (x : Endpoint) : (s.setEp e x).ep f = if f = e then x else s.ep f := KV.get_set _ _ _ _ _

theorem State.noneWaits.setEp (hn : s.noneWaits) {x : Endpoint} (hx : x.disc ≠ .challengeWait) : (s.setEp e x).noneWaits :=
  fun f hf => by
    rw [ep_after_setEp]
    split
    · exact hx
    · exact hn f hf

/-- One head's turn. -/
def State.challengeTurn (s : State) (e : Nat) : State :=
  if (s.ep e).disc = .challengeWait && s.outstandingChallenges < 64 then s.sendChallenge e else s

theorem challengeWaiting_turns (s : State) : s.challengeWaiting = foldS allEps State.challengeTurn s := rfl

theorem challengeTurn_idle (h : (s.ep e).disc ≠ .challengeWait) : s.challengeTurn e = s := if_neg (by simp [h])

theorem challengeWaiting_none (hn : s.noneWaits) : s.challengeWaiting = s :=
  foldS_id _ _ _ fun f hf => challengeTurn_idle (hn f (List.mem_range.mp hf))

/-- A fold in which only one element does anything. -/
theorem foldS_only {α : Type} {f : State → α → State} {a : α} (as : List α) (s : State) (hm : a ∈ as) (hd : as.Nodup)
    (h₁ : ∀ b ∈ as, b ≠ a → f s b = s) (h₂ : ∀ b ∈ as, b ≠ a → f (f s a) b = f s a) : foldS as f s = f s a := by
  induction as with
  | nil => cases hm
  | cons b as ih =>
    obtain ⟨hb, hd⟩ := List.nodup_cons.mp hd
    by_cases hba : b = a
    · subst hba
      exact foldS_id as f _ fun c hc => h₂ c (List.mem_cons_of_mem _ hc) fun e => hb (e ▸ hc)
    · have hs : foldS (b :: as) f s = foldS as f s := congrArg (foldS as f) (h₁ b List.mem_cons_self hba)
      rw [hs]
      exact ih ((List.mem_cons.mp hm).resolve_left (Ne.symm hba)) hd (fun c hc => h₁ c (List.mem_cons_of_mem _ hc))
        fun c hc => h₂ c (List.mem_cons_of_mem _ hc)

/-- A head that waits alone is challenged, where fewer than 64 challenges are outstanding. -/
theorem challengeWaiting_one (he : e < 192) (hw : (s.ep e).disc = .challengeWait)
    (hn : ∀ f < 192, f ≠ e → (s.ep f).disc ≠ .challengeWait) (ho : s.outstandingChallenges < 64) :
    s.challengeWaiting = s.sendChallenge e := by
  have hturn : s.challengeTurn e = s.sendChallenge e := if_pos (by simp [hw, ho])
  rw [challengeWaiting_turns, ← hturn]
  refine foldS_only allEps s (List.mem_range.mpr he) List.nodup_range (fun f hf hne => ?_) fun f hf hne => ?_
  · exact challengeTurn_idle (hn f (List.mem_range.mp hf) hne)
  · refine challengeTurn_idle ?_
    rw [hturn, State.sendChallenge]
    exact ((ep_after_setEp s e f _).trans (if_neg hne)).symm ▸ hn f (List.mem_range.mp hf) hne

/-- Whoever is challenged, a head that does not wait stays as it is, and nothing but heads, messages and free values changes. -/
theorem challengeWaiting_keeps (s : State) {e : Nat} (hw : (s.ep e).disc ≠ .challengeWait) :
    s.challengeWaiting.ep e = s.ep e ∧ SameBut [.eps, .sent, .freeIx] s s.challengeWaiting := by
  have send (t : State) (f : Nat) : SameBut [.eps, .sent, .freeIx] t (t.sendChallenge f) := by
    intro g hg
    cases g
    case eps | sent | freeIx => exact absurd (by decide) hg
    all_goals rfl
  have fold (as : List Nat) (t : State) (ht : t.ep e = s.ep e ∧ SameBut [.eps, .sent, .freeIx] s t) :
      (foldS as State.challengeTurn t).ep e = s.ep e ∧ SameBut [.eps, .sent, .freeIx] s (foldS as State.challengeTurn t) := by
    induction as generalizing t with
    | nil => exact ht
    | cons f as ih =>
      refine ih (t.challengeTurn f) ?_
      obtain ⟨hep, hsame⟩ := ht
      unfold State.challengeTurn
      split
      · rename_i hf
        simp only [Bool.and_eq_true, decide_eq_true_eq] at hf
        have hne : e ≠ f := by
          rintro rfl
          exact hw (hep ▸ hf.1)
        exact ⟨((ep_after_setEp t f e _).trans (if_neg hne)).trans hep, hsame.trans (send t f)⟩
      · exact ⟨hep, hsame⟩
  exact fold allEps s ⟨rfl, .refl _ s⟩

/-! ### Failures (R52) -/

theorem SameBut.setQueues (s : State) (q r : List Nat) : SameBut [.meshQueue, .fetched] s { s with meshQueue := q, fetched := r } := by
  intro f hf
  cases f
  case meshQueue | fetched => exact absurd (by decide) hf
  all_goals rfl

/-- A head that fails leaves the queues; the failure is reported, counted, and its state shown. -/
def State.failed (s : State) (e : Nat) (d : Disc) (code shown : Nat) : State :=
  let s := { s with meshQueue := s.meshQueue.filter (· != e), fetched := s.fetched.filter (· != e) }.setDisc e d
  ((s.epReport e code).ebump e 0x20).eset e 0x15 shown

/-- The entries that a failure of an endpoint's head changes. -/
def failEntries (e : Nat) : List (Nat × Nat) :=
  [(0x2200 + e, 0x15), (0x2200 + e, 0x18), (0x2200 + e, 0x20)] ++ logEntries

theorem log_sub_fail : ∀ x ∈ logEntries, x ∈ failEntries e := fun _ => List.mem_append_right _

section Failed

variable {disc : Disc} {code shown : Nat}

theorem failed_framed (s : State) (he : e < 192) :
    Framed ([.eps, .meshQueue, .fetched] ++ logFields) (failEntries e) s (s.failed e disc code shown) := by
  have h₁ : Framed ([.eps, .meshQueue, .fetched] ++ logFields) (failEntries e) s
      ({ s with meshQueue := s.meshQueue.filter (· != e), fetched := s.fetched.filter (· != e) }.setDisc e disc) :=
    (Framed.then_same (.refl s) (.setQueues s _ _) (by decide) (by decide)).setEp (by decide)
  have h₂ := h₁.step (epReport_framed _ code he) (by decide) (List.forall_mem_cons.mpr ⟨by simp [failEntries], log_sub_fail⟩)
  exact (h₂.ebump he (by decide) (by decide) (by simp [failEntries])).eset he (by decide) (by decide) (by simp [failEntries])

theorem failed_eps (s : State) (he : e < 192) : (s.failed e disc code shown).eps = (s.setDisc e disc).eps := by
  let u : State := { s with meshQueue := s.meshQueue.filter (· != e), fetched := s.fetched.filter (· != e) }.setDisc e disc
  exact (epReport_framed u code he).same .eps (by decide)

theorem failed_ep (s : State) (he : e < 192) : (s.failed e disc code shown).ep e = { s.ep e with disc := disc } :=
  (ep_of_eps (failed_eps s he) e).trans (State.ep_setEp _ _ _)

theorem failed_ep_ne (s : State) (he : e < 192) (h : f ≠ e) : (s.failed e disc code shown).ep f = s.ep f :=
  (ep_of_eps (failed_eps s he) f).trans (State.ep_setEp_ne _ _ _ _ h)

theorem failed_shows (s : State) (he : e < 192) : let t := s.failed e disc code shown
    t.eget e 0x15 = shown ∧ t.eget e 0x18 = code ∧ t.eget e 0x20 = (s.eget e 0x20 + 1) % 2 ^ 32 := by
  refine ⟨eget_eset_same _ _ _ _, ?_, ?_⟩
  · rw [State.failed, eget_eset_ne _ he (by decide) (by decide) (by decide), eget_ebump_ne _ he (by decide) (by decide) (by decide),
      epReport_shows]
  · rw [State.failed, eget_eset_ne _ he (by decide) (by decide) (by decide), eget_ebump_same,
      epReport_eget _ _ he he (by decide) (by decide)]
    rfl

theorem State.noneWaits.failed (hn : s.noneWaits) (he : e < 192) (hd : disc ≠ .challengeWait) :
    (s.failed e disc code shown).noneWaits :=
  .of_eps (State.noneWaits.setEp hn hd) (failed_eps s he)

theorem retryLater_failed (hn : s.noneWaits) (he : e < 192) : s.retryLater e code = s.failed e .retryWait code 1 :=
  challengeWaiting_none (hn.failed he (by decide))

theorem refuseHead_failed (hn : s.noneWaits) (he : e < 192) : s.refuseHead e code = s.failed e .refused code 6 :=
  challengeWaiting_none (hn.failed he (by decide))

end Failed

/-! ### Locations (R41, R75) -/

/-- Both states agree in what decides who shares a location: the location entries, and the exposures of heads whose record is known. -/
structure SamePlaces (s t : State) : Prop where
  entries : ∀ f b, b ≤ 8 → t.eget f b = s.eget f b
  fetched : t.fetched = s.fetched
  calib : t.calib = s.calib

namespace SamePlaces

theorem exposures (h : SamePlaces s t) (f : Nat) : t.exposures f = s.exposures f := by
  unfold State.exposures State.transfer State.eclass State.calSec
  rw [h.entries f 8 (by decide), h.calib]

theorem channels (h : SamePlaces s t) (f : Nat) : t.channels f = s.channels f := by
  rw [State.channels, h.fetched, h.exposures, State.channels]

theorem sameLocation (h : SamePlaces s t) (e f : Nat) : t.sameLocation e f = s.sameLocation e f := by
  unfold State.sameLocation
  simp only [h.entries _ 1 (by decide), h.entries _ 2 (by decide), h.entries _ 3 (by decide), h.entries _ 4 (by decide),
    h.entries _ 5 (by decide), h.entries _ 6 (by decide), h.entries _ 7 (by decide), h.channels]

theorem conflict (h : SamePlaces s t) (e : Nat) : t.conflict e = s.conflict e := by
  unfold State.conflict
  simp only [h.sameLocation]

/-- Neither the heads' own state nor an entry from 9 up decides it. -/
theorem of_framed (h : Framed l d s t) (hf : .fetched ∉ l) (hc : .calib ∉ l) (hd : ∀ f b, b ≤ 8 → (0x2200 + f, b) ∉ d) :
    SamePlaces s t :=
  ⟨fun f b hb => h.dict _ _ (by omega) (hd f b hb), h.same .fetched hf, h.same .calib hc⟩

end SamePlaces

/-! ### Life reports (R54, R55) -/

theorem SameBut.setLife (s : State) (m : KV (Option (Nat × Nat × Nat × Nat))) : SameBut [.life] s { s with life := m } := by
  intro f hf
  cases f
  case life => exact absurd (by decide) hf
  all_goals rfl

/-- The entries that a life report changes. -/
def lifeEntries (e : Nat) : List (Nat × Nat) :=
  [(0x2200 + e, 0x1B), (0x2200 + e, 0x1C), (0x2200 + e, 0x1D), (0x2200 + e, 0x16), (0x2200 + e, 0x18)] ++ logEntries

/-- The counters stored and shown, before the life state is evaluated. -/
def State.storeLife (s : State) (e : Nat) (c : Nat × Nat × Nat) : State :=
  let s := { s with life := KV.set none s.life e (some (s.eget e 0x17, c.1, c.2.1, c.2.2)) }
  ((s.eset e 0x1B c.1).eset e 0x1C c.2.1).eset e 0x1D c.2.2

theorem storeLife_framed (s : State) (c : Nat × Nat × Nat) (he : e < 192) :
    Framed (.life :: logFields) (lifeEntries e) s (s.storeLife e c) := by
  have h₁ : Framed (.life :: logFields) (lifeEntries e) s
      { s with life := KV.set none s.life e (some (s.eget e 0x17, c.1, c.2.1, c.2.2)) } :=
    .then_same (.refl s) (.setLife s _) (by decide) (by decide)
  exact ((h₁.eset he (by decide) (by decide) (by simp [lifeEntries])).eset he (by decide) (by decide) (by simp [lifeEntries])).eset
    he (by decide) (by decide) (by simp [lifeEntries])

/-- What the evaluation of the life state adds: the state's entry, and a report of a change. -/
def stateEntries (e : Nat) : List (Nat × Nat) := [(0x2200 + e, 0x16), (0x2200 + e, 0x18)] ++ logEntries

theorem takeLife_stored (s : State) (c : Nat × Nat × Nat) (he : e < 192) :
    Framed logFields (stateEntries e) (s.storeLife e c) (s.takeLife e c) := by
  have shown (v : Nat) : Framed logFields (stateEntries e) (s.storeLife e c) ((s.storeLife e c).eset e 0x16 v) :=
    (Framed.refl _).eset he (by decide) (by decide) (by simp [stateEntries])
  have reported (v code : Nat) : Framed logFields (stateEntries e) (s.storeLife e c) (((s.storeLife e c).eset e 0x16 v).epReport e code) :=
    (shown v).step (epReport_framed _ code he) (fun _ => id) (List.forall_mem_cons.mpr ⟨by simp [stateEntries], fun _ => List.mem_append_right _⟩)
  exact .ite (shown _) (.ite (reported _ _) (.ite (reported _ _) (shown _)))

theorem takeLife_framed (s : State) (c : Nat × Nat × Nat) (he : e < 192) :
    Framed (.life :: logFields) (lifeEntries e) s (s.takeLife e c) :=
  (storeLife_framed s c he).step (takeLife_stored s c he) (fun _ => List.mem_cons_of_mem _) fun x hx =>
    (List.mem_append.mp hx).elim (fun h => List.mem_append_left _ (by simp at h ⊢; tauto)) (List.mem_append_right _)

theorem takeLife_shows (s : State) (c : Nat × Nat × Nat) (he : e < 192) : let t := s.takeLife e c
    KV.get none t.life e = some (s.eget e 0x17, c) ∧ t.eget e 0x1B = c.1 ∧ t.eget e 0x1C = c.2.1 ∧ t.eget e 0x1D = c.2.2 := by
  intro t
  have h := takeLife_stored s c he
  have hget (b : Nat) (hb : b < 256) (h16 : b ≠ 0x16) (h18 : b ≠ 0x18) : t.eget e b = (s.storeLife e c).eget e b :=
    h.dict _ _ hb fun hm => by
      rcases List.mem_append.mp hm with hm | hm
      · simp [h16, h18] at hm
      · exact endpoint_not_log he hm
  refine ⟨?_, ?_, ?_, ?_⟩
  · have hl : t.life = (s.storeLife e c).life := h.same .life (by decide)
    rw [hl]
    exact KV.get_set_same none s.life e (some (s.eget e 0x17, c))
  · rw [hget _ (by decide) (by decide) (by decide), State.storeLife, eget_eset_ne _ he (by decide) (by decide) (by decide),
      eget_eset_ne _ he (by decide) (by decide) (by decide), eget_eset_same]
  · rw [hget _ (by decide) (by decide) (by decide), State.storeLife, eget_eset_ne _ he (by decide) (by decide) (by decide),
      eget_eset_same]
  · rw [hget _ (by decide) (by decide) (by decide), State.storeLife, eget_eset_same]

end Heads
end Sys2Proof.Machine

/-! PROOFS. Discovery: a link that comes up, the certificate, the challenge, and the timeouts (R38, R41, R46–R48, R50–R52, R54). -/

namespace Sys2Proof.Machine

section Discovery

variable {s t : State} {e : Nat} {l : Location} {d : List Byte}

theorem Framed.send {l : List Field} {d : List (Nat × Nat)} (h : Framed l d s t) (hf : .sent ∈ l) (m : Message) :
    Framed l d s (t.send m) :=
  h.then_same (.send t m) (by simpa using hf) (by decide)

@[simp] theorem ep_eset (s : State) (e b v f : Nat) : (s.eset e b v).ep f = s.ep f := rfl
@[simp] theorem ep_request (s : State) (e ty : Nat) (p : List Byte) (f : Nat) : (s.request e ty p).ep f = s.ep f := rfl
@[simp] theorem ep_freeStep (s : State) (f : Nat) : s.freeStep.ep f = s.ep f := rfl
@[simp] theorem eget_setEp (s : State) (e : Nat) (x : Endpoint) (f b : Nat) : (s.setEp e x).eget f b = s.eget f b := rfl
@[simp] theorem eget_request (s : State) (e ty : Nat) (p : List Byte) (f b : Nat) : (s.request e ty p).eget f b = s.eget f b := rfl
@[simp] theorem eget_freeStep (s : State) (f b : Nat) : s.freeStep.eget f b = s.eget f b := rfl
@[simp] theorem life_eset (s : State) (e b v : Nat) : (s.eset e b v).life = s.life := rfl
@[simp] theorem sent_eset (s : State) (e b v : Nat) : (s.eset e b v).sent = s.sent := rfl
theorem sent_request (s : State) (e ty : Nat) (p : List Byte) :
    (s.request e ty p).sent = s.sent ++ [.head e (bytesOf 1 ty ++ bytesOf 1 e ++ bytesOf 2 p.length ++ p)] := rfl
@[simp] theorem life_request (s : State) (e ty : Nat) (p : List Byte) : (s.request e ty p).life = s.life := rfl

/-! ### A head is asked for its certificate -/

/-- The frame of a step of discovery that shows its state and sends a message. -/
abbrev Asked (e : Nat) (s t : State) : Prop := Framed [.sent, .eps, .dict] [(0x2200 + e, 0x15)] s t

theorem askCert_shows (s : State) (he : e < 192) : let t := s.askCert e
    t.ep e = { s.ep e with disc := .certSent } ∧ t.eget e 0x15 = 1 ∧
      t.sent = s.sent ++ [.head e (bytesOf 1 1 ++ bytesOf 1 e ++ bytesOf 2 ([] : List Byte).length ++ [])] ∧ Asked e s t :=
  ⟨by simp [State.askCert, State.setDisc], by rw [State.askCert, eget_request, eget_eset_same], rfl,
    .send (.eset (.setEp (.refl s) (by decide)) he (by decide) (by decide) (by simp)) (by decide) _⟩

/-! ### A link that comes up (R38, R41) -/

/-- The head at an endpoint is known to be there. -/
def State.linked (s : State) (e : Nat) : State := (s.setEp e { s.ep e with linkUp := true }).eset e 0x15 1

theorem linked_asked (s : State) (he : e < 192) : Asked e s (s.linked e) :=
  .eset (.setEp (.refl s) (by decide)) he (by decide) (by decide) (by simp)

theorem linked_ep (s : State) (e : Nat) : (s.linked e).ep e = { s.ep e with linkUp := true } := by simp [State.linked]

theorem linked_ep_ne (s : State) {f : Nat} (h : f ≠ e) : (s.linked e).ep f = s.ep f := by
  rw [State.linked, ep_eset, State.ep_setEp_ne _ _ _ _ h]

theorem linked_places (s : State) (he : e < 192) : SamePlaces s (s.linked e) :=
  .of_framed (linked_asked s he) (by decide) (by decide) fun f b hb => by simp; omega

theorem State.noneWaits.linked (hn : s.noneWaits) (he : e < 192) : (s.linked e).noneWaits :=
  .of_eps (State.noneWaits.setEp hn (x := { s.ep e with linkUp := true }) (hn e he)) rfl

/-- Whether a port has a place left for `e` does not depend on what the device holds of `e`. -/
theorem portFull_congr (hg : ∀ f b, b ≤ 8 → t.eget f b = s.eget f b) (hd : ∀ f, f ≠ e → t.ep f = s.ep f) :
    t.portFull e = s.portFull e := by
  have hf : allEps.filter (fun f => f != e && decide ((t.ep f).disc ≠ .idle) && s.eget f 0x02 == s.eget e 0x02 && s.eget f 0x03 == s.eget e 0x03) =
      allEps.filter (fun f => f != e && decide ((s.ep f).disc ≠ .idle) && s.eget f 0x02 == s.eget e 0x02 && s.eget f 0x03 == s.eget e 0x03) := by
    refine List.filter_congr fun f _ => ?_
    by_cases h : f = e
    · simp [h]
    · rw [hd f h]
  unfold State.portFull
  simp only [hg _ 2 (by decide), hg _ 3 (by decide), hf]

theorem linked_portFull (s : State) (he : e < 192) : (s.linked e).portFull e = s.portFull e :=
  portFull_congr (linked_places s he).entries fun _ hf => linked_ep_ne s hf

/-- At the location of one endpoint a head that comes up is linked, and then asked, left waiting, or refused. -/
theorem linkUpAt_one (h : allEps.filter (s.atLocation l) = [e]) (hl : (s.ep e).linkUp = false) (he : e < 192) :
    (s.conflict e = true → s.linkUpAt l = (s.linked e).refuseHead e codeLocation) ∧
      (s.conflict e = false → s.portFull e = true → s.linkUpAt l = s.linked e) ∧
      (s.conflict e = false → s.portFull e = false → s.linkUpAt l = (s.linked e).askCert e) := by
  have e₁ : s.linkUpAt l = s.linkIsUp e := by
    unfold State.linkUpAt
    rw [h]
    exact if_neg (by simp [hl])
  have e₂ : s.linkIsUp e = if (s.linked e).conflict e then (s.linked e).refuseHead e codeLocation
      else if (s.linked e).portFull e then s.linked e else (s.linked e).askCert e := rfl
  rw [e₁, e₂, (linked_places s he).conflict, linked_portFull s he]
  exact ⟨fun hc => if_pos hc, fun hc hp => by rw [hc, hp]; rfl, fun hc hp => by rw [hc, hp]; rfl⟩

theorem SameBut.setUnbound (s : State) (x : List Location) : SameBut [.unbound] s { s with unbound := x } := by
  intro f hf
  cases f
  case unbound => exact absurd (by decide) hf
  all_goals rfl

theorem SameBut.noteUnbound (s : State) (x y : List Location) :
    SameBut [.unbound, .announced] s { s with unbound := x, announced := y } := by
  intro f hf
  cases f
  case unbound | announced => exact absurd (by decide) hf
  all_goals rfl

/-- At a location of no endpoint the head is noted, and reported where the location has not been announced. -/
theorem linkUpAt_none (h : allEps.filter (s.atLocation l) = []) (hu : l ∉ s.unbound) :
    (l ∉ s.announced → s.linkUpAt l =
      { s with unbound := s.unbound ++ [l], announced := s.announced ++ [l] }.rep codeUnbound ucDevice) ∧
      (l ∈ s.announced → s.linkUpAt l = { s with unbound := s.unbound ++ [l] }) := by
  have hu' : s.unbound.contains l = false := by simpa using hu
  unfold State.linkUpAt
  rw [h]
  simp only [hu', Bool.false_eq_true, if_false]
  exact ⟨fun ha => if_neg (by simpa using ha), fun ha => if_pos (by simpa using ha)⟩

/-! ### The certificate and the challenge (R47, R48) -/

theorem certResponse_refused (hd : (s.ep e).disc = .certSent) (hc : s.conflict e = false) (hl : certLayout d = false) :
    s.certResponse e d = s.refuseHead e codeCert := by
  unfold State.certResponse
  rw [if_neg (by simp [hd]), if_neg (by simp [hc]), if_pos (by simp [hl])]

/-- A head whose certificate passes waits for its challenge, its key kept and its serial shown. -/
def State.certified (s : State) (e : Nat) (d : List Byte) : State :=
  ((s.setEp e { s.ep e with disc := .challengeWait, modulus := slice d 16 384 }).eset e 0x15 2).eset e 0x17 (fieldAt d 8 8)

theorem certResponse_certified (hd : (s.ep e).disc = .certSent) (hc : s.conflict e = false) (hl : certLayout d = true)
    (hk : fieldAt d 6 1 = s.eclass e) (hg : s.certSigned d = true) (hs : s.eget e 0x0E = 0 ∨ s.eget e 0x0E = fieldAt d 8 8) :
    s.certResponse e d = (s.certified e d).challengeWaiting := by
  have hs' : ¬ ((s.eget e 0x0E ≠ 0 && s.eget e 0x0E ≠ fieldAt d 8 8) = true) := by
    simp only [Bool.and_eq_true, decide_eq_true_eq, not_and, not_not]
    exact fun h => hs.resolve_left h
  unfold State.certResponse
  rw [if_neg (by simp [hd]), if_neg (by simp [hc]), if_neg (by simp [hl]), if_neg (by simp [hk]), if_neg (by simp [hg]), if_neg hs']
  rfl

theorem certified_ep (s : State) (e : Nat) (d : List Byte) :
    (s.certified e d).ep e = { s.ep e with disc := .challengeWait, modulus := slice d 16 384 } := by
  simp [State.certified]

theorem certified_ep_ne (s : State) (d : List Byte) {f : Nat} (h : f ≠ e) : (s.certified e d).ep f = s.ep f := by
  rw [State.certified, ep_eset, ep_eset, State.ep_setEp_ne _ _ _ _ h]

theorem certified_outstanding (hd : (s.ep e).disc = .certSent) : (s.certified e d).outstandingChallenges = s.outstandingChallenges := by
  refine congrArg List.length (List.filter_congr fun f _ => ?_)
  by_cases h : f = e
  · rw [h, certified_ep, hd]
    rfl
  · rw [certified_ep_ne s d h]

/-- The frame of a certificate that passes. -/
abbrev Certified (e : Nat) (s t : State) : Prop :=
  Framed [.sent, .eps, .dict, .freeIx] [(0x2200 + e, 0x15), (0x2200 + e, 0x17)] s t

theorem SameBut.freeStep (s : State) : SameBut [.freeIx] s s.freeStep := by
  intro f hf
  cases f
  case freeIx => exact absurd (by decide) hf
  all_goals rfl

/-- The head is challenged at once, with a fresh nonce, where no other waits and fewer than 64 challenges are outstanding. -/
theorem certified_challenged (hn : s.noneWaits) (he : e < 192) (hd : (s.ep e).disc = .certSent) (ho : s.outstandingChallenges < 64) :
    let t := (s.certified e d).challengeWaiting
    let nonce := (List.range 32).map (Config.freeByte s.freeIx)
    t.ep e = { s.ep e with disc := .challengeSent, modulus := slice d 16 384, nonce := nonce } ∧ t.eget e 0x15 = 2 ∧
      t.eget e 0x17 = fieldAt d 8 8 ∧
      t.sent = s.sent ++ [.head e (bytesOf 1 2 ++ bytesOf 1 e ++ bytesOf 2 nonce.length ++ nonce)] ∧ Certified e s t := by
  intro t nonce
  have ht : t = (s.certified e d).sendChallenge e := by
    refine challengeWaiting_one he (congrArg Endpoint.disc (certified_ep s e d)) (fun f hf hne => ?_)
      (certified_outstanding hd ▸ ho)
    rw [certified_ep_ne s d hne]
    exact hn f hf
  have hf : Certified e s (s.certified e d) :=
    .eset (.eset (.setEp (.refl s) (by decide)) he (by decide) (by decide) (by simp)) he (by decide) (by decide) (by simp)
  rw [ht]
  refine ⟨?_, ?_, ?_, rfl, ?_⟩
  · rw [State.sendChallenge, ep_request, ep_freeStep, State.ep_setEp, certified_ep]
    rfl
  · rw [State.sendChallenge, eget_request, eget_freeStep, eget_setEp, State.certified,
      eget_eset_ne _ he (by decide) (by decide) (by decide), eget_eset_same]
  · rw [State.sendChallenge, eget_request, eget_freeStep, eget_setEp, State.certified, eget_eset_same]
  · exact .send (.then_same (.setEp hf (by decide)) (.freeStep _) (by decide) (by decide)) (by decide) _

/-- A response of the right length whose signature verifies. -/
def State.authGood (s : State) (e : Nat) (d : List Byte) : Prop :=
  d.length = 428 ∧ pssVerify (s.ep e).modulus 65537 (s.challengeText e d) (slice d 44 384) = true

theorem authResponse_failed (hd : (s.ep e).disc = .challengeSent) (h : ¬ s.authGood e d) :
    s.authResponse e d = s.refuseHead e codeAuthFail := by
  have h' : (decide (d.length ≠ 428) || !pssVerify (s.ep e).modulus 65537 (s.challengeText e d) (slice d 44 384)) = true := by
    rw [State.authGood, not_and_or] at h
    generalize pssVerify (s.ep e).modulus 65537 (s.challengeText e d) (slice d 44 384) = b at h ⊢
    simpa using h
  unfold State.authResponse
  rw [if_neg (by simp [hd]), if_pos h']

/-- The counters of a head that has authenticated are taken, its calibration digest is kept, and its calibration asked for. -/
def State.authenticated (s : State) (e : Nat) (d : List Byte) : State :=
  let s := (s.takeLife e (lifeOf d 32)).eset e 0x15 3
  let s := s.setEp e { s.ep e with calDigest := slice d 0 32, cal := [], calLen := 0 }
  s.askCal e 0 (s.calChunk e)

theorem authResponse_good (hd : (s.ep e).disc = .challengeSent) (h : s.authGood e d) :
    (s.regress e (lifeOf d 32) = true → s.authResponse e d = s.refuseHead e codeLifeRegress) ∧
      (s.regress e (lifeOf d 32) = false → s.authResponse e d = (s.authenticated e d).challengeWaiting) := by
  have h' : ¬ ((decide (d.length ≠ 428) || !pssVerify (s.ep e).modulus 65537 (s.challengeText e d) (slice d 44 384)) = true) := by
    obtain ⟨hl, hv⟩ := h
    generalize pssVerify (s.ep e).modulus 65537 (s.challengeText e d) (slice d 44 384) = b at hv ⊢
    simp [hl, hv]
  unfold State.authResponse
  rw [if_neg (by simp [hd]), if_neg h']
  exact ⟨fun hr => if_pos hr, fun hr => if_neg (by simp [hr])⟩

theorem calChunk_congr (h : t.eget e 0x02 = s.eget e 0x02) : t.calChunk e = s.calChunk e := by
  rw [State.calChunk, h, State.calChunk]

theorem authenticated_shows (s : State) (d : List Byte) (he : e < 192) : let t := s.authenticated e d
    (t.ep e).disc = .calFetch ∧ (t.ep e).calDigest = slice d 0 32 ∧ t.eget e 0x15 = 3 ∧
      KV.get none t.life e = some (s.eget e 0x17, lifeOf d 32) ∧ t.eget e 0x1B = fieldAt d 32 4 ∧
      t.sent = s.sent ++ [.head e (bytesOf 1 3 ++ bytesOf 1 e ++ bytesOf 2 (bytesOf 4 0 ++ bytesOf 4 (s.calChunk e)).length ++
        (bytesOf 4 0 ++ bytesOf 4 (s.calChunk e)))] := by
  intro t
  have hf := takeLife_framed s (lifeOf d 32) he
  obtain ⟨hlife, hhours, -, -⟩ := takeLife_shows s (lifeOf d 32) he
  have h2 : (s.takeLife e (lifeOf d 32)).eget e 0x02 = s.eget e 0x02 := hf.dict _ _ (by decide) fun hm => by
    rcases List.mem_append.mp hm with hm | hm
    · simp at hm
    · exact endpoint_not_log he hm
  have hsent : (s.takeLife e (lifeOf d 32)).sent = s.sent := hf.same .sent (by decide)
  refine ⟨?_, ?_, ?_, ?_, ?_, ?_⟩
  · simp [t, State.authenticated, State.askCal]
  · simp [t, State.authenticated, State.askCal]
  · simp only [t, State.authenticated, State.askCal, eget_request, eget_setEp, eget_eset_same]
  · simp only [t, State.authenticated, State.askCal, life_request, State.setEp_life, life_eset, hlife]
  · simp only [t, State.authenticated, State.askCal, eget_request, eget_setEp]
    rw [eget_eset_ne _ he (by decide) (by decide) (by decide), hhours]
    rfl
  · have hchunk (x : Endpoint) : (((s.takeLife e (lifeOf d 32)).eset e 0x15 3).setEp e x).calChunk e = s.calChunk e :=
      calChunk_congr (by rw [eget_setEp, eget_eset_ne _ he (by decide) (by decide) (by decide), h2])
    simp only [t, State.authenticated, State.askCal, hchunk, sent_request, State.setEp_sent, sent_eset, hsent]

theorem State.noneWaits.authenticated (hn : s.noneWaits) (he : e < 192) : (s.authenticated e d).noneWaits := by
  have h₁ : (s.takeLife e (lifeOf d 32)).noneWaits := hn.of_eps ((takeLife_framed s _ he).same .eps (by decide))
  intro f hf
  simp only [State.authenticated, State.askCal, ep_request, ep_after_setEp, ep_eset]
  split_ifs
  · exact nofun
  · exact h₁ f hf

end Discovery

/-- Settles O52: a link by `linkUpAt_one` and `linkUpAt_none`, a certificate by `certified_challenged`, a response by
`authenticated_shows`, and every failure by `failed_shows`. -/
theorem headsAreDiscoveredAndAuthenticated : Obligations.HeadsAreDiscoveredAndAuthenticated := by
  intro s ep hn e x i head
  have he : e < 192 := ep.isLt
  have hn' : s.fresh.noneWaits := hn
  have refused (c : Instr) (u : State) (hu : u.noneWaits) (code : Nat) (h : exec c s = .next (u.refuseHead e code)) :
      Gives c s fun t => t.ep e = { u.ep e with disc := .refused } ∧ t.eget e 0x15 = 6 ∧ t.eget e 0x18 = code := by
    rw [refuseHead_failed hu he] at h
    obtain ⟨h15, h18, -⟩ := failed_shows (disc := .refused) (code := code) (shown := 6) u he
    exact gives_of_eq h ⟨failed_ep u he, h15, h18⟩
  have asked (t : State) (h : Asked e s.fresh t) : SameBut [.sent, .eps, .dict] s t ∧ DictBut [(i, 0x15)] s t :=
    ⟨((SameBut.fresh s).mono (by decide)).trans h.same, h.dict⟩
  refine ⟨fun l => ⟨fun h hl hc hp => ?_, fun h hl hc hp => ?_, fun h hl hc => ?_, fun h hu ha => ?_, fun h hu ha => ?_⟩,
    fun d hd hc => ⟨fun hlay hk hg hs ho => ?_, fun hlay => ?_⟩, fun d hd => ?_,
    fun c d code hm hd => ?_, fun hd => ?_⟩
  · obtain ⟨hep, h15, hsent, ha⟩ := askCert_shows (s.fresh.linked e) he
    obtain ⟨hs, hdict⟩ := asked _ ((linked_asked s.fresh he).trans ha)
    refine gives_of_eq (congrArg Host.Outcome.next ((linkUpAt_one (s := s.fresh) h hl he).2.2 hc hp)) ⟨?_, h15, hsent, hs, hdict⟩
    rw [hep, linked_ep]
    rfl
  · obtain ⟨hs, hdict⟩ := asked _ (linked_asked s.fresh he)
    exact gives_of_eq (congrArg Host.Outcome.next ((linkUpAt_one (s := s.fresh) h hl he).2.1 hc hp))
      ⟨linked_ep s.fresh e, eget_eset_same _ _ _ _, hs, hdict⟩
  · have hr := refused (.linkUp l) (s.fresh.linked e) (hn'.linked he) codeLocation
      (congrArg Host.Outcome.next ((linkUpAt_one (s := s.fresh) h hl he).1 hc))
    rw [linked_ep] at hr
    exact hr
  · have hnote := SameBut.noteUnbound s.fresh (s.unbound ++ [l]) (s.announced ++ [l])
    have hrep := Logged.rep { s.fresh with unbound := s.unbound ++ [l], announced := s.announced ++ [l] } codeUnbound ucDevice
    have hf : Framed ([.sent, .unbound, .announced] ++ logFields) logEntries s _ :=
      (((Framed.fresh s).mono (by decide) fun _ => id).then_same hnote (by decide) (by decide)).logged hrep (by decide) (by decide)
    exact gives_of_eq (congrArg Host.Outcome.next ((linkUpAt_none (s := s.fresh) h hu).1 ha))
      ⟨hrep.same .unbound (by decide), hrep.same .announced (by decide), report_counts .., hf.same, hf.log, hf.dict⟩
  · exact gives_of_eq (congrArg Host.Outcome.next ((linkUpAt_none (s := s.fresh) h hu).2 ha))
      ⟨rfl, ((SameBut.fresh s).mono (by decide)).step (.setUnbound _ _) (by decide)⟩
  · obtain ⟨hep, h15, h17, hsent, hf⟩ := certified_challenged (s := s.fresh) (d := d) hn' he hd ho
    exact gives_of_eq (congrArg Host.Outcome.next (certResponse_certified (s := s.fresh) hd hc hlay hk hg hs))
      ⟨hep, h15, h17, hsent, ((SameBut.fresh s).mono (by decide)).trans hf.same, hf.dict⟩
  · exact refused (.getCertResponse ep d) s.fresh hn' codeCert
      (congrArg Host.Outcome.next (certResponse_refused (s := s.fresh) hd hc hlay))
  · intro good
    have hgood : good ↔ s.fresh.authGood e d := Iff.rfl
    refine ⟨fun h hr => ?_, fun h hr => ?_, fun h => ?_⟩
    · have hq := (authResponse_good (s := s.fresh) hd (hgood.mp h)).2 hr
      rw [challengeWaiting_none (hn'.authenticated he)] at hq
      exact gives_of_eq (congrArg Host.Outcome.next hq) (authenticated_shows s.fresh d he)
    · exact refused (.challengeResponse ep d) s.fresh hn' codeLifeRegress
        (congrArg Host.Outcome.next ((authResponse_good (s := s.fresh) hd (hgood.mp h)).1 hr))
    · exact refused (.challengeResponse ep d) s.fresh hn' codeAuthFail
        (congrArg Host.Outcome.next (authResponse_failed (s := s.fresh) hd (mt hgood.mpr h)))
  · have hx : exec c s = .next (s.fresh.failed e .retryWait code 1) := by
      rw [← retryLater_failed hn' he]
      simp only [List.mem_cons, Prod.mk.injEq, List.not_mem_nil, or_false] at hm
      obtain ⟨rfl, rfl, rfl⟩ | ⟨rfl, rfl, rfl⟩ | ⟨rfl, rfl, rfl⟩ | ⟨rfl, rfl, rfl⟩ := hm
      · exact congrArg Host.Outcome.next (if_pos hd)
      · exact congrArg Host.Outcome.next (if_pos hd)
      · exact congrArg Host.Outcome.next (if_pos (by simp [show (s.ep ep.val).disc = .calFetch from hd]))
      · exact congrArg Host.Outcome.next (if_pos (by simp [show (s.ep ep.val).disc = .meshWait from hd]))
    obtain ⟨h15, h18, h20⟩ := failed_shows (disc := .retryWait) (code := code) (shown := 1) s.fresh he
    have hf := failed_framed (disc := .retryWait) (code := code) (shown := 1) s.fresh he
    exact gives_of_eq hx ⟨failed_ep s.fresh he, h15, h18, h20, ((SameBut.fresh s).mono (by decide)).step hf.same (by decide), hf.log⟩
  · obtain ⟨hep, h15, hsent, ha⟩ := askCert_shows s.fresh he
    obtain ⟨hs, hdict⟩ := asked _ ha
    exact gives_of_eq (congrArg Host.Outcome.next (if_pos hd)) ⟨hep, h15, hsent, hs, hdict⟩

end Sys2Proof.Machine

/-! PROOFS. Calibration, the mesh build, life polls and a link that goes down (R46, R50, R54, R55, R60, R72, R75, R85). -/

namespace Sys2Proof.Machine

section Calibration

variable {s t : State} {e : Nat} {d : List Byte}

/-! ### A part of the record -/

/-- The length of the record that a part belongs to: told by the first part. -/
def State.calTotal (s : State) (e : Nat) (d : List Byte) : Nat := if (s.ep e).cal.isEmpty then fieldAt d 0 4 else (s.ep e).calLen

/-- A part of the record joins those before it. -/
def State.withPart (s : State) (e : Nat) (d : List Byte) : State :=
  s.setEp e { s.ep e with cal := (s.ep e).cal ++ d, calLen := s.calTotal e d }

theorem withPart_ep (s : State) (e : Nat) (d : List Byte) :
    (s.withPart e d).ep e = { s.ep e with cal := (s.ep e).cal ++ d, calLen := s.calTotal e d } := State.ep_setEp _ _ _

theorem State.noneWaits.withPart (hn : s.noneWaits) (he : e < 192) : (s.withPart e d).noneWaits :=
  State.noneWaits.setEp hn (x := { s.ep e with cal := _, calLen := _ }) (hn e he)

/-- A part of the length asked for, of a record that is not too long, is taken: the next is asked for, or the record is complete. -/
theorem calResponse_taken (hd : (s.ep e).disc = .calFetch) (hne : d ≠ [])
    (hl : d.length = min (s.ep e).calAsked (s.calTotal e d - (s.ep e).cal.length)) (ht : s.calTotal e d ≤ 2 * 1024 * 1024) :
    (((s.ep e).cal ++ d).length = s.calTotal e d → s.calResponse e d = (s.withPart e d).calComplete e) ∧
      (((s.ep e).cal ++ d).length ≠ s.calTotal e d → s.calResponse e d = (s.withPart e d).askCal e ((s.ep e).cal ++ d).length
        (min (s.calChunk e) (s.calTotal e d - ((s.ep e).cal ++ d).length))) := by
  have h : s.calResponse e d = if ((s.ep e).cal ++ d).length = s.calTotal e d then (s.withPart e d).calComplete e
      else (s.withPart e d).askCal e ((s.ep e).cal ++ d).length
        (min ((s.withPart e d).calChunk e) (s.calTotal e d - ((s.ep e).cal ++ d).length)) := by
    have hne' : d.isEmpty = false := by simpa using hne
    refine (if_neg ?_).trans (if_neg (Nat.not_lt.mpr ht))
    rw [hne', Bool.or_false, Bool.or_eq_true, decide_eq_true_eq, decide_eq_true_eq, not_or, not_not, not_not]
    exact ⟨hd, hl⟩
  have hc : (s.withPart e d).calChunk e = s.calChunk e := calChunk_congr (by rw [State.withPart, eget_setEp])
  rw [h, hc]
  exact ⟨fun hk => if_pos hk, fun hk => if_neg hk⟩

/-! ### A complete record -/

/-- The head is refused for its calibration's content, or may be mended by another Enable. -/
def State.contentFailed (s : State) (e : Nat) (retry : Bool) : State :=
  (((s.setEp e { s.ep e with disc := .refused, enableRetry := retry }).tsrReport codeCalContent (ucEndpoint e)).ebump e 0x20).eset e 0x15 6

theorem contentFailed_eps (s : State) (e : Nat) (retry : Bool) :
    (s.contentFailed e retry).eps = (s.setEp e { s.ep e with disc := .refused, enableRetry := retry }).eps :=
  (tsrReport_framed _ codeCalContent (ucEndpoint e)).same .eps (by decide)

theorem refuseContent_failed (hn : s.noneWaits) (retry : Bool) : s.refuseContent e retry = s.contentFailed e retry :=
  challengeWaiting_none (.of_eps (State.noneWaits.setEp hn (x := { s.ep e with disc := .refused, enableRetry := retry }) nofun)
    (contentFailed_eps s e retry))

theorem contentFailed_shows (s : State) (he : e < 192) (retry : Bool) : let t := s.contentFailed e retry
    (t.ep e).disc = .refused ∧ t.eget e 0x15 = 6 ∧ t.dget 0x2400 0x0A = codeCalContent := by
  refine ⟨?_, eget_eset_same _ _ _ _, ?_⟩
  · rw [ep_of_eps (contentFailed_eps s e retry), State.ep_setEp]
  · have hne (b : Nat) : (0x2400, 0x0A) ≠ (0x2200 + e, b) := fun h => absurd (congrArg Prod.fst h) (by simp; omega)
    exact (dget_eset_ne (b := 0x15) _ he (by decide) (by decide) (hne _)).trans
      ((dget_eset_ne (b := 0x20) _ he (by decide) (by decide) (hne _)).trans (tsrReport_shows _ _ _))

/-- The record's sections are kept, and its head is among those whose record is known. -/
def State.recorded (s : State) (e : Nat) (d : List Byte) : State :=
  { s.keepCal e d with fetched := s.fetched.filter (· != e) ++ [e] }

/-- The head waits for its meshes. -/
def State.meshQueued (s : State) (e : Nat) : State :=
  { s with meshQueue := s.meshQueue ++ [e] }.setEp e { s.ep e with disc := .meshWait, cal := [] }

theorem calComplete_cases (s : State) (e : Nat) :
    (sha256 (s.ep e).cal ≠ (s.ep e).calDigest → s.calComplete e = s.retryLater e codeCalDigest) ∧
      (sha256 (s.ep e).cal = (s.ep e).calDigest →
        (s.calOk e (s.ep e).cal = false → s.calComplete e = s.refuseContent e false) ∧
        (s.calOk e (s.ep e).cal = true →
          (s.hdrFits e (s.ep e).cal = false → s.calComplete e = s.refuseContent e true) ∧
          (s.hdrFits e (s.ep e).cal = true → let u := s.recorded e (s.ep e).cal
            (u.conflict e = true → s.calComplete e = u.refuseHead e codeLocation) ∧
            (u.conflict e = false → s.calComplete e = (u.claim e).meshQueued e)))) := by
  unfold State.calComplete
  dsimp only
  refine ⟨fun h => if_pos h, fun h => ?_⟩
  rw [if_neg (not_not.mpr h)]
  refine ⟨fun hk => if_pos (by simp [hk]), fun hk => ?_⟩
  rw [if_neg (by simp [hk])]
  refine ⟨fun hh => if_pos (by simp [hh]), fun hh => ?_⟩
  rw [if_neg (by simp [hh])]
  exact ⟨fun hc => if_pos hc, fun hc => if_neg (ne_true_of_eq_false hc)⟩

/-- The sections of a record are kept. -/
def State.sectionsKept (s : State) (e : Nat) (d : List Byte) : State :=
  { s with calib := [1, 3, 4, 5].foldl (fun m ty => KV.set [] m (calKey e ty) (calSection d ty)) s.calib,
           lensMesh := KV.set [] s.lensMesh e (calSection d 2) }

theorem SameBut.sectionsKept (s : State) (e : Nat) (d : List Byte) : SameBut [.calib, .lensMesh] s (s.sectionsKept e d) := by
  intro f hf
  cases f
  case calib | lensMesh => exact absurd (by decide) hf
  all_goals rfl

/-- Beside the sections, keeping a record writes its entry of the table area. -/
theorem keepCal_writes (s : State) (e : Nat) (d : List Byte) : ∃ l : List Byte, l.length = 8192 ∧
    s.keepCal e d = ((s.sectionsKept e d).writeBytes (lsBase + calBase + 8192 * e) l).freeStep := by
  unfold State.keepCal
  exact ⟨_, by rw [List.length_map, List.length_range], rfl⟩

theorem keepCal_same (s : State) (e : Nat) (d : List Byte) : SameBut [.calib, .lensMesh, .mem, .freeIx] s (s.keepCal e d) := by
  obtain ⟨l, -, h⟩ := keepCal_writes s e d
  rw [h]
  exact (((SameBut.sectionsKept s e d).mono (by decide)).step (.writeBytes _ _ l) (by decide)).step (.freeStep _) (by decide)

theorem keepCal_memBut (s : State) (e : Nat) (d : List Byte) : MemBut (lsBase + calBase + 8192 * e) 8192 s (s.keepCal e d) := by
  obtain ⟨l, hl, h⟩ := keepCal_writes s e d
  rw [h, ← hl]
  exact fun b hb => byteAt_writeBytes_outside (s.sectionsKept e d) _ b l hb

theorem keepCal_lens (s : State) (e : Nat) (d : List Byte) : (s.keepCal e d).lens e = calSection d 2 := by
  obtain ⟨l, -, h⟩ := keepCal_writes s e d
  have hl : (s.keepCal e d).lensMesh = KV.set [] s.lensMesh e (calSection d 2) := by rw [h]; rfl
  rw [State.lens, hl, KV.get_set_same]

theorem keepCal_calSec (s : State) (e : Nat) (d : List Byte) {ty : Nat} (h : ty ∈ [1, 3, 4, 5]) :
    (s.keepCal e d).calSec e ty = calSection d ty := by
  obtain ⟨l, -, hk⟩ := keepCal_writes s e d
  have hc : (s.keepCal e d).calib = [1, 3, 4, 5].foldl (fun m ty => KV.set [] m (calKey e ty) (calSection d ty)) s.calib := by
    rw [hk]; rfl
  rw [State.calSec, hc]
  simp only [List.mem_cons, List.not_mem_nil, or_false] at h
  obtain rfl | rfl | rfl | rfl := h <;> simp [KV.get_set, calKey]

theorem SameBut.setFetched (s : State) (x : List Nat) : SameBut [.fetched] s { s with fetched := x } := by
  intro f hf
  cases f
  case fetched => exact absurd (by decide) hf
  all_goals rfl

theorem recorded_same (s : State) (e : Nat) (d : List Byte) :
    SameBut [.calib, .lensMesh, .mem, .freeIx, .fetched] s (s.recorded e d) :=
  ((keepCal_same s e d).mono (by decide)).step (.setFetched _ _) (by decide)

/-- Whether a record's content is good, and whether its exposures fit, does not depend on the heads' state. -/
theorem withPart_calOk (s : State) (e : Nat) (d c : List Byte) : (s.fresh.withPart e d).calOk e c = s.calOk e c := rfl
theorem withPart_hdrFits (s : State) (e : Nat) (d c : List Byte) : (s.fresh.withPart e d).hdrFits e c = s.hdrFits e c := rfl

theorem recorded_places (s : State) (e : Nat) (d c : List Byte) : SamePlaces (s.recorded e c) ((s.fresh.withPart e d).recorded e c) :=
  ⟨fun _ _ _ => rfl, rfl, rfl⟩

theorem lens_congr (h : t.lensMesh = s.lensMesh) (e : Nat) : t.lens e = s.lens e := by rw [State.lens, h, State.lens]

theorem calSec_congr (h : t.calib = s.calib) (e ty : Nat) : t.calSec e ty = s.calSec e ty := by rw [State.calSec, h, State.calSec]

theorem recorded_lens (s : State) (e : Nat) (d : List Byte) : (s.recorded e d).lens e = calSection d 2 :=
  (lens_congr (s := s.keepCal e d) (by rw [State.recorded]) e).trans (keepCal_lens s e d)

theorem recorded_calSec (s : State) (e : Nat) (d : List Byte) {ty : Nat} (h : ty ∈ [1, 3, 4, 5]) :
    (s.recorded e d).calSec e ty = calSection d ty :=
  (calSec_congr (s := s.keepCal e d) (by rw [State.recorded]) e ty).trans (keepCal_calSec s e d h)

theorem mem_fetched_recorded (s : State) (e : Nat) (d : List Byte) : e ∈ (s.recorded e d).fetched :=
  List.mem_append_right _ List.mem_cons_self

theorem recorded_memBut (s : State) (e : Nat) (d : List Byte) : MemBut (lsBase + calBase + 8192 * e) 8192 s (s.recorded e d) :=
  (keepCal_memBut s e d).trans (.of_mem (by rw [State.recorded]))

/-! ### Claims of a location (R41) -/

/-- The turn of a higher endpoint at the location claimed. -/
def State.claimTurn (s : State) (f : Nat) : State :=
  if (s.ep f).disc = .admitted then s.releaseLater f codeLocation else s.refuseHead f codeLocation

theorem claim_turns (s : State) (e : Nat) : s.claim e =
    foldS (allEps.filter (fun f => decide (e < f) && s.sameLocation e f && decide ((s.ep f).disc ≠ .idle) && decide ((s.ep f).disc ≠ .refused)
      && (s.ep f).releaseNext != 2)) State.claimTurn s := rfl

theorem claim_none (h : ∀ f < 192, e < f → s.sameLocation e f = false) : s.claim e = s := by
  rw [claim_turns, List.filter_eq_nil_iff.mpr fun f hf => ?_]
  · rfl
  · by_cases hlt : e < f
    · simp [h f (List.mem_range.mp hf) hlt]
    · simp [hlt]

theorem releaseLater_framed (s : State) (code : Nat) (he : e < 192) :
    Framed ([.eps] ++ logFields) (failEntries e) s (s.releaseLater e code) := by
  have h := ((Framed.refl s).step (m := [.eps] ++ logFields) (d' := failEntries e) (epReport_framed s code he) (by decide)
    (List.forall_mem_cons.mpr ⟨by simp [failEntries], log_sub_fail⟩)).ebump he (b := 0x20) (by decide) (by decide) (by simp [failEntries])
  exact h.setEp (by decide)

theorem releaseLater_ep (s : State) (code : Nat) (he : e < 192) (f : Nat) :
    (s.releaseLater e code).ep f = if f = e then { s.ep e with releaseNext := 2 } else s.ep f := by
  have h : ((s.epReport e code).ebump e 0x20).eps = s.eps := (epReport_framed s code he).same .eps (by decide)
  rw [State.releaseLater, ep_after_setEp, ep_of_eps h, ep_of_eps h]

theorem State.noneWaits.releaseLater (hn : s.noneWaits) (he : e < 192) (code : Nat) : (s.releaseLater e code).noneWaits := fun f hf => by
  rw [releaseLater_ep s code he f]
  split
  · exact hn e he
  · exact hn f hf

/-- What a claim of `e` leaves alone. -/
structure Claimed (e : Nat) (s t : State) : Prop where
  noneWaits : t.noneWaits
  ep : t.ep e = s.ep e
  fetched : e ∈ s.fetched → e ∈ t.fetched
  lensMesh : t.lensMesh = s.lensMesh
  calib : t.calib = s.calib

theorem Claimed.turn (h : Claimed e s t) {f : Nat} (hf : f < 192) (hne : e ≠ f) : Claimed e s (t.claimTurn f) := by
  unfold State.claimTurn
  split
  · have hr := releaseLater_framed t codeLocation hf
    exact ⟨h.noneWaits.releaseLater hf _, by rw [releaseLater_ep t _ hf, if_neg hne, h.ep],
      fun hm => by rw [hr.same .fetched (by decide)]; exact h.fetched hm,
      (hr.same .lensMesh (by decide)).trans h.lensMesh, (hr.same .calib (by decide)).trans h.calib⟩
  · rw [refuseHead_failed h.noneWaits hf]
    have hr := failed_framed (disc := .refused) (code := codeLocation) (shown := 6) t hf
    have hq : (t.failed f .refused codeLocation 6).fetched = t.fetched.filter (· != f) :=
      (epReport_framed _ codeLocation hf).same .fetched (by decide)
    exact ⟨h.noneWaits.failed hf nofun, (failed_ep_ne t hf hne).trans h.ep,
      fun hm => by rw [hq]; exact List.mem_filter.mpr ⟨h.fetched hm, by simpa using hne⟩,
      (hr.same .lensMesh (by decide)).trans h.lensMesh, (hr.same .calib (by decide)).trans h.calib⟩

theorem claim_claimed (hn : s.noneWaits) (e : Nat) : Claimed e s (s.claim e) := by
  have fold (as : List Nat) (has : ∀ f ∈ as, f < 192 ∧ e ≠ f) (t : State) (h : Claimed e s t) : Claimed e s (foldS as State.claimTurn t) := by
    induction as generalizing t with
    | nil => exact h
    | cons f as ih =>
      obtain ⟨hf, has⟩ := List.forall_mem_cons.mp has
      exact ih has _ (h.turn hf.1 hf.2)
  rw [claim_turns]
  refine fold _ (fun f hf => ?_) s ⟨hn, rfl, id, rfl, rfl⟩
  obtain ⟨hm, hp⟩ := List.mem_filter.mp hf
  simp only [Bool.and_eq_true, decide_eq_true_eq] at hp
  obtain ⟨⟨⟨⟨hlt, -⟩, -⟩, -⟩, -⟩ := hp
  exact ⟨List.mem_range.mp hm, Nat.ne_of_lt hlt⟩

/-- What is shown of a head whose location is claimed and that waits for its meshes. -/
theorem claimed_queued (hn : s.noneWaits) (hf : e ∈ s.fetched) : let t := (s.claim e).meshQueued e
    (t.ep e).disc = .meshWait ∧ (t.ep e).cal = [] ∧ e ∈ t.meshQueue ∧ e ∈ t.fetched ∧ t.lens e = s.lens e ∧
      ∀ ty, t.calSec e ty = s.calSec e ty := by
  have hk := claim_claimed hn e
  refine ⟨?_, ?_, List.mem_append_right _ List.mem_cons_self, hk.fetched hf, lens_congr hk.lensMesh e, calSec_congr hk.calib e⟩
  · rw [State.meshQueued, State.ep_setEp]
  · rw [State.meshQueued, State.ep_setEp]

theorem meshQueued_same (s : State) (e : Nat) : SameBut [.eps, .meshQueue] s (s.meshQueued e) := by
  intro f hf
  cases f
  case eps | meshQueue => exact absurd (by decide) hf
  all_goals rfl

end Calibration

section Meshes

variable {s t : State} {e : Nat}

/-! ### The mesh build (R85) -/

/-- What building a mesh changes: the mesh store, the view's span mark, and a report. -/
def meshFields : List Field := [.views] ++ logFields

theorem checkSpan_same (s : State) (v : Nat) : SameBut meshFields s (s.checkSpan v) := by
  have h := (SameBut.setView s v { s.view v with spanBad := s.spanTooGreat v }).mono (m := meshFields) (by decide)
  exact .ite (h.step (tsrReport_framed _ _ _).same (by decide)) h

theorem buildMesh_same (s : State) (v : Nat) : SameBut meshFields s (s.buildMesh v) := by
  have h : SameBut meshFields s (foldS (List.range (ViewRec.meshH (s.viewRec v))) (fun t j =>
      foldS (List.range (ViewRec.meshW (s.viewRec v))) (fun t i =>
        t.writeBytes (lsBase + 8 * (KV.get 0 s.meshBase v + j * ViewRec.meshW (s.viewRec v) + i))
          (bytesOf 8 (vertexBits (buildVertex (s.pipeRec (v / 4)) (s.viewRec v) (s.lens (v / 4)) (i * 2 ^ ViewRec.cell (s.viewRec v))
            (j * 2 ^ ViewRec.cell (s.viewRec v)))))) t) s) :=
    .foldS (.refl _ s) fun _ _ => .foldS (.refl _ _) fun _ _ => (SameBut.writeBytes _ _ _).mono (by decide)
  exact h.trans (checkSpan_same _ v)

/-- The meshes of one endpoint are built. -/
def State.builtMeshes (s : State) (e : Nat) : State :=
  foldS [0, 1, 2, 3] (fun s i =>
    if ViewRec.kind (s.viewRec (4 * e + i)) = 2 || ViewRec.kind (s.viewRec (4 * e + i)) = 3 then s.buildMesh (4 * e + i) else s) s

theorem builtMeshes_same (s : State) (e : Nat) : SameBut meshFields s (s.builtMeshes e) :=
  .foldS (.refl _ s) fun _ _ => .ite (buildMesh_same _ _) (.refl _ _)

theorem meshStep_front {r : List Nat} (h : s.meshQueue = e :: r) : s.meshStep =
    let u := { s with meshQueue := r }.builtMeshes e
    if (u.ep e).disc = .meshWait then (u.setEp e { u.ep e with disc := .admitNext }).eset e 0x15 4 else u := by
  unfold State.meshStep
  rw [h]
  rfl

theorem meshStep_shows {r : List Nat} (h : s.meshQueue = e :: r) : let t := s.meshStep
    t.meshQueue = r ∧ ((s.ep e).disc = .meshWait → (t.ep e).disc = .admitNext ∧ t.eget e 0x15 = 4) ∧
      ((s.ep e).disc = .admitted → (t.ep e).disc = .admitted) := by
  have hb := builtMeshes_same { s with meshQueue := r } e
  have hep : ({ s with meshQueue := r }.builtMeshes e).ep e = s.ep e := ep_of_eps (hb .eps (by decide)) e
  have hq : ({ s with meshQueue := r }.builtMeshes e).meshQueue = r := hb .meshQueue (by decide)
  rw [meshStep_front h]
  generalize { s with meshQueue := r }.builtMeshes e = u at hep hq
  dsimp only
  rw [hep]
  by_cases hd : (s.ep e).disc = .meshWait
  · rw [if_pos hd]
    exact ⟨hq, fun _ => ⟨by rw [ep_eset, State.ep_setEp], eget_eset_same _ _ _ _⟩, fun h => absurd (hd.symm.trans h) (by decide)⟩
  · rw [if_neg hd, hep]
    exact ⟨hq, fun h => absurd h hd, id⟩

end Meshes

section Life

variable {s t : State} {e : Nat} {d : List Byte}

/-! ### Life polls (R54) -/

/-- The head's answer to a poll is no longer waited for. -/
def State.polled (s : State) (e : Nat) : State := s.setEp e { s.ep e with lifePending := false }

/-- A signed answer of the right length, without a regress. -/
def State.lifeGood (s : State) (e : Nat) (d : List Byte) : Prop :=
  d.length = 396 ∧ pssVerify (s.ep e).modulus 65537 (bytesOf 1 0x84 ++ bytesOf 1 e ++ slice d 0 12) (slice d 12 384) = true ∧
    s.regress e (lifeOf d 0) = false

theorem lifeResponse_cases (hd : (s.ep e).disc = .admitted) (hp : (s.ep e).lifePending = true) :
    (s.lifeGood e d → let u := (s.polled e).takeLife e (lifeOf d 0)
      s.lifeResponse e d = if u.eget e 0x16 = 2 && u.refusePolicy then u.setEp e { u.ep e with releaseNext := 2 } else u) ∧
      (¬ s.lifeGood e d → ∃ code, s.lifeResponse e d = (s.polled e).releaseLater e code) := by
  have hr : (s.polled e).regress e (lifeOf d 0) = s.regress e (lifeOf d 0) := rfl
  unfold State.lifeGood State.lifeResponse
  dsimp only
  rw [if_neg (by simp [hd, hp]), ← State.polled, hr]
  generalize pssVerify (s.ep e).modulus 65537 (bytesOf 1 0x84 ++ bytesOf 1 e ++ slice d 0 12) (slice d 12 384) = b
  refine ⟨fun ⟨hl, hv, hg⟩ => ?_, fun h => ?_⟩
  · rw [if_neg (by simp [hl, hv]), if_neg (by simp [hg])]
  · by_cases hb : (decide (d.length ≠ 396) || !b) = true
    · exact ⟨_, if_pos hb⟩
    · rw [if_neg hb]
      have hb' : d.length = 396 ∧ b = true := by simpa using hb
      have hg : s.regress e (lifeOf d 0) = true := by
        by_contra hg
        exact h ⟨hb'.1, hb'.2, by simpa using hg⟩
      exact ⟨_, if_pos hg⟩

theorem releaseLater_shows (s : State) (code : Nat) (he : e < 192) :
    (s.releaseLater e code).eget e 0x20 = (s.eget e 0x20 + 1) % 2 ^ 32 := by
  rw [State.releaseLater, eget_setEp, eget_ebump_same, epReport_eget _ _ he he (by decide) (by decide)]

theorem polled_ep (s : State) (e : Nat) : (s.polled e).ep e = { s.ep e with lifePending := false } := State.ep_setEp _ _ _

theorem polled_same (s : State) (e : Nat) : SameBut [.eps] s (s.polled e) := .setEp s e _

/-- What a polled head's answer leaves to be seen. -/
theorem lifeResponse_shows (he : e < 192) (hd : (s.ep e).disc = .admitted) (hp : (s.ep e).lifePending = true) :
    let t := s.lifeResponse e d
    (s.lifeGood e d → KV.get none t.life e = some (s.eget e 0x17, lifeOf d 0) ∧
      t.eget e 0x1B = fieldAt d 0 4 ∧ t.eget e 0x1C = fieldAt d 4 4 ∧ t.eget e 0x1D = fieldAt d 8 4 ∧ (t.ep e).lifePending = false) ∧
    (¬ s.lifeGood e d → t.ep e = { s.ep e with lifePending := false, releaseNext := 2 } ∧
      t.eget e 0x20 = (s.eget e 0x20 + 1) % 2 ^ 32 ∧ t.life = s.life ∧ SameBut (.eps :: logFields) s t) := by
  obtain ⟨hg, hb⟩ := lifeResponse_cases (d := d) hd hp
  have hep := polled_ep s e
  have hpend : ((s.polled e).ep e).lifePending = false := by rw [hep]
  have hget (b : Nat) : (s.polled e).eget e b = s.eget e b := dget_of_sameBut (polled_same s e) (by decide) _ _
  have hsame := polled_same s e
  have hlife := hsame .life (by decide)
  dsimp only
  refine ⟨fun h => ?_, fun h => ?_⟩
  · obtain ⟨hl, h1b, h1c, h1d⟩ := takeLife_shows (s.polled e) (lifeOf d 0) he
    have hu := ep_of_eps ((takeLife_framed (s.polled e) (lifeOf d 0) he).same .eps (by decide)) e
    rw [hget] at hl
    rw [← hu] at hpend
    rw [hg h]
    generalize (s.polled e).takeLife e (lifeOf d 0) = u at *
    dsimp only
    split
    · exact ⟨hl, h1b, h1c, h1d, by rw [State.ep_setEp, hpend]⟩
    · exact ⟨hl, h1b, h1c, h1d, hpend⟩
  · obtain ⟨code, hc⟩ := hb h
    have hf := releaseLater_framed (s.polled e) code he
    rw [hc]
    refine ⟨?_, ?_, (hf.same .life (by decide)).trans hlife, (hsame.mono (by decide)).step hf.same (by decide)⟩
    · rw [releaseLater_ep _ code he, if_pos rfl, hep]
    · rw [releaseLater_shows _ code he, hget]

/-! ### A link that goes down (R60) -/

/-- The head is gone from `s`. -/
def State.gone (s : State) (e : Nat) : State := (s.forgetHead e false .idle).eset e 0x15 0

theorem gone_ep (s : State) (e : Nat) : (s.gone e).ep e =
    { s.ep e with linkUp := false, disc := .idle, releaseNext := 0, enableRetry := false, lifePending := false, cal := [],
                  haveNumber := false, lowClarity := 0, image := .zero, complete := none } := by
  rw [State.gone, ep_eset]
  exact KV.get_set_same _ _ _ _

theorem gone_same (s : State) (e : Nat) : SameBut [.eps, .dict, .meshQueue, .fetched] s (s.gone e) := by
  intro f hf
  cases f
  case eps | dict | meshQueue | fetched => exact absurd (by decide) hf
  all_goals rfl

/-- The locations of unbound heads that are not the endpoint's. -/
def State.unplaced (s : State) (e : Nat) : State := { s with unbound := s.unbound.filter (fun l => !s.placeOf l e) }

theorem linkGone_cases (s : State) (e : Nat) :
    ((s.ep e).linkUp = false → s.linkGone e = s.unplaced e) ∧
      ((s.ep e).linkUp = true → ∃ u : State, s.linkGone e = (u.gone e).challengeWaiting ∧
        ((s.ep e).disc ≠ .admitted → u = s.unplaced e)) := by
  have hl : ((s.unplaced e).ep e).linkUp = (s.ep e).linkUp := rfl
  have hd : ((s.unplaced e).ep e).disc = (s.ep e).disc := rfl
  unfold State.linkGone
  rw [← State.unplaced]
  dsimp only
  rw [hl, hd]
  refine ⟨fun h => if_pos (by simp [h]), fun h => ⟨_, if_neg (by simp [h]), fun hn => ?_⟩⟩
  exact if_neg (by simp [hn])

/-- What is shown of a head that is gone, whoever is challenged then. -/
theorem gone_shows (u : State) (e : Nat) : let t := (u.gone e).challengeWaiting
    (t.ep e).linkUp = false ∧ (t.ep e).disc = .idle ∧ t.eget e 0x15 = 0 ∧ e ∉ t.meshQueue ∧ (t.ep e).complete = none := by
  obtain ⟨hep, hs⟩ := challengeWaiting_keeps (u.gone e) (e := e) (by rw [gone_ep]; nofun)
  have hq : (u.gone e).challengeWaiting.meshQueue = u.meshQueue.filter (· != e) := hs .meshQueue (by decide)
  have h15 : (u.gone e).challengeWaiting.eget e 0x15 = (u.gone e).eget e 0x15 := dget_of_sameBut hs (by decide) _ _
  dsimp only
  rw [hep, gone_ep, hq, h15]
  refine ⟨rfl, rfl, eget_eset_same _ _ _ _, ?_, rfl⟩
  simp

theorem State.noneWaits.gone (hn : s.noneWaits) (e : Nat) : (s.gone e).noneWaits := fun f hf => by
  by_cases h : f = e
  · subst h
    rw [gone_ep]
    nofun
  · have : (s.gone e).ep f = s.ep f := by
      rw [State.gone, ep_eset]
      exact KV.get_set_ne _ _ _ h
    rw [this]
    exact hn f hf

theorem SameBut.unplaced (s : State) (e : Nat) : SameBut [.unbound] s (s.unplaced e) := by
  intro f hf
  cases f
  case unbound => exact absurd (by decide) hf
  all_goals rfl

end Life

/-- Settles O53: a part by `calResponse_taken`, a whole record by `calComplete_cases`, the mesh build by `meshStep_front`, a poll's answer
by `lifeResponse_cases`, and a lost link by `linkGone_cases`. -/
theorem headsAreCalibratedPolledAndLost : Obligations.HeadsAreCalibratedPolledAndLost := by
  intro s ep hn e x
  have he : e < 192 := ep.isLt
  have hn' : s.fresh.noneWaits := hn
  have fresh {l : List Field} (hl : Field.sent ∈ l) : SameBut l s s.fresh := (SameBut.fresh s).mono (by simpa using hl)
  refine ⟨?_, fun r hq => ?_, fun hq => ?_, fun hd => ?_, fun d hd hp => ?_, fun hl => ?_, fun hl => ?_⟩
  · intro d hd hne total cal hl ht
    refine ⟨fun hk => ?_, fun hk => ?_⟩
    · intro n
      have h := (calResponse_taken (s := s.fresh) hd hne hl ht).2 hk
      refine gives_of_eq (congrArg Host.Outcome.next h) ⟨?_, ?_, ?_⟩
      · rw [State.askCal, ep_request, State.ep_setEp, withPart_ep, ← show (s.fresh.ep e).disc = .calFetch from hd]
        rfl
      · rfl
      · exact (((fresh (by decide)).step (.setEp _ e _) (by decide)).step (.setEp _ e _) (by decide)).step (SameBut.send _ _) (by decide)
    · have hcomplete : s.fresh.calResponse e d = (s.fresh.withPart e d).calComplete e := (calResponse_taken (s := s.fresh) hd hne hl ht).1 hk
      have hw : (s.fresh.withPart e d).noneWaits := hn'.withPart he
      have hcal : ((s.fresh.withPart e d).ep e).cal = cal := by rw [withPart_ep]; rfl
      have hdig : ((s.fresh.withPart e d).ep e).calDigest = x.calDigest := by rw [withPart_ep]; rfl
      obtain ⟨hbad, hgood⟩ := calComplete_cases (s.fresh.withPart e d) e
      rw [hcal, hdig, ← hcomplete] at hbad hgood
      rw [withPart_calOk, withPart_hdrFits] at hgood
      have refused (retry : Bool) (h : s.fresh.calResponse e d = (s.fresh.withPart e d).refuseContent e retry) :
          Gives (.getCalResponse ep d) s fun t => (t.ep e).disc = .refused ∧ t.eget e 0x15 = 6 ∧ t.dget 0x2400 0x0A = codeCalContent := by
        rw [refuseContent_failed hw] at h
        exact gives_of_eq (congrArg Host.Outcome.next h) (contentFailed_shows _ he retry)
      refine ⟨fun hs => ?_, fun hs hc => refused false ((hgood hs).1 hc), fun hs hc hh => refused true (((hgood hs).2 hc).1 hh),
        fun hs hc hh => ?_⟩
      · have h := hbad hs
        rw [retryLater_failed hw he] at h
        obtain ⟨h15, h18, -⟩ := failed_shows (disc := .retryWait) (code := codeCalDigest) (shown := 1) (s.fresh.withPart e d) he
        exact gives_of_eq (congrArg Host.Outcome.next h) ⟨by rw [failed_ep _ he], h15, h18⟩
      · intro u
        obtain ⟨hconf, hclaim⟩ := ((hgood hs).2 hc).2 hh
        have hplaces : SamePlaces u ((s.fresh.withPart e d).recorded e cal) := recorded_places s e d cal
        rw [hplaces.conflict] at hconf hclaim
        have hsame : SameBut [.sent, .eps, .calib, .lensMesh, .mem, .freeIx, .fetched] s ((s.fresh.withPart e d).recorded e cal) :=
          ((fresh (by decide)).step (.setEp _ e _) (by decide)).step (recorded_same (s.fresh.withPart e d) e cal) (by decide)
        have hrn : ((s.fresh.withPart e d).recorded e cal).noneWaits :=
          hw.of_eps (recorded_same (s.fresh.withPart e d) e cal .eps (by decide))
        have hfet := mem_fetched_recorded (s.fresh.withPart e d) e cal
        have hlens := recorded_lens (s.fresh.withPart e d) e cal
        have hsec (ty : Nat) := recorded_calSec (s.fresh.withPart e d) e cal (ty := ty)
        have hmem : MemBut (lsBase + calBase + 8192 * e) 8192 s ((s.fresh.withPart e d).recorded e cal) :=
          recorded_memBut (s.fresh.withPart e d) e cal
        clear_value u
        generalize (s.fresh.withPart e d).recorded e cal = w at *
        refine ⟨fun hx => ?_, fun hx => ?_⟩
        · have h := hconf hx
          rw [refuseHead_failed hrn he] at h
          obtain ⟨h15, h18, -⟩ := failed_shows (disc := .refused) (code := codeLocation) (shown := 6) w he
          exact gives_of_eq (congrArg Host.Outcome.next h) ⟨by rw [failed_ep _ he], h15, h18⟩
        · obtain ⟨h₁, h₂, h₃, h₄, h₅, h₆⟩ := claimed_queued hrn hfet
          refine gives_of_eq (congrArg Host.Outcome.next (hclaim hx))
            ⟨h₁, h₂, h₃, h₄, h₅.trans hlens, fun ty hty => (h₆ ty).trans (hsec ty hty), fun hno => ?_⟩
          rw [claim_none fun f hf hlt => (hplaces.sameLocation e f).trans (hno f hf hlt)]
          refine ⟨?_, (hsame.mono (by decide)).step (meshQueued_same w e) (by decide), hmem.trans (.of_mem rfl)⟩
          exact congrArg (· ++ [e]) (hsame .meshQueue (by decide))
  · exact gives_of_eq rfl (meshStep_shows (s := s.fresh) hq)
  · have h : s.fresh.meshStep = s.fresh := by
      unfold State.meshStep
      rw [show s.fresh.meshQueue = [] from hq]
    exact gives_of_eq (congrArg Host.Outcome.next h) (SameBut.fresh s)
  · have h : s.fresh.lifePoll e = (s.fresh.setEp e { x with lifePending := true }).request e 0x04 [] := if_pos hd
    refine gives_of_eq (congrArg Host.Outcome.next h) ⟨?_, rfl, ?_⟩
    · rw [ep_request, State.ep_setEp]
    · exact ((fresh (by decide)).step (.setEp _ e _) (by decide)).step (SameBut.send _ _) (by decide)
  · obtain ⟨hg, hb⟩ := lifeResponse_shows (s := s.fresh) (d := d) he hd hp
    exact ⟨fun h => gives_of_eq rfl (hg h), fun h => gives_of_eq rfl (by
      obtain ⟨hep, h20, hlife, hs⟩ := hb h
      exact ⟨hep, h20, hlife, (fresh (by decide)).step hs (by decide)⟩)⟩
  · obtain ⟨u, h, hu⟩ := (linkGone_cases s.fresh e).2 hl
    obtain ⟨h₁, h₂, h₃, h₄, h₅⟩ := gone_shows u e
    refine gives_of_eq (congrArg Host.Outcome.next h) ⟨h₁, h₂, h₃, h₄, h₅, fun hd => ?_⟩
    rw [hu hd, challengeWaiting_none (State.noneWaits.gone (s := s.fresh.unplaced e) hn' e)]
    exact ((fresh (by decide)).step (.unplaced _ e) (by decide)).step (gone_same _ e) (by decide)
  · exact gives_of_eq (congrArg Host.Outcome.next ((linkGone_cases s.fresh e).1 hl))
      ((fresh (by decide)).step (.unplaced _ e) (by decide))

end Sys2Proof.Machine

/-! PROOFS. Images: what opens one, what a line adds, what spoils and what closes one (R33–R35, R75, R78, R79, R97). -/

namespace Sys2Proof.Machine

section Images

variable {s t u : State} {e k : Nat} {l : List Field}

/-! ### What a report about an endpoint leaves to be read -/

/-- The entries that a report about an endpoint changes. -/
def epEntries (e : Nat) : List (Nat × Nat) := (0x2200 + e, 0x18) :: logEntries

theorem eget_of_epEntries (h : Framed l (epEntries e) s t) {b : Nat} (he : e < 192) (hb : b < 256) (h18 : b ≠ 0x18) :
    t.eget e b = s.eget e b :=
  h.dict _ _ hb fun hm => (List.mem_cons.mp hm).elim (fun hx => h18 (Prod.mk.inj hx).2) (endpoint_not_log he)

theorem dev_of_epEntries (h : Framed l (epEntries e) s t) : t.dev = s.dev :=
  h.dict _ _ (by decide) fun hm => (List.mem_cons.mp hm).elim (fun hx => absurd (Prod.mk.inj hx).2 (by decide)) fun hx =>
    absurd hx (by decide)

theorem exposures_congr (h8 : t.eget e 0x08 = s.eget e 0x08) (hc : t.calib = s.calib) : t.exposures e = s.exposures e := by
  unfold State.exposures State.transfer State.eclass State.calSec
  rw [h8, hc]

theorem pipeOn_congr (hd : t.dev = s.dev) (he : t.eps = s.eps) : t.pipeOn e = s.pipeOn e := by
  rw [State.pipeOn, hd, ep_of_eps he, State.pipeOn]

theorem inImage_congr (he : t.eps = s.eps) : t.inImage e k = s.inImage e k := by
  rw [State.inImage, ep_of_eps he, State.inImage]

theorem lineFits_congr {dt : Nat} {d : List Byte} (h9 : t.eget e 0x09 = s.eget e 0x09) (ha : t.eget e 0x0A = s.eget e 0x0A) :
    t.lineFits e dt d = s.lineFits e dt d := by
  unfold State.lineFits State.ewidth
  rw [h9, ha]

/-! ### An image becomes invalid -/

theorem invalidate_same (s : State) (e : Nat) : SameBut [.eps] s (s.invalidate e) := .ite (.setEp s e _) (.refl _ s)

theorem invalidate_ep (h : (s.ep e).image.isOpen = true) :
    (s.invalidate e).ep e = { s.ep e with image := { (s.ep e).image with valid := false } } := by
  rw [State.invalidate, if_pos h, State.ep_setEp]

theorem eget_invalidate (s : State) (e f b : Nat) : (s.invalidate e).eget f b = s.eget f b :=
  dget_of_sameBut (invalidate_same s e) (by decide) _ _

theorem epReport_same (s : State) (code : Nat) (he : e < 192) : Framed logFields (epEntries e) s (s.epReport e code) :=
  epReport_framed s code he

theorem epReport_ep (s : State) (code : Nat) (he : e < 192) (f : Nat) : (s.epReport e code).ep f = s.ep f :=
  ep_of_eps ((epReport_same s code he).same .eps (by decide)) f

theorem spoil_framed (s : State) (code : Nat) (he : e < 192) : Framed ([.eps] ++ logFields) (epEntries e) s (s.spoil e code) :=
  ((epReport_same s code he).mono (by decide) fun _ => id).then_same (invalidate_same _ e) (by decide) (by decide)

theorem spoil_shows (s : State) (e code : Nat) : (s.spoil e code).eget e 0x18 = code :=
  (eget_invalidate _ _ _ _).trans (epReport_shows s e code)

theorem spoil_ep (h : (s.ep e).image.isOpen = true) (code : Nat) (he : e < 192) :
    (s.spoil e code).ep e = { s.ep e with image := { (s.ep e).image with valid := false } } := by
  rw [State.spoil, invalidate_ep (by rw [epReport_ep s code he, h]), epReport_ep s code he]

/-! ### An image closes -/

/-- The image of `e` is no longer open. -/
def State.shut (s : State) (e : Nat) : State := s.setEp e { s.ep e with image := { (s.ep e).image with isOpen := false } }

theorem shut_ep (s : State) (e : Nat) : (s.shut e).ep e = { s.ep e with image := { (s.ep e).image with isOpen := false } } :=
  State.ep_setEp _ _ _

/-- An invalid image is not evaluated. -/
theorem closeImage_invalid (h : (s.ep e).image.valid = false) : s.closeImage e = s.shut e := if_neg (by simp [h])

theorem requestCleaning_eps (s : State) (he : e < 192) : (s.requestCleaning e).eps = s.eps := by
  unfold State.requestCleaning
  split
  · exact (epReport_same (s.eset e 0x1A 1) codeClean he).same .eps (by decide)
  · rfl

/-- An evaluation leaves the image as it is. -/
theorem evaluate_image (s : State) (he : e < 192) : ((s.evaluate e).ep e).image = (s.ep e).image := by
  unfold State.evaluate
  split
  · rfl
  · split
    · rfl
    · rw [ep_of_eps (requestCleaning_eps _ he), State.ep_setEp, ep_eset]

theorem closeImage_image (s : State) (he : e < 192) : ((s.closeImage e).ep e).image = { (s.ep e).image with isOpen := false } := by
  have h : ((s.shut e).ep e).image = { (s.ep e).image with isOpen := false } := by rw [shut_ep]
  have hc : s.closeImage e = if (s.ep e).image.valid then (s.shut e).evaluate e else s.shut e := rfl
  rw [hc]
  split
  · exact (evaluate_image _ he).trans h
  · exact h

/-! ### A line enters -/

/-- The lines of exposure `k` after one more. -/
def State.gotNext (s : State) (e k : Nat) : List Nat := setAt (s.ep e).image.got k (nth 0 (s.ep e).image.got k + 1)

/-- A line enters as the next row; below the image's last row it is kept. -/
def State.lineIn (s : State) (e k : Nat) (codes : List Nat) : State :=
  (if nth 0 (s.ep e).image.got k < s.eheight e then
      { s with raw := KV.set [] s.raw (rawKey e k (nth 0 (s.ep e).image.got k)) codes } else s).setEp e
    { s.ep e with image := { (s.ep e).image with got := s.gotNext e k } }

/-- Some exposure is more than 64 lines ahead of the last. -/
def State.apart (s : State) (e : Nat) (got : List Nat) : Bool :=
  (List.range (s.exposures e)).any fun j => decide (nth 0 got (s.exposures e - 1) + 64 < nth 0 got j)

theorem apart_level {got : List Nat} (h : ∀ j < s.exposures e, nth 0 got j ≤ nth 0 got (s.exposures e - 1) + 64) :
    s.apart e got = false := by
  refine List.any_eq_false.mpr fun j hj => ?_
  simpa using h j (List.mem_range.mp hj)

theorem SameBut.setRaw (s : State) (m : KV (List Nat)) : SameBut [.raw] s { s with raw := m } := by
  intro f hf
  cases f
  case raw => exact absurd (by decide) hf
  all_goals rfl

theorem SameBut.setDiscards (s : State) (m : KV Nat) : SameBut [.discards] s { s with discards := m } := by
  intro f hf
  cases f
  case discards => exact absurd (by decide) hf
  all_goals rfl

variable {codes : List Nat}

theorem lineIn_same (s : State) (e k : Nat) (codes : List Nat) : SameBut [.eps, .raw] s (s.lineIn e k codes) :=
  (SameBut.ite ((SameBut.setRaw s _).mono (by decide)) (.refl _ s)).step (.setEp _ e _) (by decide)

theorem lineIn_ep (s : State) (e k : Nat) (codes : List Nat) :
    (s.lineIn e k codes).ep e = { s.ep e with image := { (s.ep e).image with got := s.gotNext e k } } := State.ep_setEp _ _ _

theorem lineIn_raw (h : nth 0 (s.ep e).image.got k < s.eheight e) :
    KV.get [] (s.lineIn e k codes).raw (rawKey e k (nth 0 (s.ep e).image.got k)) = codes := by
  rw [State.lineIn, if_pos h]
  exact KV.get_set_same _ _ _ _

theorem takeLine_outside (h : s.inImage e k = false) : s.takeLine e k codes = s := if_pos (by rw [← State.inImage, h]; rfl)

theorem takeLine_inside (h : s.inImage e k = true) : s.takeLine e k codes =
    if s.apart e (s.gotNext e k) then ((s.lineIn e k codes).spoil e codeShape).closeImage e else s.lineIn e k codes := by
  have hx : (s.lineIn e k codes).exposures e = s.exposures e :=
    exposures_congr (dget_of_sameBut (lineIn_same s e k codes) (by decide) _ _) (lineIn_same s e k codes .calib (by decide))
  have ht : s.takeLine e k codes = if (s.lineIn e k codes).apart e (s.gotNext e k) then
      ((s.lineIn e k codes).spoil e codeShape).closeImage e else s.lineIn e k codes := if_neg (by rw [← State.inImage, h]; decide)
  rw [ht, State.apart, hx, State.apart]

theorem takeLine_level (h : s.inImage e k = true)
    (hl : ∀ j < s.exposures e, nth 0 (s.gotNext e k) j ≤ nth 0 (s.gotNext e k) (s.exposures e - 1) + 64) :
    s.takeLine e k codes = s.lineIn e k codes := by
  rw [takeLine_inside h, apart_level hl]
  rfl

/-- A line of an invalid image leaves it invalid, and changes nothing but the image, its lines and a report. -/
theorem takeLine_invalid (h : (s.ep e).image.valid = false) (he : e < 192) :
    ((s.takeLine e k codes).ep e).image.valid = false ∧
      Framed ([.eps, .raw] ++ logFields) (epEntries e) s (s.takeLine e k codes) := by
  cases hin : s.inImage e k with
  | false =>
    rw [takeLine_outside hin]
    exact ⟨h, .refl s⟩
  | true =>
    have ho : (s.ep e).image.isOpen = true := by
      simp only [State.inImage, Bool.and_eq_true] at hin
      exact hin.1.1
    have hv : ((s.lineIn e k codes).ep e).image.valid = false := by rw [lineIn_ep, ← h]
    have hf : Framed ([.eps, .raw] ++ logFields) (epEntries e) s (s.lineIn e k codes) :=
      .then_same (.refl s) (lineIn_same s e k codes) (by decide) (by decide)
    have hs := spoil_ep (s := s.lineIn e k codes) (by rw [lineIn_ep, ← ho]) codeShape he
    rw [takeLine_inside hin]
    split
    · rw [closeImage_invalid (by rw [hs]), shut_ep, hs]
      exact ⟨rfl, (hf.step (spoil_framed _ codeShape he) (by decide) fun _ => id).setEp (by decide)⟩
    · exact ⟨hv, hf⟩

/-! ### Headers -/

section Packets

variable {inf : CsiInfo} {dt : Nat} {d : List Byte}

theorem header_good (s : State) (e : Nat) (h : inf.ecc = 0) : s.header e inf = (s, true) := by
  rw [State.header, if_neg (by simp [h]), if_neg (by simp [h])]

/-- What an uncorrectable header leaves: its packet is dropped, whatever it is. -/
def State.badHeader (s : State) (e : Nat) : State := (s.packetFault e codeCsiEcc).invalidate e

theorem header_bad (s : State) (e : Nat) (h : inf.ecc = 2) : s.header e inf = (s.badHeader e, false) := if_pos h

theorem frameStart_good (h : inf.ecc = 0) (hp : s.pipeOn e = true) (number : BitVec 16) (n : Nat) :
    s.frameStart e inf number n = s.frameBegin e inf.exposure.val number n := by
  unfold State.frameStart
  rw [header_good s e h]
  exact if_pos hp

theorem frameEnd_good (h : inf.ecc = 0) (hp : s.pipeOn e = true) : s.frameEnd e inf = s.frameFinish e inf.exposure.val := by
  unfold State.frameEnd
  rw [header_good s e h]
  exact if_pos hp

theorem frameStart_bad (s : State) (e : Nat) (h : inf.ecc = 2) (number : BitVec 16) (n : Nat) :
    s.frameStart e inf number n = s.badHeader e := by
  unfold State.frameStart
  rw [header_bad s e h]

theorem frameEnd_bad (s : State) (e : Nat) (h : inf.ecc = 2) : s.frameEnd e inf = s.badHeader e := by
  unfold State.frameEnd
  rw [header_bad s e h]

theorem longPacket_bad (s : State) (e : Nat) (h : inf.ecc = 2) (dt : Nat) (d : List Byte) (ok : Bool) :
    s.longPacket e inf dt d ok = s.badHeader e := by
  unfold State.longPacket
  rw [header_bad s e h]

theorem longPacket_discarded (s : State) (e : Nat) (h : inf.ecc = 0) (ha : csiAccepted dt = false) (d : List Byte) (ok : Bool) :
    s.longPacket e inf dt d ok = { s with discards := bump s.discards (s.eget e 0x03) } := by
  unfold State.longPacket
  rw [header_good s e h]
  exact if_pos (by rw [ha]; rfl)

theorem packetFault_framed (s : State) (code : Nat) (he : e < 192) : Framed logFields (epEntries e) s (s.packetFault e code) :=
  .ite (epReport_same s code he) (.refl s)

theorem packetFault_shows (h : s.eget e 0x01 = 1) (code : Nat) : (s.packetFault e code).eget e 0x18 = code := by
  rw [State.packetFault, if_pos h, epReport_shows]

theorem packetFault_ep (s : State) (code : Nat) (he : e < 192) : (s.packetFault e code).ep e = s.ep e :=
  ep_of_eps ((packetFault_framed s code he).same .eps (by decide)) e

theorem badHeader_shows (s : State) (he : e < 192) : let t := s.badHeader e
    (s.eget e 0x01 = 1 → t.eget e 0x18 = codeCsiEcc) ∧ ((s.ep e).image.isOpen = true → (t.ep e).image.valid = false) ∧ t.raw = s.raw := by
  refine ⟨fun h => ?_, fun h => ?_, ?_⟩
  · rw [State.badHeader, eget_invalidate, packetFault_shows h]
  · rw [State.badHeader, invalidate_ep (by rw [packetFault_ep s _ he, h])]
  · exact (invalidate_same (s.packetFault e codeCsiEcc) e .raw (by decide)).trans
      ((packetFault_framed s codeCsiEcc he).same .raw (by decide))

/-! ### Frame starts -/

theorem KV.get_filter_absent {α : Type} (d : α) (m : KV α) {p : Nat × α → Bool} {j : Nat} (h : ∀ x, p (j, x) = false) :
    KV.get d (m.filter p) j = d := by
  induction m with
  | nil => rfl
  | cons a m ih =>
    obtain ⟨i, x⟩ := a
    rw [List.filter_cons]
    split
    · rename_i hp
      have hne : i ≠ j := by
        rintro rfl
        simp [h] at hp
      rw [KV.get, if_neg hne, ih]
    · exact ih

theorem rawKey_endpoint {j r : Nat} (hr : r < 65536) (hj : j < 4) : rawKey e j r / 65536 / 4 = e := by
  unfold rawKey
  omega

/-- A property that one turn brings about and the others keep holds after the fold; `I` is what every turn keeps anyway. -/
theorem foldS_reaches {α : Type} {I P : State → Prop} {f : State → α → State} {a : α} (as : List α) (s : State) (hm : a ∈ as) (hs : I s)
    (hI : ∀ t b, I t → I (f t b)) (h₁ : ∀ t, I t → P (f t a)) (h₂ : ∀ t b, I t → P t → P (f t b)) : P (foldS as f s) := by
  have keep (as : List α) (t : State) (hi : I t) (h : P t) : P (foldS as f t) := by
    induction as generalizing t with
    | nil => exact h
    | cons b as ih => exact ih _ (hI t b hi) (h₂ t b hi h)
  induction as generalizing s with
  | nil => cases hm
  | cons b as ih =>
    rcases List.mem_cons.mp hm with rfl | hm
    · exact keep as _ (hI s _ hs) (h₁ s hs)
    · exact ih _ hm (hI s b hs)

theorem view_after_setView (s : State) (v w : Nat) (x : ViewState) : (s.setView v x).view w = if w = v then x else s.view w :=
  KV.get_set _ _ _ _ _

/-- The image that a Frame Start of exposure `k` opens. -/
def startedImage (k : Nat) (number : BitVec 16) (n frame : Nat) : Image :=
  { Image.zero with isOpen := true, began := setAt Image.zero.began k true, number := number, stamp := n, frame := frame, valid := true }

/-- A view begins anew. -/
def ViewState.begun (v : ViewState) : ViewState := { v with stripe := 0, valid := true, done := false }

def State.opened (s : State) (e : Nat) (im : Image) : State :=
  { s with raw := s.raw.filter (fun x => x.1 / 65536 / 4 != e) }.setEp e { s.ep e with image := im }

theorem openImage_opened (h : s.eget e 0x0C ≠ 1) (number : BitVec 16) (n : Nat) : s.openImage e k number n =
    foldS [0, 1, 2, 3] (fun s i => s.setView (4 * e + i) (s.view (4 * e + i)).begun) (s.opened e (startedImage k number n s.frameNo)) := by
  have hf : s.imageFrame e n = s.frameNo := if_neg (by simp [h])
  have ho : s.openImage e k number n = foldS [0, 1, 2, 3] (fun s i => s.setView (4 * e + i) (s.view (4 * e + i)).begun)
      (s.opened e (startedImage k number n (s.imageFrame e n))) := if_neg (by simp [h])
  rw [ho, hf]

theorem opened_same (s : State) (e : Nat) (im : Image) : SameBut [.eps, .raw] s (s.opened e im) :=
  ((SameBut.setRaw s _).mono (by decide)).step (.setEp _ e _) (by decide)

theorem begunViews_same (s : State) (e : Nat) :
    SameBut [.views] s (foldS [0, 1, 2, 3] (fun s i => s.setView (4 * e + i) (s.view (4 * e + i)).begun) s) :=
  .foldS (.refl _ s) fun _ _ => .setView _ _ _

theorem openImage_shows (h : s.eget e 0x0C ≠ 1) (number : BitVec 16) (n : Nat) : let t := s.openImage e k number n
    t.ep e = { s.ep e with image := startedImage k number n s.frameNo } ∧ (∀ r < 65536, ∀ j < 4, KV.get [] t.raw (rawKey e j r) = []) ∧
      (∀ v < 4, (t.view (4 * e + v)).stripe = 0) ∧ SameBut [.eps, .raw, .views] s t := by
  have ho := opened_same s e (startedImage k number n s.frameNo)
  have hv := begunViews_same (s.opened e (startedImage k number n s.frameNo)) e
  rw [openImage_opened h]
  refine ⟨?_, fun r hr j hj => ?_, fun v hlt => ?_, (ho.mono (by decide)).step hv (by decide)⟩
  · rw [ep_of_eps (hv .eps (by decide)), State.opened, State.ep_setEp]
  · have hraw := hv .raw (by decide)
    rw [show (foldS _ _ _).raw = (s.opened e (startedImage k number n s.frameNo)).raw from hraw]
    exact KV.get_filter_absent [] s.raw fun x => by simp [rawKey_endpoint hr hj]
  · refine foldS_reaches (I := fun _ => True) (P := fun t => (t.view (4 * e + v)).stripe = 0) (a := v) [0, 1, 2, 3] _
      (by simp; omega) trivial (fun _ _ _ => trivial) (fun u _ => ?_) fun u i _ hu => ?_
    · rw [State.view_setView]
      rfl
    · rw [view_after_setView]
      split
      · rfl
      · exact hu

/-- The number of a Frame Start of the first exposure is kept. -/
def State.numbered (s : State) (e k : Nat) (number : BitVec 16) : State :=
  if k = 0 then s.setEp e { s.ep e with haveNumber := true, lastNumber := number } else s

theorem numbered_same (s : State) (e k : Nat) (number : BitVec 16) : SameBut [.eps] s (s.numbered e k number) :=
  .ite (.setEp s e _) (.refl _ s)

theorem numbered_ep (s : State) (e k : Nat) (number : BitVec 16) : (s.numbered e k number).ep e =
    if k = 0 then { s.ep e with haveNumber := true, lastNumber := number } else s.ep e := by
  unfold State.numbered
  split
  · exact State.ep_setEp _ _ _
  · rfl

/-- Without an image in delivery, a Frame Start whose number follows opens one. -/
theorem frameBegin_opens (hk : k < s.exposures e) (ho : (s.ep e).image.isOpen = false) {number : BitVec 16}
    (hn : k = 0 → (s.ep e).haveNumber = true → number = (s.ep e).lastNumber + 1) (n : Nat) :
    s.frameBegin e k number n = (s.numbered e k number).openImage e k number n := by
  have hclosed : ((s.numbered e k number).ep e).image.isOpen = false := by
    rw [numbered_ep]
    split
    · exact ho
    · exact ho
  have hjump : (k = 0 && (s.ep e).haveNumber && decide (number ≠ (s.ep e).lastNumber + 1)) = false := by
    cases hb : k = 0 && (s.ep e).haveNumber with
    | false => rfl
    | true =>
      simp only [Bool.and_eq_true, decide_eq_true_eq] at hb
      simp [hn hb.1 hb.2]
  unfold State.frameBegin
  rw [if_neg (Nat.not_le.mpr hk)]
  dsimp only
  rw [hjump, if_neg Bool.false_ne_true, ← State.numbered, hclosed, Bool.false_and, if_neg Bool.false_ne_true,
    if_neg Bool.false_ne_true]

/-! ### Frame ends -/

/-- An image whose exposure `k` has missing rows is reported and invalid. -/
def State.shaped (s : State) (e k : Nat) : State :=
  if nth 0 (s.ep e).image.got k = s.eheight e then s else s.spoil e codeShape

/-- Exposure `k` has ended. -/
def State.exposureEnds (s : State) (e k : Nat) : State :=
  s.setEp e { s.ep e with image := { (s.ep e).image with ended := setAt (s.ep e).image.ended k true } }

theorem shaped_framed (s : State) (k : Nat) (he : e < 192) : Framed ([.eps] ++ logFields) (epEntries e) s (s.shaped e k) :=
  .ite (.refl s) (spoil_framed s codeShape he)

theorem shaped_image (h : (s.ep e).image.isOpen = true) (k : Nat) (he : e < 192) : ((s.shaped e k).ep e).image =
    { (s.ep e).image with valid := (s.ep e).image.valid && nth 0 (s.ep e).image.got k == s.eheight e } := by
  unfold State.shaped
  split
  · rename_i hr
    rw [hr, beq_self_eq_true, Bool.and_true]
  · rename_i hr
    rw [spoil_ep h _ he, beq_eq_false_iff_ne.mpr hr, Bool.and_false]

theorem exposureEnds_image (s : State) (e k : Nat) : ((s.exposureEnds e k).ep e).image =
    { (s.ep e).image with ended := setAt (s.ep e).image.ended k true } := by rw [State.exposureEnds, State.ep_setEp]

theorem nth_setAt_same {α : Type} (d : α) (l : List α) {k : Nat} (v : α) (h : k < l.length) : nth d (setAt l k v) k = v := by
  simp [nth, setAt, h]

theorem nth_setAt_ne {α : Type} (d : α) (l : List α) {j k : Nat} (v : α) (h : j ≠ k) : nth d (setAt l k v) j = nth d l j := by
  simp [nth, setAt, List.getElem?_set_ne (Ne.symm h)]

/-- The Frame End of the last exposure that is open closes the image. -/
theorem frameFinish_closes (he : e < 192) (hin : s.inImage e k = true)
    (ho : ∀ j < s.exposures e, j ≠ k → nth false (s.ep e).image.ended j = true) (hk : k < (s.ep e).image.ended.length) :
    s.frameFinish e k = ((s.shaped e k).exposureEnds e k).closeImage e := by
  have hopen : (s.ep e).image.isOpen = true := by
    simp only [State.inImage, Bool.and_eq_true] at hin
    exact hin.1.1
  have hf := shaped_framed s k he
  have hx : ((s.shaped e k).exposureEnds e k).exposures e = s.exposures e :=
    (exposures_congr (s := s.shaped e k) rfl rfl).trans
      (exposures_congr (eget_of_epEntries hf he (by decide) (by decide)) (hf.same .calib (by decide)))
  have hended : ((s.shaped e k).ep e).image.ended = (s.ep e).image.ended := by rw [shaped_image hopen k he]
  have hall : (List.range (((s.shaped e k).exposureEnds e k).exposures e)).all
      (fun j => nth false (setAt ((s.shaped e k).ep e).image.ended k true) j) = true := by
    rw [hx, hended]
    refine List.all_eq_true.mpr fun j hj => ?_
    by_cases hjk : j = k
    · rw [hjk, nth_setAt_same _ _ _ hk]
    · rw [nth_setAt_ne _ _ _ hjk, ho j (List.mem_range.mp hj) hjk]
  exact (if_neg (by rw [← State.inImage, hin]; decide)).trans (if_pos hall)

theorem frameFinish_shows (he : e < 192) (hin : s.inImage e k = true)
    (ho : ∀ j < s.exposures e, j ≠ k → nth false (s.ep e).image.ended j = true) (hk : k < (s.ep e).image.ended.length) :
    let t := s.frameFinish e k
    (t.ep e).image.isOpen = false ∧ nth false (t.ep e).image.ended k = true ∧
      (t.ep e).image.valid = ((s.ep e).image.valid && nth 0 (s.ep e).image.got k == s.eheight e) ∧
      (nth 0 (s.ep e).image.got k ≠ s.eheight e → t.eget e 0x18 = codeShape) := by
  have hopen : (s.ep e).image.isOpen = true := by
    simp only [State.inImage, Bool.and_eq_true] at hin
    exact hin.1.1
  have him := shaped_image hopen k he
  rw [frameFinish_closes he hin ho hk]
  refine ⟨?_, ?_, ?_, fun hr => ?_⟩
  · rw [closeImage_image _ he]
  · rw [closeImage_image _ he, exposureEnds_image, him]
    exact nth_setAt_same _ _ _ hk
  · rw [closeImage_image _ he, exposureEnds_image, him]
  · have hv : (((s.shaped e k).exposureEnds e k).ep e).image.valid = false := by
      rw [exposureEnds_image, him, beq_eq_false_iff_ne.mpr hr, Bool.and_false]
    rw [closeImage_invalid hv, State.shut, eget_setEp, State.exposureEnds, eget_setEp, State.shaped, if_neg hr, spoil_shows]

/-! ### Long packets -/

theorem lineChecks_framed (s : State) (he : e < 192) : Framed logFields (epEntries e) s (s.lineChecks e inf dt d) := by
  have h : Framed logFields (epEntries e) s (if inf.crcOk then s else s.packetFault e codeCsiCrc) :=
    .ite (.refl s) (packetFault_framed s codeCsiCrc he)
  exact .ite h (h.trans (packetFault_framed _ codeShape he))

theorem lineChecks_passed (hc : inf.crcOk = true) (hf : s.lineFits e dt d = true) : s.lineChecks e inf dt d = s := by
  unfold State.lineChecks
  dsimp only
  rw [if_pos hc, hf, Bool.or_true, if_pos rfl]

theorem lineChecks_badCrc (he : e < 192) (hc : inf.crcOk = false) (hf : s.lineFits e dt d = true) :
    s.lineChecks e inf dt d = s.packetFault e codeCsiCrc := by
  have h := packetFault_framed s codeCsiCrc he
  have hf' : (s.packetFault e codeCsiCrc).lineFits e dt d = true :=
    (lineFits_congr (eget_of_epEntries h he (by decide) (by decide)) (eget_of_epEntries h he (by decide) (by decide))).trans hf
  unfold State.lineChecks
  dsimp only
  rw [if_neg (ne_true_of_eq_false hc), hf', Bool.or_true, if_pos rfl]

theorem longPacket_image (h : inf.ecc = 0) (ha : csiAccepted dt = true) (hdt : dt ≠ 0x37) (accepted : Bool) :
    s.longPacket e inf dt d accepted = (s.lineChecks e inf dt d).imageLine e inf dt d accepted := by
  unfold State.longPacket
  rw [header_good s e h]
  exact (if_neg (by simp [ha])).trans (if_neg hdt)

theorem imageLine_taken (hp : s.pipeOn e = true) (hin : s.inImage e inf.exposure.val = true) : s.imageLine e inf dt d true =
    (if inf.crcOk && s.lineFits e dt d then s else s.invalidate e).takeLine e inf.exposure.val (csiLine
      ((if inf.crcOk && s.lineFits e dt d then s else s.invalidate e).eget e 0x09)
      ((if inf.crcOk && s.lineFits e dt d then s else s.invalidate e).ewidth e) d) :=
  (if_neg (by simp [hp, hin])).trans (if_neg (by decide))

theorem imageLine_dropped (hp : s.pipeOn e = true) (hin : s.inImage e inf.exposure.val = true) :
    s.imageLine e inf dt d false = s.overrun e inf.exposure.val :=
  (if_neg (by simp [hp, hin])).trans (if_pos rfl)

/-- A line that is not accepted spoils the image and is counted. -/
theorem overrun_shows (he : e < 192) (ho : (s.ep e).image.isOpen = true) : let t := s.overrun e k
    (t.ep e).image.valid = false ∧ t.dget 0x2400 0x04 = (s.dget 0x2400 0x04 + 1) % 2 ^ 32 := by
  have hr := tsrReport_framed s codeOverrun (ucEndpoint e)
  have hep : (s.tsrReport codeOverrun (ucEndpoint e)).ep e = s.ep e := ep_of_eps (hr.same .eps (by decide)) e
  have h4 : (s.tsrReport codeOverrun (ucEndpoint e)).dget 0x2400 0x04 = s.dget 0x2400 0x04 := hr.dict _ _ (by decide) (by decide)
  have hi4 : ((s.tsrReport codeOverrun (ucEndpoint e)).invalidate e).dget 0x2400 0x04 = s.dget 0x2400 0x04 :=
    (dget_of_sameBut (invalidate_same _ e) (by decide) _ _).trans h4
  have hv : ((((s.tsrReport codeOverrun (ucEndpoint e)).invalidate e).dbump 0x2400 0x04).ep e).image.valid = false := by
    rw [ep_of_eps (SameBut.dbump _ _ _ .eps (by decide)), invalidate_ep (by rw [hep, ho])]
  obtain ⟨hval, hf⟩ := takeLine_invalid (k := k) (codes := []) hv he
  refine ⟨hval, (hf.dict 0x2400 0x04 (by decide) ?_).trans ?_⟩
  · simp [epEntries, logEntries]
  · rw [State.dbump, State.dadd, State.dget_dset_same, hi4]

/-- A line with a wrong payload CRC enters, is reported and spoils the image. -/
theorem badCrc_shows (he : e < 192) (h1 : s.eget e 0x01 = 1) (hp : s.pipeOn e = true) (hin : s.inImage e inf.exposure.val = true)
    (hc : inf.crcOk = false) (hf : s.lineFits e dt d = true)
    (hl : ∀ j < s.exposures e, nth 0 (s.gotNext e inf.exposure.val) j ≤ nth 0 (s.gotNext e inf.exposure.val) (s.exposures e - 1) + 64) :
    let t := (s.lineChecks e inf dt d).imageLine e inf dt d true
    t.eget e 0x18 = codeCsiCrc ∧ (t.ep e).image.valid = false := by
  have hfr := packetFault_framed s codeCsiCrc he
  have heps : (s.packetFault e codeCsiCrc).eps = s.eps := hfr.same .eps (by decide)
  have hopen : (s.ep e).image.isOpen = true := by
    simp only [State.inImage, Bool.and_eq_true] at hin
    exact hin.1.1
  have hi := invalidate_ep (s := s.packetFault e codeCsiCrc) (e := e) (by rw [ep_of_eps heps, hopen])
  have h18 : ((s.packetFault e codeCsiCrc).invalidate e).eget e 0x18 = codeCsiCrc := by rw [eget_invalidate, packetFault_shows h1]
  have hx : ((s.packetFault e codeCsiCrc).invalidate e).exposures e = s.exposures e :=
    (exposures_congr (eget_invalidate _ _ _ _) (invalidate_same _ e .calib (by decide))).trans
      (exposures_congr (eget_of_epEntries hfr he (by decide) (by decide)) (hfr.same .calib (by decide)))
  rw [lineChecks_badCrc he hc hf, imageLine_taken ((pipeOn_congr (dev_of_epEntries hfr) heps).trans hp)
    ((inImage_congr heps).trans hin), hc, Bool.false_and, if_neg Bool.false_ne_true]
  generalize (s.packetFault e codeCsiCrc).invalidate e = u at *
  rw [ep_of_eps heps] at hi
  have hin' : u.inImage e inf.exposure.val = true := by
    rw [State.inImage, hi]
    exact hin
  have hg : u.gotNext e inf.exposure.val = s.gotNext e inf.exposure.val := by rw [State.gotNext, hi, State.gotNext]
  rw [takeLine_level hin' (by rw [hx, hg]; exact hl)]
  refine ⟨(dget_of_sameBut (lineIn_same u e _ _) (by decide) _ _).trans h18, ?_⟩
  rw [lineIn_ep, hi]

/-- A line of the image that is not accepted. -/
theorem longPacket_dropped (he : e < 192) (h : inf.ecc = 0) (ha : csiAccepted dt = true) (hdt : dt ≠ 0x37) (hp : s.pipeOn e = true)
    (hin : s.inImage e inf.exposure.val = true) : let t := s.longPacket e inf dt d false
    (t.ep e).image.valid = false ∧ t.dget 0x2400 0x04 = (s.dget 0x2400 0x04 + 1) % 2 ^ 32 := by
  have hf := lineChecks_framed (inf := inf) (dt := dt) (d := d) s he
  have heps : (s.lineChecks e inf dt d).eps = s.eps := hf.same .eps (by decide)
  have hopen : (s.ep e).image.isOpen = true := by
    simp only [State.inImage, Bool.and_eq_true] at hin
    exact hin.1.1
  have h4 : (s.lineChecks e inf dt d).dget 0x2400 0x04 = s.dget 0x2400 0x04 :=
    hf.dict _ _ (by decide) (by simp [epEntries, logEntries])
  rw [longPacket_image h ha hdt, imageLine_dropped ((pipeOn_congr (dev_of_epEntries hf) heps).trans hp) ((inImage_congr heps).trans hin),
    ← h4]
  exact overrun_shows he (by rw [ep_of_eps heps, hopen])

/-- What a line within the image that is level with the others leaves. -/
theorem lineIn_shows (s : State) (e k : Nat) (codes : List Nat) (h : nth 0 (s.ep e).image.got k < s.eheight e) : let t := s.lineIn e k codes
    KV.get [] t.raw (rawKey e k (nth 0 (s.ep e).image.got k)) = codes ∧
      t.ep e = { s.ep e with image := { (s.ep e).image with got := s.gotNext e k } } ∧ SameBut [.eps, .raw] s t :=
  ⟨lineIn_raw h, lineIn_ep s e k codes, lineIn_same s e k codes⟩

end Packets

theorem get_bump (m : KV Nat) (k : Nat) : KV.get 0 (bump m k) k = KV.get 0 m k + 1 := KV.get_set_same _ _ _ _

/-! ### Line datagrams (R35, R78, R79) -/

section LineDatagrams

variable {g : Datagram} {d : List Byte} {n : Nat}

theorem lineDatagram_of (hd : s.datagramEp g = some e) (h3 : s.eclass e ≠ 3) (n : Nat) (ok : Bool) : s.lineDatagram g n ok =
    if !g.checksOk then s.dropDatagram e else if s.pipeOn e then s.lineData e g.payload n ok else s := by
  unfold State.lineDatagram
  rw [hd]
  exact if_neg h3

theorem dropDatagram_shows (s : State) (he : e < 192) : let t := s.dropDatagram e
    KV.get 0 t.dgramDrops e = KV.get 0 s.dgramDrops e + 1 ∧ t.eget e 0x18 = codeDgram ∧ t.raw = s.raw :=
  ⟨get_bump _ _, epReport_shows s e codeDgram, (epReport_same s codeDgram he).same .raw (by decide)⟩

/-- A datagram of one line, without a Frame Start or End, is the line that follows. -/
theorem lineData_line (hk : k < s.exposures e) (hk2 : k < 3) (hin : s.inImage e k = true) (h12 : 12 ≤ d.length)
    (hm : slice d 0 4 = lineMagic) (hd : fieldAt d 10 1 = k) (hf : fieldAt d 11 1 = 0) (hn : fieldAt d 8 2 = 1)
    (hr : fieldAt d 6 2 = nth 0 (s.ep e).image.got k) (hl : d.length = 12 + s.ewidth e * lineBytes (s.eget e 0x09)) :
    s.lineData e d n true = s.takeLine e k (ethLine (s.eget e 0x09) (s.ewidth e) (d.drop 12)) := by
  have hbad : (decide (d.length < 12) || decide (slice d 0 4 ≠ lineMagic) || decide (2 < k) || decide (s.exposures e ≤ k)) = false := by
    rw [decide_eq_false (Nat.not_lt.mpr h12), decide_eq_false (not_not.mpr hm), decide_eq_false (by omega), decide_eq_false (by omega)]
    rfl
  have hslice : slice d (12 + 0 * (s.ewidth e * lineBytes (s.eget e 0x09))) (s.ewidth e * lineBytes (s.eget e 0x09)) = d.drop 12 := by
    rw [slice, Nat.zero_mul, Nat.add_zero]
    exact List.take_of_length_le (by rw [List.length_drop]; omega)
  have hlines : s.takeLines e k d 1 = s.takeLine e k (ethLine (s.eget e 0x09) (s.ewidth e) (d.drop 12)) := by
    rw [← hslice]
    rfl
  have hin' : (!((s.ep e).image.isOpen && nth false (s.ep e).image.began k && !nth false (s.ep e).image.ended k)) = false := by
    rw [← State.inImage, hin]
    rfl
  have hnext : (decide (fieldAt d 6 2 = nth 0 (s.ep e).image.got k) && decide (1 ≤ 1)) = true := by simp [hr]
  rw [← hlines]
  unfold State.lineData
  dsimp only
  rw [hd, hf, hn, hbad, if_neg Bool.false_ne_true, if_neg (show ¬ bitAt 0 0 = true by decide), if_neg (show ¬ bitAt 0 1 = true by decide),
    hin', if_neg Bool.false_ne_true, hnext]
  simp only [↓reduceIte]
  rw [if_pos (by rw [hl, Nat.one_mul])]

end LineDatagrams

end Images

/-- Settles O55: a Frame Start by `frameBegin_opens` and `openImage_shows`, a Frame End by `frameFinish_shows`, a line by `lineIn_shows`
and `badCrc_shows`, a line dropped by `overrun_shows`, a bad header by `badHeader_shows`, and a datagram by `lineData_line`. -/
theorem imagesOpenTakeLinesAndClose : Obligations.ImagesOpenTakeLinesAndClose := by
  intro s ep inf e k x im isIn row level hp
  have he : e < 192 := ep.isLt
  have fresh {l : List Field} (hl : Field.sent ∈ l) : SameBut l s s.fresh := (SameBut.fresh s).mono (by simpa using hl)
  have timed {l : List Field} (n : Nat) (hl : ∀ f ∈ [Field.sent, .timeNs], f ∈ l) : SameBut l s (s.fresh.atTime n) :=
    (SameBut.atTime s n).mono hl
  have inside (h : isIn) : s.inImage e k = true := by
    obtain ⟨ho, hb, hn⟩ := h
    rw [State.inImage, ho, hb, hn]
    rfl
  refine ⟨fun num n hecc hk ho hc hn => ?_, fun hecc hin ho hk hx => ?_, fun dt d hecc => ⟨fun ha ok => ?_, fun ha hdt hin hk =>
    ⟨fun hc h9 hl hr hlev => ?_, fun hc h1 hf hlev => ?_, ?_⟩⟩, fun hecc num n dt d ok c hm => ?_, fun g n hg h3 =>
    ⟨fun hb ok => ?_, fun hok h12 hm hd hx hfl hone hnext hlen hin hk hr hlev => ?_⟩⟩
  · have h := (frameStart_good (s := s.fresh.atTime n) hecc hp num n).trans (frameBegin_opens (s := s.fresh.atTime n) hk ho hn n)
    obtain ⟨hep, hraw, hview, hs⟩ := openImage_shows (s := (s.fresh.atTime n).numbered e k num) (k := k)
      (by rw [State.eget, dget_of_sameBut (numbered_same _ e k num) (by decide)]; exact hc) num n
    refine gives_of_eq (congrArg Host.Outcome.next h) ⟨?_, hraw, hview, fun hk0 => ?_, ?_⟩
    · rw [hep]
      exact congrArg (startedImage k num n) (dget_of_sameBut (numbered_same (s.fresh.atTime n) e k num) (by decide) _ _)
    · rw [hep, numbered_ep, if_pos hk0]
    · exact ((timed n (by decide)).step (numbered_same _ e k num) (by decide)).step hs (by decide)
  · exact gives_of_eq (congrArg Host.Outcome.next (frameEnd_good (s := s.fresh) hecc hp))
      (frameFinish_shows (s := s.fresh) he (inside hin) ho hk)
  · exact gives_of_eq (congrArg Host.Outcome.next (longPacket_discarded s.fresh e hecc ha d ok))
      ⟨get_bump _ _, (fresh (by decide)).step (.setDiscards _ _) (by decide)⟩
  · have hf : s.lineFits e dt.toNat d = true := by
      rw [State.lineFits, ← h9, hl]
      simp
    have h : s.fresh.longPacket e inf dt.toNat d true = s.fresh.lineIn e k (csiLine dt.toNat (s.ewidth e) d) := by
      rw [longPacket_image hecc ha (fun h => hdt (BitVec.eq_of_toNat_eq h)), lineChecks_passed (s := s.fresh) hc hf,
        imageLine_taken (s := s.fresh) hp (inside hin), hc, show s.fresh.lineFits e dt.toNat d = true from hf, Bool.and_self, if_pos rfl,
        h9]
      exact takeLine_level (s := s.fresh) (inside hin) hlev
    obtain ⟨hraw, hep, hs⟩ := lineIn_shows s.fresh e k (csiLine dt.toNat (s.ewidth e) d) hr
    exact gives_of_eq (congrArg Host.Outcome.next h) ⟨hraw, hep, (fresh (by decide)).step hs (by decide)⟩
  · have h : s.fresh.longPacket e inf dt.toNat d true = (s.fresh.lineChecks e inf dt.toNat d).imageLine e inf dt.toNat d true :=
      longPacket_image hecc ha (fun h => hdt (BitVec.eq_of_toNat_eq h)) true
    exact gives_of_eq (congrArg Host.Outcome.next h) (badCrc_shows (s := s.fresh) he h1 hp (inside hin) hc hf hlev)
  · exact gives_of_eq rfl (longPacket_dropped (s := s.fresh) he hecc ha (fun h => hdt (BitVec.eq_of_toNat_eq h)) hp (inside hin))
  · have hbad := badHeader_shows s.fresh he
    have hbadn := badHeader_shows (s.fresh.atTime n) he
    simp only [List.mem_cons, List.not_mem_nil, or_false] at hm
    obtain rfl | rfl | rfl := hm
    · exact gives_of_eq (congrArg Host.Outcome.next (frameStart_bad (s.fresh.atTime n) e hecc num n)) hbadn
    · exact gives_of_eq (congrArg Host.Outcome.next (frameEnd_bad s.fresh e hecc)) hbad
    · exact gives_of_eq (congrArg Host.Outcome.next (longPacket_bad s.fresh e hecc dt.toNat d ok)) hbad
  · have h := lineDatagram_of (s := s.fresh.atTime n) hg h3 n ok
    rw [hb] at h
    exact gives_of_eq (congrArg Host.Outcome.next h) (dropDatagram_shows (s.fresh.atTime n) he)
  · have h := lineDatagram_of (s := s.fresh.atTime n) hg h3 n true
    rw [hok, show (s.fresh.atTime n).pipeOn e = true from hp, lineData_line (s := s.fresh.atTime n) hx inf.exposure.isLt (inside hin) h12 hm
      hd hfl hone hnext hlen, takeLine_level (s := s.fresh.atTime n) (inside hin) hlev] at h
    obtain ⟨hraw, hep, hs⟩ := lineIn_shows (s.fresh.atTime n) e k
      (ethLine (s.eget e 0x09) (s.ewidth e) (g.payload.drop 12)) hr
    exact gives_of_eq (congrArg Host.Outcome.next h) ⟨hraw, hep, (timed n (by decide)).step hs (by decide)⟩

end Sys2Proof.Machine

/-! PROOFS. Deliveries: what a put of the tensoriser leaves alone, the next stripe of a view, and zero tensors (R59, R60, R84, R94–R96). -/

namespace Sys2Proof.Machine

section Deliveries

variable {s t u : State} {l m : List Field}

/-! ### What a delivery changes -/

/-- The fields that a delivery changes: its view, the copy that it is put into, and the event log. -/
def deliveryFields : List Field := [.views, .ctxs, .poison, .flags, .overruns] ++ logFields

/-- The entries that a delivery changes: the tensoriser's, and what the window's owner counts. -/
def deliveryEntries : List (Nat × Nat) :=
  logEntries ++ [(0x2400, 0x0A), (0x2400, 0x06), (0x2400, 0x05), (0x2500, 0x2E)] ++
    (List.range 64).flatMap fun k => [(0x2600 + k, 0x16), (0x2600 + k, 0x37)]

theorem owner_counts {k b : Nat} (hk : k < 64) (hb : b = 0x16 ∨ b = 0x37) : (0x2600 + k, b) ∈ deliveryEntries := by
  refine List.mem_append_right _ (List.mem_flatMap.mpr ⟨k, List.mem_range.mpr hk, ?_⟩)
  rcases hb with rfl | rfl
  · exact List.mem_cons_self
  · exact List.mem_cons_of_mem _ List.mem_cons_self

/-- An entry below the tensoriser's objects is none of them. -/
theorem low_not_delivery {i b : Nat} (hi : 0x1001 < i) (hi' : i < 0x2400) : (i, b) ∉ deliveryEntries := by
  intro h
  simp only [deliveryEntries, logEntries, List.mem_append, List.mem_flatMap, List.mem_cons, List.not_mem_nil, Prod.mk.injEq, or_false] at h
  obtain h | ⟨k, -, h⟩ := h <;> omega

/-- An update of fields that no entry is read from. -/
theorem DictBut.of_unread {d : List (Nat × Nat)} (h : SameBut l s t)
    (hl : ∀ f ∈ [Field.dict, .fuses, .safeState, .busOffRecent, .logOpen], f ∉ l) : DictBut d s t :=
  .of_same (h .dict (hl _ (by decide))) (h .fuses (hl _ (by decide)))
    (errorRegister_congr (h .dict (hl _ (by decide))) (h .safeState (hl _ (by decide)))
      (h .busOffRecent (hl _ (by decide))) (h .logOpen (hl _ (by decide))))

/-- What a delivery leaves as it was; of a view whether it is done. -/
structure Delivers (s t : State) : Prop where
  same : SameBut deliveryFields s t
  dict : DictBut deliveryEntries s t
  done : ∀ v, (t.view v).done = (s.view v).done

/-- What is updated in a delivery beside views and entries. -/
def copyFields : List Field := [.ctxs, .mem, .poison, .flags, .overruns]

theorem view_congr (h : t.views = s.views) (v : Nat) : t.view v = s.view v := by rw [State.view, h, State.view]

namespace Delivers

theorem refl (s : State) : Delivers s s := ⟨.refl _ s, .refl _ s, fun _ => rfl⟩

theorem trans (h : Delivers s t) (k : Delivers t u) : Delivers s u :=
  ⟨h.same.trans k.same, h.dict.trans k.dict, fun v => (k.done v).trans (h.done v)⟩

theorem copied (h : Delivers s t) (k : SameBut m t u) (hm : ∀ f ∈ m, f ∈ copyFields) : Delivers s u := by
  have k' : SameBut copyFields t u := k.mono hm
  exact h.trans ⟨k'.mono (by decide), .of_unread k' (by decide), fun v => by rw [view_congr (k' .views (by decide))]⟩

theorem dset {i b : Nat} (h : Delivers s t) (v : Nat) (hm : (i, b) ∈ deliveryEntries) (hb : b < 256) (hn : (i, b) ≠ (0x2500, 0x4A))
    (ho : (i, b) ≠ (0x2500, 0x05)) : Delivers s (t.dset i b v) :=
  h.trans ⟨(SameBut.dset t i b v).mono (by decide), (DictBut.dset t i b v hb hn ho).mono (by simpa using hm), fun _ => rfl⟩

theorem setView {v : Nat} {x : ViewState} (h : Delivers s t) (hx : x.done = (t.view v).done) : Delivers s (t.setView v x) :=
  h.trans ⟨(SameBut.setView t v x).mono (by decide), .of_unread (SameBut.setView t v x) (by decide), fun w => by
    rw [view_after_setView]
    split
    · rename_i hw
      rw [hx, hw]
    · rfl⟩

theorem report (h : Delivers s t) (code unit origin : Nat) (detail : List Byte) : Delivers s (t.report code unit origin detail) := by
  have k : Logged t (t.report code unit origin detail) := .report t code unit origin detail false
  exact h.trans ⟨k.same.mono (by decide), k.dict.mono fun e he => List.mem_append_left _ (List.mem_append_left _ he),
    fun v => by rw [view_congr (k.same .views (by decide))]⟩

theorem cbump {k b : Nat} (h : Delivers s t) (hk : k < 64) (hb : b = 0x16 ∨ b = 0x37) : Delivers s (t.cbump k b) :=
  h.dset _ (owner_counts hk hb) (by omega) (by simp; omega) (by simp; omega)

theorem ite {c : Prop} {_ : Decidable c} (h : Delivers s t) (k : Delivers s u) : Delivers s (if c then t else u) := by
  split
  · exact h
  · exact k

theorem foldS {α : Type} {as : List α} {f : State → α → State} (h : Delivers s t) (hf : ∀ x a, Delivers s x → Delivers s (f x a)) :
    Delivers s (foldS as f t) := by
  induction as generalizing t with
  | nil => exact h
  | cons a as ih => exact ih (hf t a h)

end Delivers

/-! ### The copy of the window's owner -/

theorem wnOwner_lt (e : BitVec 128) : wnOwner e < 64 := Nat.mod_lt _ (by decide)

theorem SameBut.kSetWord (s : State) (k w : Nat) (v : SWord) (p : Bool) : SameBut copyFields s (s.kSetWord k w v p) := by
  unfold State.kSetWord
  split
  · intro f hf
    cases f
    case mem | poison => exact absurd (by decide) hf
    all_goals rfl
  · split
    · exact (SameBut.setCtx s k _).mono (by decide)
    · exact .refl _ s

theorem SameBut.kPutFlag (s : State) (k f : Nat) (b : Bool) : SameBut copyFields s (s.kPutFlag k f b) := by
  unfold State.kPutFlag
  split
  · intro g hg
    cases g
    case flags => exact absurd (by decide) hg
    all_goals rfl
  · exact (SameBut.setCtx s k _).mono (by decide)

theorem SameBut.setOverruns (s : State) (m : KV Nat) : SameBut copyFields s { s with overruns := m } := by
  intro f hf
  cases f
  case overruns => exact absurd (by decide) hf
  all_goals rfl

theorem Delivers.putWords (h : Delivers s t) (k a : Nat) (ws : List SWord) (p : Bool) : Delivers s (t.putWords k a ws p) :=
  h.foldS fun x y hx => hx.copied (.kSetWord x k (a + y.1) y.2 p) fun _ => id

theorem Delivers.noteSaved {k : Nat} (h : Delivers s t) (hk : k < 64) : Delivers s (t.noteSaved k) := .ite h (h.cbump hk (.inl rfl))

theorem Delivers.kSetFlag {k f : Nat} (h : Delivers s t) (hk : k < 64) : Delivers s (t.kSetFlag k f) :=
  .ite ((h.copied (.setOverruns t _) fun _ => id).cbump hk (.inr rfl)) (h.copied (.kPutFlag t k f true) fun _ => id)

/-- A flag that is set is set, whether it was before or not. -/
theorem kFlag_kSetFlag (s : State) (k f : Nat) : (s.kSetFlag k f).kFlag k f = true := by
  unfold State.kSetFlag
  split
  · rename_i hf
    have hl (m : KV Nat) : ({ s with overruns := m }.cbump k 0x37).isLive k = s.isLive k :=
      isLive_congr (cget_cbump_ne _ (by decide) (by decide) (by decide)) (cget_cbump_ne _ (by decide) (by decide) (by decide)) rfl
    have hc (m : KV Nat) : ({ s with overruns := m }.cbump k 0x37).ccore k = s.ccore k :=
      ccore_congr (cget_cbump_ne _ (by decide) (by decide) (by decide)) (cget_cbump_ne _ (by decide) (by decide) (by decide)) rfl
    rw [State.kFlag, hl, hc]
    exact hf
  · unfold State.kPutFlag
    split
    · rename_i hl
      rw [State.kFlag, if_pos (show (s.putFlag (s.ccore k) f true).isLive k = true from hl)]
      exact State.flag_putFlag (s := s) (s.ccore k) f true
    · rename_i hl
      rw [State.kFlag, setSaved_isLive, if_neg hl]
      simp [State.saved, State.setSaved]

/-! ### Puts of the tensoriser -/

variable {key e c w v i g : Nat} {off : Nat} {ws : List SWord}

theorem tsrReport_delivers (s : State) (code unit : Nat) : Delivers s (s.tsrReport code unit) :=
  ((Delivers.refl s).report _ _ _ _).dset _ (by decide) (by decide) (by decide) (by decide)

theorem deliveryNack_delivers (s : State) (code c w : Nat) : Delivers s (s.deliveryNack code c w) :=
  ((Delivers.refl s).report _ _ _ _).dset _ (by decide) (by decide) (by decide) (by decide)

theorem endDelivery_delivers (s : State) (key e c w : Nat) : Delivers s (s.endDelivery key e c w) := by
  have h : Delivers s (s.setView key { s.view key with ended := true, valid := false }) := (Delivers.refl s).setView rfl
  exact ((h.report codeDelivery (ucEndpoint e) _ []).dset codeDelivery (b := 0x0A) (by decide) (by decide) (by decide) (by decide)).dset _
    (b := 0x06) (by decide) (by decide) (by decide) (by decide)

theorem windowCheck_congr (hw : t.windows = s.windows) (hp : t.parts = s.parts) (rights : List Nat) (off n : Nat) :
    t.windowCheck c w g 8 rights off n = s.windowCheck c w g 8 rights off n := by
  unfold State.windowCheck State.win State.isFenced State.part
  rw [hw, hp]

/-- The words of a put that is not refused, at the window owner's copy. -/
def State.putIn (s : State) (c w off : Nat) (ws : List SWord) : State :=
  let k := wnOwner (s.win c w)
  let s := foldS (List.range (cdiv ws.length 8)) (fun s _ => s.noteSaved k) s
  s.putWords k (wnBase (s.win c w) + off) ws false

theorem putIn_delivers (s : State) (c w off : Nat) (ws : List SWord) : Delivers s (s.putIn c w off ws) :=
  ((Delivers.refl s).foldS fun _ _ h => h.noteSaved (wnOwner_lt _)).putWords _ _ _ _

/-- Words of a context and arrivals for it are none of a view's. -/
theorem putIn_view (s : State) (c w off : Nat) (ws : List SWord) (v : Nat) : (s.putIn c w off ws).view v = s.view v := by
  have note (k : Nat) (t : State) : SameBut (.dict :: copyFields) t (t.noteSaved k) :=
    .ite (.refl _ t) ((SameBut.dbump t _ _).mono (by decide))
  have h : SameBut (.dict :: copyFields) s (s.putIn c w off ws) :=
    .foldS (.foldS (.refl _ s) fun _ _ => note _ _) fun t x => (SameBut.kSetWord t _ _ _ _).mono (by decide)
  exact view_congr (h .views (by decide)) v

/-- The generation that addresses a delivery is kept. -/
def State.genKept (s : State) (key g : Nat) : State := s.setView key { s.view key with gen := some g }

theorem genKept_delivers (s : State) (key g : Nat) : Delivers s (s.genKept key g) := (Delivers.refl s).setView rfl

theorem tsrPut_cases (s : State) (key e c w off : Nat) (ws : List SWord) :
    (s.deliveryGen key c w = none → s.tsrPut key e c w off ws = (s.endDelivery key e c w, false)) ∧
      ∀ g, s.deliveryGen key c w = some g →
        (∀ code, s.windowCheck c w g 8 [rPut] off ws.length = some code →
          s.tsrPut key e c w off ws = (((s.genKept key g).deliveryNack code c w).endDelivery key e c w, false)) ∧
        (s.windowCheck c w g 8 [rPut] off ws.length = none → s.tsrPut key e c w off ws = ((s.genKept key g).putIn c w off ws, true)) := by
  unfold State.tsrPut
  refine ⟨fun h => by rw [h], fun g h => ?_⟩
  rw [h]
  have hc : (s.genKept key g).windowCheck c w g 8 [rPut] off ws.length = s.windowCheck c w g 8 [rPut] off ws.length :=
    windowCheck_congr rfl rfl _ _ _
  dsimp only
  rw [← State.genKept, hc]
  exact ⟨fun code h => by rw [h], fun h => by rw [h]; rfl⟩

theorem tsrPut_delivers (s : State) (key e c w off : Nat) (ws : List SWord) : Delivers s (s.tsrPut key e c w off ws).1 := by
  obtain ⟨hnone, hsome⟩ := tsrPut_cases s key e c w off ws
  cases hg : s.deliveryGen key c w with
  | none =>
    rw [hnone hg]
    exact endDelivery_delivers s key e c w
  | some g =>
    obtain ⟨hbad, hgood⟩ := hsome g hg
    cases hc : s.windowCheck c w g 8 [rPut] off ws.length with
    | some code =>
      rw [hbad code hc]
      exact ((genKept_delivers s key g).trans (deliveryNack_delivers _ code c w)).trans (endDelivery_delivers _ key e c w)
    | none =>
      rw [hgood hc]
      exact (genKept_delivers s key g).trans (putIn_delivers _ c w off ws)

/-! ### One stripe -/

/-- The core and the window that a view is delivered to. -/
abbrev State.viewCore (s : State) (v : Nat) : Nat := ViewRec.core (s.viewRec v)
abbrev State.viewWin (s : State) (v : Nat) : Nat := ViewRec.win (s.viewRec v)

/-- The flag of stripe `i` of view `v`. -/
def State.flagOf (s : State) (v i : Nat) : Nat := 32 + (ViewRec.flag (s.viewRec v) + i % ViewRec.flags (s.viewRec v)) % 32

/-- A flag set already is an overrun. -/
def State.flagged (s : State) (k f e : Nat) : State :=
  (if s.kFlag k f then (s.tsrReport codeStripeOverrun (ucEndpoint e)).dbump 0x2400 0x05 else s).kSetFlag k f

theorem flagged_delivers (s : State) {k : Nat} (hk : k < 64) (f e : Nat) : Delivers s (s.flagged k f e) :=
  Delivers.kSetFlag (.ite ((tsrReport_delivers s _ _).dset _ (b := 0x05) (by decide) (by decide) (by decide) (by decide)) (.refl s)) hk

theorem flagged_view (s : State) (k f e v : Nat) : (s.flagged k f e).view v = s.view v := by
  have hset (t : State) : (t.kSetFlag k f).view v = t.view v := by
    unfold State.kSetFlag
    split
    · rfl
    · exact view_congr (SameBut.kPutFlag t k f true .views (by decide)) v
  unfold State.flagged
  rw [hset]
  split
  · exact view_congr ((tsrReport_framed s codeStripeOverrun (ucEndpoint e)).same .views (by decide)) v
  · rfl

theorem stripeFlag_cases (s : State) (v i : Nat) : let d := s.viewRec v; let c := ViewRec.core d; let w := ViewRec.win d
    (s.deliveryGen v c w = none → s.stripeFlag v i = s.endDelivery v (v / 4) c w) ∧
      ∀ g, s.deliveryGen v c w = some g →
        (∀ code, s.windowCheck c w g 8 [rPut, rFlag] (stripeOff d i) 1 = some code →
          s.stripeFlag v i = (s.deliveryNack code c w).endDelivery v (v / 4) c w) ∧
        (s.windowCheck c w g 8 [rPut, rFlag] (stripeOff d i) 1 = none →
          s.stripeFlag v i = s.flagged (wnOwner (s.win c w)) (s.flagOf v i) (v / 4)) := by
  unfold State.stripeFlag
  dsimp only
  refine ⟨fun h => by rw [h], fun g h => ?_⟩
  rw [h]
  exact ⟨fun code h => by dsimp only; rw [h], fun h => by dsimp only; rw [h]; rfl⟩

theorem stripeFlag_delivers (s : State) (v i : Nat) : Delivers s (s.stripeFlag v i) := by
  obtain ⟨hnone, hsome⟩ := stripeFlag_cases s v i
  cases hg : s.deliveryGen v (s.viewCore v) (s.viewWin v) with
  | none =>
    rw [hnone hg]
    exact endDelivery_delivers s _ _ _ _
  | some g =>
    obtain ⟨hbad, hgood⟩ := hsome g hg
    cases hc : s.windowCheck (s.viewCore v) (s.viewWin v) g 8 [rPut, rFlag] (stripeOff (s.viewRec v) i) 1 with
    | some code =>
      rw [hbad code hc]
      exact (deliveryNack_delivers s code _ _).trans (endDelivery_delivers _ _ _ _ _)
    | none =>
      rw [hgood hc]
      exact flagged_delivers s (wnOwner_lt _) _ _

theorem putStripe_delivers (s : State) (v i : Nat) (ws : List SWord) (desc : Option SWord) : Delivers s (s.putStripe v i ws desc) := by
  have put (t : State) (off : Nat) (ws : List SWord) := tsrPut_delivers t v (v / 4) (s.viewCore v) (s.viewWin v) off ws
  unfold State.putStripe
  dsimp only
  refine .ite ((Delivers.refl s).setView rfl) (.ite (endDelivery_delivers s _ _ _ _) ?_)
  have h₁ := put s (stripeOff (s.viewRec v) i) ws
  generalize s.tsrPut v (v / 4) (s.viewCore v) (s.viewWin v) (stripeOff (s.viewRec v) i) ws = p at h₁ ⊢
  obtain ⟨t, _ | _⟩ := p
  · exact h₁
  · cases desc with
    | none => exact h₁.trans (stripeFlag_delivers t v i)
    | some x =>
      have h₂ := put t (ViewRec.off (s.viewRec v)) [x]
      dsimp only
      generalize t.tsrPut v (v / 4) (s.viewCore v) (s.viewWin v) (ViewRec.off (s.viewRec v)) [x] = q at h₂ ⊢
      obtain ⟨u, _ | _⟩ := q
      · exact h₁.trans h₂
      · exact (h₁.trans h₂).trans (stripeFlag_delivers u v i)

theorem viewRec_congr (h : t.tables = s.tables) (v : Nat) : t.viewRec v = s.viewRec v := by
  unfold State.viewRec State.tblBytes
  rw [h]

/-- Where the window takes the put and the signal, the stripe's flag is set at the window's owner, and the view's deliveries go on. -/
theorem putStripe_signals {ws : List SWord} (hv : (s.view v).ended = false) (hf : s.viewFlagsOk v = true)
    (hg : s.deliveryGen v (s.viewCore v) (s.viewWin v) = some g)
    (hput : s.windowCheck (s.viewCore v) (s.viewWin v) g 8 [rPut] (stripeOff (s.viewRec v) i) ws.length = none)
    (hsig : s.windowCheck (s.viewCore v) (s.viewWin v) g 8 [rPut, rFlag] (stripeOff (s.viewRec v) i) 1 = none) :
    let t := s.putStripe v i ws none
    t.kFlag (wnOwner (s.win (s.viewCore v) (s.viewWin v))) (s.flagOf v i) = true ∧ (t.view v).ended = false := by
  have hp := ((tsrPut_cases s v (v / 4) (s.viewCore v) (s.viewWin v) (stripeOff (s.viewRec v) i) ws).2 g hg).2 hput
  have hd := (genKept_delivers s v g).trans (putIn_delivers (s.genKept v g) (s.viewCore v) (s.viewWin v)
    (stripeOff (s.viewRec v) i) ws)
  have hview : (((s.genKept v g).putIn (s.viewCore v) (s.viewWin v) (stripeOff (s.viewRec v) i) ws).view v) =
      { s.view v with gen := some g } := (putIn_view _ _ _ _ _ v).trans (State.view_setView _ _ _)
  have hput' : s.putStripe v i ws none =
      ((s.genKept v g).putIn (s.viewCore v) (s.viewWin v) (stripeOff (s.viewRec v) i) ws).stripeFlag v i := by
    unfold State.putStripe State.viewEnded
    dsimp only
    rw [hv, if_neg Bool.false_ne_true, hf, Bool.not_true, Bool.and_false, if_neg Bool.false_ne_true, hp]
  generalize (s.genKept v g).putIn (s.viewCore v) (s.viewWin v) (stripeOff (s.viewRec v) i) ws = t at *
  have hrec : t.viewRec v = s.viewRec v := viewRec_congr (hd.same .tables (by decide)) v
  have hgen : t.deliveryGen v (s.viewCore v) (s.viewWin v) = some g := by rw [State.deliveryGen, hview]
  have hwin : t.win (s.viewCore v) (s.viewWin v) = s.win (s.viewCore v) (s.viewWin v) := by
    rw [State.win, hd.same .windows (by decide), State.win]
  have hflag : t.flagOf v i = s.flagOf v i := by rw [State.flagOf, hrec, State.flagOf]
  have hc := (stripeFlag_cases t v i).2 g (by rw [hrec]; exact hgen)
  rw [hrec] at hc
  have hset := hc.2 ((windowCheck_congr (hd.same .windows (by decide)) (hd.same .parts (by decide)) _ _ _).trans hsig)
  rw [hwin, hflag] at hset
  rw [hput', hset]
  exact ⟨kFlag_kSetFlag _ _ _, by rw [flagged_view, hview, hv]⟩

/-- A record that names flags beside the owner's ends its deliveries. -/
theorem putStripe_unmasked {ws : List SWord} {desc : Option SWord} (hv : (s.view v).ended = false) (hf : s.viewFlagsOk v = false)
    (hg : s.deliveryGen v (s.viewCore v) (s.viewWin v) = some g) : let t := s.putStripe v i ws desc
    (t.view v).ended = true ∧ t.flags = s.flags ∧ t.ctxs = s.ctxs := by
  have h : s.putStripe v i ws desc = s.endDelivery v (v / 4) (s.viewCore v) (s.viewWin v) := by
    unfold State.putStripe State.viewEnded
    dsimp only
    rw [hv, if_neg Bool.false_ne_true, hf, hg]
    rfl
  have hl : SameBut logFields (s.setView v { s.view v with ended := true, valid := false })
      (s.endDelivery v (v / 4) (s.viewCore v) (s.viewWin v)) := by
    have k := (Logged.report (s.setView v { s.view v with ended := true, valid := false }) codeDelivery (ucEndpoint (v / 4))
      (if s.isFenced (s.viewCore v / 2) then ucPart (s.viewCore v / 2)
        else ucWindow (s.viewCore v) (s.viewWin v)) [] false).same
    exact (k.step (SameBut.dset _ _ _ _) (by decide)).step (SameBut.dbump _ _ _) (by decide)
  rw [h]
  exact ⟨by rw [view_congr (hl .views (by decide)), State.view_setView], hl .flags (by decide), hl .ctxs (by decide)⟩

/-! ### Stripes of an image (R84) -/

theorem length_stripeWords (s : State) (v i : Nat) (zero : Bool) :
    (s.stripeWords v i zero).length = stripeRowsOf (s.viewRec v) i * ViewRec.wp (s.viewRec v) := by
  simp [State.stripeWords, List.length_flatMap]

/-- Stripe `i` of a view is out. -/
def State.stripeOut (s : State) (v i : Nat) (ok : Bool) : State :=
  s.setView v { s.view v with stripe := i + 1, valid := (s.view v).valid && ok }

theorem stripeOut_view (s : State) (v i : Nat) (ok : Bool) :
    (s.stripeOut v i ok).view v = { s.view v with stripe := i + 1, valid := (s.view v).valid && ok } := State.view_setView _ _ _

/-- A stripe of an open image whose lines have entered, not the last. -/
theorem imageStripe_next (ha : (s.ep (v / 4)).image.any = true) (hd : (s.view v).done = false) (ho : (s.ep (v / 4)).image.isOpen = true)
    (hi : (s.view v).stripe + 1 ≠ ViewRec.stripes (s.viewRec v)) (hl : s.linesNeeded v (s.view v).stripe ≤ s.linesIn (v / 4)) :
    s.imageStripe v false =
      (s.putStripe v (s.view v).stripe (s.stripeWords v (s.view v).stripe false) none).stripeOut v (s.view v).stripe true := by
  have hlast : ((s.view v).stripe + 1 == ViewRec.stripes (s.viewRec v)) = false := by simpa using hi
  unfold State.imageStripe
  dsimp only
  rw [if_neg (by simp [ha, hd, ho, hlast, hl]), hlast, decide_eq_true hl]
  rfl

theorem stripeDelivery_image (hk : ViewRec.kind (s.viewRec v) ≠ 0) (hk5 : ViewRec.kind (s.viewRec v) < 5) (hp : s.pipeOn (v / 4) = true)
    (hb : s.built (v / 4) = true) : s.stripeDelivery v = s.imageStripe v false := by
  unfold State.stripeDelivery
  dsimp only
  rw [if_neg (by simp [hk, hp, hb]), if_neg (Nat.not_le.mpr hk5)]

theorem slotDelivered_same (s : State) (e n : Nat) (ok : Bool) : SameBut [.dict, .frame] s (s.slotDelivered e n ok) := by
  have h : SameBut [.dict, .frame] s (s.ebump e (if ok then 0x1E else 0x1F)) := (SameBut.dbump s _ _).mono (by decide)
  exact .ite (h.step (.setFrame _ _) (by decide)) h

theorem viewDone_view (s : State) (v n : Nat) : (s.viewDone v n).view v = { s.view v with done := true } := by
  have hd : (s.setView v { s.view v with done := true }).view v = { s.view v with done := true } := State.view_setView _ _ _
  unfold State.viewDone
  dsimp only
  split
  · split
    · rw [view_congr (slotDelivered_same _ _ _ _ .views (by decide)), hd]
    · exact hd
  · exact hd

/-- The last stripe of a closed image completes its view. -/
theorem imageStripe_last (ha : (s.ep (v / 4)).image.any = true) (hd : (s.view v).done = false) (ho : (s.ep (v / 4)).image.isOpen = false)
    (hi : (s.view v).stripe + 1 = ViewRec.stripes (s.viewRec v)) : let t := s.imageStripe v false
    (t.view v).stripe = (s.view v).stripe + 1 ∧ (t.view v).done = true := by
  have hlast : ((s.view v).stripe + 1 == ViewRec.stripes (s.viewRec v)) = true := by simpa using hi
  have out (t : State) (ok : Bool) (n : Nat) : let u := (t.stripeOut v (s.view v).stripe ok).viewDone v n
      (u.view v).stripe = (s.view v).stripe + 1 ∧ (u.view v).done = true := by
    dsimp only
    rw [viewDone_view, stripeOut_view]
    exact ⟨rfl, rfl⟩
  unfold State.imageStripe
  dsimp only
  rw [if_neg (by simp [ha, hd, ho]), hlast, if_pos rfl, if_pos rfl]
  exact out _ _ _

/-! ### Zero tensors (R59, R96) -/

/-- What a zero tensor's delivery leaves as it was; a view that is done stays done. -/
structure DeliversZeros (s t : State) : Prop where
  same : SameBut (.freeIx :: deliveryFields) s t
  dict : DictBut deliveryEntries s t
  done : ∀ v, (s.view v).done = true → (t.view v).done = true

namespace DeliversZeros

theorem refl (s : State) : DeliversZeros s s := ⟨.refl _ s, .refl _ s, fun _ => id⟩

theorem trans (h : DeliversZeros s t) (k : DeliversZeros t u) : DeliversZeros s u :=
  ⟨h.same.trans k.same, h.dict.trans k.dict, fun v hv => k.done v (h.done v hv)⟩

theorem of_delivers (h : Delivers s t) : DeliversZeros s t :=
  ⟨h.same.mono (by decide), h.dict, fun v hv => (h.done v).trans hv⟩

theorem freeStep (h : DeliversZeros s t) : DeliversZeros s t.freeStep :=
  h.trans ⟨(SameBut.freeStep t).mono (by decide), .of_unread (SameBut.freeStep t) (by decide), fun _ => id⟩

theorem setDone (h : DeliversZeros s t) (v : Nat) {x : ViewState} (hx : x.done = true) : DeliversZeros s (t.setView v x) :=
  h.trans ⟨(SameBut.setView t v x).mono (by decide), .of_unread (SameBut.setView t v x) (by decide), fun w hw => by
    rw [view_after_setView]
    split
    · exact hx
    · exact hw⟩

theorem foldS {α : Type} {as : List α} {f : State → α → State} (h : DeliversZeros s t)
    (hf : ∀ x a, DeliversZeros s x → DeliversZeros s (f x a)) : DeliversZeros s (foldS as f t) := by
  induction as generalizing t with
  | nil => exact h
  | cons a as ih => exact ih (hf t a h)

end DeliversZeros

theorem zeroView_delivers (s : State) (v : Nat) : DeliversZeros s (s.zeroView v) := by
  have puts (time : List Byte) (n : Nat) : DeliversZeros s (foldS (List.range n) (fun s i =>
      s.putStripe v i (s.stripeWords v i true) (if i + 1 = n then some (s.descriptor v s.frameNo false true time) else none)) s) :=
    .of_delivers ((Delivers.refl s).foldS fun x i h => h.trans (putStripe_delivers x v i _ _))
  unfold State.zeroView
  dsimp only
  split
  · exact ((puts _ _).setDone v rfl).freeStep
  · exact (puts _ _).freeStep

theorem slotDelivered_shows {e n : Nat} (he : e < 192) (ho : s.frame.isOpen = true) (hn : s.frame.n = n)
    (hd : e < s.frame.delivered.length) (hv : e < s.frame.valid.length) : let t := s.slotDelivered e n false
    nth false t.frame.delivered e = true ∧ nth false t.frame.valid e = false ∧ t.eget e 0x1F = (s.eget e 0x1F + 1) % 2 ^ 32 ∧
      t.eget e 0x1E = s.eget e 0x1E := by
  have h : s.slotDelivered e n false = { s.ebump e 0x1F with
      frame := { s.frame with valid := setAt s.frame.valid e false, delivered := setAt s.frame.delivered e true } } :=
    if_pos (show (s.frame.isOpen && decide (s.frame.n = n)) = true by rw [ho, hn]; simp)
  rw [h]
  exact ⟨nth_setAt_same _ _ _ hd, nth_setAt_same _ _ _ hv, eget_ebump_same s e 0x1F,
    eget_ebump_ne s he (by decide) (by decide) (by decide)⟩

/-- The views that a zero tensor is delivered for. -/
def State.zeroViews (s : State) (e : Nat) : List Nat :=
  (s.viewsOf e).filter fun v => if s.eclass e = 3 then
    !(s.view v).done && (ViewRec.kind (s.viewRec v) == 6 || !(s.pipeOn e && (s.sweep e true).frame == s.frameNo)) else true

/-- A view of the slot takes part in its zero tensor, or is done. -/
theorem zeroViews_or_done (h : s.pipeOn e = false ∨ s.eclass e ≠ 3) (hm : v ∈ s.viewsOf e) :
    v ∈ s.zeroViews e ∨ (s.view v).done = true := by
  cases hd : (s.view v).done with
  | true => exact .inr rfl
  | false =>
    refine .inl (List.mem_filter.mpr ⟨hm, ?_⟩)
    split
    · rename_i h3
      rw [hd, h.resolve_right (not_not.mpr h3)]
      simp
    · rfl

theorem zeroTensor_idle {e n : Nat} (h : s.dev ≠ dsOp ∨ s.slotDone e = true ∨ s.viewsOf e = []) : s.zeroTensor e n = s := by
  refine if_neg ?_
  rcases h with h | h | h
  · simp [h]
  · simp [h]
  · simp [h]

/-- A slot without an input and without a tensor delivers zeros, whichever of its views are done. -/
theorem zeroTensor_shows {e n : Nat} (he : e < 192) (hop : s.dev = dsOp) (ho : s.frame.isOpen = true) (hn : s.frame.n = s.frameNo)
    (hs : s.slotDone e = false) (hv : s.viewsOf e ≠ []) (hi : s.inputMissing e n = true) (hx : s.pipeOn e = false ∨ s.eclass e ≠ 3)
    (hdl : e < s.frame.delivered.length) (hvl : e < s.frame.valid.length) : let t := s.zeroTensor e n
    nth false t.frame.delivered e = true ∧ nth false t.frame.valid e = false ∧ t.eget e 0x1F = (s.eget e 0x1F + 1) % 2 ^ 32 ∧
      t.eget e 0x1E = s.eget e 0x1E := by
  have hz : DeliversZeros s (foldS (s.zeroViews e) State.zeroView s) :=
    (DeliversZeros.refl s).foldS fun x v h => h.trans (zeroView_delivers x v)
  have ht : s.zeroTensor e n = if ((foldS (s.zeroViews e) State.zeroView s).viewsOf e).all (fun v => (s.zeroViews e).contains v ||
      ((foldS (s.zeroViews e) State.zeroView s).view v).done) then
        (foldS (s.zeroViews e) State.zeroView s).slotDelivered e (foldS (s.zeroViews e) State.zeroView s).frameNo false
      else foldS (s.zeroViews e) State.zeroView s := if_pos (by simp [hop, ho, hn, hs, hv, hi])
  rw [ht]
  generalize foldS (s.zeroViews e) State.zeroView s = u at hz ⊢
  have hf : u.frame = s.frame := hz.same .frame (by decide)
  have hget (b : Nat) (hb : b < 256) : u.eget e b = s.eget e b := hz.dict _ _ hb (low_not_delivery (by omega) (by omega))
  have hno : u.frameNo = s.frameNo := hz.dict _ _ (by decide) (by decide)
  have hviews : u.viewsOf e = s.viewsOf e := by
    unfold State.viewsOf
    simp only [viewRec_congr (hz.same .tables (by decide))]
  have hall : (u.viewsOf e).all (fun v => (s.zeroViews e).contains v || (u.view v).done) = true := by
    rw [hviews]
    refine List.all_eq_true.mpr fun v hm => ?_
    rcases zeroViews_or_done hx hm with h | h
    · simp [h]
    · simp [hz.done v h]
  rw [if_pos hall, ← hget 0x1F (by decide), ← hget 0x1E (by decide)]
  exact slotDelivered_shows he (by rw [hf, ho]) (by rw [hf, hn, hno]) (by rw [hf]; exact hdl) (by rw [hf]; exact hvl)

end Deliveries

/-- Settles O57: a stripe by `imageStripe_next` with `putStripe_signals` or `putStripe_unmasked`, the last one by `imageStripe_last`, and
a slot without an input by `zeroTensor_shows`. -/
theorem stripesAndZeroTensorsAreDelivered : Obligations.StripesAndZeroTensorsAreDelivered := by
  intro s ep e
  have he : e < 192 := ep.isLt
  refine ⟨fun w => ?_, fun n h => ?_, fun n hop ho hn hs hv hi hx hdl hvl => ?_⟩
  · intro v d x i im c o
    have hv4 : v / 4 = e := by
      have := w.isLt
      omega
    refine ⟨fun h => ?_, fun hk hk5 hp hb ha hd => ⟨fun ho hi hl => ?_, fun ho hi => ?_⟩⟩
    · have hidle : s.fresh.stripeDelivery v = s.fresh := by
        refine if_pos ?_
        rw [hv4]
        rcases h with h | h
        · simp [show ViewRec.kind (s.fresh.viewRec v) = 0 from h]
        · simp [show s.fresh.pipeOn e = false from h]
      exact gives_of_eq (congrArg Host.Outcome.next hidle) (SameBut.fresh s)
    · have hp' : s.fresh.pipeOn (v / 4) = true := by rw [hv4]; exact hp
      have hb' : s.fresh.built (v / 4) = true := by rw [hv4]; exact hb
      have hn : s.fresh.stripeDelivery v = (s.fresh.putStripe v i (s.fresh.stripeWords v i false) none).stripeOut v i true :=
        (stripeDelivery_image (s := s.fresh) hk hk5 hp' hb').trans (imageStripe_next (by rw [hv4]; exact ha) hd
          (by rw [hv4]; exact ho) hi (by rw [hv4]; exact hl))
      have hs := putStripe_delivers s.fresh v i (s.fresh.stripeWords v i false) none
      have hsig (g : Nat) (hend : x.ended = false) (hg : s.deliveryGen v c (ViewRec.win d) = some g) (hf : s.viewFlagsOk v = true) :=
        putStripe_signals (s := s.fresh) (ws := s.fresh.stripeWords v i false) (i := i) hend hf hg
      have hend (g : Nat) (hend : x.ended = false) (hg : s.deliveryGen v c (ViewRec.win d) = some g) (hf : s.viewFlagsOk v = false) :=
        putStripe_unmasked (s := s.fresh) (ws := s.fresh.stripeWords v i false) (i := i) (desc := none) hend hf hg
      dsimp only at hsig hend
      generalize s.fresh.putStripe v i (s.fresh.stripeWords v i false) none = u at hn hs hsig hend
      have hview := stripeOut_view u v i true
      refine gives_of_eq (congrArg Host.Outcome.next hn) ⟨by rw [hview],
        by rw [hview]; exact (hs.done v).trans hd, hs.same .freeIx (by decide), fun g h₁ h₂ h₃ h₄ h₅ => ?_, fun g h₁ h₂ h₃ => ?_⟩
      · rw [length_stripeWords] at h₄ hsig
        obtain ⟨hset, hended⟩ := hsig g h₁ h₂ h₃ h₄ h₅
        exact ⟨hset, by rw [hview]; exact hended⟩
      · obtain ⟨hended, hflags, hctxs⟩ := hend g h₁ h₂ h₃
        exact ⟨by rw [hview]; exact hended, hflags, hctxs⟩
    · have hp' : s.fresh.pipeOn (v / 4) = true := by rw [hv4]; exact hp
      have hb' : s.fresh.built (v / 4) = true := by rw [hv4]; exact hb
      exact gives_of_eq (congrArg Host.Outcome.next (stripeDelivery_image (s := s.fresh) hk hk5 hp' hb'))
        (imageStripe_last (s := s.fresh) (v := v) (by rw [hv4]; exact ha) hd (by rw [hv4]; exact ho) hi)
  · exact gives_of_eq (congrArg Host.Outcome.next (zeroTensor_idle (s := s.fresh.atTime n) h)) (SameBut.atTime s n)
  · exact gives_of_eq rfl (zeroTensor_shows (s := s.fresh.atTime n) he hop ho hn hs hv hi hx hdl hvl)

end Sys2Proof.Machine

/-! PROOFS. Sweeps: datagrams of points, a sweep's close, a frame without motion, and the deskew (R86, R87, R89, R90). -/

namespace Sys2Proof.Machine

section Sweeps

variable {s t u : State} {e v kind : Nat}

/-! ### Points (R86, R87) -/

theorem sweep_after_setSweep (s : State) (e : Nat) (prev : Bool) (x : Sweep) : (s.setSweep e prev x).sweep e prev = x := by
  cases prev
  · exact KV.get_set_same _ _ _ _
  · exact KV.get_set_same _ _ _ _

theorem sweep_congr (h : t.sweeps = s.sweeps) (e : Nat) : t.sweep e false = s.sweep e false :=
  congrArg (fun m => KV.get Sweep.zero m e) h

theorem spoilSweep_sweep (s : State) (e : Nat) (prev : Bool) :
    (s.spoilSweep e prev).sweep e prev = { s.sweep e prev with valid := false } := sweep_after_setSweep _ _ _ _

/-- Writing a point's record is a delivery, after which the sweep may be spoilt. -/
theorem writePoint_cases (s : State) (e i : Nat) (p : Point) :
    ∃ t, Delivers s t ∧ (s.writePoint e false i p = t ∨ s.writePoint e false i p = t.spoilSweep e false) := by
  have put (off : Nat) (word : SWord) := tsrPut_delivers s (pointKey e (s.sweep e false).frame) e (fieldAt (s.pipeRec e) 12 1)
    (fieldAt (s.pipeRec e) 13 1) off [word]
  unfold State.writePoint
  dsimp only
  split
  · exact ⟨s, .refl s, .inr rfl⟩
  · have h := put (fieldAt (s.pipeRec e) 16 4 + ((s.sweep e false).frame % 2 * fieldAt (s.pipeRec e) 20 4 + i) / 4)
    generalize s.tsrPut (pointKey e (s.sweep e false).frame) e (fieldAt (s.pipeRec e) 12 1) (fieldAt (s.pipeRec e) 13 1)
      (fieldAt (s.pipeRec e) 16 4 + ((s.sweep e false).frame % 2 * fieldAt (s.pipeRec e) 20 4 + i) / 4) = q at h ⊢
    split
    · rename_i t hq
      exact ⟨t, by rw [show t = (t, true).1 from rfl, ← hq]; exact h _, .inl rfl⟩
    · rename_i t hq
      exact ⟨t, by rw [show t = (t, false).1 from rfl, ← hq]; exact h _, .inr rfl⟩

/-- No point of the sweep changes with it. -/
theorem writePoint_points (s : State) (e i : Nat) (p : Point) :
    ((s.writePoint e false i p).sweep e false).points = (s.sweep e false).points := by
  obtain ⟨t, ht, h | h⟩ := writePoint_cases s e i p
  · rw [h, sweep_congr (ht.same .sweeps (by decide))]
  · rw [h, spoilSweep_sweep, sweep_congr (ht.same .sweeps (by decide))]

variable {p : Point} {tm : Int}

/-- A point at or after the tick, within capacity and range, joins the sweep collected now. -/
theorem takePoint_joins (ht : (s.tickNs : Int) ≤ tm) (ho : (tm - s.tickNs) / 2000 ≤ 65535)
    (hc : (s.sweep e false).points.length < fieldAt (s.pipeRec e) 20 4) : ((s.takePoint e p tm).sweep e false).points =
      (s.sweep e false).points ++ [{ p with offset := ((tm - s.tickNs) / 2000).toNat }] := by
  have hprev : decide (tm < (s.tickNs : Int)) = false := decide_eq_false (Int.not_lt.mpr ht)
  have h : s.takePoint e p tm = (s.setSweep e false { s.sweep e false with
      points := (s.sweep e false).points ++ [{ p with offset := ((tm - s.tickNs) / 2000).toNat }] }).writePoint e false
        (s.sweep e false).points.length { p with offset := ((tm - s.tickNs) / 2000).toNat } := by
    unfold State.takePoint
    dsimp only
    rw [hprev, if_neg Bool.false_ne_true, if_neg (Int.not_lt.mpr ht), if_neg (by simp [Nat.not_le.mpr hc, Int.not_lt.mpr ho])]
  rw [h, writePoint_points, sweep_after_setSweep]

/-! ### Datagrams (R35, R86) -/

section PointDatagrams

variable {g : Datagram} {d : List Byte} {n : Nat}

theorem pointDatagram_of (hd : s.datagramEp g = some e) (h3 : s.eclass e = 3) (n : Nat) : s.pointDatagram g n =
    if !g.checksOk then (s.dropDatagram e).spoilSweep e false else if s.pipeOn e then s.pointData e g.payload n else s := by
  unfold State.pointDatagram
  rw [hd]
  exact if_neg (not_not.mpr h3)

/-- A lidar datagram that R35 drops spoils the sweep. -/
theorem dropped_shows (s : State) (he : e < 192) : let t := (s.dropDatagram e).spoilSweep e false
    KV.get 0 t.dgramDrops e = KV.get 0 s.dgramDrops e + 1 ∧ (t.sweep e false).valid = false ∧
      (t.sweep e false).points = (s.sweep e false).points := by
  have h : (s.dropDatagram e).sweep e false = s.sweep e false := sweep_congr ((epReport_same s codeDgram he).same .sweeps (by decide)) e
  refine ⟨(dropDatagram_shows s he).1, ?_, ?_⟩
  · rw [spoilSweep_sweep]
  · rw [spoilSweep_sweep, h]

/-- Whether the datagram's magic field is the head's. -/
def State.magicOk (s : State) (e : Nat) (d : List Byte) : Bool :=
  specAt (s.calSec e 3) 12 d 0 == fieldAt (s.calSec e 3) 16 8 % 2 ^ specWidth (s.calSec e 3) 12

theorem pointData_badFormat (h : s.magicOk e d = false ∨ blocksOf (s.calSec e 3) d = none) :
    s.pointData e d n = (s.tsrReport codePointFormat (ucEndpoint e)).spoilSweep e false := by
  have h' : (if s.magicOk e d then blocksOf (s.calSec e 3) d else none) = none := by
    rcases h with h | h
    · exact if_neg (ne_true_of_eq_false h)
    · rw [h, ite_self]
  unfold State.pointData
  dsimp only
  rw [← State.magicOk, h']

theorem pointData_points {b : Nat} (hm : s.magicOk e d = true) (hb : blocksOf (s.calSec e 3) d = some b) : s.pointData e d n =
    foldS ((List.range b).flatMap (fun i => (List.range (pointsPerBlock (s.calSec e 3))).filterMap
      (fun j => readPoint (s.calSec e 3) (s.calSec e 4) d i j n))) (fun s p => s.takePoint e p.1 p.2) s := by
  unfold State.pointData
  dsimp only
  rw [← State.magicOk, hm, if_pos rfl, hb]

end PointDatagrams

/-! ### Views begin (R87, R90) -/

/-- A view is at its first stripe. -/
def State.atStart (s : State) (v : Nat) : Prop := (s.view v).stripe = 0 ∧ (s.view v).valid = true ∧ (s.view v).done = false

theorem atStart_setView (s : State) (v : Nat) : (s.setView v (s.view v).begun).atStart v := by
  rw [State.atStart, State.view_setView]
  exact ⟨rfl, rfl, rfl⟩

theorem State.atStart.setView (h : s.atStart v) (w : Nat) : (s.setView w (s.view w).begun).atStart v := by
  rw [State.atStart, view_after_setView]
  split
  · exact ⟨rfl, rfl, rfl⟩
  · exact h

/-- One view's turn. -/
def State.beginTurn (e kind : Nat) (s : State) (i : Nat) : State :=
  if ViewRec.kind (s.viewRec (4 * e + i)) = kind then s.setView (4 * e + i) (s.view (4 * e + i)).begun else s

theorem beginViews_turns (s : State) (e kind : Nat) : s.beginViews e kind = foldS [0, 1, 2, 3] (State.beginTurn e kind) s := rfl

theorem beginTurn_same (s : State) (e kind i : Nat) : SameBut [.views] s (s.beginTurn e kind i) := .ite (.setView s _ _) (.refl _ s)

theorem State.atStart.beginTurn (h : s.atStart v) (e kind i : Nat) : (s.beginTurn e kind i).atStart v := by
  unfold State.beginTurn
  split
  · exact h.setView _
  · exact h

theorem beginViews_same (s : State) (e kind : Nat) : SameBut [.views] s (s.beginViews e kind) :=
  .foldS (.refl _ s) fun x i => beginTurn_same x e kind i

theorem State.atStart.beginViews (h : s.atStart v) (e kind : Nat) : (s.beginViews e kind).atStart v := by
  rw [beginViews_turns]
  have fold (as : List Nat) (t : State) (ht : t.atStart v) : (foldS as (State.beginTurn e kind) t).atStart v := by
    induction as generalizing t with
    | nil => exact ht
    | cons i as ih => exact ih _ (ht.beginTurn e kind i)
  exact fold _ s h

/-- The views of the kind begin. -/
theorem beginViews_atStart {i : Nat} (hi : i < 4) (hk : ViewRec.kind (s.viewRec (4 * e + i)) = kind) :
    (s.beginViews e kind).atStart (4 * e + i) := by
  rw [beginViews_turns]
  refine foldS_reaches (I := fun t => t.tables = s.tables) (P := fun t => t.atStart (4 * e + i)) (a := i) _ s (by simp; omega) rfl
    (fun t b h => (beginTurn_same t e kind b .tables (by decide)).trans h) (fun t h => ?_) fun t b _ h => h.beginTurn e kind b
  rw [State.beginTurn, if_pos (by rw [viewRec_congr h]; exact hk)]
  exact atStart_setView t _

/-! ### A sweep closes and is deskewed (R87, R90) -/

theorem SameBut.setSweepPrev (s : State) (e : Nat) (x : Sweep) : SameBut [.sweepsPrev] s (s.setSweep e true x) := by
  intro f hf
  cases f
  case sweepsPrev => exact absurd (by decide) hf
  all_goals rfl

/-- A change of the sweep of the frame before, and its views begin. -/
theorem begunSweep_shows (s : State) (e kind : Nat) (x : Sweep) : let t := (s.setSweep e true x).beginViews e kind
    t.sweep e true = x ∧ (∀ i < 4, ViewRec.kind (s.viewRec (4 * e + i)) = kind → t.atStart (4 * e + i)) ∧
      SameBut [.sweepsPrev, .views] s t := by
  have hv := beginViews_same (s.setSweep e true x) e kind
  have hset := SameBut.setSweepPrev s e x
  have hx := sweep_after_setSweep s e true x
  generalize s.setSweep e true x = u at *
  refine ⟨?_, fun i hi hk => beginViews_atStart hi ?_, (hset.mono (by decide)).step hv (by decide)⟩
  · exact (congrArg (fun m => KV.get Sweep.zero m e) (hv .sweepsPrev (by decide))).trans hx
  · rw [viewRec_congr (hset .tables (by decide)), hk]

/-! ### Frames without motion (R89) -/

/-- That a frame has no motion is reported, with the endpoints that have pillar views or with the tensoriser. -/
def State.noMotion (s : State) (f : Nat) : State :=
  let s := { s with egoLate := s.egoLate ++ [f] }
  if s.pillarEps.isEmpty then s.tsrReport 0x101B ucTensor else foldS s.pillarEps (fun s e => s.tsrReport 0x101B (ucEndpoint e)) s

theorem SameBut.setEgoLate (s : State) (l : List Nat) : SameBut [.egoLate] s { s with egoLate := l } := by
  intro f hf
  cases f
  case egoLate => exact absurd (by decide) hf
  all_goals rfl

/-- The entries that a tensoriser report changes. -/
def tsrEntries : List (Nat × Nat) := (0x2400, 0x0A) :: logEntries

theorem noMotion_framed (s : State) (f : Nat) : Framed (.egoLate :: logFields) tsrEntries s (s.noMotion f) := by
  have h : Framed (.egoLate :: logFields) tsrEntries s { s with egoLate := s.egoLate ++ [f] } :=
    .then_same (.refl s) (.setEgoLate s _) (by decide) (by decide)
  exact .ite (h.step (tsrReport_framed _ _ _) (by decide) fun _ => id)
    (h.foldS fun x e _ hx => hx.step (tsrReport_framed x _ _) (by decide) fun _ => id)

theorem noMotion_shows (s : State) (f : Nat) : (s.noMotion f).egoLate = s.egoLate ++ [f] ∧ (s.noMotion f).dget 0x2400 0x0A = 0x101B := by
  have hlate (t : State) (code unit : Nat) : (t.tsrReport code unit).egoLate = t.egoLate :=
    (tsrReport_framed t code unit).same .egoLate (by decide)
  unfold State.noMotion
  dsimp only
  cases hp : ({ s with egoLate := s.egoLate ++ [f] } : State).pillarEps with
  | nil => exact ⟨hlate _ _ _, tsrReport_shows _ _ _⟩
  | cons e as =>
    refine ⟨?_, foldS_reaches (I := fun _ => True) (P := fun t => t.dget 0x2400 0x0A = 0x101B) (a := e) _ _ List.mem_cons_self trivial
      (fun _ _ _ => trivial) (fun t _ => tsrReport_shows _ _ _) fun t b _ _ => tsrReport_shows _ _ _⟩
    have fold (as : List Nat) (t : State) : (foldS as (fun s e => s.tsrReport 0x101B (ucEndpoint e)) t).egoLate = t.egoLate := by
      induction as generalizing t with
      | nil => rfl
      | cons a as ih => exact (ih _).trans (hlate _ _ _)
    exact fold _ _

/-- The pillar views of the sweep begin, without motion. -/
def State.pillarsBegin (s : State) : State :=
  foldS (List.range 192) (fun s e => if s.eclass e = 3 && s.pipeOn e then s.beginViews e 6 else s) s

theorem pillarsBegin_same (s : State) : SameBut [.views] s s.pillarsBegin :=
  .foldS (.refl _ s) fun x e => .ite (beginViews_same x e 6) (.refl _ x)

theorem pillarsBegin_atStart {i : Nat} (he : e < 192) (hi : i < 4) (h3 : s.eclass e = 3) (hp : s.pipeOn e = true)
    (hk : ViewRec.kind (s.viewRec (4 * e + i)) = 6) : s.pillarsBegin.atStart (4 * e + i) := by
  refine foldS_reaches (I := fun t => SameBut [.views] s t) (P := fun t => t.atStart (4 * e + i)) (a := e) _ s (List.mem_range.mpr he)
    (.refl _ s) (fun t b h => h.trans (.ite (beginViews_same t b 6) (.refl _ t))) (fun t h => ?_) fun t b _ h => ?_
  · have h3' : t.eclass e = 3 := (dget_of_sameBut h (by decide) _ _).trans h3
    have hp' : t.pipeOn e = true := (pipeOn_congr (dget_of_sameBut h (by decide) _ _) (h .eps (by decide))).trans hp
    rw [h3', hp']
    exact beginViews_atStart hi (by rw [viewRec_congr (h .tables (by decide))]; exact hk)
  · split
    · exact h.beginViews b 6
    · exact h

theorem noEgo_reported {f : Nat} (hd : s.dev = dsOp) (hf : f = s.frameNo ∨ (s.ticked = true ∧ nextFrame f = s.frameNo))
    (hm : KV.get [] s.motion f = []) (hl : f ∉ s.egoLate) :
    s.noEgo f = if f = (s.noMotion f).frameNo then (s.noMotion f).pillarsBegin else s.noMotion f :=
  if_pos (by
    rcases hf with rfl | ⟨ht, hf⟩
    · simp [hd, hm, hl]
    · simp [hd, hm, hl, ht, hf])

theorem noEgo_idle {f : Nat} (h : f ∈ s.egoLate) : s.noEgo f = s := if_neg (by simp [h])

/-- The frame shown does not depend on what a report changes. -/
theorem noMotion_frameNo (s : State) (f : Nat) : (s.noMotion f).frameNo = s.frameNo := (noMotion_framed s f).dict _ _ (by decide) (by decide)

end Sweeps

/-- Settles O56: points by `takePoint_joins`, a close and a deskew by `begunSweep_shows`, and a frame without motion by `noMotion_shows`
and `pillarsBegin_atStart`. -/
theorem sweepsCollectPointsAndClose : Obligations.SweepsCollectPointsAndClose := by
  intro s ep e sw begun hp h3
  have he : e < 192 := ep.isLt
  have hdev : s.dev = dsOp := by
    have h : (s.dev == dsOp) = true := (Bool.and_eq_true _ _ ▸ hp : _ ∧ _).1
    simpa using h
  refine ⟨fun g n hg => ?_, fun n hf hc hn => ?_, fun n h => ?_, fun hm hl => ?_, fun f ht hn hne hm hl => ?_, fun hl => ?_,
    fun hf hc hd hm => ?_⟩
  · intro d magic
    have hof := pointDatagram_of (s := s.fresh.atTime n) hg h3 n
    have hmag : (s.fresh.atTime n).magicOk e g.payload = magic := rfl
    refine ⟨fun hk => ?_, fun hk hbad => ?_, fun b p tm hk hm hb hps ht ho hcap => ?_⟩
    · rw [hk] at hof
      exact gives_of_eq (congrArg Host.Outcome.next hof) (dropped_shows (s.fresh.atTime n) he)
    · rw [hk, show (s.fresh.atTime n).pipeOn e = true from hp] at hof
      have hfmt := pointData_badFormat (s := s.fresh.atTime n) (e := e) (d := g.payload) (n := n) (by rw [hmag]; exact hbad)
      exact gives_of_eq (congrArg Host.Outcome.next (hof.trans hfmt)) ⟨by rw [spoilSweep_sweep], tsrReport_shows _ _ _⟩
    · rw [hk, show (s.fresh.atTime n).pipeOn e = true from hp] at hof
      have hpts := pointData_points (s := s.fresh.atTime n) (e := e) (d := g.payload) (n := n) (hmag.trans hm) hb
      rw [show (List.range b).flatMap (fun i => (List.range (pointsPerBlock ((s.fresh.atTime n).calSec e 3))).filterMap
        (fun j => readPoint ((s.fresh.atTime n).calSec e 3) ((s.fresh.atTime n).calSec e 4) g.payload i j n)) = [(p, tm)] from hps] at hpts
      exact gives_of_eq (congrArg Host.Outcome.next (hof.trans hpts)) (takePoint_joins (s := s.fresh.atTime n) ht ho hcap)
  · have h : (s.fresh.atTime n).sweepClose e n = ((s.fresh.atTime n).setSweep e true { sw with closed := true }).beginViews e 5 :=
      if_pos (by
        rw [show (s.fresh.atTime n).pipeOn e = true from hp, show (s.fresh.atTime n).eclass e = 3 from h3]
        have hn' : (s.fresh.atTime n).tickNs + 1000000 ≤ n := hn
        have hf' : ((s.fresh.atTime n).sweep e true).frame = (s.fresh.atTime n).frameNo := hf
        have hc' : ((s.fresh.atTime n).sweep e true).closed = false := hc
        rw [hf', hc', decide_eq_true hn']
        simp)
    obtain ⟨hsw, hb, hs⟩ := begunSweep_shows (s.fresh.atTime n) e 5 { sw with closed := true }
    exact gives_of_eq (congrArg Host.Outcome.next h) ⟨hsw, hb, ((SameBut.atTime s n).mono (by decide)).step hs (by decide)⟩
  · have hidle : (s.fresh.atTime n).sweepClose e n = s.fresh.atTime n := if_neg (by
      rcases h with h | h
      · rw [decide_eq_false (show ¬ (s.fresh.atTime n).tickNs + 1000000 ≤ n from Nat.not_le.mpr h)]
        simp
      · rw [show ((s.fresh.atTime n).sweep e true).closed = true from h]
        simp)
    exact gives_of_eq (congrArg Host.Outcome.next hidle) (SameBut.atTime s n)
  · have h : s.fresh.noEgo s.frameNo = (s.fresh.noMotion s.frameNo).pillarsBegin :=
      (noEgo_reported (s := s.fresh) hdev (.inl rfl) hm hl).trans (if_pos (noMotion_frameNo s.fresh s.frameNo).symm)
    have hfr := noMotion_framed s.fresh s.frameNo
    obtain ⟨hlate, hcode⟩ := noMotion_shows s.fresh s.frameNo
    have hv := pillarsBegin_same (s.fresh.noMotion s.frameNo)
    have hall : Framed ([.egoLate, .views] ++ logFields) tsrEntries s.fresh (s.fresh.noMotion s.frameNo).pillarsBegin :=
      (hfr.mono (by decide) fun _ => id).then_same hv (by decide) (by decide)
    have h3' : (s.fresh.noMotion s.frameNo).eclass e = 3 := (hfr.dict _ _ (by decide) (by simp [tsrEntries, logEntries])).trans h3
    have hp' : (s.fresh.noMotion s.frameNo).pipeOn e = true :=
      (pipeOn_congr (hfr.dict _ _ (by decide) (by decide)) (hfr.same .eps (by decide))).trans hp
    have hrec (v : Nat) : (s.fresh.noMotion s.frameNo).viewRec v = s.viewRec v := viewRec_congr (hfr.same .tables (by decide)) v
    refine gives_of_eq (congrArg Host.Outcome.next h) ⟨(hv .egoLate (by decide)).trans hlate, fun i hi hk =>
      pillarsBegin_atStart he hi h3' hp' (by rw [hrec]; exact hk), (dget_of_sameBut hv (by decide) _ _).trans hcode,
      ((SameBut.fresh s).mono (by decide)).step hall.same (by decide), hall.log⟩
  · have h := noEgo_reported (s := s.fresh) (f := f) hdev (.inr ⟨ht, hn⟩) hm hl
    rw [noMotion_frameNo, if_neg (show ¬ f = s.fresh.frameNo from hne)] at h
    have hfr := noMotion_framed s.fresh f
    obtain ⟨hlate, hcode⟩ := noMotion_shows s.fresh f
    exact gives_of_eq (congrArg Host.Outcome.next h)
      ⟨hlate, hcode, ((SameBut.fresh s).mono (by decide)).step hfr.same (by decide), hfr.log⟩
  · exact gives_of_eq (congrArg Host.Outcome.next (noEgo_idle (s := s.fresh) hl)) (SameBut.fresh s)
  · have h : s.fresh.deskew e = (s.fresh.setSweep e true { sw with deskewed := true }).beginViews e 6 := if_pos (by
      have hf' : (s.fresh.sweep e true).frame = s.fresh.frameNo := hf
      have hc' : (s.fresh.sweep e true).closed = true := hc
      have hd' : (s.fresh.sweep e true).deskewed = false := hd
      have hm' : KV.get [] s.fresh.motion s.fresh.frameNo ≠ [] := hm
      rw [show s.fresh.pipeOn e = true from hp, hc', hd', hf', decide_eq_true hm']
      simp)
    obtain ⟨hsw, hb, hs⟩ := begunSweep_shows s.fresh e 6 { sw with deskewed := true }
    exact gives_of_eq (congrArg Host.Outcome.next h) ⟨hsw, hb, ((SameBut.fresh s).mono (by decide)).step hs (by decide)⟩

end Sys2Proof.Machine

/-! PROOFS. What nothing in a tick but its stamp and the opening of its frame changes: the time, the tick's own marks, the frame's number and
class, and the cores being cleared (R25, R42, R351, R441). -/

namespace Sys2Proof.Machine

section Clock

variable {s t u : State} {f : Bool}

/-- The entries that the stamp of a tick reads and writes. -/
def clockEntries : List (Nat × Nat) := [(0x2401, 0x01), (0x2401, 0x06), (0x2401, 0x07)]

/-- With them the entry that the opening of a frame writes. -/
def frameEntries : List (Nat × Nat) := (0x2700, 0x10) :: clockEntries

/-- The entries kept: those of the clock, and once the frame is open its own. -/
def tickEntries (f : Bool) : List (Nat × Nat) := if f then frameEntries else clockEntries

theorem tickEntries_sub : ∀ x ∈ tickEntries f, x ∈ frameEntries := by
  cases f <;> decide

/-- The clock and the frame's number stand; `f` tells that the frame is open. -/
structure TickKept (f : Bool) (s t : State) : Prop where
  time : t.timeNs = s.timeNs
  ticked : t.ticked = s.ticked
  prev : t.tickPrev = s.tickPrev
  predicted : t.tickPredicted = s.tickPredicted
  number : t.frame.n = s.frame.n
  clearing : t.clearing = s.clearing
  entries : ∀ x ∈ tickEntries f, t.dget x.1 x.2 = s.dget x.1 x.2

/-- The fields that an update of something else leaves alone. -/
def tickFields : List Field := [.timeNs, .ticked, .tickPrev, .tickPredicted, .frame, .clearing]

/-- The objects whose defaults depend on the state. -/
def stateObjects : List Nat := [0x2000, 0x2900, 0x1018, 0x1001, 0x1014]

theorem dfltOf_of_plain {i : Nat} (hi : i ∉ stateObjects) (s t : State) (b : Nat) : t.dfltOf i b = s.dfltOf i b := by
  simp only [stateObjects, List.mem_cons, List.not_mem_nil, or_false, not_or] at hi
  obtain ⟨h₁, h₂, h₃, h₄, h₅⟩ := hi
  unfold State.dfltOf
  simp only [h₁, h₂, h₃, h₄, h₅, decide_false, Bool.false_and, Bool.false_eq_true, if_false]

/-- What these entries read does not depend on anything but the dictionary. -/
theorem dget_of_get {x : Nat × Nat} (hx : x ∈ frameEntries) (h : KV.get none t.dict (dkey x.1 x.2) = KV.get none s.dict (dkey x.1 x.2)) :
    t.dget x.1 x.2 = s.dget x.1 x.2 := by
  rw [State.dget, h, dfltOf_of_plain ((by decide : ∀ y ∈ frameEntries, y.1 ∉ stateObjects) x hx) s t, State.dget]

namespace TickKept

theorem refl (s : State) : TickKept f s s := ⟨rfl, rfl, rfl, rfl, rfl, rfl, fun _ _ => rfl⟩

theorem trans (h : TickKept f s t) (k : TickKept f t u) : TickKept f s u :=
  ⟨k.time.trans h.time, k.ticked.trans h.ticked, k.prev.trans h.prev, k.predicted.trans h.predicted, k.number.trans h.number,
    k.clearing.trans h.clearing, fun x hx => (k.entries x hx).trans (h.entries x hx)⟩

/-- An update of other fields and other entries. -/
theorem framed {l : List Field} {d : List (Nat × Nat)} (h : TickKept f s t) (k : SameBut l t u) (hd : DictBut d t u)
    (hl : ∀ g ∈ tickFields, g ∉ l) (hn : ∀ x ∈ frameEntries, x ∉ d) : TickKept f s u :=
  h.trans ⟨k .timeNs (hl _ (by decide)), k .ticked (hl _ (by decide)), k .tickPrev (hl _ (by decide)),
    k .tickPredicted (hl _ (by decide)), congrArg FrameRec.n (k .frame (hl _ (by decide))), k .clearing (hl _ (by decide)),
    fun x hx => hd x.1 x.2 ((by decide : ∀ y ∈ frameEntries, y.2 < 256) x (tickEntries_sub x hx)) (hn x (tickEntries_sub x hx))⟩

/-- An update that leaves these fields and the whole dictionary alone. -/
theorem same (h : TickKept f s t) (e : (u.timeNs, u.ticked, u.tickPrev, u.tickPredicted, u.frame.n, u.clearing, u.dict) =
    (t.timeNs, t.ticked, t.tickPrev, t.tickPredicted, t.frame.n, t.clearing, t.dict)) : TickKept f s u := by
  simp only [Prod.mk.injEq] at e
  obtain ⟨htime, hticked, hprev, hpred, hn, hc, hd⟩ := e
  exact h.trans ⟨htime, hticked, hprev, hpred, hn, hc, fun x hx => dget_of_get (tickEntries_sub x hx) (by rw [hd])⟩

theorem ite {c : Prop} {_ : Decidable c} (h : TickKept f s t) (k : TickKept f s u) : TickKept f s (if c then t else u) := by
  split
  · exact h
  · exact k

theorem foldS {α : Type} {as : List α} {g : State → α → State} (h : TickKept f s t)
    (hg : ∀ x a, TickKept f s x → TickKept f s (g x a)) : TickKept f s (foldS as g t) := by
  induction as generalizing t with
  | nil => exact h
  | cons a as ih => exact ih (hg t a h)

/-! ### Entries -/

/-- A write of an entry under another key of the dictionary. -/
theorem key {i b : Nat} {v : Option Nat} (h : TickKept f s t) (hk : ∀ x ∈ tickEntries f, dkey x.1 x.2 ≠ dkey i b) :
    TickKept f s { t with dict := KV.set none t.dict (dkey i b) v } := by
  exact h.trans ⟨rfl, rfl, rfl, rfl, rfl, rfl, fun x hx => dget_of_get (tickEntries_sub x hx) (KV.get_set_ne _ _ _ (hk x hx))⟩

theorem dset {i b v : Nat} (h : TickKept f s t) (hb : b < 256) (hn : (i, b) ∉ frameEntries) : TickKept f s (t.dset i b v) := by
  refine h.key fun x hx he => hn ?_
  have hm := tickEntries_sub x hx
  have hx2 : x.2 < 256 := (by decide : ∀ y ∈ frameEntries, y.2 < 256) x hm
  unfold dkey at he
  have hxe : x = (i, b) := Prod.ext (by omega) (by omega)
  exact hxe ▸ hm

/-- An entry of a higher object, whatever its sub-index. -/
theorem dsetAbove {i b v : Nat} (h : TickKept false s t) (hi : 0x2401 < i) : TickKept false s (t.dset i b v) := by
  refine h.key fun x hx he => ?_
  have hx1 : dkey x.1 x.2 < 0x2402 * 256 := (by decide : ∀ y ∈ clockEntries, dkey y.1 y.2 < 0x2402 * 256) x hx
  unfold dkey at he hx1
  omega

theorem dclear {i b : Nat} (h : TickKept false s t) (hk : ∀ x ∈ clockEntries, dkey x.1 x.2 ≠ dkey i b) : TickKept false s (t.dclear i b) :=
  h.key hk

theorem dbump {i b : Nat} (h : TickKept f s t) (hb : b < 256) (hn : (i, b) ∉ frameEntries) : TickKept f s (t.dbump i b) := h.dset hb hn

theorem cset {k b v : Nat} (h : TickKept f s t) (hb : b < 256) (hn : b ≠ 0x10) : TickKept f s (t.cset k b v) :=
  h.dset hb (by simp [frameEntries, clockEntries, hn]; omega)

theorem cbump {k b : Nat} (h : TickKept f s t) (hb : b < 256) (hn : b ≠ 0x10) : TickKept f s (t.cbump k b) := h.cset hb hn

theorem eset {e b v : Nat} (h : TickKept f s t) (hb : b < 256) (hn : b ∉ [0x10, 0x01, 0x06, 0x07]) : TickKept f s (t.eset e b v) :=
  h.dset hb (by simp at hn; simp [frameEntries, clockEntries, hn])

theorem ebump {e b : Nat} (h : TickKept f s t) (hb : b < 256) (hn : b ∉ [0x10, 0x01, 0x06, 0x07]) : TickKept f s (t.ebump e b) :=
  h.eset hb hn

/-! ### Parts of the state -/

theorem setCtx {k : Nat} {x : Ctx} (h : TickKept f s t) : TickKept f s (t.setCtx k x) := h.same rfl
theorem setEp {e : Nat} {x : Endpoint} (h : TickKept f s t) : TickKept f s (t.setEp e x) := h.same rfl
theorem setPart {p : Nat} {x : Partition} (h : TickKept f s t) : TickKept f s (t.setPart p x) := h.same rfl
theorem setView {v : Nat} {x : ViewState} (h : TickKept f s t) : TickKept f s (t.setView v x) := h.same rfl
theorem setPair {c q : Nat} {x : Pair} (h : TickKept f s t) : TickKept f s (t.setPair c q x) := h.same rfl
theorem setSlot {c q i : Nat} {x : ScaleSlot} (h : TickKept f s t) : TickKept f s (t.setSlot c q i x) := h.same rfl
theorem mapGroup {c a g : Nat} {m : Group → Group} (h : TickKept f s t) : TickKept f s (t.mapGroup c a g m) := h.same rfl
theorem putFlag {c i : Nat} {b : Bool} (h : TickKept f s t) : TickKept f s (t.putFlag c i b) := h.same rfl
theorem setByte {a : Nat} {b : Byte} (h : TickKept f s t) : TickKept f s (t.setByte a b) := h.same rfl
theorem writeBytes {a : Nat} {l : List Byte} (h : TickKept f s t) : TickKept f s (t.writeBytes a l) := h.same rfl
theorem freeStep (h : TickKept f s t) : TickKept f s t.freeStep := h.same rfl
theorem request {e ty : Nat} {l : List Byte} (h : TickKept f s t) : TickKept f s (t.request e ty l) := h.same rfl

theorem setSweep {e : Nat} {prev : Bool} {x : Sweep} (h : TickKept f s t) : TickKept f s (t.setSweep e prev x) :=
  .ite (h.same rfl) (h.same rfl)

theorem putWords {k a : Nat} {ws : List SWord} {p : Bool} (h : TickKept f s t) : TickKept f s (t.putWords k a ws p) :=
  h.foldS fun x y hx => hx.framed (d := []) (SameBut.kSetWord x k (a + y.1) y.2 p) (.of_unread (SameBut.kSetWord x k (a + y.1) y.2 p) (by decide))
    (by decide) (by decide)

theorem noteSaved {k : Nat} (h : TickKept f s t) : TickKept f s (t.noteSaved k) := .ite h (h.cbump (by decide) (by decide))

/-! ### Reports, records and completions -/

theorem logged (h : TickKept f s t) (k : Logged t u) : TickKept f s u := h.framed k.same k.dict (by decide) (by decide)

theorem report {code unit origin : Nat} {l : List Byte} {b : Bool} (h : TickKept f s t) : TickKept f s (t.report code unit origin l b) :=
  h.logged (.report t code unit origin l b)

theorem rep {code unit : Nat} (h : TickKept f s t) : TickKept f s (t.rep code unit) := h.logged (.rep t code unit)

theorem tsrReport {code unit : Nat} (h : TickKept f s t) : TickKept f s (t.tsrReport code unit) := h.rep.dset (by decide) (by decide)

theorem epReport {e code : Nat} (h : TickKept f s t) : TickKept f s (t.epReport e code) := h.rep.eset (by decide) (by decide)

theorem hostRecord {a b c d e g : Nat} {l : List Byte} (h : TickKept f s t) : TickKept f s (t.hostRecord a b c d e g l) :=
  h.framed (hostRecord_same t a b c d e g l) (hostRecord_dictBut t a b c d e g l) (by decide) (by decide)

theorem statusAll {code unit : Nat} {l : List Byte} (h : TickKept f s t) : TickKept f s (t.statusAll code unit l) :=
  h.hostRecord.hostRecord

theorem complete {r : HRef} {code result : Nat} (h : TickKept f s t) : TickKept f s (t.complete r code result) :=
  h.framed (complete_same t r code result) (complete_dictBut t r code result) (by decide) (by decide)

theorem refuse {r : HRef} {code : Nat} (h : TickKept f s t) : TickKept f s (t.refuse r code) := h.rep.complete

theorem completeAll {rs : List HRef} {code : Nat} (h : TickKept f s t) : TickKept f s (Machine.foldS rs (fun s r => s.complete r code 0) t) :=
  h.foldS fun _ _ hx => hx.complete

/-- A fault joins the frame's record; its number stays. -/
theorem frameFault {code : Nat} {c : Option Nat} {b i : Bool} (h : TickKept f s t) : TickKept f s (t.frameFault code c b i) := h.same rfl

theorem ctxFault {k code : Nat} {b : Bool} (h : TickKept f s t) : TickKept f s (t.ctxFault k code b) := .ite h.frameFault h

/-! ### Deliveries -/

theorem delivers (h : TickKept f s t) (k : Delivers t u) : TickKept f s u := h.framed k.same k.dict (by decide) (by decide)

theorem accessNack {code c w unit : Nat} (h : TickKept f s t) : TickKept f s (t.accessNack code c w unit) :=
  (h.delivers (deliveryNack_delivers t code c w)).report

theorem slotDelivered {e n : Nat} {ok : Bool} (h : TickKept f s t) : TickKept f s (t.slotDelivered e n ok) := by
  have h₁ : TickKept f s (t.ebump e (if ok then 0x1E else 0x1F)) := by
    cases ok
    · exact h.ebump (by decide) (by decide)
    · exact h.ebump (by decide) (by decide)
  exact .ite (h₁.same rfl) h₁

theorem viewDone {v n : Nat} (h : TickKept f s t) : TickKept f s (t.viewDone v n) :=
  .ite (.ite h.setView.slotDelivered h.setView.setEp) h.setView

theorem imageStripe {v : Nat} {b : Bool} (h : TickKept f s t) : TickKept f s (t.imageStripe v b) :=
  .ite h (.ite (h.delivers (putStripe_delivers t v _ _ _)).setView.viewDone (h.delivers (putStripe_delivers t v _ _ _)).setView)

theorem sweepStripe {v : Nat} {b : Bool} (h : TickKept f s t) : TickKept f s (t.sweepStripe v b) :=
  .ite h (.ite (h.delivers (putStripe_delivers t v _ _ _)).setView.viewDone (h.delivers (putStripe_delivers t v _ _ _)).setView)

theorem finishZeros {e : Nat} (h : TickKept f s t) : TickKept f s (t.finishZeros e) :=
  .ite h (.setEp (.foldS h.setEp fun _ _ hx => .foldS hx fun _ _ hy => hy.imageStripe))

theorem finishSweep {e : Nat} (h : TickKept f s t) : TickKept f s (t.finishSweep e) :=
  h.foldS fun _ _ hx => hx.foldS fun _ _ hy => hy.sweepStripe

theorem endStream {e : Nat} (h : TickKept f s t) : TickKept f s (t.endStream e) :=
  .ite h.finishZeros.finishSweep.setSweep.setSweep h.finishZeros

/-! ### Heads at a tick -/

theorem challengeWaiting (h : TickKept f s t) : TickKept f s t.challengeWaiting :=
  h.foldS fun _ _ hx => .ite hx.setEp.freeStep.request hx

theorem refuseHead {e code : Nat} (h : TickKept f s t) : TickKept f s (t.refuseHead e code) := by
  have h₁ : TickKept f s ({ t with meshQueue := t.meshQueue.filter (· != e), fetched := t.fetched.filter (· != e) }.setDisc e .refused) :=
    .setEp (h.same (u := { t with meshQueue := t.meshQueue.filter (· != e), fetched := t.fetched.filter (· != e) }) rfl)
  exact ((h₁.epReport.ebump (by decide) (by decide)).eset (by decide) (by decide)).challengeWaiting

theorem linkIsUp {e : Nat} (h : TickKept f s t) : TickKept f s (t.linkIsUp e) := by
  have h₁ : TickKept f s ((t.setEp e { t.ep e with linkUp := true }).eset e 0x15 1) := h.setEp.eset (by decide) (by decide)
  exact .ite h₁.refuseHead (.ite h₁ (h₁.setEp.eset (by decide) (by decide)).request)

theorem forgetHead {e : Nat} {up : Bool} {d : Disc} (h : TickKept f s t) : TickKept f s (t.forgetHead e up d) := h.same rfl

theorem releaseHeads (h : TickKept f s t) : TickKept f s t.releaseHeads :=
  h.foldS fun _ _ hx => .ite (hx.endStream.forgetHead.eset (by decide) (by decide))
    (.ite (hx.endStream.forgetHead.eset (by decide) (by decide)).linkIsUp (hx.endStream.forgetHead.eset (by decide) (by decide)))

theorem admitHeads (h : TickKept f s t) : TickKept f s t.admitHeads :=
  h.foldS fun _ _ hx => .ite hx.refuseHead (hx.setEp.eset (by decide) (by decide))

/-! ### Teardowns and returns -/

theorem setWaiting {l : List Nat} (h : TickKept f s t) : TickKept f s (t.setWaiting l) :=
  (h.same (u := { t with waiting := l }) rfl).dset (by decide) (by decide)

theorem tearOne {k cause : Nat} (h : TickKept f s t) : TickKept f s (t.tearOne k cause) := by
  unfold State.tearOne
  extract_lets x s₁ s₂ s₃
  have h₁ : TickKept f s s₁ := .ite h.ctxFault h
  have h₂ : TickKept f s s₂ := (h₁.cset (by decide) (by decide)).setCtx
  have h₃ : TickKept f s s₃ := h₂.setWaiting
  exact .ite h (.ite h.setCtx ((h₃.cset (by decide) (by decide)).cset (by decide) (by decide)))

theorem startTeardown {k cause : Nat} {alone : Bool} (h : TickKept f s t) : TickKept f s (t.startTeardown k cause alone) :=
  h.tearOne.foldS fun _ _ hx => .ite hx.tearOne.report hx.tearOne

theorem returnPart {p : Nat} (h : TickKept false s t) : TickKept false s (t.returnPart p) := by
  unfold State.returnPart
  extract_lets x s₁ s₂ s₃ s₄ s₅
  have h₁ : TickKept false s s₁ := h.setPart
  have h₂ : TickKept false s s₂ := (h₁.dsetAbove (by decide)).dsetAbove (by decide)
  have h₃ : TickKept false s s₃ := h₂.foldS fun _ _ hx => hx.setCtx
  have h₄ : TickKept false s s₄ := h₃.foldS fun y c hy => (hy.dsetAbove (i := 0x2700) (b := 0x13 + c) (v := 0) (by decide)).same rfl
  exact (h₄.dsetAbove (by decide)).completeAll

theorem returnDue (h : TickKept false s t) : TickKept false s t.returnDue := by
  refine h.foldS fun x p hx => ?_
  split
  · exact .ite hx.returnPart hx
  · exact hx

/-! ### The transition to OPERATIONAL -/

theorem periodCheck (h : TickKept f s t) : TickKept f s t.periodCheck := h.foldS fun _ _ hx => hx.report.startTeardown

theorem clearImages (h : TickKept f s t) : TickKept f s t.clearImages :=
  .foldS (.foldS (h.same rfl) fun _ _ hx => hx.setEp) fun _ _ hx => hx.setSweep

theorem takeTables (h : TickKept f s t) : TickKept f s t.takeTables := by
  unfold State.takeTables
  extract_lets s₁ plan s₂ rings s₃
  have h₂ : TickKept f s s₂ := h.same rfl
  have h₃ : TickKept f s s₃ := (h₂.dset (by decide) (by decide)).dset (by decide) (by decide)
  refine h₃.foldS fun x y hx => .ite ?_ hx
  extract_lets a s₄
  have h₄ : TickKept f s s₄ := hx.writeBytes
  exact h₄.same rfl

theorem checkSpan {v : Nat} (h : TickKept f s t) : TickKept f s (t.checkSpan v) := .ite h.setView.tsrReport h.setView

theorem takeViews (h : TickKept f s t) : TickKept f s t.takeViews := by
  unfold State.takeViews
  extract_lets s₁ due s₂
  have h₁ : TickKept f s s₁ := h.clearImages.takeTables
  have h₂ : TickKept f s s₂ := by
    clear_value s₁
    exact h₁.same rfl
  exact h₂.foldS fun _ _ hx => hx.checkSpan

theorem cancelWait (h : TickKept f s t) : TickKept f s t.cancelWait := by
  unfold State.cancelWait
  split
  · exact h
  · exact (h.same (u := { t with stateWait := none }) rfl).foldS fun _ _ hx => hx.refuse

theorem enterOp (h : TickKept f s t) : TickKept f s t.enterOp := by
  unfold State.enterOp
  split
  · exact h
  · refine .ite ?_ h.cancelWait
    split
    · have h₁ : TickKept f s { t with stateWait := none } := h.same rfl
      exact .completeAll (.ite h₁.rep h₁.tsrReport)
    · have h₁ : TickKept f s t.periodCheck.takeViews := h.periodCheck.takeViews
      generalize t.periodCheck.takeViews = v at h₁ ⊢
      exact .completeAll (.dset (h₁.same (u := { v with stateWait := none }) rfl) (by decide) (by decide))

/-! ### The seal of the frame that ends -/

theorem fence {p : Nat} (h : TickKept false s t) : TickKept false s (t.fence p) := by
  unfold State.fence
  extract_lets x s₁ s₂ __src
  have h₁ : TickKept false s s₁ := .ite h.frameFault h
  have h₂ : TickKept false s s₂ := h₁.setPart.dsetAbove (by decide)
  exact h₂.same rfl

theorem endActivity {code : Nat} {aborted : Bool} (h : TickKept false s t) : TickKept false s (t.endActivity code aborted) := by
  unfold State.endActivity
  split
  · exact h
  · extract_lets s₁ s₂ s₃ s₄
    have h₁ : TickKept false s s₁ := h.same rfl
    have h₃ : TickKept false s s₃ := (((h₁.dsetAbove (by decide)).dsetAbove (by decide)).dsetAbove (by decide)).dsetAbove (by decide)
    have h₄ : TickKept false s s₄ := .ite (h₃.dsetAbove (by decide)) h₃
    exact h₄.complete

theorem startPartReset {p cause : Nat} {safe : Bool} {handle : Option HRef} {detail : Nat} (h : TickKept false s t) :
    TickKept false s (t.startPartReset p cause safe handle detail) := by
  unfold State.startPartReset
  extract_lets x hs s₁ x' s₂ s₃ s₄ s₅
  have h₁ : TickKept false s s₁ := by
    unfold s₁
    split
    · exact .ite h.rep.endActivity h
    · exact h
  have h₂ : TickKept false s s₂ := h₁.setPart
  have h₃ : TickKept false s s₃ := (h₂.fence.dsetAbove (by decide)).dsetAbove (by decide)
  have h₄ : TickKept false s s₄ := h₃.dsetAbove (by decide)
  exact .ite h.setPart h₄.report.statusAll

theorem startDevReset {cause : Nat} {b : Bool} {detail : Nat} (h : TickKept false s t) :
    TickKept false s (t.startDevReset cause b detail) := by
  unfold State.startDevReset
  refine .ite (.ite (h.same rfl) (.rep (h.same rfl))) ?_
  extract_lets s₁ s₂
  have h₁ : TickKept false s s₁ := (h.same (u := t.pinsSafe) rfl).dsetAbove (by decide)
  have h₂ : TickKept false s s₂ := (h₁.dsetAbove (by decide)).dclear (by decide)
  exact h₂.same rfl

theorem setSafe {v : Nat} (h : TickKept false s t) : TickKept false s (t.setSafe v) :=
  (h.same (u := { t with safeState := v }) rfl).dsetAbove (by decide)

theorem enterSafe {cause : Nat} {r : SafeReset} {b : Bool} (h : TickKept false s t) : TickKept false s (t.enterSafe cause r b) := by
  unfold State.enterSafe
  extract_lets cur s₁ s₂ s₃ s₄
  have h₂ : TickKept false s s₂ := (h.same (u := s₁) rfl).setSafe
  have h₃ : TickKept false s s₃ := (h₂.dsetAbove (by decide)).dsetAbove (by decide)
  have h₄ : TickKept false s s₄ := h₃.report
  refine .ite ?_ ?_
  · split
    · exact h₄.startPartReset
    · exact h₄.startDevReset
  · split
    · exact h.same rfl
    · exact .ite h.setSafe.startDevReset (.startDevReset (h.same rfl))

theorem orreryTest {inst : List OrreryInst} {missed : List Nat} (h : TickKept false s t) : TickKept false s (t.orreryTest inst missed) := by
  unfold State.orreryTest
  extract_lets bad s₁ src s₂
  have h₁ : TickKept false s s₁ := h.dsetAbove (by decide)
  have h₂ : TickKept false s s₂ := .ite (h₁.same rfl) h₁
  refine h₂.foldS fun x i hx => ?_
  unfold State.orreryMiss
  extract_lets s₃ src s₄
  have h₃ : TickKept false s s₃ := hx.report.dsetAbove (by decide)
  exact .enterSafe (.frameFault (h₃.same rfl))

theorem countCore {c : Nat} (h : TickKept false s t) : TickKept false s (t.countCore c) := by
  unfold State.countCore
  extract_lets l dis s₁ s₂
  have h₁ : TickKept false s s₁ := (h.same (u := { t with disagreements := KV.set [] t.disagreements c l }) rfl).dsetAbove (by decide)
  have h₂ : TickKept false s s₂ := .ite (h₁.dsetAbove (by decide)) h₁
  exact .ite h₂.report.frameFault.enterSafe h₂

theorem blowDue (h : TickKept f s t) : TickKept f s t.blowDue := by
  unfold State.blowDue
  extract_lets need level keys want s₁ stuck s₂
  have h₁ : TickKept f s s₁ := h.same rfl
  have h₂ : TickKept f s s₂ := h₁.same rfl
  exact .ite h₁ (.ite h₂ h₂.rep)

theorem sealedValid (h : TickKept false s t) : TickKept false s t.sealedValid := by
  have h₁ : TickKept false s ({ t with faultN := true }.setSafe 0) := .setSafe (h.same rfl)
  exact .ite h₁.blowDue h₁

theorem canSend {c : CanCtl} {m : CanFrame} (h : TickKept f s t) : TickKept f s (t.canSend c m) := .ite h (h.same rfl)

theorem publish {fiw : List Byte} (h : TickKept false s t) : TickKept false s (t.publish fiw) := by
  unfold State.publish
  extract_lets sum s₁ s₂
  have h₁ : TickKept false s s₁ := (h.dsetAbove (by decide)).dsetAbove (by decide)
  have h₂ : TickKept false s s₂ := .hostRecord (.ite h₁.canSend.canSend h₁)
  exact h₂.hostRecord

theorem sealFrame {late ready : Bool} (h : TickKept false s t) : TickKept false s (t.sealFrame late ready) := by
  unfold State.sealFrame
  extract_lets s₁ s₂ valid fiw s₃ s₄ s₅ s₆ src s₇
  have h₂ : TickKept false s s₂ := h.orreryTest.foldS fun _ _ hx => hx.countCore
  have h₃ : TickKept false s s₃ := h₂.dsetAbove (by decide)
  have h₄ : TickKept false s s₄ := .ite (h₃.dsetAbove (by decide)) h₃
  have h₅ : TickKept false s s₅ := .ite (h₄.dsetAbove (by decide)) h₄
  have h₆ : TickKept false s s₆ := h₅.publish
  clear_value s₆
  have h₇ : TickKept false s s₇ := h₆.same rfl
  exact .ite h₇.sealedValid h₇.report

theorem endFrame (h : TickKept false s t) : TickKept false s t.endFrame := .ite h.sealFrame (h.same rfl)

/-! ### Once the frame is open -/

theorem closeLog (h : TickKept f s t) : TickKept f s t.closeLog := by
  unfold State.closeLog
  extract_lets s₁
  have h₁ : TickKept f s s₁ := h.foldS fun _ _ hx => hx.setByte
  exact h₁.same rfl

theorem takeComplete (h : TickKept f s t) : TickKept f s t.takeComplete := by
  refine h.foldS fun x e hx => ?_
  split
  · exact hx
  · exact .setEp (.ite hx.slotDelivered hx)

theorem turnSweeps (h : TickKept f s t) : TickKept f s t.turnSweeps := h.foldS fun _ _ hx => hx.setSweep.setSweep

theorem turnViews (h : TickKept f s t) : TickKept f s t.turnViews := by
  unfold State.turnViews
  extract_lets s₁ near
  have h₁ : TickKept f s s₁ := h.foldS fun _ _ hx => .ite hx.setView (.ite hx.setView hx)
  exact h₁.same rfl

theorem frameCounts (h : TickKept f s t) : TickKept f s t.frameCounts :=
  h.foldS fun _ _ hx => ((hx.cset (by decide) (by decide)).cset (by decide) (by decide)).setCtx

theorem promotionWords (h : TickKept f s t) : TickKept f s t.promotionWords := by
  refine h.foldS fun x p hx => ?_
  extract_lets s₁ c word e s₂
  have h₁ : TickKept f s s₁ := hx.same rfl
  have h₂ : TickKept f s s₂ := h₁.noteSaved.putWords
  split
  · exact h₁.accessNack.complete
  · exact h₂.report.complete

theorem abortLC {k : Nat} (h : TickKept f s t) : TickKept f s (t.abortLC k) := by
  unfold State.abortLC
  extract_lets x c stop s₁ s₂ src
  have h₁ : TickKept f s s₁ := h.foldS fun _ _ hx => .foldS hx.setPair fun _ _ hy => hy.setSlot
  have h₂ : TickKept f s s₂ := h₁.foldS fun _ _ hx => hx.mapGroup
  exact h₂.setCtx

theorem residue {k q n : Nat} (h : TickKept f s t) : TickKept f s (t.residue k q n) :=
  .ite h (h.cset (by decide) (by decide)).report.ctxFault

theorem startFrame {k : Nat} (h : TickKept f s t) : TickKept f s (t.startFrame k) := by
  unfold State.startFrame
  extract_lets src s₁ s₂ x c v s₃ s₄ vf s₅ s₆ src'
  have h₁ : TickKept f s s₁ := h.setCtx
  have h₂ : TickKept f s s₂ := .ite h₁ (h₁.abortLC.cbump (by decide) (by decide))
  have h₃ : TickKept f s s₃ := (h₂.cset (by decide) (by decide)).cset (by decide) (by decide)
  have h₄ : TickKept f s s₄ := h₃.foldS fun _ _ hx => .setPair (.foldS hx fun _ _ hy => hy.residue)
  have h₅ : TickKept f s s₅ := .ite h₄ (h₄.foldS fun _ _ hx => hx.putFlag)
  exact .ite h₁ (h₅.cset (by decide) (by decide)).setCtx

theorem startPrograms (h : TickKept f s t) : TickKept f s t.startPrograms := .ite (h.foldS fun _ _ hx => hx.startFrame) h

theorem fixTriggers (h : TickKept f s t) : TickKept f s t.fixTriggers := h.same rfl

theorem tempCheck (h : TickKept f s t) : TickKept f s t.tempCheck := by
  have k := tempCheck_framed t
  exact h.framed k.same k.dict (by decide) (by decide)

theorem readPower (h : TickKept f s t) : TickKept f s t.readPower := (h.dset (by decide) (by decide)).freeStep

end TickKept

end Clock
end Sys2Proof.Machine

/-! PROOFS. The tick: what its stamp shows, what the opening of the frame shows, the lock source and the syncs of the master ports (R25, R42,
R44, R351, R441, R442, R476). -/

namespace Sys2Proof.Machine

section Tick

variable {s t : State}

/-! ### The stamp (R42, R441) -/

/-- The number of the frame that a tick begins. -/
def State.nextNo (s : State) : Nat := if s.ticked then (s.frameNo + 1) % 2 ^ 32 else 0

theorem dget_clock_dset (s : State) {b c v : Nat} (hb : b < 256) (hc : c < 256) (h : c ≠ b) : (s.dset 0x2401 b v).dget 0x2401 c = s.dget 0x2401 c :=
  s.dget_dset_ne hb hc (fun x => h (Prod.mk.inj x).2) (by simp) (by simp)

theorem stamp_shows (s : State) : let t := s.stamp
    t.frameNo = s.nextNo ∧ t.tickNs = s.timeNs ∧ t.timeNs = s.timeNs ∧ t.ticked = true ∧ t.tickPrev = s.tickNs ∧
      t.tickPredicted = s.timeNs + s.periodNs := by
  refine ⟨?_, ?_, rfl, rfl, rfl, rfl⟩
  · rw [State.stamp, State.frameNo, dget_clock_dset _ (by decide) (by decide) (by decide),
      dget_clock_dset _ (by decide) (by decide) (by decide), State.dget_dset_same, State.nextNo]
  · rw [State.stamp, State.tickNs, dget_clock_dset _ (by decide) (by decide) (by decide), State.dget_dset_same]

/-! ### The new frame (R25, R351) -/

/-- The frame's record and class. -/
def State.frameOpened (s : State) : State := { s with frame := s.newFrame, clearing := 0 }.dset 0x2700 0x10 (s.frameNo % 24)

theorem openFrame_kept (s : State) : TickKept true s.frameOpened s.openFrame := by
  have h := TickKept.refl (f := true) s.frameOpened
  exact .ite (.dset (h.same (u := { s.frameOpened with fullNow := BitVec.ofNat 8 (s.frameOpened.dget 0x2700 0x1B) }) rfl) (by decide) (by decide)) h

theorem openFrame_shows (s : State) : let t := s.openFrame
    t.frame.n = s.frameNo ∧ t.dget 0x2700 0x10 = s.frameNo % 24 ∧ t.clearing = 0 ∧ t.frameNo = s.frameNo ∧ t.tickNs = s.tickNs ∧
      t.timeNs = s.timeNs ∧ t.ticked = s.ticked ∧ t.tickPrev = s.tickPrev ∧ t.tickPredicted = s.tickPredicted := by
  have h := openFrame_kept s
  have hset (b : Nat) (hb : b < 256) : s.frameOpened.dget 0x2401 b = s.dget 0x2401 b := State.dget_dset_ne _ (by decide) hb
    (fun x => absurd (Prod.mk.inj x).1 (by decide)) (by decide) (by decide)
  exact ⟨h.number, (h.entries (0x2700, 0x10) (by decide)).trans (State.dget_dset_same _ _ _ _), h.clearing,
    (h.entries (0x2401, 0x06) (by decide)).trans (hset _ (by decide)), (h.entries (0x2401, 0x07) (by decide)).trans (hset _ (by decide)),
    h.time, h.ticked, h.prev, h.predicted⟩

/-- What a tick turns over before its frame opens. -/
def State.turnBefore (s : State) : State := { s.closeLog with busOffRecent := false }.enterOp.returnDue.releaseHeads.admitHeads

/-- And once it is open. -/
def State.turnAfter (s : State) : State :=
  s.takeComplete.turnSweeps.turnViews.frameCounts.promotionWords.startPrograms.fixTriggers.tempCheck.readPower

theorem turn_parts (s : State) : s.turn = s.turnBefore.openFrame.turnAfter := rfl

theorem turnBefore_kept (s : State) : TickKept false s s.turnBefore := by
  have h : TickKept false s { s.closeLog with busOffRecent := false } := (TickKept.refl s).closeLog.same rfl
  exact h.enterOp.returnDue.releaseHeads.admitHeads

theorem turnAfter_kept (s : State) : TickKept true s s.turnAfter :=
  (TickKept.refl s).takeComplete.turnSweeps.turnViews.frameCounts.promotionWords.startPrograms.fixTriggers.tempCheck.readPower

theorem turn_shows (s : State) : let t := s.turn
    t.frame.n = s.frameNo ∧ t.dget 0x2700 0x10 = s.frameNo % 24 ∧ t.clearing = 0 ∧ t.frameNo = s.frameNo ∧ t.tickNs = s.tickNs ∧
      t.timeNs = s.timeNs ∧ t.ticked = s.ticked ∧ t.tickPrev = s.tickPrev ∧ t.tickPredicted = s.tickPredicted := by
  have hb := turnBefore_kept s
  have ha := turnAfter_kept s.turnBefore.openFrame
  obtain ⟨hn, hclass, hclear, hno, htick, htime, hticked, hprev, hpred⟩ := openFrame_shows s.turnBefore
  have hbno : s.turnBefore.frameNo = s.frameNo := hb.entries (0x2401, 0x06) (by decide)
  have hbtick : s.turnBefore.tickNs = s.tickNs := hb.entries (0x2401, 0x07) (by decide)
  rw [hbno] at hn hclass hno
  rw [turn_parts]
  exact ⟨ha.number.trans hn, (ha.entries (0x2700, 0x10) (by decide)).trans hclass, ha.clearing.trans hclear,
    (ha.entries (0x2401, 0x06) (by decide)).trans hno, (ha.entries (0x2401, 0x07) (by decide)).trans (htick.trans hbtick),
    ha.time.trans (htime.trans hb.time), ha.ticked.trans (hticked.trans hb.ticked), ha.prev.trans (hprev.trans hb.prev),
    ha.predicted.trans (hpred.trans hb.predicted)⟩

/-- A tick of a running Meridian, whatever the frame that ends leaves. -/
theorem tick_shows (h : s.ticks = true) : let t := s.tick
    t.frameNo = s.nextNo ∧ t.tickNs = s.timeNs ∧ t.timeNs = s.timeNs ∧ t.ticked = true ∧ t.tickPrev = s.tickNs ∧
      t.tickPredicted = s.timeNs + s.periodNs ∧ t.frame.n = t.frameNo ∧ t.dget 0x2700 0x10 = t.frameNo % 24 ∧ t.clearing = 0 := by
  have ht : s.tick = s.endFrame.stamp.turn := if_pos h
  have he := (TickKept.refl (f := false) s).endFrame
  have hno : s.endFrame.frameNo = s.frameNo := he.entries (0x2401, 0x06) (by decide)
  have htick : s.endFrame.tickNs = s.tickNs := he.entries (0x2401, 0x07) (by decide)
  have hper : s.endFrame.periodNs = s.periodNs := congrArg (· * 1000) (he.entries (0x2401, 0x01) (by decide))
  have hnext : s.endFrame.nextNo = s.nextNo := by rw [State.nextNo, he.ticked, hno, State.nextNo]
  obtain ⟨h₁, h₂, h₃, h₄, h₅, h₆⟩ := stamp_shows s.endFrame
  obtain ⟨k₁, k₂, k₃, k₄, k₅, k₆, k₇, k₈, k₉⟩ := turn_shows s.endFrame.stamp
  rw [ht]
  exact ⟨k₄.trans (h₁.trans hnext), k₅.trans (h₂.trans he.time), k₆.trans (h₃.trans he.time), k₇.trans h₄, k₈.trans (h₅.trans htick),
    k₉.trans (h₆.trans (by rw [he.time, hper])), k₁.trans k₄.symm, k₂.trans (by rw [k₄]), k₃⟩

/-! ### The lock source (R442, R476) -/

theorem SameBut.setLockGood (s : State) (b : Bool) : SameBut [.lockGood] s { s with lockGood := b } := by
  intro f hf
  cases f
  case lockGood => exact absurd (by decide) hf
  all_goals rfl

/-- The loss of the lock source, counted and reported. -/
def State.unlocked (s : State) : State := ({ s with lockGood := false }.dbump 0x2401 0x09).rep 0x1021 ucDevice

theorem unlocked_shows (s : State) : s.unlocked.lockGood = false ∧ s.unlocked.dget 0x2401 0x09 = (s.dget 0x2401 0x09 + 1) % 2 ^ 32 ∧
    Framed (.lockGood :: logFields) ((0x2401, 0x09) :: logEntries) s s.unlocked := by
  have h₁ : Framed (.lockGood :: logFields) ((0x2401, 0x09) :: logEntries) s { s with lockGood := false } :=
    .then_same (.refl s) (.setLockGood s false) (by decide) (by decide)
  have h₂ := h₁.dbump (i := 0x2401) (b := 0x09) (by decide) (by decide) (by decide) (by decide) (by decide)
  refine ⟨(Logged.rep _ _ _).same .lockGood (by decide), ?_, h₂.rep (by decide) (by decide) _ _⟩
  rw [State.unlocked, dget_rep _ _ _ (by decide) (by decide), State.dbump, State.dadd, State.dget_dset_same]
  rfl

/-! ### Syncs of the master ports (R44) -/

/-- Syncs of the ports of a list, in its order. -/
theorem sendSyncs_shows (l : List Nat) (s : State) : let t := foldS l (fun s q => s.send (.gptp q s.timeNs)) s
    SameBut [.sent] s t ∧ t.sent = s.sent ++ l.map (fun q => Message.gptp q s.timeNs) := by
  induction l generalizing s with
  | nil => exact ⟨.refl _ s, (List.append_nil _).symm⟩
  | cons q l ih =>
    obtain ⟨hs, hsent⟩ := ih (s.send (.gptp q s.timeNs))
    refine ⟨(SameBut.send s _).trans hs, hsent.trans ?_⟩
    rw [List.map_cons, show (s.send (.gptp q s.timeNs)).sent = s.sent ++ [.gptp q s.timeNs] from rfl,
      show (s.send (.gptp q s.timeNs)).timeNs = s.timeNs from rfl, List.append_assoc, List.singleton_append]

end Tick

/-- Settles O42: a tick by `tick_shows`, a lost lock source by `unlocked_shows`, and the syncs of the master ports by `sendSyncs_shows`. -/
theorem ticksNumberTheFrames : Obligations.TicksNumberTheFrames := by
  intro s n
  have hsync (h : s.dget 0x2401 0x02 = 1) (hl : s.lockGood = true) : (s.fresh.atTime n).syncIn = (s.fresh.atTime n).tick :=
    (if_neg (not_not.mpr h)).trans (if_pos hl)
  refine ⟨fun h => gives_of_eq rfl (tick_shows (s := s.fresh.atTime n) h), fun h => ?_,
    fun h hl => ⟨_, rfl, congrArg Host.Outcome.next (hsync h hl).symm⟩, fun h hl => ?_, fun h => ?_, fun h hl => ?_, ?_, ?_⟩
  · have hidle : (s.fresh.atTime n).tick = s.fresh.atTime n := if_neg (ne_true_of_eq_false h)
    exact gives_of_eq (congrArg Host.Outcome.next hidle) ⟨rfl, SameBut.atTime s n⟩
  · have hlock : (s.fresh.atTime n).syncIn = { s.fresh.atTime n with lockGood := true } :=
      (if_neg (not_not.mpr h)).trans (if_neg (ne_true_of_eq_false hl))
    exact gives_of_eq (congrArg Host.Outcome.next hlock)
      ⟨rfl, ((SameBut.atTime s n).mono (by decide)).step (.setLockGood _ _) (by decide)⟩
  · have hidle : (s.fresh.atTime n).syncIn = s.fresh.atTime n := if_pos h
    exact gives_of_eq (congrArg Host.Outcome.next hidle) (SameBut.atTime s n)
  · obtain ⟨hgood, hcount, hf⟩ := unlocked_shows s.fresh
    exact gives_of_eq (congrArg Host.Outcome.next (if_pos (by simp [h, hl])))
      ⟨hgood, hcount, ((SameBut.fresh s).mono (by decide)).step hf.same (by decide), hf.log, hf.dict⟩
  · exact gives_of_eq rfl ⟨rfl, answered_same _⟩
  · obtain ⟨hs, hsent⟩ := sendSyncs_shows ((List.range 16).filter (fun q => s.role q == 1)) s.fresh
    exact gives_of_eq rfl ⟨(SameBut.fresh s).trans hs, hsent⟩

end Sys2Proof.Machine

/-! PROOFS. The end of a row that moved a context: a stream that may stop at its mark, and a context at END whose switch may begin
(R199, R324). -/

namespace Sys2Proof.Machine

section Checked

variable {s t : State} {b : Bool} {x y : Pair}

/-! ### Streams and queues of a pair -/

@[simp] theorem Pair.strm_setStrm (p : Pair) (i : StreamId) (r : Strm) : (p.setStrm i r).strm i = r := by cases i <;> rfl

theorem Pair.strm_setStrm_ne (p : Pair) {i j : StreamId} (h : j ≠ i) (r : Strm) : (p.setStrm i r).strm j = p.strm j := by
  cases i
  · cases j
    · exact absurd rfl h
    · rfl
  · cases j
    · rfl
    · exact absurd rfl h

@[simp] theorem Pair.setStrm_setStrm (p : Pair) (i : StreamId) (r r' : Strm) : (p.setStrm i r).setStrm i r' = p.setStrm i r' := by
  cases i <;> rfl

@[simp] theorem Pair.setStrm_strm (p : Pair) (i : StreamId) : p.setStrm i (p.strm i) = p := by cases i <;> rfl

@[simp] theorem Pair.oq_setStrm (p : Pair) (i : StreamId) (r : Strm) (n : Nat) : (p.setStrm i r).oq n = p.oq n := by cases i <;> rfl

@[simp] theorem Pair.rq_setStrm (p : Pair) (i : StreamId) (r : Strm) (n : Nat) : (p.setStrm i r).rq n = p.rq n := by cases i <;> rfl

@[simp] theorem Pair.strm_setOq (p : Pair) (n : Nat) (l : List QWord) (i : StreamId) : (p.setOq n l).strm i = p.strm i := by
  unfold Pair.setOq
  split <;> cases i <;> rfl

/-- A queue of a pair holds what it was set to. -/
@[simp] theorem Pair.oq_setOq (p : Pair) (n : Nat) (l : List QWord) : (p.setOq n l).oq n = l := by
  unfold Pair.oq Pair.setOq
  generalize n % 4 = m
  obtain _ | _ | _ | m := m <;> rfl

/-! ### A stream or a pair as it was, but stopped -/

theorem StrmKept.ops {r r' : Strm} (h : StrmKept b r r') : r.ops = r'.ops := by
  obtain rfl | ⟨-, rfl⟩ := h
  · rfl
  · rfl

theorem PairKept.refl (b : Bool) (x : Pair) : PairKept b x x := ⟨rfl, .inl rfl, .inl rfl⟩

theorem PairKept.strm (h : PairKept b x y) (i : StreamId) : StrmKept b (x.strm i) (y.strm i) := by
  obtain ⟨-, ha, hx⟩ := h
  cases i
  · exact ha
  · exact hx

theorem PairKept.oq (h : PairKept b x y) (n : Nat) : x.oq n = y.oq n := by rw [h.1]; rfl

theorem PairKept.rq (h : PairKept b x y) (n : Nat) : x.rq n = y.rq n := by rw [h.1]; rfl

theorem PairKept.stopped (x : Pair) (i : StreamId) : PairKept true (x.setStrm i { x.strm i with stopped := true }) x := by
  cases i
  · exact ⟨rfl, .inr ⟨rfl, rfl⟩, .inl rfl⟩
  · exact ⟨rfl, .inl rfl, .inr ⟨rfl, rfl⟩⟩

/-! ### The check itself -/

theorem stopCheck_same (s : State) (k : Nat) : SameBut [.pairs] s (s.stopCheck k) := by
  unfold State.stopCheck
  dsimp only
  split
  · exact .refl _ s
  · split
    · exact .ite (.setPair s _ _ _) (.refl _ s)
    · exact .refl _ s

/-- At most streams that stop, and those only where the context is stopping at the marks. -/
theorem stopCheck_pairs (s : State) (k n : Nat) :
    PairKept (s.stopping k) (KV.get Pair.zero (s.stopCheck k).pairs n) (KV.get Pair.zero s.pairs n) := by
  unfold State.stopCheck
  dsimp only
  split
  · exact .refl ..
  · rename_i hs
    have hs : s.stopping k = true := beq_iff_eq.mpr (not_not.mp hs)
    split
    · split
      · rename_i p _ _
        by_cases hn : n = pairKey (s.ccore k) p.1
        · rw [hs, hn]
          exact (congrArg (PairKept true · _) (s.pair_setPair ..)).mpr (.stopped _ p.2)
        · exact (congrArg (PairKept _ · _) (KV.get_set_ne _ _ _ hn)).mpr (.refl ..)
      · exact .refl ..
    · exact .refl ..

theorem finishCheck_same (s : State) (k : Nat) : SameBut [.pairs, .ctxs] s (s.finishCheck k) := by
  have h : SameBut [.pairs, .ctxs] s (s.stopCheck k) := (stopCheck_same s k).mono (by decide)
  exact .ite (h.step (.setCtx _ k _) (by decide)) h

theorem finishCheck_pairs (s : State) (k n : Nat) :
    PairKept (s.stopping k) (KV.get Pair.zero (s.finishCheck k).pairs n) (KV.get Pair.zero s.pairs n) := by
  have h : (s.finishCheck k).pairs = (s.stopCheck k).pairs := by
    unfold State.finishCheck
    dsimp only
    split <;> rfl
  rw [h]
  exact stopCheck_pairs s k n

theorem finishCheck_ctx (s : State) {k j : Nat} (h : j ≠ k) : (s.finishCheck k).ctx j = s.ctx j := by
  have hs : (s.stopCheck k).ctx j = s.ctx j := congrArg (KV.get Ctx.zero · j) (stopCheck_same s k .ctxs (by decide))
  unfold State.finishCheck
  dsimp only
  split
  · exact (State.ctx_setCtx_ne _ _ _ _ h).trans hs
  · exact hs

theorem stopping_congr (h : SameBut [.pairs, .ctxs] s t) (k : Nat) : t.stopping k = s.stopping k :=
  congrArg (· == 1) (dget_of_sameBut h (by decide) _ _)

theorem finishCheck_stopping (s : State) (k : Nat) : (s.finishCheck k).stopping k = s.stopping k :=
  stopping_congr (finishCheck_same s k) k

theorem stopCheck_stopping (s : State) (k : Nat) : (s.stopCheck k).stopping k = s.stopping k :=
  stopping_congr ((stopCheck_same s k).mono (by decide)) k

theorem finishCheck_group (s : State) (k c a g : Nat) : (s.finishCheck k).group c a g = s.group c a g :=
  congrArg (KV.get Group.zero · _) (finishCheck_same s k .groups (by decide))

theorem finishCheck_oq (s : State) (k c q n : Nat) : ((s.finishCheck k).pair c q).oq n = (s.pair c q).oq n :=
  (finishCheck_pairs s k _).oq n

theorem finishCheck_ops (s : State) (k c q : Nat) (i : StreamId) : ((s.finishCheck k).strm c q i).ops = (s.strm c q i).ops :=
  ((finishCheck_pairs s k _).strm i).ops

end Checked

end Sys2Proof.Machine

/-! PROOFS. The issue of a stream's instruction: what stands after its wait and its advance, what its operation adds, and the hold on a
busy unit (R180, R184, R199, R204, R207). -/

namespace Sys2Proof.Machine

section Issue

variable {s t u v : State} {c q : Nat} {st : StreamId} {z : Site} {r : Strm} {l m : List Field} {d : List (Nat × Nat)} {fl : List Nat}

theorem owner_shows {k : Nat} (h : s.owner c q = some k) : s.cstate k = csRunning ∧ s.ccore k = c := by
  have hp := List.find?_some h
  simp only [Bool.and_eq_true, beq_iff_eq] at hp
  exact hp.1

theorem runner_owner {k : Nat} (h : s.runner c q = some k) : s.owner c q = some k := by
  unfold State.runner at h
  split at h
  · split at h
    · rename_i ho _
      exact ho.trans h
    · cases h
  · cases h

theorem runsOn_of_runner {k : Nat} (h : s.runner c q = some k) : RunsOn s k c :=
  runsOn_of (owner_shows (runner_owner h)).1 (owner_shows (runner_owner h)).2

/-- Where a stream stands is its own place, with the stream as it is and the context that runs it. -/
theorem site_shows (h : s.site c q st = some z) : z.c = c ∧ z.q = q ∧ z.st = st ∧ z.t = s.strm c q st ∧ s.runner c q = some z.k := by
  unfold State.site at h
  split at h
  · cases h
  · rename_i k hr
    dsimp only at h
    split at h
    · cases h
    · obtain rfl := Option.some.inj h
      exact ⟨rfl, rfl, rfl, rfl, hr⟩

/-! ### The wait (R207) -/

theorem takeWait_eq (h : RunsOn s z.k c) :
    s.takeWait z = if z.i.waitKind = 2 ∧ z.t.waited = false then s.putFlag c z.i.waitFlag false else s := by
  unfold State.takeWait State.kPutFlag
  rw [h.isLive, h.ccore]
  simp

theorem SameBut.putFlag (s : State) (c f : Nat) (b : Bool) : SameBut [.flags] s (s.putFlag c f b) := by
  intro g hg
  cases g
  case flags => exact absurd (by decide) hg
  all_goals rfl

theorem takeWait_same (h : RunsOn s z.k c) : SameBut [.flags] s (s.takeWait z) := by
  rw [takeWait_eq h]
  exact .ite (.putFlag s _ _ _) (.refl _ s)

theorem takeWait_flags (h : RunsOn s z.k c) {n : Nat} (hn : ∀ f ∈ z.waitClears, n ≠ flagKey c f) :
    KV.get false (s.takeWait z).flags n = KV.get false s.flags n := by
  rw [takeWait_eq h]
  split
  · rename_i hw
    exact KV.get_set_ne false s.flags false (hn z.i.waitFlag (by simp [Site.waitClears, hw.1]))
  · rfl

theorem takeWait_clears (h : RunsOn s z.k c) (hk : z.i.waitKind = 2) (hw : z.t.waited = false) :
    (s.takeWait z).flag c z.i.waitFlag = false := by
  rw [takeWait_eq h, if_pos ⟨hk, hw⟩]
  exact State.flag_putFlag ..

/-! ### A state in which one stream has moved -/

/-- What stands in `u` of `s` once the stream at `z` is `r`: as `IssueFrame`, before the check at the end of the row. -/
structure Begun (s u : State) (c q : Nat) (z : Site) (r : Strm) (l : List Field) (d : List (Nat × Nat)) (fl : List Nat) : Prop where
  same : SameBut ([.sent, .pairs, .flags, .dict] ++ l) s u
  entries : DictBut ((0x2600 + z.k, 0x40) :: d) s u
  pairs : ∀ n, n ≠ pairKey c q → KV.get Pair.zero u.pairs n = KV.get Pair.zero s.pairs n
  pair : u.pair c q = (s.pair c q).setStrm z.st r
  flags : ∀ n, (∀ f ∈ fl, n ≠ flagKey c f) → KV.get false u.flags n = KV.get false s.flags n

theorem Begun.takeWait (h : RunsOn s z.k c) (ht : z.t = s.strm c q z.st) :
    Begun s (s.fresh.takeWait z) c q z z.t [] [] z.waitClears := by
  have hw : SameBut [.flags] s.fresh (s.fresh.takeWait z) := takeWait_same (z := z) (s := s.fresh) h
  have hp : (s.fresh.takeWait z).pairs = s.pairs := hw .pairs (by decide)
  have hs : SameBut [.sent, .flags] s (s.fresh.takeWait z) := ((SameBut.fresh s).mono (by decide)).step hw (by decide)
  refine ⟨hs.mono (by decide), .of_sameBut hs (by decide), fun n _ => by rw [hp], ?_, fun n hn => takeWait_flags (s := s.fresh) h hn⟩
  rw [State.pair, hp, ht]
  exact (Pair.setStrm_strm _ _).symm

theorem Begun.strm (h : Begun s u c q z r l d fl) : u.strm c q z.st = r := by rw [State.strm, h.pair, Pair.strm_setStrm]

/-- The stream moves once more. -/
theorem Begun.setStrm (h : Begun s u c q z r l d fl) (r' : Strm) : Begun s (u.setStrm c q z.st r') c q z r' l d fl where
  same := h.same.step (.setPair u c q _) (by simp)
  entries := h.entries.trans (.of_sameBut (.setPair u c q _) (by decide))
  pairs n hn := (KV.get_set_ne _ _ _ hn).trans (h.pairs n hn)
  pair := by rw [State.setStrm, State.pair_setPair, h.pair, Pair.setStrm_setStrm]
  flags := h.flags

/-- An update of other fields; what it changes joins the list. -/
theorem Begun.other (h : Begun s u c q z r l d fl) (k : SameBut m u v) (hm : ∀ f ∈ m, f ∈ l)
    (hn : ∀ f ∈ [Field.pairs, .flags, .dict, .fuses, .safeState, .busOffRecent, .logOpen], f ∉ m) : Begun s v c q z r l d fl := by
  have hp : v.pairs = u.pairs := k .pairs (hn _ (by decide))
  have hf : v.flags = u.flags := k .flags (hn _ (by decide))
  have hd : DictBut ((0x2600 + z.k, 0x40) :: d) u v := .of_same (k .dict (hn _ (by decide))) (k .fuses (hn _ (by decide)))
    (errorRegister_congr (k .dict (hn _ (by decide))) (k .safeState (hn _ (by decide))) (k .busOffRecent (hn _ (by decide)))
      (k .logOpen (hn _ (by decide))))
  exact ⟨h.same.step k fun f hf => List.mem_append_right _ (hm f hf), h.entries.trans hd, fun n hn => by rw [hp, h.pairs n hn],
    by rw [State.pair, hp]; exact h.pair, fun n hn => by rw [hf, h.flags n hn]⟩

theorem Begun.widen (h : Begun s u c q z r l d fl) (hm : ∀ f ∈ l, f ∈ m) : Begun s u c q z r m d fl :=
  { h with same := h.same.mono fun f hf => (List.mem_append.mp hf).elim (List.mem_append_left _) (List.mem_append_right _ ∘ hm f) }

/-- The stop state of the context alone is set. -/
theorem Begun.cset (h : Begun s u c q z r l d fl) (v : Nat) : Begun s (u.cset z.k 0x40 v) c q z r l d fl :=
  { same := h.same.step (.dset u _ _ _) (by simp)
    entries := h.entries.trans ((DictBut.dset u _ _ _ (by decide) (by simp) (by simp)).mono (by simp))
    pairs := h.pairs
    pair := h.pair
    flags := h.flags }

/-- The stream moves past its instruction (R199, R204). -/
theorem Begun.advance (hc : z.c = c) (hq : z.q = q) (h : Begun s u c q z z.t [] d fl) :
    Begun s (u.advance z) c q z (z.after s) [] d fl := by
  subst hc hq
  have hx : u.ctxs = s.ctxs := h.same .ctxs (by simp)
  have hm : u.markOf z = s.markOf z := by rw [State.markOf, State.ctx, hx]; rfl
  have hr : (u.strm z.c z.q z.st).passed z.len z.i.span (u.markOf z) = z.after s := by rw [h.strm, hm]; rfl
  unfold State.advance
  dsimp only
  rw [hr]
  split
  · exact (h.setStrm _).cset 1
  · exact h.setStrm _

/-- A stream with one more operation issued. -/
def Strm.issued (r : Strm) (z : Site) (f : Op → Op) : Strm :=
  { r with ops := r.ops ++ [f (z.op r.nextSeq)], nextSeq := r.nextSeq + 1 }

theorem Begun.pushOp (hc : z.c = c) (hq : z.q = q) (h : Begun s u c q z r l d fl) (f : Op → Op) :
    Begun s (u.pushOp z f) c q z (r.issued z f) l d fl := by
  subst hc hq
  unfold State.pushOp
  dsimp only
  rw [h.strm]
  exact h.setStrm _

/-- The check at the end of the row may stop streams and begin a switch, no more. -/
theorem Begun.issueFrame (h : Begun s u c q z r l d fl) (hl : .ctxs ∉ l) : IssueFrame s (u.finishCheck z.k) c q z l d fl := by
  have hs := finishCheck_same u z.k
  have hk n : PairKept ((u.finishCheck z.k).stopping z.k) (KV.get Pair.zero (u.finishCheck z.k).pairs n) (KV.get Pair.zero u.pairs n) :=
    (finishCheck_stopping u z.k).symm ▸ finishCheck_pairs u z.k n
  have hx : u.ctxs = s.ctxs := h.same .ctxs (by simpa using hl)
  refine ⟨(h.same.mono ?_).step hs (by simp), h.entries.trans (.of_sameBut hs (by decide)), fun n hn => ?_, fun st hst => ?_, fun n => ?_,
    fun n hn => ?_, fun j hj => ?_⟩
  · intro f hf
    simp only [List.mem_append, List.mem_cons] at hf ⊢
    tauto
  · rw [← h.pairs n hn]
    exact hk n
  · have := (hk (pairKey c q)).strm st
    rwa [← State.pair, ← State.pair, h.pair, Pair.strm_setStrm_ne _ hst] at this
  · have ho := (hk (pairKey c q)).oq n
    have hr := (hk (pairKey c q)).rq n
    rw [← State.pair, ← State.pair, h.pair] at ho hr
    exact ⟨ho.trans (Pair.oq_setStrm ..), hr.trans (Pair.rq_setStrm ..)⟩
  · rw [hs .flags (by decide), h.flags n hn]
  · rw [finishCheck_ctx u hj, State.ctx, hx, State.ctx]

theorem strmKept_finishCheck (h : u.pair c q = (s.pair c q).setStrm z.st r) :
    StrmKept ((u.finishCheck z.k).stopping z.k) ((u.finishCheck z.k).strm c q z.st) r := by
  have := (finishCheck_pairs u z.k (pairKey c q)).strm z.st
  rwa [← State.pair, ← State.pair, h, Pair.strm_setStrm, ← finishCheck_stopping] at this

/-! ### What an instruction that may issue does -/

/-- The instruction's own effect where its unit is free, and a hold on it elsewhere (R180, R196, R207). -/
theorem issue_of_issues {op : Nat} (h : Issues s c q st op z) {checks : Site → State → List Nat} (hc : checks z s.fresh = [])
    (busy : Site → State → Bool) (body : Site → State → State) :
    s.fresh.issue c q st (isOp op) checks busy body =
      if busy z s.fresh then (s.fresh.holdBusy z).stopCheck z.k else (body z ((s.fresh.takeWait z).advance z)).finishCheck z.k := by
  obtain ⟨hsite, hfetch, hop, hill, hwait, hcommon⟩ := h
  have hw : s.fresh.waitMet z = true := hwait
  have hcm : s.fresh.commonChecks z = [] := hcommon
  unfold State.issue
  simp only [hsite, isOp, hop, hfetch, hill, hw, hcm, hc, leastCode, BEq.rfl, Bool.not_true, Bool.false_eq_true, if_false, List.append_nil,
    List.min?_nil]

theorem Issues.shows {op : Nat} (h : Issues s c q st op z) :
    z.c = c ∧ z.q = q ∧ z.st = st ∧ z.t = s.strm c q st ∧ RunsOn s z.k c := by
  obtain ⟨hc, hq, hst, ht, hr⟩ := site_shows h.1
  exact ⟨hc, hq, hst, ht, runsOn_of_runner (s := s.fresh) hr⟩

/-- The state in which the effect of an instruction that issues takes place. -/
theorem Begun.of_issues {op : Nat} (h : Issues s c q st op z) :
    Begun s ((s.fresh.takeWait z).advance z) c q z (z.after s) [] [] z.waitClears := by
  obtain ⟨hc, hq, hst, ht, hr⟩ := h.shows
  exact .advance hc hq (.takeWait hr (hst ▸ ht))

theorem holdBusy_eq (hr : RunsOn s z.k c) (hc : z.c = c) (hq : z.q = q) (ht : z.t = s.strm c q z.st) :
    s.fresh.holdBusy z = if z.i.waitKind = 0 ∨ z.t.waited = true then s.fresh
      else (s.fresh.takeWait z).setStrm c q z.st { z.t with waited := true } := by
  have h := (Begun.takeWait hr ht).strm
  subst hc hq
  unfold State.holdBusy
  simp only [h, Bool.or_eq_true, decide_eq_true_eq]

/-- A hold on the unit ends the wait and changes nothing else. -/
theorem holdBusy_begun (hr : RunsOn s z.k c) (hc : z.c = c) (hq : z.q = q) (ht : z.t = s.strm c q z.st) :
    Begun s (s.fresh.holdBusy z) c q z { z.t with waited := z.t.waited || z.i.waitKind != 0 } [] [] z.waitClears ∧
      SameBut [.sent, .pairs, .flags] s (s.fresh.holdBusy z) ∧
      (z.t.waited = false → z.i.waitKind = 2 → (s.fresh.holdBusy z).flag c z.i.waitFlag = false) := by
  have hw := Begun.takeWait hr ht
  rw [holdBusy_eq hr hc hq ht]
  split
  · rename_i h
    have hz : (z.t.waited || z.i.waitKind != 0) = z.t.waited := by obtain h | h := h <;> simp [h]
    refine ⟨?_, (SameBut.fresh s).mono (by decide), fun h₁ h₂ => ?_⟩
    · rw [hz]
      exact ⟨(SameBut.fresh s).mono (by decide), .refl _ _, fun _ _ => rfl, ht ▸ (Pair.setStrm_strm _ _).symm, fun _ _ => rfl⟩
    · rw [h₁, h₂] at h
      exact absurd h (by decide)
  · rename_i h
    have hz : (z.t.waited || z.i.waitKind != 0) = true := by simp only [not_or] at h; simp [h.1]
    rw [hz]
    refine ⟨hw.setStrm _, ?_, fun h₁ h₂ => takeWait_clears (s := s.fresh) hr h₂ h₁⟩
    exact (((SameBut.fresh s).mono (by decide)).step (takeWait_same (s := s.fresh) hr) (by decide)).step (.setPair _ _ _ _) (by decide)

theorem holds_of_issues {op : Nat} (h : Issues s c q st op z) : Holds s ((s.fresh.holdBusy z).stopCheck z.k) c q z := by
  obtain ⟨hc, hq, hst, ht, hr⟩ := h.shows
  obtain ⟨hb, hs, hf⟩ := holdBusy_begun hr hc hq (hst ▸ ht)
  have hk := stopCheck_same (s.fresh.holdBusy z) z.k
  have hp n := stopCheck_pairs (s.fresh.holdBusy z) z.k n
  rw [← stopCheck_stopping] at hp
  have hfl : ((s.fresh.holdBusy z).stopCheck z.k).flags = (s.fresh.holdBusy z).flags := hk .flags (by decide)
  refine ⟨?_, fun h₁ h₂ => ?_, fun n hn => hb.pairs n hn ▸ hp n, fun n hn => ?_, hs.step hk (by decide)⟩
  · have := (hp (pairKey c q)).strm z.st
    rwa [← State.pair, ← State.pair, hb.pair, Pair.strm_setStrm] at this
  · rw [State.flag, hfl]
    exact hf h₁ h₂
  · rw [hfl, hb.flags n hn]

end Issue

end Sys2Proof.Machine

/-! PROOFS. WLOAD and STREAM as they issue: the load that waits at its group, and the job that joins it with its scale slot
(R103, R106, R126, R139, R180). -/

namespace Sys2Proof.Machine

section Joins

variable {s u v : State} {c q : Nat} {z : Site} {f : Op → Op} {r : Strm} {l : List Field} {d : List (Nat × Nat)} {fl : List Nat}

@[simp] theorem State.group_mapGroup (s : State) (c a g : Nat) (f : Group → Group) :
    (s.mapGroup c a g f).group c a g = f (s.group c a g) := State.group_setGroup ..

theorem SameBut.setGroup (s : State) (c a g : Nat) (x : Group) : SameBut [.groups] s (s.setGroup c a g x) := by
  intro f hf
  cases f
  case groups => exact absurd (by decide) hf
  all_goals rfl

theorem SameBut.mapGroup (s : State) (c a g : Nat) (f : Group → Group) : SameBut [.groups] s (s.mapGroup c a g f) :=
  .setGroup s c a g _

theorem SameBut.setSlot (s : State) (c q i : Nat) (x : ScaleSlot) : SameBut [.slots] s (s.setSlot c q i x) := by
  intro f hf
  cases f
  case slots => exact absurd (by decide) hf
  all_goals rfl

theorem group_congr (h : u.groups = s.groups) (c a g : Nat) : u.group c a g = s.group c a g := congrArg (KV.get Group.zero · _) h

theorem slot_congr (h : u.slots = s.slots) (c q i : Nat) : u.slot c q i = s.slot c q i := congrArg (KV.get ScaleSlot.zero · _) h

/-- An operation pushed in the state where its instruction issues has issued once the row ends. -/
theorem opIssued_finishCheck (h : Begun s u c q z ((z.after s).issued z f) l d fl) :
    OpIssued s (u.finishCheck z.k) c q z (f (z.op z.t.nextSeq)) :=
  strmKept_finishCheck h.pair

/-- The state in which the operation of an instruction has joined its stream. -/
theorem Begun.pushed {op : Nat} {st : StreamId} (h : Issues s c q st op z) (f : Op → Op) :
    Begun s (((s.fresh.takeWait z).advance z).pushOp z f) c q z ((z.after s).issued z f) [] [] z.waitClears := by
  obtain ⟨hc, hq, -, -, -⟩ := h.shows
  exact (Begun.of_issues h).pushOp hc hq f

/-! ### WLOAD -/

/-- The load that a WLOAD asks its group for. -/
def Site.wload (z : Site) (s : State) : WLoad :=
  WLoad.mk z.q z.t.nextSeq (wlK z.i) (wlFmt z.i) (wlSplit z.i) (bits z.i.head 49 48) (s.cget z.k 0x06 == 1)

theorem wload_issues {C : Fin 8} {Q : Fin 4} (h : Issues s C Q .x 0x40 z) (hc : wloadChecks z s.fresh = []) :
    let busy := laneBusy z 0x40 z.i.arr (wlGroup z.i) || (s.group C z.i.arr (wlGroup z.i)).waiting.isSome
    exec (.wload C Q) s = .next (if busy = true then (s.fresh.holdBusy z).stopCheck z.k else
      ((((s.fresh.takeWait z).advance z).pushOp z id).mapGroup C z.i.arr (wlGroup z.i)
        fun g => { g with waiting := some (z.wload s) }).finishCheck z.k) := by
  obtain ⟨hC, hQ, hst, -, -⟩ := h.shows
  have hb := Begun.of_issues h
  have hseq : (((s.fresh.takeWait z).advance z).strm z.c z.q .x).nextSeq = z.t.nextSeq := by
    rw [hC, hQ, ← hst, hb.strm]
    rfl
  have hcget : ((s.fresh.takeWait z).advance z).cget z.k 0x06 = s.cget z.k 0x06 := hb.entries _ _ (by decide) (by simp)
  refine congrArg Host.Outcome.next ((issue_of_issues h hc _ _).trans ?_)
  dsimp only
  rw [hseq, hcget, hC]
  rfl

/-! ### STREAM -/

theorem ScaleSlot.join_isOpen (v : ScaleSlot) {r : Rec} {st : BitVec 8} {seq : Nat} (h : r.opens = true) :
    (v.join r st z seq).isOpen = true := by
  unfold ScaleSlot.join
  simp only [h, if_true]
  split <;> rfl

theorem ScaleSlot.join_closing (v : ScaleSlot) {r : Rec} {st : BitVec 8} {seq : Nat} (h : r.closes = true) :
    (v.join r st z seq).closing.isSome = true := by
  unfold ScaleSlot.join
  simp only [h, if_true]
  rfl

/-- A STREAM whose record, status words, parameters and table read and pass starts with them. -/
theorem readStream_starts {r cols tb : List Byte} {st1 st2 : BitVec 8} {sw x : F32} {w : Nat}
    (hr : v.recordAt z (bits (z.i.w 1) 20 0) 3 = (some r, v)) (hl : v.streamLate z r w = none)
    (h1 : v.statusOf z (if Rec.immScale r then none else some (Rec.scaleWord r)) = (some st1, sw, v))
    (h2 : v.statusOf z (Rec.status2 r) = (some st2, x, v)) (hp : v.recordAt z (Rec.params r) (cdiv (2 * smN z.i) 8) = (some cols, v))
    (ht : (if Rec.act r = 4 && !Rec.bypassed r then v.recordAt z (Rec.table r) 32 else (some [], v)) = (some tb, v)) :
    v.readStream z w = v.startStream z r w (if Rec.immScale r then Rec.imm r else sw) (st1 ||| st2) (f32s cols) (f32s tb) := by
  unfold State.readStream
  simp only [hr, hl, h1, h2, hp, ht]

/-- What starts: the job joins its group's, last, and takes its slot. -/
theorem startStream_shows (v : State) (z : Site) (r : Rec) (w : Nat) (sa : F32) (st : BitVec 8) (cols tb : List F32) :
    let t := v.startStream z r w sa st cols tb
    (∃ j : Job, (t.group z.c z.i.arr (smGroup z.i)).jobs = (v.group z.c z.i.arr (smGroup z.i)).jobs ++ [j] ∧ j.pair = z.q ∧
      j.seq = (v.strm z.c z.q .x).nextSeq - 1 ∧ j.mode = smMode z.i ∧ j.fmt = smFmt z.i ∧ j.swap = smSwap z.i ∧ j.n = smN z.i ∧
      j.slots = z.threads ∧ j.record = r ∧ j.inject = 0) ∧
    (r.opens = true → (t.slot z.c z.q r.slot).isOpen = true) ∧ (r.closes = true → (t.slot z.c z.q r.slot).closing.isSome = true) ∧
    SameBut [.groups, .slots] v t := by
  intro t
  have hg : t.slots = (v.setSlot z.c z.q r.slot ((v.slot z.c z.q r.slot).join r st z ((v.strm z.c z.q .x).nextSeq - 1))).slots := rfl
  have hs : t.slot z.c z.q r.slot = (v.slot z.c z.q r.slot).join r st z ((v.strm z.c z.q .x).nextSeq - 1) :=
    (slot_congr hg _ _ _).trans (State.slot_setSlot ..)
  refine ⟨⟨_, congrArg Group.jobs (State.group_mapGroup ..), rfl, rfl, rfl, rfl, rfl, rfl, rfl, rfl, rfl⟩, fun h => ?_, fun h => ?_, ?_⟩
  · rw [hs]
    exact ScaleSlot.join_isOpen _ h
  · rw [hs]
    exact ScaleSlot.join_closing _ h
  · exact ((SameBut.setSlot v _ _ _ _).mono (by decide)).step (.mapGroup _ _ _ _ _) (by decide)

end Joins

end Sys2Proof.Machine

/-! PROOFS. Reports of a lane, and the words that a running context reads and writes: their frames, and what its own words hold
(R124, R153, R231, R342). -/

namespace Sys2Proof.Machine

section Lanes

variable {s t : State} {k c w a b : Nat} {x : SWord} {p : Bool}

/-! ### Frames -/

/-- The fields that a lane's reports change, and the words that it writes. -/
def laneFields : List Field := .frame :: copyFields ++ logFields

theorem frameFault_same (s : State) (code : Nat) (core : Option Nat) (disagree invalid : Bool) :
    SameBut [.frame] s (s.frameFault code core disagree invalid) := .setFrame s _

theorem ctxFault_same (s : State) (k code : Nat) (disagree : Bool) : SameBut [.frame] s (s.ctxFault k code disagree) :=
  .ite (frameFault_same s _ _ _ _) (.refl _ s)

theorem ctxDegrade_same (s : State) (k code : Nat) : SameBut [.frame] s (s.ctxDegrade k code) := by
  have h : SameBut [.frame] s (s.ctxNote k code) := .ite (frameFault_same s _ _ _ _) (.refl _ s)
  exact .ite (h.trans (.setFrame _ _)) (.refl _ s)

theorem laneReport_same (s : State) (k c a g slot code : Nat) (detail : List Byte) :
    SameBut laneFields s (s.laneReport k c a g slot code detail) := by
  unfold State.laneReport
  extract_lets s₁ s₂
  have h₁ : SameBut laneFields s s₁ := (Logged.report ..).same.mono (by decide)
  have h₂ : SameBut laneFields s s₂ := by
    unfold s₂
    split
    · exact h₁.step (.dbump s₁ _ _) (by decide)
    · exact h₁
  exact .ite (h₂.step (ctxDegrade_same s₂ k code) (by decide)) (h₂.step (ctxFault_same s₂ k code true) (by decide))

theorem SameBut.setSpm (s : State) (c w : Nat) (x : SWord) (p : Bool) : SameBut [.mem, .poison] s (s.setSpm c w x p) :=
  putWord_same s _ x p

theorem localWrite_same (s : State) (k c w : Nat) (x : SWord) (p : Bool) : SameBut laneFields s (s.localWrite k c w x p) := by
  unfold State.localWrite
  refine .ite ((SameBut.setSpm s c w x p).mono (by decide)) ?_
  split
  · rename_i e
    obtain ⟨n, -, rfl⟩ := Option.map_eq_some_iff.mp e
    exact (SameBut.kSetWord s _ w x p).mono (by decide)
  · exact (Logged.rep ..).same.mono (by decide)

/-- A read of a state without latent errors may report that no window admits it. -/
theorem localRead_same (h : s.ecc = []) (k c w : Nat) : SameBut laneFields s (s.localRead k c w).2 := by
  unfold State.localRead
  split
  · dsimp only
    rw [touch_clean s _ h]
    exact .refl _ s
  · split
    · rename_i e
      obtain ⟨n, -, rfl⟩ := Option.map_eq_some_iff.mp e
      rw [readK_clean s _ w h]
      exact .refl _ s
    · exact (Logged.rep ..).same.mono (by decide)

/-! ### Words of the context's own scratchpad -/

theorem byteAt_congr (h : t.mem = s.mem) (b : Nat) : t.byteAt b = s.byteAt b := congrArg (KV.get memDefault · b) h

theorem spm_congr (h : t.mem = s.mem) (c w : Nat) : t.spm c w = s.spm c w :=
  congrArg wordOfBytes (readBytes_congr s fun _ _ => byteAt_congr h _)

theorem localWrite_owned (h : (s.ctx k).ownsWord w = true) : s.localWrite k c w x p = s.setSpm c w x p := if_pos h

theorem localRead_owned (h : (s.ctx k).ownsWord w = true) (he : s.ecc = []) :
    s.localRead k c w = ((s.spm c w, s.spmPoison c w), s) := by
  unfold State.localRead
  rw [if_pos h]
  dsimp only
  rw [touch_clean s _ he]

@[simp] theorem spm_setSpm_same (s : State) (c w : Nat) (x : SWord) (p : Bool) : (s.setSpm c w x p).spm c w = x :=
  wordAt_putWord_same s _ x p

theorem spm_setSpm_ne (s : State) (c : Nat) {w v : Nat} (h : v ≠ w) (x : SWord) (p : Bool) : (s.setSpm c w x p).spm c v = s.spm c v :=
  wordAt_putWord_ne s x p (by unfold spmAddr; omega)

theorem byteAt_setSpm (s : State) {c w b : Nat} (h : b < spmAddr c w ∨ spmAddr c w + 32 ≤ b) (x : SWord) (p : Bool) :
    (s.setSpm c w x p).byteAt b = s.byteAt b :=
  byteAt_putWord s _ b x p h

/-- A byte of the word set is one of its bytes. -/
theorem byteAt_setSpm_same (s : State) (c w : Nat) (x : SWord) (p : Bool) {i : Nat} (h : i < (bytesOfWord x).length) :
    (s.setSpm c w x p).byteAt (spmAddr c w + i) = (bytesOfWord x)[i] :=
  byteAt_writeBytes_inside s _ i _ h

/-- Words of a context written to places of its own, one each. -/
theorem localWrites_show (l : List (Nat × SWord)) (d : Nat) {s : State} (hn : (l.map fun p => d + p.1).Nodup)
    (ho : ∀ a ∈ l.map (fun p => d + p.1), (s.ctx k).ownsWord a = true) :
    let t := foldS l (fun s p => s.localWrite k c (d + p.1) p.2 false) s
    SameBut [.mem, .poison] s t ∧ (∀ p ∈ l, t.spm c (d + p.1) = p.2) ∧
      (∀ b, (∀ a ∈ l.map (fun p => d + p.1), b < spmAddr c a ∨ spmAddr c a + 32 ≤ b) → t.byteAt b = s.byteAt b) := by
  induction l generalizing s with
  | nil => exact ⟨.refl _ s, fun _ h => absurd h List.not_mem_nil, fun _ _ => rfl⟩
  | cons e l ih =>
    simp only [List.map_cons, List.nodup_cons, List.forall_mem_cons] at hn ho ⊢
    have he : s.localWrite k c (d + e.1) e.2 false = s.setSpm c (d + e.1) e.2 false := localWrite_owned ho.1
    have hx : foldS (e :: l) (fun s p => s.localWrite k c (d + p.1) p.2 false) s =
        foldS l (fun s p => s.localWrite k c (d + p.1) p.2 false) (s.setSpm c (d + e.1) e.2 false) := congrArg (foldS l _) he
    obtain ⟨hs, hw, hb⟩ := ih (s := s.setSpm c (d + e.1) e.2 false) hn.2 ho.2
    rw [hx]
    refine ⟨(SameBut.setSpm s _ _ _ _).trans hs, ⟨?_, hw⟩, fun b hb' => (hb b hb'.2).trans (byteAt_setSpm s hb'.1 _ _)⟩
    have hne : (foldS l (fun s p => s.localWrite k c (d + p.1) p.2 false) (s.setSpm c (d + e.1) e.2 false)).spm c (d + e.1) =
        (s.setSpm c (d + e.1) e.2 false).spm c (d + e.1) := by
      refine congrArg wordOfBytes (readBytes_congr _ fun i hi => hb _ fun a ha => ?_)
      have : a ≠ d + e.1 := fun h => hn.1 (h ▸ ha)
      unfold spmAddr
      omega
    rw [hne, spm_setSpm_same]

/-! ### The bytes of a word -/

theorem natOf_append (l m : List Byte) : natOf (l ++ m) = natOf l + 2 ^ (8 * l.length) * natOf m := by
  induction l with
  | nil => simp [natOf]
  | cons b l ih =>
    rw [List.cons_append, natOf, ih, natOf, List.length_cons, Nat.mul_add 8, Nat.pow_add]
    ring

theorem natOf_lt (l : List Byte) : natOf l < 2 ^ (8 * l.length) := by
  induction l with
  | nil => simp [natOf]
  | cons b l ih =>
    have := b.isLt
    rw [natOf, List.length_cons, Nat.mul_add 8, Nat.pow_add]
    omega

theorem bytesOf_natOf (l : List Byte) : bytesOf l.length (natOf l) = l := by
  induction l with
  | nil => rfl
  | cons b l ih =>
    have hb : (b.toNat + 256 * natOf l) >>> 8 = natOf l := by
      have := b.isLt
      rw [Nat.shiftRight_eq_div_pow]
      omega
    have h0 : BitVec.ofNat 8 (b.toNat + 256 * natOf l) = b := BitVec.eq_of_toNat_eq (by have := b.isLt; simp; omega)
    rw [List.length_cons, bytesOf_succ, natOf, hb, h0, ih]

/-- The word of 32 bytes has these bytes. -/
theorem bytesOfWord_wordOfBytes {l : List Byte} (h : l.length = 32) : bytesOfWord (wordOfBytes l) = l := by
  have hn : natOf l < 2 ^ 256 := by simpa [h] using natOf_lt l
  unfold bytesOfWord wordOfBytes
  rw [List.take_of_length_le h.le, BitVec.toNat_ofNat, Nat.mod_eq_of_lt hn]
  exact h ▸ bytesOf_natOf l

theorem length_readBytes (s : State) (a n : Nat) : (s.readBytes a n).length = n := by simp [State.readBytes]

theorem bytesOfWord_spm (s : State) (c w : Nat) : bytesOfWord (s.spm c w) = s.readBytes (spmAddr c w) 32 :=
  bytesOfWord_wordOfBytes (length_readBytes ..)

/-- The 32-bit field at byte 24 of a word that has `v` there. -/
theorem w32_wordOfBytes {l m : List Byte} {v : BitVec 32} (hl : l.length = 24) (hm : m.length = 4) :
    w32 (wordOfBytes (l ++ bytesOf 4 v.toNat ++ m)) 24 = v := by
  have hlen : (l ++ bytesOf 4 v.toNat ++ m).length = 32 := by simp [hl, hm, length_bytesOf]
  have hn : natOf (l ++ bytesOf 4 v.toNat ++ m) < 2 ^ 256 := (natOf_lt _).trans_eq (by rw [hlen])
  have hv := v.isLt
  have hlt : natOf l < 2 ^ 192 := by simpa [hl] using natOf_lt l
  refine BitVec.eq_of_toNat_eq ?_
  unfold w32 wordOfBytes
  rw [BitVec.extractLsb'_toNat, List.take_of_length_le hlen.le, BitVec.toNat_ofNat, Nat.mod_eq_of_lt hn, natOf_append, natOf_append,
    natOf_bytesOf, hl, List.length_append, hl, length_bytesOf, Nat.shiftRight_eq_div_pow]
  omega

end Lanes

end Sys2Proof.Machine

/-! PROOFS. NARROW as it runs: its reports, the words of its codes, its scale word, and its operation (R141, R148, R149, R498). -/

namespace Sys2Proof.Machine

section Narrow

variable {s u v : State} {c q k : Nat} {z : Site} {r : Rec} {sc : F32}

/-! ### Its parts -/

/-- The codes of a staging copy, each with whether it was forced. -/
def State.stagedCodes (s : State) (z : Site) (r : Rec) (sc : F32) (stage : List Byte) : List (Nat × Bool) :=
  (List.range (nrElements z.i)).map fun h =>
    stagedCode r (s.ctx z.k).seed (s.ctx z.k).reuse (fDiv fOne sc) h (fieldAt stage (2 * h) 2)

/-- A report for each code that was forced. -/
def State.forcedReports (s : State) (z : Site) (r : Rec) (n : Nat) : State :=
  foldS (List.range n) (fun s _ => s.laneReport z.k z.c z.i.arr (nrGroup z.i) r.slot 0x2003 []) s

/-- The words of the codes at the destination. -/
def State.codesWritten (s : State) (z : Site) (r : Rec) (codes : List Nat) : State :=
  foldS (narrowWords r codes) (fun s p => s.localWrite z.k z.c (nrDest z.i + p.1) p.2 false) s

/-- The bytes of a scale word with the scale in it; a forced code takes the word's validity. -/
def scaleBytes (l : List Byte) (forced : Nat) (sc : F32) : List Byte :=
  l.take 6 ++ [if forced = 0 then nth 0 l 6 else (nth 0 l 6 &&& 0xFE) ||| 8] ++ slice l 7 17 ++ bytesOf 4 sc.toNat ++ l.drop 28

def State.scaleWritten (s : State) (z : Site) (r : Rec) (forced : Nat) (sc : F32) : State :=
  let w := s.localRead z.k z.c r.outWord
  w.2.localWrite z.k z.c r.outWord (wordOfBytes (scaleBytes (bytesOfWord w.1.1) forced sc)) w.1.2

/-- What a NARROW reports and writes. -/
def State.narrowed (s : State) (z : Site) (r : Rec) (sc : F32) (stage : List Byte) : State :=
  let cs := s.stagedCodes z r sc stage
  let forced := (cs.filter (·.2)).length
  ((s.forcedReports z r forced).codesWritten z r (cs.map (·.1))).scaleWritten z r forced sc

/-- The operation that a NARROW pushed has run. -/
theorem narrow_parts (s : State) (z : Site) (r : Rec) (sc : F32) (stage : List Byte) : s.narrow z r sc stage =
    (s.narrowed z r sc stage).mapX z.c z.q (((s.narrowed z r sc stage).strm z.c z.q .x).nextSeq - 1) (fun o => { o with ran := true }) :=
  rfl

/-- A NARROW whose record, scale and staging copy read and pass narrows. -/
theorem readNarrow_runs {r l : List Byte} {w : SWord} (hr : v.recordAt z (bits (z.i.w 1) 20 0) 3 = (some r, v))
    (hl : narrowLate r = none) (hw : (if nrFromWord z.i then v.consumeRead z.k z.c (nrWord z.i) else (some 0, v)) = (some w, v))
    (hs : v.recordAt z (Rec.staging r) (cdiv (nrElements z.i) 16) = (some l, v)) :
    v.readNarrow z = v.narrow z r (if nrFromWord z.i then w32 w 24 else (v.slot z.c z.q (nrSlot z.i)).closedScale) l := by
  unfold State.readNarrow
  simp only [hr, hl, hw, hs]

/-! ### What it leaves alone -/

theorem narrowed_same (h : s.ecc = []) (z : Site) (r : Rec) (sc : F32) (stage : List Byte) :
    SameBut laneFields s (s.narrowed z r sc stage) := by
  unfold State.narrowed
  extract_lets cs forced
  have h₁ : SameBut laneFields s (s.forcedReports z r forced) := SameBut.foldS (.refl _ s) fun x _ => laneReport_same x _ _ _ _ _ _ _
  have h₂ : SameBut laneFields s ((s.forcedReports z r forced).codesWritten z r (cs.map (·.1))) :=
    SameBut.foldS h₁ fun x _ => localWrite_same x _ _ _ _ _
  have he := (h₂ .ecc (by decide)).trans h
  exact (h₂.trans (localRead_same he _ _ _)).trans (localWrite_same _ _ _ _ _ _)

/-! ### Its operation -/

/-- The operation issued last changes, and no other. -/
theorem Strm.mapOp_issued {x : Strm} (ho : ∀ o ∈ x.ops, o.seq ≠ x.nextSeq) (f : Op → Op) :
    (x.issued z id).mapOp x.nextSeq f = x.issued z f := by
  have hops : x.ops.map (fun o => if o.seq == x.nextSeq then f o else o) = x.ops :=
    (List.map_congr_left fun o h => by simp [ho o h]).trans (List.map_id _)
  have hlast : (z.op x.nextSeq).seq = x.nextSeq := rfl
  simp only [Strm.mapOp, Strm.issued, List.map_append, hops, List.map_cons, List.map_nil, id, hlast, BEq.rfl, if_true]

theorem mapX_issued {x : Strm} (hu : u.strm c q .x = x.issued z id) (ho : ∀ o ∈ x.ops, o.seq ≠ x.nextSeq) (f : Op → Op) :
    u.mapX c q ((u.strm c q .x).nextSeq - 1) f = u.setStrm c q .x (x.issued z f) := by
  rw [State.mapX, hu, show (x.issued z id).nextSeq - 1 = x.nextSeq from rfl, Strm.mapOp_issued ho]

/-! ### What it writes -/

theorem length_scaleBytes {l : List Byte} (h : l.length = 32) (forced : Nat) : (scaleBytes l forced sc).length = 32 := by
  simp [scaleBytes, slice, h, length_bytesOf]

/-- With no code forced the scale is all that changes. -/
theorem scaleBytes_unforced {l : List Byte} (h : l.length = 32) : scaleBytes l 0 sc = l.take 24 ++ bytesOf 4 sc.toNat ++ l.drop 28 := by
  have h6 : [nth 0 l 6] = (l.drop 6).take 1 := by
    rw [List.drop_eq_getElem_cons (by omega), nth, List.getD_eq_getElem _ _ (by omega)]
    rfl
  have h24 : l.take 24 = l.take 6 ++ ((l.drop 6).take 1 ++ (l.drop 7).take 17) := by
    rw [show 24 = 6 + (1 + 17) from rfl, List.take_add, List.take_add, List.drop_drop]
  rw [scaleBytes, if_pos rfl, h6, slice, h24]
  simp

/-- The scale word completed in place: the scale at its bytes 24 to 27, the others as they were. -/
theorem scaleWritten_shows (he : s.ecc = []) (ho : (s.ctx z.k).ownsWord r.outWord = true) :
    let t := s.scaleWritten z r 0 sc
    SameBut [.mem, .poison] s t ∧ w32 (t.spm z.c r.outWord) 24 = sc ∧ (∀ w ≠ r.outWord, t.spm z.c w = s.spm z.c w) ∧
      (∀ i < 32, i < 24 ∨ 28 ≤ i → t.byteAt (spmAddr z.c r.outWord + i) = s.byteAt (spmAddr z.c r.outWord + i)) ∧
      (∀ b, b < spmAddr z.c r.outWord ∨ spmAddr z.c r.outWord + 32 ≤ b → t.byteAt b = s.byteAt b) := by
  have hl := length_readBytes s (spmAddr z.c r.outWord) 32
  have ht : s.scaleWritten z r 0 sc = s.setSpm z.c r.outWord
      (wordOfBytes ((s.readBytes (spmAddr z.c r.outWord) 32).take 24 ++ bytesOf 4 sc.toNat ++ (s.readBytes (spmAddr z.c r.outWord) 32).drop 28))
      (s.spmPoison z.c r.outWord) := by
    unfold State.scaleWritten
    rw [localRead_owned ho he]
    dsimp only
    rw [bytesOfWord_spm, scaleBytes_unforced hl, localWrite_owned ho]
  intro t
  refine ⟨?_, ?_, fun w hw => ?_, fun i hi hout => ?_, fun b hb => ?_⟩
  · rw [show t = _ from ht]
    exact .setSpm s _ _ _ _
  · rw [show t = _ from ht, spm_setSpm_same]
    exact w32_wordOfBytes (by simp [hl]) (by simp [hl])
  · rw [show t = _ from ht, spm_setSpm_ne s z.c hw]
  · have hlen : ((s.readBytes (spmAddr z.c r.outWord) 32).take 24 ++ bytesOf 4 sc.toNat ++
        (s.readBytes (spmAddr z.c r.outWord) 32).drop 28).length = 32 := by simp [hl, length_bytesOf]
    rw [show t = _ from ht, byteAt_setSpm_same _ _ _ _ _ (by rw [length_bytesOfWord]; exact hi)]
    simp only [bytesOfWord_wordOfBytes hlen]
    obtain h | h := hout
    · rw [List.getElem_append_left (by simp [hl, length_bytesOf]; omega), List.getElem_append_left (by simp [hl]; omega)]
      simp [State.readBytes]
    · rw [List.getElem_append_right (by simp [hl, length_bytesOf]; omega)]
      have : 28 + (i - 28) = i := by omega
      simp [State.readBytes, length_bytesOf, this]
  · rw [show t = _ from ht, byteAt_setSpm s hb]

/-- With no code forced, and its destinations distinct words of its own beside the scale word, a NARROW writes the words of its codes
and the scale. -/
theorem narrowed_shows {stage : List Byte} (he : s.ecc = []) (hf : ∀ x ∈ s.stagedCodes z r sc stage, x.2 = false) :
    let ws := narrowWords r ((s.stagedCodes z r sc stage).map (·.1))
    let dest := ws.map fun p => nrDest z.i + p.1
    let t := s.narrowed z r sc stage
    (r.outWord :: dest).Nodup → (∀ a ∈ r.outWord :: dest, (s.ctx z.k).ownsWord a = true) →
      SameBut [.mem, .poison] s t ∧ (∀ p ∈ ws, t.spm z.c (nrDest z.i + p.1) = p.2) ∧ w32 (t.spm z.c r.outWord) 24 = sc ∧
        (∀ i < 32, i < 24 ∨ 28 ≤ i → t.byteAt (spmAddr z.c r.outWord + i) = s.byteAt (spmAddr z.c r.outWord + i)) ∧
        (∀ b, (∀ a ∈ r.outWord :: dest, b < spmAddr z.c a ∨ spmAddr z.c a + 32 ≤ b) → t.byteAt b = s.byteAt b) := by
  intro ws dest t hn ho
  have hz : ((s.stagedCodes z r sc stage).filter (·.2)).length = 0 := by
    rw [List.length_eq_zero_iff, List.filter_eq_nil_iff]
    exact fun x hx => by simp [hf x hx]
  have ht : t = (s.codesWritten z r ((s.stagedCodes z r sc stage).map (·.1))).scaleWritten z r 0 sc := by
    unfold t State.narrowed
    dsimp only
    rw [hz]
    rfl
  rw [List.nodup_cons] at hn
  rw [List.forall_mem_cons] at ho
  obtain ⟨hs, hw, hb⟩ := localWrites_show (c := z.c) ws (nrDest z.i) hn.2 ho.2
  generalize hv : foldS ws (fun s p => s.localWrite z.k z.c (nrDest z.i + p.1) p.2 false) s = v at hs hw hb
  have hv : s.codesWritten z r ((s.stagedCodes z r sc stage).map (·.1)) = v := hv
  have hx : v.ctx z.k = s.ctx z.k := congrArg (KV.get Ctx.zero · _) (hs .ctxs (by decide))
  obtain ⟨hs', hsc, hw', hin, hout⟩ := scaleWritten_shows (sc := sc) ((hs .ecc (by decide)).trans he) (hx ▸ ho.1)
  rw [ht, hv]
  refine ⟨hs.trans hs', fun p hp => (hw' _ fun h => hn.1 (h ▸ List.mem_map_of_mem hp)).trans (hw p hp), hsc, fun i hi ho => ?_,
    fun b hb' => ?_⟩
  · refine (hin i hi ho).trans (hb _ fun a ha => ?_)
    have : a ≠ r.outWord := fun h => hn.1 (h ▸ ha)
    unfold spmAddr
    omega
  · rw [List.forall_mem_cons] at hb'
    exact (hout b hb'.1).trans (hb b hb'.2)

end Narrow

end Sys2Proof.Machine

/-! PROOFS. WLOAD, STREAM and NARROW: each holds on its unit, or issues to its group (R180, R219). -/

namespace Sys2Proof.Machine

section Array

variable {s v : State} {C : Fin 8} {Q : Fin 4} {z : Site}

/-! ### The states after -/

/-- The state in which the operation of an execute instruction has joined its stream. -/
def State.pushed (s : State) (z : Site) : State := ((s.fresh.takeWait z).advance z).pushOp z id

theorem stream_issues {w : Nat} (h : Issues s C Q .x 0x41 z) (hc : streamChecks z s.fresh = [])
    (hw : (s.group C z.i.arr (smGroup z.i)).formatFor (smSwap z.i) = some w) :
    exec (.stream C Q) s = .next (
      if (laneBusy z 0x41 z.i.arr (smGroup z.i) || !s.fresh.xOrdered z (s.fresh.streamWords z)) = true
      then (s.fresh.holdBusy z).stopCheck z.k else ((s.pushed z).readStream z w).finishCheck z.k) := by
  have hg : ((s.fresh.takeWait z).advance z).groups = s.groups := (Begun.of_issues h).same .groups (by decide)
  refine congrArg Host.Outcome.next ((issue_of_issues h hc _ _).trans ?_)
  dsimp only
  rw [group_congr hg, h.shows.1, hw]
  rfl

theorem stream_holds (h : Issues s C Q .x 0x41 z) (hc : streamChecks z s.fresh = [])
    (hb : (laneBusy z 0x41 z.i.arr (smGroup z.i) || !s.fresh.xOrdered z (s.fresh.streamWords z)) = true) :
    Gives (.stream C Q) s fun t => Holds s t C Q z :=
  gives_of_eq (congrArg Host.Outcome.next ((issue_of_issues h hc _ _).trans (if_pos hb))) (holds_of_issues h)

theorem narrow_issues (h : Issues s C Q .x 0x42 z) (hc : narrowChecks z s.fresh = []) :
    exec (.narrow C Q) s = .next (if (!s.fresh.xOrdered z (s.fresh.narrowWordsRead z)) = true
      then (s.fresh.holdBusy z).stopCheck z.k else ((s.pushed z).readNarrow z).finishCheck z.k) :=
  congrArg Host.Outcome.next (issue_of_issues h hc _ _)

/-! ### What each leaves -/

theorem Begun.streamStarts (h : Issues s C Q .x 0x41 z) (r : Rec) (w : Nat) (sa : F32) (st : BitVec 8) (cols tb : List F32) :
    Begun s ((s.pushed z).startStream z r w sa st cols tb) C Q z ((z.after s).issued z id) [.groups, .slots] [] z.waitClears :=
  ((Begun.pushed h id).widen (by simp)).other (startStream_shows _ z r w sa st cols tb).2.2.2 (fun _ => id) (by decide)

/-- A STREAM that starts joins its group and its slot, and leaves the rest. -/
theorem stream_joins (h : Issues s C Q .x 0x41 z) (r : Rec) (w : Nat) (sa : F32) (st : BitVec 8) (cols tb : List F32) :
    let t := ((s.pushed z).startStream z r w sa st cols tb).finishCheck z.k
    OpIssued s t C Q z (z.op z.t.nextSeq) ∧
      (∃ j : Job, (t.group C z.i.arr (smGroup z.i)).jobs = (s.group C z.i.arr (smGroup z.i)).jobs ++ [j] ∧ j.pair = Q ∧ j.seq = z.t.nextSeq ∧
        j.mode = smMode z.i ∧ j.fmt = smFmt z.i ∧ j.swap = smSwap z.i ∧ j.n = smN z.i ∧ j.slots = z.threads ∧ j.record = r ∧ j.inject = 0) ∧
      (Rec.opens r = true → (t.slot C Q (Rec.slot r)).isOpen = true) ∧
      (Rec.closes r = true → (t.slot C Q (Rec.slot r)).closing.isSome = true) ∧
      IssueFrame s t C Q z [.groups, .slots] [] z.waitClears := by
  have hb := Begun.pushed h id
  have hf := Begun.streamStarts h r w sa st cols tb
  obtain ⟨hC, hQ, hst, -, -⟩ := h.shows
  have hseq : ((s.pushed z).strm z.c z.q .x).nextSeq - 1 = z.t.nextSeq := by
    rw [hC, hQ, ← hst, State.pushed, hb.strm]
    rfl
  have hg : (s.pushed z).groups = s.groups := hb.same .groups (by decide)
  obtain ⟨⟨j, hj, hpair, hjseq, hrest⟩, hopen, hclose, -⟩ := startStream_shows (s.pushed z) z r w sa st cols tb
  rw [group_congr hg, hC] at hj
  intro t
  have hk := finishCheck_same ((s.pushed z).startStream z r w sa st cols tb) z.k
  refine ⟨opIssued_finishCheck hf, ⟨j, ?_, hpair.trans hQ, hjseq.trans hseq, hrest⟩, fun ho => ?_, fun ho => ?_, hf.issueFrame (by decide)⟩
  · exact (congrArg Group.jobs (group_congr (hk .groups (by decide)) _ _ _)).trans hj
  · rw [slot_congr (hk .slots (by decide))]
    exact hC ▸ hQ ▸ hopen ho
  · rw [slot_congr (hk .slots (by decide))]
    exact hC ▸ hQ ▸ hclose ho

theorem wload_waits (h : Issues s C Q .x 0x40 z) :
    let t := ((s.pushed z).mapGroup C z.i.arr (wlGroup z.i) fun g => { g with waiting := some (z.wload s) }).finishCheck z.k
    OpIssued s t C Q z (z.op z.t.nextSeq) ∧ (t.group C z.i.arr (wlGroup z.i)).waiting = some (z.wload s) ∧
      IssueFrame s t C Q z [.groups] [] z.waitClears := by
  have hf : Begun s ((s.pushed z).mapGroup C z.i.arr (wlGroup z.i) fun g => { g with waiting := some (z.wload s) }) C Q z
      ((z.after s).issued z id) [.groups] [] z.waitClears :=
    ((Begun.pushed h id).widen (by simp)).other (.mapGroup _ _ _ _ _) (fun _ => id) (by decide)
  refine ⟨opIssued_finishCheck hf, ?_, hf.issueFrame (by decide)⟩
  rw [finishCheck_group, State.group_mapGroup]

/-- The operation of a NARROW has run when the NARROW has issued, whatever was forced. -/
theorem narrow_runs (h : Issues s C Q .x 0x42 z) (he : s.ecc = []) (ho : ∀ o ∈ z.t.ops, o.seq ≠ z.t.nextSeq) (r : Rec) (sc : F32)
    (stage : List Byte) :
    let u := (s.pushed z).narrowed z r sc stage
    (s.pushed z).narrow z r sc stage = u.setStrm C Q .x ((z.after s).issued z fun o => { o with ran := true }) ∧
      OpIssued s (((s.pushed z).narrow z r sc stage).finishCheck z.k) C Q z { z.op z.t.nextSeq with ran := true } := by
  intro u
  have hb := Begun.pushed h id
  obtain ⟨hC, hQ, hst, -, -⟩ := h.shows
  have hu : SameBut laneFields (s.pushed z) u := narrowed_same ((hb.same .ecc (by decide)).trans he) z r sc stage
  have hpair : u.pair C Q = (s.pair C Q).setStrm .x ((z.after s).issued z id) := by
    rw [State.pair, hu .pairs (by decide), ← hst]
    exact hb.pair
  have hstrm : u.strm C Q .x = (z.after s).issued z id := by rw [State.strm, hpair, Pair.strm_setStrm]
  have hn : (s.pushed z).narrow z r sc stage = u.setStrm C Q .x ((z.after s).issued z fun o => { o with ran := true }) := by
    rw [narrow_parts, hC, hQ]
    exact mapX_issued hstrm ho _
  refine ⟨hn, strmKept_finishCheck (s := s) ?_⟩
  rw [hn, State.setStrm, State.pair_setPair, hpair, Pair.setStrm_setStrm, hst]
  rfl

theorem stagedCodes_congr {r : Rec} {sc : F32} {stage : List Byte} (h : v.ctx z.k = s.ctx z.k) :
    v.stagedCodes z r sc stage = s.stagedCodes z r sc stage := by rw [State.stagedCodes, h, State.stagedCodes]

/-- A NARROW that forces no code and whose words are its own writes them and the scale, and leaves the rest. -/
theorem narrow_stores (h : Issues s C Q .x 0x42 z) (he : s.ecc = []) (ho : ∀ o ∈ z.t.ops, o.seq ≠ z.t.nextSeq) {r : Rec} {sc : F32}
    {stage : List Byte} (hf : ∀ x ∈ s.stagedCodes z r sc stage, x.2 = false) :
    let ws := narrowWords r ((s.stagedCodes z r sc stage).map (·.1))
    let dest := ws.map fun p => nrDest z.i + p.1
    let t := ((s.pushed z).narrow z r sc stage).finishCheck z.k
    (Rec.outWord r :: dest).Nodup → (∀ a ∈ Rec.outWord r :: dest, (s.ctx z.k).ownsWord a = true) →
      (∀ p ∈ ws, t.spm C (nrDest z.i + p.1) = p.2) ∧ w32 (t.spm C (Rec.outWord r)) 24 = sc ∧
      (∀ i < 32, i < 24 ∨ 28 ≤ i → t.byteAt (spmAddr C (Rec.outWord r) + i) = s.byteAt (spmAddr C (Rec.outWord r) + i)) ∧
      (∀ b, (∀ a ∈ Rec.outWord r :: dest, b < spmAddr C a ∨ spmAddr C a + 32 ≤ b) → t.byteAt b = s.byteAt b) ∧
      IssueFrame s t C Q z [.mem, .poison] [] z.waitClears := by
  have hb := Begun.pushed h id
  obtain ⟨hC, hQ, hst, -, -⟩ := h.shows
  have hx : (s.pushed z).ctx z.k = s.ctx z.k := congrArg (KV.get Ctx.zero · _) (hb.same .ctxs (by decide))
  have hn := (narrow_runs h he ho r sc stage).1
  intro ws dest t hnodup hown
  have hcs : (s.pushed z).stagedCodes z r sc stage = s.stagedCodes z r sc stage := stagedCodes_congr hx
  have hshow := narrowed_shows (s := s.pushed z) ((hb.same .ecc (by decide)).trans he) (by rw [hcs]; exact hf)
  simp only [hcs, hx, hC] at hshow
  obtain ⟨hs, hw, hsc, hin, hout⟩ := hshow hnodup hown
  have hu : Begun s ((s.pushed z).narrow z r sc stage) C Q z ((z.after s).issued z fun o => { o with ran := true }) [.mem, .poison] []
      z.waitClears := by
    rw [hn, ← hst]
    exact ((hb.widen (by simp)).other hs (fun _ => id) (by decide)).setStrm _
  have hmem : t.mem = ((s.pushed z).narrowed z r sc stage).mem :=
    (finishCheck_same _ z.k .mem (by decide)).trans (by rw [hn, State.setStrm, State.setPair_mem])
  have hv : (s.pushed z).mem = s.mem := hb.same .mem (by decide)
  refine ⟨fun p hp => ?_, ?_, fun i hi ho => ?_, fun b hb => ?_, hu.issueFrame (by decide)⟩
  · rw [spm_congr hmem, hw p hp]
  · rw [spm_congr hmem, hsc]
  · rw [byteAt_congr hmem, hin i hi ho, byteAt_congr hv]
  · rw [byteAt_congr hmem, hout b hb, byteAt_congr hv]

end Array

/-- Settles O32: a busy unit by `holds_of_issues`, WLOAD by `wload_waits`, STREAM by `stream_joins`, NARROW by `narrow_runs` and
`narrow_stores`. -/
theorem arrayInstructionsIssue : Obligations.ArrayInstructionsIssue := by
  intro s c q z C Q A
  refine ⟨fun h hc => ?_, fun h hc => ?_, fun h hc => ?_⟩
  · intro busy
    refine ⟨fun hb => ?_, fun hb => ?_⟩
    · exact gives_of_eq ((wload_issues h hc).trans (congrArg Host.Outcome.next (if_pos hb))) (holds_of_issues h)
    · obtain ⟨ho, hg, hf⟩ := wload_waits h
      have hl : z.wload s = WLoad.mk Q z.t.nextSeq (wlK z.i) (wlFmt z.i) (wlSplit z.i) (bits z.i.head 49 48) (s.cget z.k 0x06 == 1) := by
        rw [Site.wload, h.shows.2.1]
      exact gives_of_eq ((wload_issues h hc).trans (congrArg Host.Outcome.next (if_neg (ne_true_of_eq_false hb))))
        ⟨ho, hg.trans (congrArg some hl), hf⟩
  · refine ⟨stream_holds h hc, ?_⟩
    intro r cols tb st1 st2 sw x w hb hw v hr hl h1 h2 hp ht
    have e := (stream_issues h hc hw).trans (congrArg Host.Outcome.next (if_neg (ne_true_of_eq_false hb)))
    rw [readStream_starts (v := s.pushed z) hr hl h1 h2 hp ht] at e
    exact gives_of_eq e (stream_joins h r w _ _ _ _)
  · refine ⟨fun hr => ?_, ?_⟩
    · have hb : (!s.fresh.xOrdered z (s.fresh.narrowWordsRead z)) = true := by rw [show s.fresh.xOrdered z _ = false from hr]; rfl
      exact gives_of_eq ((narrow_issues h hc).trans (congrArg Host.Outcome.next (if_pos hb))) (holds_of_issues h)
    intro r l w hr he ho v hrec hlate hw hstage sc cs ws dest
    have hb : ¬ (!s.fresh.xOrdered z (s.fresh.narrowWordsRead z)) = true := by rw [show s.fresh.xOrdered z _ = true from hr]; decide
    have hC : z.c = C := h.shows.1
    have hQ : z.q = Q := h.shows.2.1
    have hslots : (s.pushed z).slots = s.slots := (Begun.pushed h id).same .slots (by decide)
    have e := (narrow_issues h hc).trans (congrArg Host.Outcome.next (if_neg hb))
    rw [readNarrow_runs (v := s.pushed z) hrec hlate (hC ▸ hw) hstage, slot_congr hslots, hC, hQ] at e
    exact gives_of_eq e ⟨(narrow_runs h he ho r sc l).2, narrow_stores h he ho⟩

end Sys2Proof.Machine

/-! PROOFS. A weight load that starts, goes on and ends, and a split change (R103, R115–R117). -/

namespace Sys2Proof.Machine

section Weights

variable {s : State} {c a g k : Nat} {l : WLoad} {rows : List (List Byte)}

/-! ### Rows taken from a queue -/

theorem takeRows_nil (n : Nat) {per : Nat} (h : 0 < per) : takeRows n per [] = ([], []) := by
  cases n with
  | zero => rfl
  | succ n => exact if_neg (by simpa using Nat.pos_iff_ne_zero.mp h)

theorem splitWidth_pos {n : Nat} (h : n ≤ 2) : 0 < splitWidth n / 32 := by
  obtain rfl | rfl | rfl : n = 0 ∨ n = 1 ∨ n = 2 := by omega
  all_goals decide

/-! ### The load -/

/-- What a load takes of its operand queue now, and what stays there. -/
def State.rowsHeld (s : State) (c a : Nat) (l : WLoad) (rows : List (List Byte)) : List (List QWord) × List QWord :=
  takeRows (l.k - rows.length) (splitWidth (s.split c a) / 32) ((s.pair c l.pair).oq l.queue)

/-- The rows of a load with those that its queue holds. -/
def State.rowsWith (s : State) (c a : Nat) (l : WLoad) (rows : List (List Byte)) : List (List Byte) :=
  rows ++ (s.rowsHeld c a l rows).1.map fun ws => ws.flatMap fun w => bytesOfWord w.data

/-- The queue of a load without the rows that it takes. -/
def State.rowsPopped (s : State) (c a : Nat) (l : WLoad) (rows : List (List Byte)) : State :=
  s.setPair c l.pair ((s.pair c l.pair).setOq l.queue (s.rowsHeld c a l rows).2)

/-- The set of a finished load. -/
def WLoad.set (l : WLoad) (rows : List (List Byte)) : WSet :=
  { rows := rows, fmt := l.fmt, csum := rows.map fun row => if l.checked then checksumWeight l.fmt row else 0 }

theorem weightLoad_begins (hw : (s.group c a g).waiting = some l) (hl : (s.group c a g).loading = none)
    (hs : (s.group c a g).shadow = none) (hsplit : l.split = s.split c a) (hr : s.runner c l.pair = some k) :
    s.weightLoad c a g =
      ((s.mapGroup c a g fun x => { x with waiting := none, loading := some (l, []) }).loadRows k c a g).finishCheck k := by
  have hr' (f : Group → Group) : (s.mapGroup c a g f).runner c l.pair = some k := hr
  unfold State.weightLoad
  simp only [hw, hl, hs, hsplit, if_true, State.group_mapGroup, hr']

theorem weightLoad_goesOn (hl : (s.group c a g).loading = some (l, rows)) (hr : s.runner c l.pair = some k) :
    s.weightLoad c a g = (s.loadRows k c a g).finishCheck k := by
  unfold State.weightLoad
  extract_lets x s₁
  have h₁ : s₁ = s := by
    unfold s₁
    split
    · rename_i h _
      exact absurd (hl.symm.trans h) (by simp)
    · rfl
  clear_value s₁
  subst h₁
  simp only [hl, hr]

section Rows

variable (hp : ∀ w ∈ (s.rowsHeld c a l rows).1.flatten, w.poison = false)
include hp

theorem rowsHeld_clean : (s.rowsHeld c a l rows).1.flatten.find? (·.poison) = none :=
  List.find?_eq_none.mpr fun w hw => by simp [hp w hw]

variable (hl : (s.group c a g).loading = some (l, rows))
include hl

/-- Rows are still missing: the load has those that its queue held. -/
theorem loadRows_partial (hk : (s.rowsWith c a l rows).length < l.k) : s.loadRows k c a g =
    (s.rowsPopped c a l rows).mapGroup c a g fun x => { x with loading := some (l, s.rowsWith c a l rows) } := by
  have hf := rowsHeld_clean hp
  unfold State.rowsHeld at hf
  unfold State.rowsWith State.rowsHeld at hk
  unfold State.loadRows
  simp only [hl, hf, if_pos hk]
  rfl

/-- Every row is in: the set is in the shadow, and its WLOAD has run. -/
theorem loadRows_ends (hk : l.k ≤ (s.rowsWith c a l rows).length) : s.loadRows k c a g =
    ((s.rowsPopped c a l rows).mapGroup c a g fun x =>
      { x with loading := none, shadow := some (l.set (s.rowsWith c a l rows)) }).mapX c l.pair l.seq fun o => { o with ran := true } := by
  have hf := rowsHeld_clean hp
  unfold State.rowsHeld at hf
  unfold State.rowsWith State.rowsHeld at hk
  unfold State.loadRows
  simp only [hl, hf, if_neg (not_lt.mpr hk)]
  rfl

end Rows

theorem SameBut.setStrm (s : State) (c q : Nat) (i : StreamId) (r : Strm) : SameBut [.pairs] s (s.setStrm c q i r) := .setPair s c q _

theorem SameBut.mapX (s : State) (c q n : Nat) (f : Op → Op) : SameBut [.pairs] s (s.mapX c q n f) := .setStrm s c q .x _

theorem rowsPopped_same (s : State) (c a : Nat) (l : WLoad) (rows : List (List Byte)) : SameBut [.pairs] s (s.rowsPopped c a l rows) :=
  .setPair s c l.pair _

theorem Strm.ran_of_mapOp {r : Strm} {n : Nat} {o : Op} (h : o ∈ (r.mapOp n fun o => { o with ran := true }).ops) (hn : o.seq = n) :
    o.ran = true := by
  obtain ⟨x, -, rfl⟩ := List.mem_map.mp h
  by_cases hx : x.seq = n
  · rw [if_pos (beq_iff_eq.mpr hx)]
  · rw [if_neg (by simpa using hx)] at hn
    exact absurd hn hx

/-- A load that starts with its queue empty holds no row yet. -/
theorem weightLoad_starts (hw : (s.group c a g).waiting = some l) (hl : (s.group c a g).loading = none)
    (hs : (s.group c a g).shadow = none) (hsplit : l.split = s.split c a) (hr : s.runner c l.pair = some k)
    (hwidth : s.split c a ≤ 2) (hq : (s.pair c l.pair).oq l.queue = []) (hk : l.k ≠ 0) :
    let t := s.weightLoad c a g
    (t.group c a g).waiting = none ∧ (t.group c a g).loading = some (l, []) ∧ (t.group c a g).shadow = none ∧
      SameBut [.groups, .pairs, .ctxs] s t := by
  generalize hu : (s.mapGroup c a g fun x => { x with waiting := none, loading := some (l, []) }) = u
  have hug : u.group c a g = { s.group c a g with waiting := none, loading := some (l, []) } := by rw [← hu, State.group_mapGroup]
  have hheld : u.rowsHeld c a l [] = ([], []) := by
    rw [← hu]
    unfold State.rowsHeld
    refine (congrArg (takeRows _ _) hq).trans (takeRows_nil _ (splitWidth_pos hwidth))
  have hwith : u.rowsWith c a l [] = [] := by rw [State.rowsWith, hheld]; rfl
  have hrows : u.loadRows k c a g = (u.rowsPopped c a l []).mapGroup c a g fun x => { x with loading := some (l, []) } :=
    (loadRows_partial (by rw [hheld]; simp) (by rw [hug]) (by rw [hwith]; exact Nat.pos_of_ne_zero hk)).trans (by rw [hwith])
  have hg : (u.rowsPopped c a l []).group c a g = u.group c a g := group_congr (rowsPopped_same u c a l [] .groups (by decide)) _ _ _
  have hsame : SameBut [.groups, .pairs, .ctxs] s u := hu ▸ (SameBut.mapGroup s c a g _).mono (by decide)
  rw [weightLoad_begins hw hl hs hsplit hr, hu, hrows]
  intro t
  refine ⟨?_, ?_, ?_, ((hsame.step (rowsPopped_same u c a l []) (by decide)).step (.mapGroup _ _ _ _ _) (by decide)).step
    (finishCheck_same _ k) (by decide)⟩
  all_goals simp only [t, finishCheck_group, State.group_mapGroup, hg, hug, hs]

/-- A load whose queue holds every row it lacks ends. -/
theorem weightLoad_ends (hl : (s.group c a g).loading = some (l, rows)) (hr : s.runner c l.pair = some k)
    (hp : ∀ w ∈ (s.rowsHeld c a l rows).1.flatten, w.poison = false) (hk : l.k ≤ (s.rowsWith c a l rows).length) :
    let t := s.weightLoad c a g
    (t.group c a g).loading = none ∧ (t.pair c l.pair).oq l.queue = (s.rowsHeld c a l rows).2 ∧
      (t.group c a g).shadow = some (l.set (s.rowsWith c a l rows)) ∧
      (∀ o ∈ (t.strm c l.pair .x).ops, o.seq = l.seq → o.ran = true) ∧ SameBut [.groups, .pairs, .ctxs] s t := by
  generalize hu : ((s.rowsPopped c a l rows).mapGroup c a g fun x =>
    { x with loading := none, shadow := some (l.set (s.rowsWith c a l rows)) }) = u
  have hug : u.group c a g = { s.group c a g with loading := none, shadow := some (l.set (s.rowsWith c a l rows)) } := by
    rw [← hu, State.group_mapGroup, group_congr (rowsPopped_same s c a l rows .groups (by decide))]
  have hup : u.pair c l.pair = (s.pair c l.pair).setOq l.queue (s.rowsHeld c a l rows).2 := by
    rw [← hu]
    exact State.pair_setPair ..
  have hsame : SameBut [.groups, .pairs, .ctxs] s u :=
    hu ▸ ((rowsPopped_same s c a l rows).mono (by decide)).step (.mapGroup _ _ _ _ _) (by decide)
  have hx : (u.mapX c l.pair l.seq fun o => { o with ran := true }).group c a g = u.group c a g :=
    group_congr (SameBut.mapX u _ _ _ _ .groups (by decide)) _ _ _
  rw [weightLoad_goesOn hl hr, loadRows_ends hp hl hk, hu]
  refine ⟨?_, ?_, ?_, fun o ho hn => ?_, (hsame.step (.mapX u _ _ _ _) (by decide)).step (finishCheck_same _ k) (by decide)⟩
  · rw [finishCheck_group, hx, hug]
  · rw [finishCheck_oq, State.mapX, State.setStrm, State.pair_setPair, Pair.oq_setStrm, hup, Pair.oq_setOq]
  · rw [finishCheck_group, hx, hug]
  · rw [finishCheck_ops, State.mapX, State.strm_setStrm] at ho
    exact Strm.ran_of_mapOp ho hn

/-! ### A split change -/

theorem State.group_mapGroup_ne (s : State) (c a : Nat) {g h : Nat} (hg : h ≠ g) (f : Group → Group) :
    (s.mapGroup c a g f).group c a h = s.group c a h := KV.get_set_ne _ _ _ (by unfold grpKey; omega)

/-- An array's groups without their weight sets. -/
def State.setsCleared (s : State) (c a : Nat) : State :=
  foldS [0, 1, 2, 3] (fun s g => s.mapGroup c a g (fun x => { x with active := none, shadow := none, loading := none })) s

theorem setsCleared_same (s : State) (c a : Nat) : SameBut [.groups] s (s.setsCleared c a) :=
  SameBut.foldS (.refl _ s) fun x _ => .mapGroup x _ _ _ _

theorem setsCleared_group (s : State) (c a : Nat) (hg : g < 4) :
    (s.setsCleared c a).group c a g = { s.group c a g with active := none, shadow := none, loading := none } := by
  unfold State.setsCleared foldS
  simp only [List.foldl_cons, List.foldl_nil]
  obtain rfl | rfl | rfl | rfl : g = 0 ∨ g = 1 ∨ g = 2 ∨ g = 3 := by omega
  all_goals simp [State.group_mapGroup_ne]

/-- What a context owns once its stream pair has the groups of a new split. -/
def Ctx.owning (x : Ctx) (a : Nat) (l : WLoad) : List (Nat × Nat × Nat) :=
  x.owned.filter (fun o => o.1 != a) ++ (List.range (splitGroups l.split)).map fun g => (a, g, l.pair - x.o)

/-- An array with a new split, owned by the stream pair of the load that asked for it. -/
def State.splitSet (s : State) (k c a : Nat) (l : WLoad) : State :=
  ((s.setsCleared c a).setSplit c a l.split).setCtx k { s.ctx k with
    owned := (s.ctx k).owning a l
    splitNow := setAt (if (s.ctx k).splitNow.length = 2 then (s.ctx k).splitNow else [0, 0]) a l.split }

theorem splitChange_waits (hw : s.splitWanted c a = some l) {g : Nat} (hg : g < 4) (h : (s.group c a g).holdsChange l = true) :
    s.splitChange c a = s := by
  have hany : [0, 1, 2, 3].any (fun g => (s.group c a g).holdsChange l) = true :=
    List.any_eq_true.mpr ⟨g, by simp only [List.mem_cons, List.not_mem_nil, or_false]; omega, h⟩
  unfold State.splitChange
  simp only [hw, hany, if_true]

theorem splitChange_sets (hw : s.splitWanted c a = some l) (h : ∀ g < 4, (s.group c a g).holdsChange l = false)
    (hr : s.runner c l.pair = some k) : s.splitChange c a = s.splitSet k c a l := by
  have hany : [0, 1, 2, 3].any (fun g => (s.group c a g).holdsChange l) = false := by simp [h]
  have hx : ((s.setsCleared c a).setSplit c a l.split).ctx k = s.ctx k :=
    congrArg (KV.get Ctx.zero · k) (setsCleared_same s c a .ctxs (by decide))
  unfold State.splitChange State.splitSet
  simp only [hw, hany, hr, Bool.false_eq_true, if_false]
  rw [← hx]
  rfl

theorem SameBut.setSplit (s : State) (c a v : Nat) : SameBut [.splits] s (s.setSplit c a v) := by
  intro f hf
  cases f
  case splits => exact absurd (by decide) hf
  all_goals rfl

theorem splitSet_shows (s : State) (k c a : Nat) (l : WLoad) : let t := s.splitSet k c a l
    t.split c a = l.split ∧ (∀ g < 4, (t.group c a g).active = none ∧ (t.group c a g).shadow = none ∧ (t.group c a g).loading = none) ∧
      (∀ g < splitGroups l.split, (a, g, l.pair - (s.ctx k).o) ∈ (t.ctx k).owned) ∧ SameBut [.groups, .splits, .ctxs] s t := by
  intro t
  have hgroup g : t.group c a g = (s.setsCleared c a).group c a g := rfl
  refine ⟨State.split_setSplit _ c a l.split, fun g hg => ?_, fun g hg => ?_, ?_⟩
  · rw [hgroup, setsCleared_group s c a hg]
    exact ⟨rfl, rfl, rfl⟩
  · rw [show t.ctx k = _ from State.ctx_setCtx ..]
    exact List.mem_append_right _ (List.mem_map.mpr ⟨g, List.mem_range.mpr hg, rfl⟩)
  · exact (((setsCleared_same s c a).mono (by decide)).step (.setSplit _ _ _ _) (by decide)).step (.setCtx _ _ _) (by decide)

/-- A job that is not behind a change, with no earlier one behind it, holds the change while it injects or has sums in flight. -/
theorem holdsChange_of_job {x : Group} {j : Job} (hj : j ∈ x.jobs) (hmove : j.inject < j.slots ∨ j.flight ≠ [])
    (hb : ∀ y ∈ x.jobs, x.behind l y = false) : x.holdsChange l = true := by
  have htake : x.jobs.takeWhile (fun j => !x.behind l j) = x.jobs := List.takeWhile_eq_self_iff.mpr fun y hy => by simp [hb y hy]
  have hany : x.jobs.any (fun j => decide (j.inject < j.slots) || !j.flight.isEmpty) = true :=
    List.any_eq_true.mpr ⟨j, hj, by simpa using hmove⟩
  simp [Group.holdsChange, htake, hany]

theorem holdsChange_of_loading {x : Group} (h : x.loading.isSome = true) : x.holdsChange l = true := by
  simp [Group.holdsChange, h]

end Weights

/-- Settles O36: a load by `weightLoad_starts` and `weightLoad_ends`, a split change by `splitSet_shows` and `splitChange_waits`. -/
theorem weightsLoadAndSplitsChange : Obligations.WeightsLoadAndSplitsChange := by
  intro s c a
  refine ⟨fun g l k => ?_, fun l k => ?_⟩
  · intro C A G hr hwidth
    refine ⟨fun hw hl hs hsplit hq hk => ?_, fun rows hl => ?_⟩
    · obtain ⟨h₁, h₂, h₃, hf⟩ := weightLoad_starts (s := s.fresh) hw hl hs hsplit hr hwidth hq hk
      exact gives_of_eq rfl ⟨h₁, h₂, h₃, ((SameBut.fresh s).mono (by decide)).step hf (by decide)⟩
    · intro got hp hk
      have hlen : l.k ≤ (s.fresh.rowsWith C A l rows).length := by
        rw [State.rowsWith, List.length_append, List.length_map]
        exact hk
      obtain ⟨h₁, h₂, h₃, h₄, hf⟩ := weightLoad_ends (s := s.fresh) hl hr hp hlen
      exact gives_of_eq rfl ⟨h₁, h₂, ⟨_, h₃, rfl, rfl⟩, h₄, ((SameBut.fresh s).mono (by decide)).step hf (by decide)⟩
  · intro C A hw hr
    refine ⟨fun h => ?_, fun g hg h => ?_⟩
    · obtain ⟨h₁, h₂, h₃, hf⟩ := splitSet_shows s.fresh k C A l
      exact gives_of_eq (congrArg Host.Outcome.next (splitChange_sets (s := s.fresh) hw h hr))
        ⟨h₁, h₂, h₃, ((SameBut.fresh s).mono (by decide)).step hf (by decide)⟩
    · have hh : (s.group C A g).holdsChange l = true := by
        obtain ⟨j, hj, hmove, hb⟩ | hload := h
        · exact holdsChange_of_job hj hmove hb
        · exact holdsChange_of_loading hload
      exact gives_of_eq (congrArg Host.Outcome.next (splitChange_waits (s := s.fresh) hw hg hh)) (.fresh s)

end Sys2Proof.Machine

/-! PROOFS. A slot's way through the array: its injection, a column's sum at the column end, and the close of a scale slot
(R101, R119, R122, R129, R139, R141–R143). -/

namespace Sys2Proof.Machine

section Slots

variable {s : State} {c a g k : Nat} {j y : Job} {w : WSet} {words : List QWord} {f : SlotSums} {fs : List SlotSums} {rest : List Job}

/-! ### Injection -/

/-- The sums of a slot's words through a set, one for each column. -/
def Job.sums (j : Job) (w : WSet) (width : Nat) (words : List QWord) : List (BitVec 32 × Bool) :=
  (List.range width).map fun col =>
    columnSum j.mode j.fmt w.fmt (actRows j.fmt w.rows.length (words.flatMap fun x => bytesOfWord x.data)) (w.column col)

/-- An unchecked job with its next slot in flight. -/
def Job.injected (j : Job) (sums : List (BitVec 32 × Bool)) : Job :=
  { j with checked := false, inject := j.inject + 1, popped := [], blockLen := 0, blockSum := [], flight := j.flight ++ [SlotSums.mk j.inject false sums 0] }

/-- A group with one of its jobs, told by its pair and its number, replaced. -/
def State.jobSet (s : State) (c a g : Nat) (y : Job) : State :=
  s.mapGroup c a g fun x => { x with jobs := x.jobs.map fun z => if z.seq = y.seq && z.pair = y.pair then y else z }

theorem jobSet_same (s : State) (c a g : Nat) (y : Job) : SameBut [.groups] s (s.jobSet c a g y) := .mapGroup s c a g _

theorem jobSet_jobs (hj : (s.group c a g).jobs = [j]) (hs : j.seq = y.seq) (hp : j.pair = y.pair) :
    ((s.jobSet c a g y).group c a g).jobs = [y] := by
  rw [State.jobSet, State.group_mapGroup]
  simp [hj, hs, hp]

theorem oq_mapX (s : State) (c q n : Nat) (f : Op → Op) (c' q' m : Nat) :
    ((s.mapX c q n f).pair c' q').oq m = (s.pair c' q').oq m := by
  by_cases h : pairKey c' q' = pairKey c q
  · have hp (u : State) : u.pair c' q' = u.pair c q := congrArg (KV.get Pair.zero u.pairs) h
    rw [hp, hp, State.mapX, State.setStrm, State.pair_setPair, Pair.oq_setStrm]
  · rw [State.mapX, State.setStrm, State.pair_setPair_ne _ _ _ _ _ _ h]

theorem injectSlot_unchecked (h : j.checked = false) : s.injectSlot c a g j w words =
    let t := s.jobSet c a g (j.injected (j.sums w (splitWidth (s.split c a)) words))
    if j.slots ≤ j.inject + 1 then t.mapX c j.pair j.seq (fun o => { o with ran := true }) else t := by
  unfold State.injectSlot
  simp only [h, Bool.false_and, Bool.false_eq_true, if_false]
  rfl

theorem injectSlot_shows (hc : j.checked = false) (hj : (s.group c a g).jobs = [y]) (hs : y.seq = j.seq) (hp : y.pair = j.pair) :
    let t := s.injectSlot c a g j w words
    (t.group c a g).jobs = [j.injected (j.sums w (splitWidth (s.split c a)) words)] ∧
      (∀ q n, (t.pair c q).oq n = (s.pair c q).oq n) ∧ SameBut [.groups, .pairs] s t := by
  intro t
  have ht : t = _ := injectSlot_unchecked hc
  generalize hz : j.injected (j.sums w (splitWidth (s.split c a)) words) = z at ht ⊢
  have hg : ((s.jobSet c a g z).group c a g).jobs = [z] := jobSet_jobs hj (by rw [← hz]; exact hs) (by rw [← hz]; exact hp)
  have hsame : SameBut [.groups, .pairs] s (s.jobSet c a g z) := (jobSet_same s c a g z).mono (by decide)
  rw [ht]
  by_cases hlast : j.slots ≤ j.inject + 1
  · rw [if_pos hlast]
    exact ⟨(congrArg Group.jobs (group_congr (SameBut.mapX _ _ _ _ _ .groups (by decide)) _ _ _)).trans hg,
      fun q n => oq_mapX _ _ _ _ _ _ _ _, hsame.step (.mapX _ _ _ _ _) (by decide)⟩
  · rw [if_neg hlast]
    exact ⟨hg, fun _ _ => rfl, hsame⟩

theorem markUnder_clean (h : ∀ x ∈ words, x.under = false) : s.markUnder c j words = s :=
  if_neg (by simpa using h)

/-- The oldest job injects, through the active set, the words of its slot. -/
theorem vectorSlot_injects (hj : (s.group c a g).jobs = [j]) (hi : j.inject < j.slots) (ho : j.outq = []) (hs : j.swap = false)
    (hp : j.popped = []) (hr : s.runner c j.pair = some k) (hw : (s.group c a g).active = some w) {need : Nat}
    (hneed : slotWords j.fmt w.rows.length = need) {got : List QWord} (hgot : ((s.pair c j.pair).oq j.oq).take need = got)
    (hlen : got.length = need) (hclean : ∀ x ∈ got, x.poison = false ∧ x.under = false) :
    s.vectorSlot c a g = ((s.setPair c j.pair ((s.pair c j.pair).setOq j.oq (((s.pair c j.pair).oq j.oq).drop need))).injectSlot c a g
      { j with swapped := true } w got).finishCheck k := by
  have hpoison : got.find? (·.poison) = none := List.find?_eq_none.mpr fun x hx => by simp [(hclean x hx).1]
  have hunder (u : State) : u.markUnder c j got = u := markUnder_clean fun x hx => (hclean x hx).2
  unfold State.vectorSlot
  simp only [hj, List.find?_cons, hi, decide_true, hr, List.any_cons, List.any_nil, ho, List.isEmpty_nil, Bool.not_true, Bool.or_false,
    Bool.false_eq_true, if_false, hs, Bool.false_and, hw, hp, List.length_nil, Nat.sub_zero, hneed, hgot, hpoison, hunder, hlen,
    lt_self_iff_false, List.nil_append]

/-! ### A column's sum -/

theorem putJob_jobs (hj : (s.group c a g).jobs = j :: rest) (hf : y.flight ≠ []) :
    ((s.putJob c a g y).group c a g).jobs = y :: rest := by
  have he : y.flight.isEmpty = false := by simpa using hf
  unfold State.putJob
  rw [State.group_mapGroup]
  simp [hj, he]

theorem elemFault_same (s : State) (k c a g q slot code : Nat) :
    SameBut (.slots :: .accs :: laneFields) s (s.elemFault k c a g q slot code) :=
  ((laneReport_same s k c a g slot code []).mono (by decide)).step (.setSlot _ _ _ _ _) (by decide)

theorem SameBut.setAcc (s : State) (c a e n : Nat) (x : Acc) : SameBut [.accs] s (s.setAcc c a e n x) := by
  intro f hf
  cases f
  case accs => exact absurd (by decide) hf
  all_goals rfl

/-- A job at its next column, with the state that the column left. -/
def ColumnMoved (s : State) (j : Job) (x : Job × State) : Prop :=
  x.1.col = j.col + 1 ∧ x.1.flight = j.flight ∧ SameBut (.slots :: .accs :: laneFields) s x.2

theorem dataColumn_moves (s : State) (k c a g : Nat) (j : Job) (f : SlotSums) : ColumnMoved s j (s.dataColumn k c a g j f) := by
  have hfault (u : State) (q slot : Nat) (o : Option Nat) : SameBut (.slots :: .accs :: laneFields) u
      (match o with | some code => u.elemFault k c a g q slot code | none => u) := by
    cases o with
    | none => exact .refl _ u
    | some code => exact elemFault_same u k c a g q slot code
  unfold State.dataColumn
  extract_lets r p col e old pass acc s₁ v s₂ h s₃
  have hacc (x : Acc) : SameBut (.slots :: .accs :: laneFields) s (s.setAcc c a e col x) := (SameBut.setAcc s _ _ _ _ x).mono (by decide)
  have h₁ : SameBut (.slots :: .accs :: laneFields) s s₁ := .ite (hacc _) (.refl _ s)
  split
  · exact ⟨rfl, rfl, hacc _⟩
  · split
    · exact ⟨rfl, rfl, h₁⟩
    · exact ⟨rfl, rfl, (h₁.trans (hfault s₁ _ _ v.2)).trans (hfault s₂ _ _ h.2)⟩

/-- The first tile of a chain keeps the sum itself. -/
theorem dataColumn_first (hk : j.keeps = true) (hp : Rec.phase j.record = 1) : s.dataColumn k c a g j f =
    ({ j with col := j.col + 1 }, s.setAcc c a (Rec.base j.record + f.t) (g * splitWidth (s.split c a) + j.col)
      { val := accOf j.mode j.fmt (nth (0, false) f.sums j.col).1, ov := (nth (0, false) f.sums j.col).2 }) := by
  unfold State.dataColumn
  simp only [hk, hp, le_refl, if_true]

theorem columnSum_data (hj : (s.group c a g).jobs = j :: rest) (ho : j.outq = []) (hf : j.flight = f :: fs) (hc : f.isCheck = false)
    (hr : s.runner c j.pair = some k) (hcol : j.col + 1 < splitWidth (s.split c a)) :
    s.columnSum c a g = ((s.dataColumn k c a g j f).2.putJob c a g (s.dataColumn k c a g j f).1).finishCheck k := by
  have hlt : (s.dataColumn k c a g j f).1.col < splitWidth (s.split c a) := by
    rw [(dataColumn_moves s k c a g j f).1]
    exact hcol
  unfold State.columnSum State.columnStep State.columnWork
  simp only [hj, hr, ho, List.isEmpty_nil, if_true, hf, hc, Bool.false_eq_true, if_false, hlt]

theorem putJob_same (s : State) (c a g : Nat) (j : Job) : SameBut [.groups] s (s.putJob c a g j) := .mapGroup s c a g _

/-- The head of the group's jobs moves to its next column. -/
theorem columnSum_moves (hj : (s.group c a g).jobs = j :: rest) (ho : j.outq = []) (hf : j.flight = f :: fs) (hc : f.isCheck = false)
    (hr : s.runner c j.pair = some k) (hcol : j.col + 1 < splitWidth (s.split c a)) :
    ∃ y rest', ((s.columnSum c a g).group c a g).jobs = y :: rest' ∧ y.col = j.col + 1 ∧ y.flight = f :: fs := by
  obtain ⟨hcol', hfl, hs⟩ := dataColumn_moves s k c a g j f
  have hg : ((s.dataColumn k c a g j f).2.group c a g).jobs = j :: rest :=
    (congrArg Group.jobs (group_congr (hs .groups (by decide)) _ _ _)).trans hj
  have hfl : (s.dataColumn k c a g j f).1.flight = f :: fs := hfl.trans hf
  refine ⟨_, rest, ?_, hcol', hfl⟩
  rw [columnSum_data hj ho hf hc hr hcol, finishCheck_group]
  exact putJob_jobs hg (by rw [hfl]; exact List.cons_ne_nil _ _)

theorem columnSum_first (hj : (s.group c a g).jobs = j :: rest) (ho : j.outq = []) (hf : j.flight = f :: fs) (hc : f.isCheck = false)
    (hr : s.runner c j.pair = some k) (hcol : j.col + 1 < splitWidth (s.split c a)) (hk : j.keeps = true)
    (hp : Rec.phase j.record = 1) : let t := s.columnSum c a g
    SameBut [.groups, .accs, .pairs, .ctxs] s t ∧ t.acc c a (Rec.base j.record + f.t) (g * splitWidth (s.split c a) + j.col) =
      { val := accOf j.mode j.fmt (nth (0, false) f.sums j.col).1, ov := (nth (0, false) f.sums j.col).2 } := by
  have ht := columnSum_data hj ho hf hc hr hcol
  rw [dataColumn_first hk hp] at ht
  intro t
  rw [show t = _ from ht]
  have hacc := SameBut.setAcc s c a (Rec.base j.record + f.t) (g * splitWidth (s.split c a) + j.col)
    { val := accOf j.mode j.fmt (nth (0, false) f.sums j.col).1, ov := (nth (0, false) f.sums j.col).2 }
  refine ⟨((hacc.mono (by decide)).step (putJob_same _ _ _ _ _) (by decide)).step (finishCheck_same _ k) (by decide), ?_⟩
  exact (congrArg (KV.get Acc.zero · _) (finishCheck_same _ k .accs (by decide))).trans (State.acc_setAcc ..)

/-! ### The close of a scale slot -/

variable {q i : Nat} {x : ScaleClose}

theorem kSetFlag_same (s : State) (k f : Nat) : SameBut (.dict :: copyFields) s (s.kSetFlag k f) :=
  .ite (((SameBut.setOverruns s _).mono (by decide)).step (.dbump _ _ _) (by decide)) ((SameBut.kPutFlag s k f true).mono (by decide))

theorem choice_same (s : State) (k kind : Nat) : SameBut [.dict] s (s.choice k kind) :=
  .ite (.refl _ s) (((SameBut.dset s _ _ _).trans (.dbump _ _ _)).trans (.dbump _ _ _))

/-- A close writes its slot, closed with the scale of R141 to R143, and no other. -/
theorem closeTensor_slots (s : State) (k c q i : Nat) (x : ScaleClose) : ∃ v : ScaleSlot,
    (s.closeTensor k c q i x).slots = KV.set ScaleSlot.zero s.slots (slotKey c q i) v ∧ v.isOpen = false ∧ v.closed = true ∧
      v.closing = none ∧ v.closedScale = closeScale x.record (s.slot c q i) := by
  unfold State.closeTensor
  extract_lets r v hasQ sc badP s₁ v₁ miss next strict s₂ s₃ s₄
  have h₁ : SameBut laneFields s s₁ := .ite (laneReport_same s _ _ _ _ _ _ _) (.refl _ s)
  have h₂ : SameBut laneFields s s₂ := .ite (h₁.trans (laneReport_same s₁ _ _ _ _ _ _ _)) h₁
  have h₃ : SameBut laneFields s s₃ := h₂.trans (localWrite_same s₂ _ _ _ _ _)
  have hs : s₃.slots = s.slots := h₃ .slots (by decide)
  have h₄ : s₄.slots = KV.set ScaleSlot.zero s.slots (slotKey c q i)
      { v₁ with isOpen := false, closed := true, closing := none, carried := next, closedScale := sc } :=
    congrArg (fun m => KV.set ScaleSlot.zero m (slotKey c q i)
      { v₁ with isOpen := false, closed := true, closing := none, carried := next, closedScale := sc }) hs
  refine ⟨_, Eq.trans ?_ h₄, rfl, rfl, rfl, rfl⟩
  split
  · exact (choice_same _ _ _ .slots (by decide)).trans (kSetFlag_same _ _ _ .slots (by decide))
  · rfl

theorem tensorClose_closes (hr : s.runner c q = some k) (hx : (s.slot c q i).closing = some x)
    (hj : ∀ a < 2, ∀ g < 4, ∀ j ∈ (s.group c a g).jobs, ¬ (j.pair = q ∧ j.seq ≤ x.seq ∧ Rec.slot j.record = i)) :
    s.tensorClose c q i = (s.closeTensor k c q i x).finishCheck k := by
  have hnone : [0, 1].any (fun a => [0, 1, 2, 3].any fun g => (s.group c a g).jobs.any fun j =>
      j.pair == q && decide (j.seq ≤ x.seq) && Rec.slot j.record == i) = false := by
    simp only [List.any_eq_false, List.any_eq_true, not_exists, not_and, Bool.and_eq_true, beq_iff_eq, decide_eq_true_eq]
    intro a ha g hg j hmem
    simp only [List.mem_cons, List.not_mem_nil, or_false] at ha hg
    have := hj a (by omega) g (by omega) j hmem
    tauto
  unfold State.tensorClose
  simp only [hr, hx, hnone, Bool.false_eq_true, if_false]

end Slots

/-- Settles O37: an injection by `vectorSlot_injects` and `injectSlot_shows`, a column's sum by `columnSum_moves` and `columnSum_first`, a
close by `closeTensor_slots`. -/
theorem slotsPassThroughTheArray : Obligations.SlotsPassThroughTheArray := by
  intro s c
  refine ⟨fun a g j w k => ?_, fun a g j rest f fs k => ?_, fun q i x k => ?_⟩
  · intro C A G hj hi ho hs hp hc hr hw need got hlen hclean
    have ht := vectorSlot_injects (s := s.fresh) hj hi ho hs hp hr hw rfl rfl hlen hclean
    generalize hu : s.fresh.setPair C j.pair _ = u at ht
    have hug : (u.group C A G).jobs = [j] := by rw [← hu]; exact hj
    have hus : u.split C A = s.split C A := by rw [← hu]; rfl
    have hq : (u.pair C j.pair).oq j.oq = ((s.pair C j.pair).oq j.oq).drop need := by
      rw [← hu, State.pair_setPair, Pair.oq_setOq]
      rfl
    obtain ⟨hjobs, hoq, hsame⟩ := injectSlot_shows (j := { j with swapped := true }) (w := w) (words := got) hc hug rfl rfl
    refine gives_of_eq (congrArg Host.Outcome.next ht) ⟨?_,
      ⟨{ j with swapped := true }.injected (j.sums w (splitWidth (s.split C A)) got), ?_, rfl, _, rfl, rfl, rfl, rfl⟩, ?_⟩
    · exact ((finishCheck_oq ..).trans (hoq _ _)).trans hq
    · exact (congrArg Group.jobs (finishCheck_group ..)).trans (hus ▸ hjobs)
    · have h₁ : SameBut [.sent, .groups, .pairs, .ctxs] s u := hu ▸ ((SameBut.fresh s).mono (by decide)).step (.setPair _ _ _ _) (by decide)
      exact (h₁.step hsame (by decide)).step (finishCheck_same _ k) (by decide)
  · intro C A G hj ho hf hc hr hcol
    refine gives_of_eq rfl ⟨columnSum_moves (s := s.fresh) hj ho hf hc hr hcol, fun hk hp => ?_⟩
    obtain ⟨h₁, h₂⟩ := columnSum_first (s := s.fresh) hj ho hf hc hr hcol hk hp
    exact ⟨((SameBut.fresh s).mono (by decide)).step h₁ (by decide), h₂⟩
  · intro C Q hr hx hj
    obtain ⟨v, hv, hopen, hclosed, hclosing, hscale⟩ := closeTensor_slots s.fresh k C Q i x
    have hslots : ((s.fresh.closeTensor k C Q i x).finishCheck k).slots = KV.set ScaleSlot.zero s.slots (slotKey C Q i) v :=
      (finishCheck_same _ k .slots (by decide)).trans hv
    have hslot : ((s.fresh.closeTensor k C Q i x).finishCheck k).slot C Q i = v := by rw [State.slot, hslots, KV.get_set_same]
    refine gives_of_eq (congrArg Host.Outcome.next (tensorClose_closes (s := s.fresh) hr hx hj)) ⟨?_, ?_, ?_, ?_, fun n hn => ?_⟩
    · rw [hslot, hopen]
    · rw [hslot, hclosed]
    · rw [hslot, hclosing]
    · rw [hslot, hscale]
      rfl
    · rw [hslots, KV.get_set_ne _ _ _ hn]

end Sys2Proof.Machine

/-! PROOFS. LDT and REGION: their record is read once as they issue, and a record out of range skips them after issue
(R157, R159, R172, R173, R196–R198, R222). -/

namespace Sys2Proof.Machine

section Records

variable {s t : State} {k c q w n pos code : Nat} {st : StreamId} {z : Site} {r : SWord} {l : List Field} {late : Bool}

/-! ### Records of the context's own words -/

theorem consumeRead_owned (ho : (s.ctx k).ownsWord w = true) (he : s.ecc = []) : s.consumeRead k c w =
    if s.spmPoison c w then (none, s.consume k c (spmAddr c w)) else (some (s.spm c w), s) := by
  unfold State.consumeRead
  rw [localRead_owned ho he]

/-- A record of the context's own reads the same in a state that keeps memory and the context. -/
theorem consumeRead_kept (h : SameBut l s t) (hl : ∀ f ∈ [Field.mem, .poison, .ctxs, .ecc], f ∉ l) (he : s.ecc = [])
    (ho : (s.ctx k).ownsWord w = true) (hr : s.consumeRead k c w = (some r, s)) : t.consumeRead k c w = (some r, t) := by
  have hx : t.ctx k = s.ctx k := congrArg (KV.get Ctx.zero · k) (h .ctxs (hl _ (by decide)))
  have hm : t.spm c w = s.spm c w := spm_congr (h .mem (hl _ (by decide))) c w
  have hp : t.spmPoison c w = s.spmPoison c w := by
    rw [State.spmPoison, State.wordPoison, h .poison (hl _ (by decide)), State.spmPoison, State.wordPoison]
  have he' : t.ecc = [] := (h .ecc (hl _ (by decide))).trans he
  rw [consumeRead_owned ho he] at hr
  rw [consumeRead_owned (hx ▸ ho) he', hm, hp]
  split at hr
  · cases hr
  · rename_i hclean
    rw [if_neg hclean, (Prod.mk.inj hr).1]

/-! ### A skip below the context's limit (R196–R198) -/

/-- The entries in which an entry of the error log stands. -/
def skipEntries (k : Nat) : List (Nat × Nat) :=
  (0x2600 + k, 0x33) :: (0x2600 + k, 0x34) :: (List.range 64).map fun n => (0x2600 + k, 0x41 + n)

/-- The fields that a skip changes before it is counted. -/
def skipFields : List Field := [.ctxs, .frame] ++ logFields

theorem logSkip_framed (s : State) (k c q pos code : Nat) (st : StreamId) (late : Bool) (start : Int) :
    Framed [.ctxs, .dict] (skipEntries k) s (s.logSkip k c q pos code st late start) := by
  unfold State.logSkip
  extract_lets beat v x s₁ n
  have h₁ : Framed [.ctxs, .dict] (skipEntries k) s s₁ := 
    (Framed.refl s).then_same (m := [.ctxs]) (.setCtx s k _) (by decide) (by decide)
  split
  · rename_i hn
    have hm : (0x2600 + k, 0x41 + n) ∈ skipEntries k :=
      List.mem_cons_of_mem _ (List.mem_cons_of_mem _ (List.mem_map_of_mem (List.mem_range.mpr hn)))
    exact .dset (.dset h₁ (by decide) hm (by omega) (by simp; omega) (by simp; omega)) (by decide) (by simp [skipEntries]) (by decide)
      (by simp) (by simp)
  · exact h₁.dbump (by decide) (by simp [skipEntries]) (by decide) (by simp) (by simp)

theorem logSkip_skipLimit (s : State) (k c q pos code : Nat) (st : StreamId) (late : Bool) (start : Int) :
    ((s.logSkip k c q pos code st late start).ctx k).skipLimit = (s.ctx k).skipLimit := by
  unfold State.logSkip
  extract_lets beat v x s₁ n
  have h₁ : (s₁.ctx k).skipLimit = (s.ctx k).skipLimit := by rw [State.ctx_setCtx]
  split
  · exact h₁
  · exact h₁

/-- A skip as it is logged and reported, not yet counted. -/
def State.skipNoted (s : State) (k c q pos code : Nat) (st : StreamId) (late : Bool) : State :=
  ((s.logSkip k c q pos code st late (s.strm c q st).startBeat).reportCtx k 0x200C (ucPair c q k) (ucCtx k) (bytesOf 2 code)).ctxFault
    k 0x200C false

theorem skipNoted_framed (s : State) (k c q pos code : Nat) (st : StreamId) (late : Bool) :
    Framed skipFields (skipEntries k ++ logEntries) s (s.skipNoted k c q pos code st late) := by
  have h := (logSkip_framed s k c q pos code st late (s.strm c q st).startBeat).mono (m := skipFields)
    (d' := skipEntries k ++ logEntries) (by decide) fun _ => List.mem_append_left _
  exact (h.report (by decide) (fun _ => List.mem_append_right _) _ _ _ _ _).then_same (ctxFault_same _ _ _ _) (by decide) (by decide)

theorem skipNoted_skipLimit (s : State) (k c q pos code : Nat) (st : StreamId) (late : Bool) :
    ((s.skipNoted k c q pos code st late).ctx k).skipLimit = (s.ctx k).skipLimit := by
  rw [← logSkip_skipLimit s k c q pos code st late (s.strm c q st).startBeat]
  refine congrArg (fun m => (KV.get Ctx.zero m k).skipLimit) ?_
  exact (ctxFault_same _ _ _ _ .ctxs (by decide)).trans ((Logged.report ..).same .ctxs (by decide))

/-- An entry of the context that is neither an error log entry nor its counts reads as it did. -/
theorem cget_skipNoted (s : State) (hk : k < 64) {b : Nat} (hb : b < 0x33) :
    (s.skipNoted k c q pos code st late).cget k b = s.cget k b := by
  refine (skipNoted_framed s k c q pos code st late).dict _ b (by omega) ?_
  simp only [skipEntries, logEntries, List.mem_append, List.mem_cons, List.mem_map, Prod.mk.injEq, List.not_mem_nil, or_false]
  rintro ((h | h | ⟨n, -, -, h⟩) | h)
  all_goals omega

theorem cget_cset_same (s : State) (k b x : Nat) : (s.cset k b x).cget k b = x := State.dget_dset_same ..

theorem cget_cset_ne (s : State) {k b x v : Nat} (hb : b < 256) (hx : x < 256) (h : x ≠ b) : (s.cset k b v).cget k x = s.cget k x :=
  s.dget_dset_ne hb hx (fun e => h (Prod.mk.inj e).2) (fun e => by have := (Prod.mk.inj e).1; omega)
    (fun e => by have := (Prod.mk.inj e).1; omega)

/-- The context still runs, its stream stands at a position, and so many of its skips are counted. -/
structure SkipCounted (k c q : Nat) (st : StreamId) (pos n : Nat) (s : State) : Prop where
  runs : RunsOn s k c
  pos : (s.strm c q st).pos = pos
  count : s.cget k 0x31 = n

/-- A skip that the limit allows is counted, and the stream stays where it is. -/
theorem noteSkip_counted (hr : RunsOn s k c) (hk : k < 64) (hl : s.cget k 0x31 < (s.ctx k).skipLimit) (x : Nat) :
    SkipCounted k c q st (s.strm c q st).pos (min 65535 (s.cget k 0x31 + 1)) (s.noteSkip k c q x code st late) := by
  generalize hu : s.skipNoted k c q x code st late = u
  have hget {b : Nat} (hb : b < 0x33) : u.cget k b = s.cget k b := hu ▸ cget_skipNoted s hk hb
  have hlim : (u.ctx k).skipLimit = (s.ctx k).skipLimit := hu ▸ skipNoted_skipLimit s k c q x code st late
  have hpairs : u.pairs = s.pairs := hu ▸ (skipNoted_framed s k c q x code st late).same .pairs (by decide)
  have ht : s.noteSkip k c q x code st late = (u.cset k 0x31 (min 65535 (u.cget k 0x31 + 1))).cbump k 0x32 := by
    have hx : ((u.cset k 0x31 (min 65535 (u.cget k 0x31 + 1))).cbump k 0x32).ctx k = u.ctx k := rfl
    unfold State.noteSkip
    rw [State.skipNoted] at hu
    dsimp only
    rw [hu, hx, hlim, hget (by decide), if_neg (by omega)]
  have hcount {b : Nat} (hb : b < 0x31) : (s.noteSkip k c q x code st late).cget k b = s.cget k b := by
    rw [ht, cget_cbump_ne _ (by decide) (by omega) (by omega), cget_cset_ne _ (by decide) (by omega) (by omega), hget (by omega)]
  refine ⟨hr.of_cget (hcount (by decide)) (hcount (by decide)), ?_, ?_⟩
  · rw [ht]
    exact congrArg (fun m => ((KV.get Pair.zero m (pairKey c q)).strm st).pos) hpairs
  · rw [ht, cget_cbump_ne _ (by decide) (by decide) (by decide), cget_cset_same, hget (by decide)]

/-! ### Operations that retire -/

namespace SkipCounted

theorem of_same (h : SkipCounted k c q st pos n s) (hs : SameBut l s t) (hl : ∀ f ∈ .pairs :: readSources, f ∉ l) :
    SkipCounted k c q st pos n t := by
  have hd := dget_of_sameBut hs fun f hf => hl f (List.mem_cons_of_mem _ hf)
  refine ⟨h.runs.of_cget (hd _ _) (hd _ _), ?_, (hd _ _).trans h.count⟩
  rw [State.strm, State.pair, hs .pairs (hl _ List.mem_cons_self)]
  exact h.pos

theorem kPutFlag (h : SkipCounted k c q st pos n s) (f : Nat) (b : Bool) : SkipCounted k c q st pos n (s.kPutFlag k f b) := by
  rw [State.kPutFlag, if_pos h.runs.isLive]
  exact h.of_same (.putFlag s _ f b) (by decide)

theorem cbump (h : SkipCounted k c q st pos n s) {b : Nat} (hb : b < 256) (hn : b ∉ [1, 7, 0x31]) :
    SkipCounted k c q st pos n (s.cbump k b) := by
  have hget {x : Nat} (hx : x ∈ [1, 7, 0x31]) (hx' : x < 256) : (s.cbump k b).cget k x = s.cget k x :=
    cget_cbump_ne s hb hx' fun e => hn (e ▸ hx)
  exact ⟨h.runs.of_cget (hget (by decide) (by decide)) (hget (by decide) (by decide)), h.pos, (hget (by decide) (by decide)).trans h.count⟩

theorem kSetFlag (h : SkipCounted k c q st pos n s) (f : Nat) : SkipCounted k c q st pos n (s.kSetFlag k f) := by
  unfold State.kSetFlag
  split
  · refine .cbump ?_ (by decide) (by decide)
    exact ⟨h.runs, h.pos, h.count⟩
  · exact h.kPutFlag f true

theorem applySets (h : SkipCounted k c q st pos n s) (o : Op) : SkipCounted k c q st pos n (s.applySets k o) := by
  unfold State.applySets
  split
  · exact h
  · extract_lets i s₁
    have h₁ : SkipCounted k c q st pos n s₁ := by
      unfold s₁
      split_ifs
      · exact h.kSetFlag _
      · exact h.kPutFlag _ _
      · exact h
    split_ifs
    · exact h₁.kSetFlag _
    · exact h₁

theorem setStrm (h : SkipCounted k c q st pos n s) {x : Strm} (hx : x.pos = pos) : SkipCounted k c q st pos n (s.setStrm c q st x) :=
  ⟨h.runs, by rw [State.strm_setStrm, hx], h.count⟩

theorem retireGo {m : Nat} (h : SkipCounted k c q st pos n s) : SkipCounted k c q st pos n (retireGo m s k q st) := by
  induction m generalizing s with
  | zero => exact h
  | succ m ih =>
    unfold Machine.retireGo
    dsimp only
    split
    · rename_i o rest _
      split
      · rw [h.runs.kPair, h.runs.kSetPair]
        exact ih ((h.setStrm (x := { s.strm c q st with ops := rest }) h.pos).applySets o)
      · exact h
    · exact h

theorem retire (h : SkipCounted k c q st pos n s) : SkipCounted k c q st pos n (s.retire k q st) := retireGo h

theorem finishCheck (h : SkipCounted k c q st pos n s) : SkipCounted k c q st pos n (s.finishCheck k) := by
  have hd := dget_of_sameBut (finishCheck_same s k) (by decide)
  have hp := (finishCheck_pairs s k (pairKey c q)).strm st
  refine ⟨h.runs.of_cget (hd _ _) (hd _ _), ?_, (hd _ _).trans h.count⟩
  obtain e | ⟨-, e⟩ := hp
  · exact (congrArg Strm.pos e).trans h.pos
  · exact (congrArg Strm.pos e).trans h.pos

end SkipCounted

/-- A skip found after issue, below the context's limit, is counted; the stream does not move again. -/
theorem lateSkip_counted (hr : RunsOn s z.k z.c) (hk : z.k < 64) (hl : s.cget z.k 0x31 < (s.ctx z.k).skipLimit) (code : Nat) :
    SkipCounted z.k z.c z.q z.st (s.strm z.c z.q z.st).pos (min 65535 (s.cget z.k 0x31 + 1)) (s.lateSkip z code) := by
  unfold State.lateSkip
  extract_lets x last u
  have hpos : (u.strm z.c z.q z.st).pos = x.pos := by rw [State.strm_setStrm]; rfl
  exact hpos ▸ (noteSkip_counted (s := u) hr hk hl _).retire

/-! ### What a record instruction does -/

section Issued

variable {op : Nat} {uid : UnitId} {C : Fin 8} {Q : Fin 4} (h : Issues s C Q .a op z) (f : Op → Op)
include h

/-- On a free unit, with its record word in range, a record instruction does what follows its record. -/
theorem recordRow_issues (hu : z.t.unitBusy uid = false) (hw : wordOk (bits (z.i.w 1) 20 0) = true)
    (body : Site → State → State) :
    s.fresh.issueA C Q op uid (fun z _ => failIf (!wordOk (bits (z.i.w 1) 20 0)) 0x2071) body =
      (body z ((s.fresh.takeWait z).advance z)).finishCheck z.k := by
  have hc : failIf (!wordOk (bits (z.i.w 1) 20 0)) 0x2071 = [] := by rw [hw]; rfl
  exact (issue_of_issues h hc _ _).trans (if_neg (ne_true_of_eq_false hu))

/-- A record of the context's own reads at issue as it reads before. -/
theorem consumeRead_begun (he : s.ecc = []) (ho : (s.ctx z.k).ownsWord w = true) (hr : s.consumeRead z.k C w = (some r, s)) :
    let v := (s.fresh.takeWait z).advance z
    v.consumeRead z.k z.c w = (some r, v) := by
  rw [h.shows.1]
  exact consumeRead_kept (Begun.of_issues h).same (by decide) he ho hr

/-- The operation that joins its stream, and nothing else. -/
theorem pushed_issues : let t := (((s.fresh.takeWait z).advance z).pushOp z f).finishCheck z.k
    OpIssued s t C Q z (f (z.op z.t.nextSeq)) ∧ IssueFrame s t C Q z [] [] z.waitClears :=
  ⟨opIssued_finishCheck (Begun.pushed h f), (Begun.pushed h f).issueFrame (by decide)⟩

/-- The operation joins its stream, which has moved past the instruction, and is skipped. -/
theorem pushed_lateSkips (hl : s.cget z.k 0x31 < (s.ctx z.k).skipLimit) (code : Nat) :
    let t := ((((s.fresh.takeWait z).advance z).pushOp z f).lateSkip z code).finishCheck z.k
    (t.strm C Q .a).pos = (z.after s).pos ∧ t.cget z.k 0x31 = min 65535 (s.cget z.k 0x31 + 1) := by
  obtain ⟨hC, hQ, hst, -, hr⟩ := h.shows
  have hb := Begun.pushed h f
  generalize ((s.fresh.takeWait z).advance z).pushOp z f = v at hb
  have hk : z.k < 64 := runner_lt (s := s.fresh) (site_shows h.1).2.2.2.2
  have hget {b : Nat} (hb' : b < 0x40) : v.cget z.k b = s.cget z.k b := hb.entries _ b (by omega) (by simp; omega)
  have hx : v.ctx z.k = s.ctx z.k := congrArg (KV.get Ctx.zero · z.k) (hb.same .ctxs (by decide))
  have hpos : (v.strm C Q .a).pos = (z.after s).pos := by rw [← hst, hb.strm]; rfl
  have hrv : RunsOn v z.k z.c := hC ▸ hr.of_cget (hget (by decide)) (hget (by decide))
  have hlv : v.cget z.k 0x31 < (v.ctx z.k).skipLimit := by rw [hget (by decide), hx]; exact hl
  obtain ⟨-, hp, hn⟩ := (lateSkip_counted hrv hk hlv code).finishCheck
  rw [hC, hQ, hst] at hp
  exact ⟨hp.trans hpos, hn.trans (by rw [hget (by decide)])⟩

end Issued

section Read

variable {C : Fin 8} {Q : Fin 4} (hw : wordOk (bits (z.i.w 1) 20 0) = true)
  (hr : ((s.fresh.takeWait z).advance z).consumeRead z.k z.c (bits (z.i.w 1) 20 0) = (some r, (s.fresh.takeWait z).advance z))
include hw hr

/-- An LDT with its record read issues with it. -/
theorem ldt_issues (h : Issues s C Q .a 0x11 z) (hu : z.t.unitBusy .loader = false) (hb : tapBad r z.i = false) :
    exec (.ldt C Q) s = .next ((((s.fresh.takeWait z).advance z).pushOp z fun o => { o with record := r }).finishCheck z.k) := by
  refine congrArg Host.Outcome.next ((recordRow_issues h hu hw _).trans ?_)
  simp only [hr, hb, Bool.false_eq_true, if_false]

/-- An LDT whose record is out of range is skipped with INC_TAP. -/
theorem ldt_skips (h : Issues s C Q .a 0x11 z) (hu : z.t.unitBusy .loader = false) (hb : tapBad r z.i = true) :
    exec (.ldt C Q) s = .next (((((s.fresh.takeWait z).advance z).pushOp z fun o => { o with record := r }).lateSkip z 0x206C).finishCheck
      z.k) := by
  refine congrArg Host.Outcome.next ((recordRow_issues h hu hw _).trans ?_)
  simp only [hr, hb, if_true]

/-- A REGION with its record and the head of its list read issues with the record and the box count. -/
theorem region_issues (h : Issues s C Q .a 0x28 z) (hu : z.t.unitBusy .region = false) (hb : regionBad r = false) {x : SWord}
    (hx : ((s.fresh.takeWait z).advance z).consumeRead z.k z.c (rgList r) = (some x, (s.fresh.takeWait z).advance z)) :
    exec (.region C Q) s = .next ((((s.fresh.takeWait z).advance z).pushOp z fun o =>
      { o with record := r, aux := (w32 x 0).toNat }).finishCheck z.k) := by
  refine congrArg Host.Outcome.next ((recordRow_issues h hu hw _).trans ?_)
  simp only [hr, hb, hx, Bool.false_eq_true, if_false]

/-- A REGION whose record is out of range is skipped with INC_REGION. -/
theorem region_skips (h : Issues s C Q .a 0x28 z) (hu : z.t.unitBusy .region = false) (hb : regionBad r = true) :
    exec (.region C Q) s = .next (((((s.fresh.takeWait z).advance z).pushOp z id).lateSkip z 0x206D).finishCheck z.k) := by
  refine congrArg Host.Outcome.next ((recordRow_issues h hu hw _).trans ?_)
  simp only [hr, hb, if_true]

end Read

end Records

/-- Settles O31: the record reads at issue by `consumeRead_begun`; then the operation issues by `pushed_issues`, or is skipped by
`pushed_lateSkips`. -/
theorem recordInstructionsReadTheirRecordOnce : Obligations.RecordInstructionsReadTheirRecordOnce := by
  intro s c q z r C Q a he hw hr ho
  refine ⟨fun h hu => ?_, fun h hu => ?_⟩
  · have hv := consumeRead_begun h he ho hr
    exact ⟨fun hg => gives_of_eq (ldt_issues hw hv h hu hg) (pushed_issues h _),
      fun hb hl => gives_of_eq (ldt_skips hw hv h hu hb) (pushed_lateSkips h _ hl _)⟩
  · have hv := consumeRead_begun h he ho hr
    exact ⟨fun l hg hol hrl => gives_of_eq (region_issues hw hv h hu hg (consumeRead_begun h he hol hrl)) (pushed_issues h _),
      fun hb hl => gives_of_eq (region_skips hw hv h hu hb) (pushed_lateSkips h _ hl _)⟩

end Sys2Proof.Machine

/-! PROOFS. Element threads: what a unit's oldest unfinished operation moves, and where it goes on (R157, R194, R215, R216, R218, R233,
R262, R280). -/

namespace Sys2Proof.Machine

section Threads

variable {s u : State} {k c q a n : Nat} {w : Work} {o : Op}

/-! ### Queues of a pair -/

@[simp] theorem Pair.rq_setRq (p : Pair) (n : Nat) (l : List QWord) : (p.setRq n l).rq n = l := by
  unfold Pair.rq Pair.setRq
  split_ifs <;> rfl

@[simp] theorem Pair.strm_setRq (p : Pair) (n : Nat) (l : List QWord) (i : StreamId) : (p.setRq n l).strm i = p.strm i := by
  unfold Pair.setRq
  split_ifs <;> cases i <;> rfl

theorem PairKept.rseq {b : Bool} {x y : Pair} (h : PairKept b x y) : x.rseq = y.rseq := by rw [h.1]

theorem SameBut.mapPair (s : State) (w : Work) (f : Pair → Pair) : SameBut [.pairs] s (s.mapPair w f) := .setPair s w.c w.q _

/-! ### An operation that goes on -/

theorem putOp_same (s : State) (w : Work) (o : Op) : SameBut [.pairs] s (s.putOp w o) := .setStrm s w.c w.q .a _

/-- The end of a thread's row: the operation as its thread left it, and the check of R199 and R324. -/
theorem putOp_row_same (s : State) (w : Work) (o : Op) : SameBut [.pairs, .ctxs] s ((s.putOp w o).finishCheck w.k) :=
  ((putOp_same s w o).mono (by decide)).step (finishCheck_same _ w.k) (by decide)

/-- The pair of an operation that goes on, before the check at the end of the row. -/
theorem putOp_pair (h : u.strm w.c w.q .a = s.strm w.c w.q .a) : (u.putOp w o).pair w.c w.q =
    (u.pair w.c w.q).setStrm .a ((s.strm w.c w.q .a).mapOp w.o.seq fun _ => o) := by
  unfold State.putOp State.setStrm
  rw [State.pair_setPair, h]

theorem putOp_row_kept (h : u.strm w.c w.q .a = s.strm w.c w.q .a) : let t := (u.putOp w o).finishCheck w.k
    StrmKept (t.stopping w.k) (t.strm w.c w.q .a) ((s.strm w.c w.q .a).mapOp w.o.seq fun _ => o) := by
  have := (finishCheck_pairs (u.putOp w o) w.k (pairKey w.c w.q)).strm .a
  rwa [← State.pair, ← State.pair, putOp_pair h, Pair.strm_setStrm, ← finishCheck_stopping] at this

theorem putOp_row_oq (u : State) (w : Work) (o : Op) (n : Nat) :
    (((u.putOp w o).finishCheck w.k).pair w.c w.q).oq n = (u.pair w.c w.q).oq n := by
  rw [finishCheck_oq, putOp_pair rfl, Pair.oq_setStrm]

theorem putOp_row_rq (u : State) (w : Work) (o : Op) (n : Nat) :
    (((u.putOp w o).finishCheck w.k).pair w.c w.q).rq n = (u.pair w.c w.q).rq n := by
  have := (finishCheck_pairs (u.putOp w o) w.k (pairKey w.c w.q)).rq n
  rwa [← State.pair, ← State.pair, putOp_pair (s := u) rfl, Pair.rq_setStrm] at this

theorem putOp_row_rseq (u : State) (w : Work) (o : Op) :
    (((u.putOp w o).finishCheck w.k).pair w.c w.q).rseq = (u.pair w.c w.q).rseq := by
  have := (finishCheck_pairs (u.putOp w o) w.k (pairKey w.c w.q)).rseq
  rwa [← State.pair, ← State.pair, putOp_pair (s := u) rfl] at this

/-! ### Words read and written in order -/

theorem Work.cap_le (w : Work) (n : Nat) : w.cap n ≤ n := by
  unfold Work.cap
  split
  · exact le_refl n
  · exact Nat.min_le_right _ n

theorem Work.cap_zero (h : w.lim = some 0) (n : Nat) : w.cap n = 0 := by
  unfold Work.cap
  rw [h]
  exact Nat.zero_min n

theorem mem_wordRun {b : Nat} : b ∈ wordRun a n ↔ ∃ i < n, a + i = b := by simp [wordRun]

theorem nodup_wordRun (a n : Nat) : (wordRun a n).Nodup :=
  List.nodup_range.map fun _ _ h => Nat.add_left_cancel h

/-- Words of the context's own scratchpad read as they are. -/
theorem localReads_owned (he : s.ecc = []) {ws : List Nat} (ho : ∀ a ∈ ws, (s.ctx k).ownsWord a = true) :
    s.localReads k c ws = (ws.map fun a => (s.spm c a, s.spmPoison c a), s) := by
  induction ws with
  | nil => rfl
  | cons a ws ih =>
    rw [List.forall_mem_cons] at ho
    rw [State.localReads, localRead_owned ho.1 he]
    dsimp only
    rw [ih ho.2]
    rfl

theorem spmPoison_setSpm_ne (s : State) (c : Nat) {w v : Nat} (h : v ≠ w) (x : SWord) (p : Bool) :
    (s.setSpm c w x p).spmPoison c v = s.spmPoison c v :=
  wordPoison_putWord_ne s x p (by unfold spmAddr; omega)

/-- Words written each to a place of its own in the context's scratchpad, with the poison mark that each has. -/
theorem localWrites_place {α : Type} (f : α → Nat) (g : α → SWord) (p : α → Bool) (l : List α) {s : State} (hn : (l.map f).Nodup)
    (ho : ∀ a ∈ l.map f, (s.ctx k).ownsWord a = true) :
    let t := foldS l (fun s x => s.localWrite k c (f x) (g x) (p x)) s
    SameBut [.mem, .poison] s t ∧ (∀ x ∈ l, t.spm c (f x) = g x ∧ t.spmPoison c (f x) = p x) ∧
      (∀ a ∉ l.map f, t.spm c a = s.spm c a ∧ t.spmPoison c a = s.spmPoison c a) ∧
      (∀ b, (∀ a ∈ l.map f, b < spmAddr c a ∨ spmAddr c a + 32 ≤ b) → t.byteAt b = s.byteAt b) := by
  induction l generalizing s with
  | nil => exact ⟨.refl _ s, fun _ h => absurd h List.not_mem_nil, fun _ _ => ⟨rfl, rfl⟩, fun _ _ => rfl⟩
  | cons e l ih =>
    simp only [List.map_cons, List.nodup_cons, List.forall_mem_cons] at hn ho
    have hx : foldS (e :: l) (fun s x => s.localWrite k c (f x) (g x) (p x)) s =
        foldS l (fun s x => s.localWrite k c (f x) (g x) (p x)) (s.setSpm c (f e) (g e) (p e)) :=
      congrArg (foldS l _) (localWrite_owned ho.1)
    obtain ⟨hs, hw, hne, hb⟩ := ih (s := s.setSpm c (f e) (g e) (p e)) hn.2 ho.2
    have hfirst := hne (f e) hn.1
    rw [spm_setSpm_same, State.spmPoison, State.spmPoison, State.setSpm, wordPoison_putWord_same] at hfirst
    rw [hx]
    refine ⟨(SameBut.setSpm s _ _ _ _).trans hs, List.forall_mem_cons.mpr ⟨hfirst, hw⟩, fun a ha => ?_, fun b hb' => ?_⟩
    · rw [List.map_cons, List.mem_cons, not_or] at ha
      rw [(hne a ha.2).1, (hne a ha.2).2, spm_setSpm_ne s c ha.1, spmPoison_setSpm_ne s c ha.1]
      exact ⟨rfl, rfl⟩
    · rw [List.map_cons, List.forall_mem_cons] at hb'
      exact (hb b hb'.2).trans (byteAt_setSpm s hb'.1 _ _)

/-- A byte outside a run of words is outside each of its words. -/
theorem outside_wordRun {b : Nat} (h : b < spmAddr c a ∨ spmAddr c a + 32 * n ≤ b) :
    ∀ a' ∈ wordRun a n, b < spmAddr c a' ∨ spmAddr c a' + 32 ≤ b := by
  intro a' ha
  obtain ⟨i, hi, rfl⟩ := mem_wordRun.mp ha
  unfold spmAddr at h ⊢
  omega

theorem ownsWord_wordRun (h : ∀ i < n, (s.ctx k).ownsWord (a + i) = true) : ∀ b ∈ wordRun a n, (s.ctx k).ownsWord b = true := by
  intro b hb
  obtain ⟨i, hi, rfl⟩ := mem_wordRun.mp hb
  exact h i hi

/-! ### LDQ (R215) -/

/-- A load of the context's own words pushes them, clean or marked as they are, and goes on behind them. -/
theorem threadLdq_moves (he : s.ecc = []) (hn : w.cap (min (w.o.wpt - w.o.sub) (s.oqRoom w (bits (Insn.head w.o.words) 31 28))) = n)
    (h0 : n ≠ 0) (ho : ∀ i < n, (s.ctx w.k).ownsWord (w.o.addr 0 + w.o.sub + i) = true) :
    threadLdq w s = (s.pushOq w (bits (Insn.head w.o.words) 31 28) ((wordRun (w.o.addr 0 + w.o.sub) n).map fun a =>
      plainWord (s.spm w.c a) (s.spmPoison w.c a) (spmAddr w.c a))).putOp w (w.o.moved n) := by
  unfold threadLdq
  dsimp only
  rw [hn, if_neg h0, localReads_owned he (ownsWord_wordRun ho), ← List.map_prod_right_eq_zip]
  simp only [List.map_map]
  rfl

theorem pushOq_shows (s : State) (w : Work) (ref : Nat) (l : List QWord) : let t := s.pushOq w ref l
    t.strm w.c w.q .a = s.strm w.c w.q .a ∧ (t.pair w.c w.q).oq ref = (s.pair w.c w.q).oq ref ++ l ∧ SameBut [.pairs] s t := by
  have hp : (s.pushOq w ref l).pair w.c w.q = (s.pair w.c w.q).setOq ref ((s.pair w.c w.q).oq ref ++ l) := State.pair_setPair ..
  refine ⟨?_, ?_, .mapPair s w _⟩
  · rw [State.strm, hp, Pair.strm_setOq]
    rfl
  · rw [hp, Pair.oq_setOq]

/-! ### STQ (R215) -/

/-- Words taken off a result queue and stored in order. -/
def State.stored (s : State) (w : Work) (ref n : Nat) : State :=
  foldS ((List.range n).zip (((s.pair w.c w.q).rq ref).take n))
    (fun s x => s.localWrite w.k w.c (w.o.addr 0 + w.o.sub + x.1) x.2.data x.2.poison)
    (s.mapPair w fun p => p.setRq ref (((s.pair w.c w.q).rq ref).drop n))

theorem threadStq_moves
    (hn : w.cap (min (w.o.wpt - w.o.sub) ((s.pair w.c w.q).rq (bits (Insn.head w.o.words) 31 28)).length) = n) (h0 : n ≠ 0) :
    threadStq w s = (s.stored w (bits (Insn.head w.o.words) 31 28) n).putOp w (w.o.moved n) := by
  unfold threadStq
  dsimp only
  rw [hn, if_neg h0]
  rfl

/-- A store of as many words as the queue holds, to words of the context's own. -/
theorem stored_shows {ref : Nat} (hn : n ≤ ((s.pair w.c w.q).rq ref).length)
    (ho : ∀ i < n, (s.ctx w.k).ownsWord (w.o.addr 0 + w.o.sub + i) = true) : let t := s.stored w ref n
    t.strm w.c w.q .a = s.strm w.c w.q .a ∧ (t.pair w.c w.q).rq ref = ((s.pair w.c w.q).rq ref).drop n ∧
      (∀ i < n, ∀ x, ((s.pair w.c w.q).rq ref)[i]? = some x → t.spm w.c (w.o.addr 0 + w.o.sub + i) = x.data) ∧
      SameBut [.pairs, .mem, .poison] s t ∧ MemBut (spmAddr w.c (w.o.addr 0 + w.o.sub)) (32 * n) s t := by
  generalize hq : (s.pair w.c w.q).rq ref = l at hn
  generalize hv : s.mapPair w (fun p => p.setRq ref (l.drop n)) = v
  have hp : v.pair w.c w.q = (s.pair w.c w.q).setRq ref (l.drop n) := hv ▸ State.pair_setPair ..
  have hsv : SameBut [.pairs] s v := hv ▸ .mapPair s w _
  have hrun : ((List.range n).zip (l.take n)).map (fun x => w.o.addr 0 + w.o.sub + x.1) = wordRun (w.o.addr 0 + w.o.sub) n := by
    have hf : ((List.range n).zip (l.take n)).map Prod.fst = List.range n := List.map_fst_zip (by simp [hn])
    rw [wordRun, ← hf, List.map_map, hf]
    rfl
  have ht : s.stored w ref n = foldS ((List.range n).zip (l.take n))
      (fun s x => s.localWrite w.k w.c (w.o.addr 0 + w.o.sub + x.1) x.2.data x.2.poison) v := by rw [State.stored, hq, hv]
  have hx : v.ctx w.k = s.ctx w.k := congrArg (KV.get Ctx.zero · w.k) (hsv .ctxs (by decide))
  obtain ⟨hs, hw, -, hb⟩ := localWrites_place (k := w.k) (c := w.c) (s := v) (fun x => w.o.addr 0 + w.o.sub + x.1) (fun x => x.2.data)
    (fun x => x.2.poison) ((List.range n).zip (l.take n)) (hrun ▸ nodup_wordRun ..) (by rw [hrun, hx]; exact ownsWord_wordRun (s := s) ho)
  intro t
  rw [show t = _ from ht]
  have hpairs := hs .pairs (by decide)
  refine ⟨?_, ?_, fun i hi x hxi => (hw (i, x) ?_).1, (hsv.mono (by decide)).step hs (by decide), fun b hb' => ?_⟩
  · rw [State.strm, State.pair, hpairs, ← State.pair, hp, Pair.strm_setRq]
    rfl
  · rw [State.pair, hpairs, ← State.pair, hp, Pair.rq_setRq]
  · refine List.mem_iff_getElem?.mpr ⟨i, List.getElem?_zip_eq_some.mpr ⟨by simp [hi], ?_⟩⟩
    rw [List.getElem?_take_of_lt hi, hxi]
  · exact (hb b (hrun ▸ outside_wordRun hb')).trans (byteAt_congr (hsv .mem (by decide)) b)

/-! ### MFILL (R218, R262) -/

/-- A word of four parts of 64 bits, all `v`. -/
def fourTimes (v : Nat) : SWord := BitVec.ofNat 256 (v * (1 + 2 ^ 64 + 2 ^ 128 + 2 ^ 192))

theorem extractLsb'_fourTimes {v j : Nat} (hv : v < 2 ^ 64) (hj : j < 4) :
    (fourTimes v).extractLsb' (64 * j) 64 = BitVec.ofNat 64 v := by
  have hparts : ∃ below above, below < 2 ^ (64 * j) ∧
      v * (1 + 2 ^ 64 + 2 ^ 128 + 2 ^ 192) = below + 2 ^ (64 * j) * (v + 2 ^ 64 * above) := by
    obtain rfl | rfl | rfl | rfl : j = 0 ∨ j = 1 ∨ j = 2 ∨ j = 3 := by omega
    · exact ⟨0, v * (1 + 2 ^ 64 + 2 ^ 128), by omega, by omega⟩
    · exact ⟨v, v * (1 + 2 ^ 64), by omega, by omega⟩
    · exact ⟨v * (1 + 2 ^ 64), v, by omega, by omega⟩
    · exact ⟨v * (1 + 2 ^ 64 + 2 ^ 128), 0, by omega, by omega⟩
  obtain ⟨below, above, hlt, e⟩ := hparts
  have hmod : v * (1 + 2 ^ 64 + 2 ^ 128 + 2 ^ 192) % 2 ^ 256 = v * (1 + 2 ^ 64 + 2 ^ 128 + 2 ^ 192) := Nat.mod_eq_of_lt (by omega)
  refine BitVec.eq_of_toNat_eq ?_
  rw [fourTimes, BitVec.extractLsb'_toNat, BitVec.toNat_ofNat, BitVec.toNat_ofNat, hmod,
    Nat.shiftRight_eq_div_pow, e, Nat.add_mul_div_left _ _ (Nat.two_pow_pos _), Nat.div_eq_of_lt hlt, Nat.zero_add,
    Nat.add_mul_mod_self_left]

/-- The words of the present thread filled with the pattern. -/
def State.filled (s : State) (w : Work) : State :=
  foldS (wordRun (w.o.addr 0) w.o.wpt) (fun s a => s.localWrite w.k w.c a (fourTimes (Insn.w w.o.words 1)) false) s

theorem threadMfill_fills (w : Work) (s : State) : threadMfill w s = (s.filled w).putOp w (w.o.moved w.o.wpt) := rfl

theorem filled_shows (ho : ∀ i < w.o.wpt, (s.ctx w.k).ownsWord (w.o.addr 0 + i) = true) : let t := s.filled w
    (∀ i < w.o.wpt, t.spm w.c (w.o.addr 0 + i) = fourTimes (Insn.w w.o.words 1) ∧ t.spmPoison w.c (w.o.addr 0 + i) = false) ∧
      SameBut [.mem, .poison] s t ∧ MemBut (spmAddr w.c (w.o.addr 0)) (32 * w.o.wpt) s t := by
  obtain ⟨hs, hw, -, hb⟩ := localWrites_place (k := w.k) (c := w.c) (s := s) id (fun _ => fourTimes (Insn.w w.o.words 1))
    (fun _ => false) (wordRun (w.o.addr 0) w.o.wpt) (by rw [List.map_id]; exact nodup_wordRun ..) (by rw [List.map_id]; exact ownsWord_wordRun ho)
  rw [List.map_id] at hb
  exact ⟨fun i hi => hw _ (mem_wordRun.mpr ⟨i, hi, rfl⟩), hs, fun b hb' => hb b (outside_wordRun hb')⟩

/-! ### RFLAG (R216, R233) -/

/-- A packet as it leaves its stream pair. -/
def Work.signed (w : Work) (pr : Pair) (p : Packet) : Packet :=
  { p with srcUnit := BitVec.ofNat 5 w.c, srcCtx := BitVec.ofNat 6 w.k, ctxValid := true, srcPair := BitVec.ofNat 2 w.q,
           seq := pr.rseq, tag := BitVec.ofNat 16 w.o.seq, status := 0 }

/-- The stream pair that waits for the packet's answer. -/
def Work.awaiting (w : Work) (pr : Pair) (p : Packet) (loc off left : Nat) : Pair :=
  { pr with rseq := pr.rseq + 1
            outstanding := pr.outstanding ++ [Out.mk pr.rseq.toNat w.o.seq p.dst p.window loc off left false] }

theorem emit_eq (s : State) (w : Work) (p : Packet) (loc off left : Nat) : s.emit w p loc off left =
    (s.setPair w.c w.q (w.awaiting (s.pair w.c w.q) p loc off left)).sendPacket (w.signed (s.pair w.c w.q) p) := rfl

/-- The packet is last on the fabric, and the stream pair has taken its next sequence number. -/
theorem emit_shows (s : State) (w : Work) (p : Packet) (loc off left : Nat) : let t := s.emit w p loc off left
    t.fabric = s.fabric ++ [w.signed (s.pair w.c w.q) p] ∧ (t.pair w.c w.q).rseq = (s.pair w.c w.q).rseq + 1 ∧
      SameBut [.pairs, .fabric] s t := by
  have hp : (s.emit w p loc off left).pair w.c w.q = w.awaiting (s.pair w.c w.q) p loc off left := State.pair_setPair ..
  refine ⟨rfl, congrArg Pair.rseq hp, ?_⟩
  rw [emit_eq]
  exact ((SameBut.setPair s w.c w.q _).mono (by decide)).step (.setFabric _ _) (by decide)

/-- The packet of an RFLAG. -/
def Op.flagPacket (o : Op) : Packet :=
  { blankPacket 7 o.target.core (winAddr o.target.window o.target.gen 0) with flag := BitVec.ofNat 5 (bits (Insn.tgt o.words) 43 39) }

theorem threadRflag_sends (h : s.portRoom w ≠ 0) :
    threadRflag w s = (s.emit w w.o.flagPacket 0 0 0).putOp w { w.o with ran := true } := if_neg h

/-! ### The row (R194, R280) -/

theorem runThread_ldq (h : Insn.op w.o.words = 0x10) : runThread w s = threadLdq w s := by simp only [runThread, h]

theorem runThread_stq (h : Insn.op w.o.words = 0x13) : runThread w s = threadStq w s := by simp only [runThread, h]

theorem runThread_rflag (h : Insn.op w.o.words = 0x20) : runThread w s = threadRflag w s := by simp only [runThread, h]

theorem runThread_mfill (h : Insn.op w.o.words = 0x24) : runThread w s = threadMfill w s := by simp only [runThread, h]

/-- How many words of its present thread a unit may move for an operation: a load or a store waits for the stream's earlier ones. -/
def State.threadLimit (s : State) (c q : Nat) (uid : UnitId) (o : Op) : Option Nat :=
  if uid = .loader || uid = .storer then (s.strm c q .a).orderLimit o else none

section Row

variable {uid : UnitId} (hr : s.runner c q = some k)
  (hf : (s.strm c q .a).ops.find? (fun o => unitOf (Insn.op o.words) == some uid && !o.ran) = some o)
include hr hf

/-- The oldest unfinished operation of a unit, as the unit sees it. -/
theorem elementThread_runs : s.elementThread c q uid =
    if (o.held && !s.allEnd k) || s.threadLimit c q uid o = some 0 then s
    else (runThread (Work.mk k c q o (s.threadLimit c q uid o)) s).finishCheck k := by
  unfold State.elementThread
  simp only [hr, hf]
  rfl

/-- A unit whose operation waits for END, or for the first word of its thread, does nothing. -/
theorem elementThread_waits (h : (o.held = true ∧ s.allEnd k = false) ∨ s.threadLimit c q uid o = some 0) :
    s.elementThread c q uid = s := by
  refine (elementThread_runs hr hf).trans (if_pos ?_)
  simpa using h

/-- An operation that is not held, and whose next word no earlier access waits for, runs its thread. -/
theorem elementThread_moves (hh : o.held = false) (hl : s.threadLimit c q uid o ≠ some 0) :
    s.elementThread c q uid = (runThread (Work.mk k c q o (s.threadLimit c q uid o)) s).finishCheck k := by
  refine (elementThread_runs hr hf).trans (if_neg ?_)
  simpa [hh] using hl

omit hr in
/-- Only a load or a store waits for words. -/
theorem threadLimit_none (h : unitOf (Insn.op o.words) ≠ some .loader ∧ unitOf (Insn.op o.words) ≠ some .storer) :
    s.threadLimit c q uid o = none := by
  have ho := List.find?_some hf
  simp only [Bool.and_eq_true, beq_iff_eq] at ho
  rw [ho.1] at h
  refine if_neg ?_
  simpa using h

end Row

end Threads

/-- Settles O34: LDQ by `threadLdq_moves`, STQ by `stored_shows`, MFILL by `filled_shows`, RFLAG by `emit_shows`, each at the end of its
row by the `putOp_row` lemmas; a wait by `elementThread_waits`. -/
theorem elementThreadsMoveWords : Obligations.ElementThreadsMoveWords := by
  intro s c q u k o C Q hr hf he ref lim w kept own
  refine ⟨fun h => gives_of_eq (congrArg Host.Outcome.next (elementThread_waits (s := s.fresh) hr hf h)) (.fresh s), fun hh => ?_⟩
  have moves (hl : lim ≠ some 0) : exec (.elementThread c q u) s = .next ((runThread w s.fresh).finishCheck k) :=
    congrArg Host.Outcome.next (elementThread_moves (s := s.fresh) hr hf hh hl)
  have free (h : unitOf (Insn.op o.words) ≠ some .loader ∧ unitOf (Insn.op o.words) ≠ some .storer) : lim ≠ some 0 :=
    fun e => Option.some_ne_none _ (e.symm.trans (threadLimit_none (s := s.fresh) hf h))
  refine ⟨?_, ?_, fun hop ho => ?_, fun hop h0 => ?_⟩
  · intro hop n h0 ho
    have e := moves fun h => h0 (Work.cap_zero h _)
    rw [runThread_ldq (w := w) hop, threadLdq_moves (s := s.fresh) he rfl h0 ho] at e
    obtain ⟨hs, hq, hb⟩ := pushOq_shows s.fresh w ref ((wordRun (o.addr 0 + o.sub) n).map fun a =>
      plainWord (s.spm C a) (s.spmPoison C a) (spmAddr C a))
    exact gives_of_eq e ⟨(putOp_row_oq ..).trans hq, putOp_row_kept (w := w) hs,
      (((SameBut.fresh s).mono (by decide)).step hb (by decide)).step (putOp_row_same _ w _) (by decide)⟩
  · intro hop n h0 ho
    have e := moves fun h => h0 (Work.cap_zero h _)
    rw [runThread_stq (w := w) hop, threadStq_moves (s := s.fresh) rfl h0] at e
    obtain ⟨hs, hq, hw, hb, hm⟩ := stored_shows (s := s.fresh) (w := w) (ref := ref) (n := n)
      ((w.cap_le _).trans (Nat.min_le_right ..)) ho
    have hrow := putOp_row_same (s.fresh.stored w ref n) w (o.moved n)
    refine gives_of_eq e ⟨(putOp_row_rq ..).trans hq, fun i hi x hx => ?_, putOp_row_kept (w := w) hs,
      (((SameBut.fresh s).mono (by decide)).step hb (by decide)).step hrow (by decide),
      hm.trans (.of_mem (hrow .mem (by decide)))⟩
    exact (spm_congr (hrow .mem (by decide)) _ _).trans (hw i hi x hx)
  · have e := moves (free (by rw [hop]; decide))
    rw [runThread_mfill (w := w) hop, threadMfill_fills] at e
    obtain ⟨hw, hb, hm⟩ := filled_shows (s := s.fresh) (w := w) ho
    have hrow := putOp_row_same (s.fresh.filled w) w (o.moved o.wpt)
    have hstrm : (s.fresh.filled w).strm C Q .a = s.strm C Q .a :=
      congrArg (fun m => (KV.get Pair.zero m (pairKey C Q)).strm .a) (hb .pairs (by decide))
    refine gives_of_eq e ⟨fun i hi j hj => ⟨?_, ?_⟩, putOp_row_kept (w := w) hstrm,
      (((SameBut.fresh s).mono (by decide)).step hb (by decide)).step hrow (by decide), hm.trans (.of_mem (hrow .mem (by decide)))⟩
    · rw [spm_congr (hrow .mem (by decide)), (hw i hi).1]
      exact extractLsb'_fourTimes (BitVec.isLt _) hj
    · rw [State.spmPoison, State.wordPoison, hrow .poison (by decide)]
      exact (hw i hi).2
  · have e := moves (free (by rw [hop]; decide))
    rw [runThread_rflag (w := w) hop, threadRflag_sends (s := s.fresh) h0] at e
    obtain ⟨hp, hn, hb⟩ := emit_shows s.fresh w o.flagPacket 0 0 0
    have hrow := putOp_row_same (s.fresh.emit w o.flagPacket 0 0 0) w { o with ran := true }
    exact gives_of_eq e ⟨⟨_, (hrow .fabric (by decide)).trans hp, rfl, rfl, rfl⟩, (putOp_row_rseq ..).trans hn,
      (((SameBut.fresh s).mono (by decide)).step hb (by decide)).step hrow (by decide)⟩

end Sys2Proof.Machine

/-! PROOFS. LDQ, LDZ, STQ, STZ, MFILL, MCOPY, MTRANS and MDIGEST: each joins its unit's operations, or holds on a busy unit (R180, R192,
R207, R215, R218). -/

namespace Sys2Proof.Machine

section Access

variable {s : State} {C : Fin 8} {Q : Fin 4} {z : Site} {op : Nat} {uid : UnitId} {checks : Site → State → List Nat}

theorem failIf_eq_nil {b : Bool} (h : b = false) (code : Nat) : failIf b code = [] := by rw [h]; rfl

/-- On a free unit an access instruction does what is its own. -/
theorem issueA_free (h : Issues s C Q .a op z) (hc : checks z s.fresh = []) (hu : z.t.unitBusy uid = false) (body : Site → State → State) :
    s.fresh.issueA C Q op uid checks body = (body z ((s.fresh.takeWait z).advance z)).finishCheck z.k :=
  (issue_of_issues h hc _ _).trans (if_neg (ne_true_of_eq_false hu))

/-- On a busy unit it holds. -/
theorem issueA_busy (h : Issues s C Q .a op z) (hc : checks z s.fresh = []) (hu : z.t.unitBusy uid = true) (body : Site → State → State) :
    s.fresh.issueA C Q op uid checks body = (s.fresh.holdBusy z).stopCheck z.k :=
  (issue_of_issues h hc _ _).trans (if_pos hu)

/-- An access instruction whose checks pass, and whose row only pushes its operation. -/
theorem plainRow_gives {cmd : Instr} (he : exec cmd s = .next (s.fresh.issueA C Q op uid checks pushPlain)) (h : Issues s C Q .a op z)
    (hc : checks z s.fresh = []) :
    (z.t.unitBusy uid = false → Gives cmd s fun t => OpIssued s t C Q z (z.op z.t.nextSeq) ∧ IssueFrame s t C Q z [] [] z.waitClears) ∧
    (z.t.unitBusy uid = true → Gives cmd s fun t => Holds s t C Q z) :=
  ⟨fun hu => gives_of_eq (he.trans (congrArg _ (issueA_free h hc hu _))) (pushed_issues h id),
    fun hu => gives_of_eq (he.trans (congrArg _ (issueA_busy h hc hu _))) (holds_of_issues h)⟩

end Access

/-- Settles O29: each of the eight rows only checks its addresses and pushes its operation (`plainRow_gives`). -/
theorem accessInstructionsIssue : Obligations.AccessInstructionsIssue := by
  intro s c q z C Q w1 issues holds row
  have pushes {cmd : Instr} {op : Nat} {u : UnitId} {bad : Bool} {checks : Site → State → List Nat}
      (he : exec cmd s = .next (s.fresh.issueA C Q op u checks pushPlain)) (hb : checks z s.fresh = failIf bad 0x2071) : row cmd op u bad :=
    fun h hn => plainRow_gives he h (hb.trans (failIf_eq_nil hn _))
  exact ⟨pushes rfl rfl, pushes rfl rfl, pushes rfl rfl, pushes rfl rfl, pushes rfl rfl, pushes rfl rfl, pushes rfl rfl, pushes rfl rfl⟩

end Sys2Proof.Machine

/-! PROOFS. Control instructions: what a flag set or cleared leaves, an operation that retires as it issues, and the rows of NOP, CSET,
CADD, CCOPY, CMP, END, FLAG, GUARD and JUMP (R183–R185, R188, R189, R199, R204, R212, R213). -/

namespace Sys2Proof.Machine

section Control

variable {s u v : State} {c q k : Nat} {st : StreamId} {z : Site} {r : Strm} {l m : List Field} {d d' : List (Nat × Nat)} {fl fl' : List Nat}

/-! ### Flags of a running context -/

theorem kFlag_runs (h : RunsOn u k c) (f : Nat) : u.kFlag k f = u.flag c f := by rw [State.kFlag, if_pos h.isLive, h.ccore]

theorem kPutFlag_runs (h : RunsOn u k c) (f : Nat) (b : Bool) : u.kPutFlag k f b = u.putFlag c f b := by
  rw [State.kPutFlag, if_pos h.isLive, h.ccore]

/-- A flag's set: the overrun of a flag that is 1 already. -/
def State.overran (u : State) (k f : Nat) : State :=
  { u with overruns := KV.set 0 u.overruns (flagKey k f) (KV.get 0 u.overruns (flagKey k f) + 1) }.cbump k 0x37

theorem SameBut.overran (u : State) (k f : Nat) : SameBut [.overruns, .dict] u (u.overran k f) := by
  intro g hg
  cases g
  case overruns => exact absurd (by decide) hg
  case dict => exact absurd (by decide) hg
  all_goals rfl

theorem kSetFlag_runs (h : RunsOn u k c) (f : Nat) : u.kSetFlag k f = if u.flag c f then u.overran k f else u.putFlag c f true := by
  rw [State.kSetFlag, kFlag_runs h, kPutFlag_runs h]
  rfl

theorem flag_putFlag_ne (u : State) (c : Nat) {f g : Nat} (b : Bool) (h : g ≠ f) : (u.putFlag c f b).flag c g = u.flag c g :=
  KV.get_set_ne _ _ _ (by unfold flagKey; omega)

/-- A flag set is 1. -/
theorem flag_kSetFlag (h : RunsOn u k c) (f : Nat) : (u.kSetFlag k f).flag c f = true := by
  rw [kSetFlag_runs h]
  split
  · assumption
  · exact State.flag_putFlag ..

theorem flag_kSetFlag_ne (h : RunsOn u k c) {f g : Nat} (hg : g ≠ f) : (u.kSetFlag k f).flag c g = u.flag c g := by
  rw [kSetFlag_runs h]
  split
  · rfl
  · exact flag_putFlag_ne u c true hg

/-- A flag that is 1 stays 1 when another, or itself, is set. -/
theorem flag_kSetFlag_of (h : RunsOn u k c) {f g : Nat} (hg : u.flag c g = true) : (u.kSetFlag k f).flag c g = true := by
  by_cases e : g = f
  · rw [e]
    exact flag_kSetFlag h f
  · exact (flag_kSetFlag_ne h e).trans hg

theorem RunsOn.kSetFlag (h : RunsOn u k c) (f : Nat) : RunsOn (u.kSetFlag k f) k c := by
  have hget {b : Nat} (hb : b < 0x37) : (u.kSetFlag k f).cget k b = u.cget k b := by
    rw [kSetFlag_runs h]
    split
    · exact cget_cbump_ne _ (by decide) (by omega) (by omega)
    · rfl
  exact h.of_cget (hget (by decide)) (hget (by decide))

/-! ### Flags in a state in which one stream has moved -/

namespace Begun

theorem mono (h : Begun s u c q z r l d fl) (hl : ∀ f ∈ l, f ∈ m) (hd : ∀ e ∈ d, e ∈ d') (hf : ∀ f ∈ fl, f ∈ fl') :
    Begun s u c q z r m d' fl' :=
  { h.widen hl with
    entries := h.entries.mono fun e he => List.mem_cons.mpr ((List.mem_cons.mp he).imp_right (hd e))
    flags := fun n hn => h.flags n fun f hm => hn f (hf f hm) }

/-- An entry of the context that neither the stop state nor the entries named hold reads as it did. -/
theorem cget (h : Begun s u c q z r l d fl) {b : Nat} (hb : b < 256) (h₀ : b ≠ 0x40) (hd : (0x2600 + z.k, b) ∉ d) :
    u.cget z.k b = s.cget z.k b :=
  h.entries _ b hb (by simp [h₀, hd])

theorem runsOn (h : Begun s u c q z r l d fl) (hr : RunsOn s z.k c) (hd : ∀ b ∈ [1, 7], (0x2600 + z.k, b) ∉ d) : RunsOn u z.k c :=
  hr.of_cget (h.cget (by decide) (by decide) (hd _ (by decide))) (h.cget (by decide) (by decide) (hd _ (by decide)))

theorem putFlag (h : Begun s u c q z r l d fl) {f : Nat} (hf : f ∈ fl) (b : Bool) : Begun s (u.putFlag c f b) c q z r l d fl :=
  { same := h.same.step (.putFlag u c f b) (by simp)
    entries := h.entries
    pairs := h.pairs
    pair := h.pair
    flags := fun n hn => (KV.get_set_ne false u.flags b (hn f hf)).trans (h.flags n hn) }

theorem overran (h : Begun s u c q z r l d fl) (hl : .overruns ∈ l) (hd : (0x2600 + z.k, 0x37) ∈ d) (f : Nat) :
    Begun s (u.overran z.k f) c q z r l d fl :=
  { same := h.same.step (.overran u z.k f) (by simp [hl])
    entries := h.entries.trans ((DictBut.dbump _ _ _ (by decide) (by simp) (by simp)).mono (by simp [hd]))
    pairs := h.pairs
    pair := h.pair
    flags := h.flags }

theorem kSetFlag (h : Begun s u c q z r l d fl) (hr : RunsOn u z.k c) (hl : .overruns ∈ l) (hd : (0x2600 + z.k, 0x37) ∈ d) {f : Nat}
    (hf : f ∈ fl) : Begun s (u.kSetFlag z.k f) c q z r l d fl := by
  rw [kSetFlag_runs hr]
  split
  · exact h.overran hl hd f
  · exact h.putFlag hf true

end Begun

/-! ### What an instruction names -/

theorem waitClears_sub (z : Site) : ∀ f ∈ z.waitClears, f ∈ z.i.flags := by
  intro f hf
  unfold Site.waitClears at hf
  split at hf
  · rename_i hw
    simp only [List.mem_singleton] at hf
    simp [Insn.flags, hw, hf]
  · cases hf

theorem setFlag_mem {i : Insn} (h : i.setOn = true) : i.setFlag ∈ i.flags := by simp [Insn.flags, h]

theorem opFlag_mem {i : Insn} (h : i.op = 0x01) : bits i.head 35 30 ∈ i.flags := by simp [Insn.flags, h]

/-! ### An operation that is complete as it issues (R185) -/

/-- The operation of a control instruction. -/
def Site.doneOp (z : Site) : Op := { z.op z.t.nextSeq with ran := true, complete := true }

/-- What FLAG does to the flag it names, and nothing for another instruction. -/
def State.flagEffect (u : State) (z : Site) : State :=
  if z.i.op = 0x01 then
    (if bits z.i.head 29 28 = 0 then u.kSetFlag z.k (bits z.i.head 35 30) else u.kPutFlag z.k (bits z.i.head 35 30) false)
  else u

theorem applySets_doneOp (u : State) (z : Site) :
    u.applySets z.k z.doneOp = if z.i.setOn then (u.flagEffect z).kSetFlag z.k z.i.setFlag else u.flagEffect z := rfl

theorem RunsOn.flagEffect (h : RunsOn u z.k c) : RunsOn (u.flagEffect z) z.k c := by
  unfold State.flagEffect
  split_ifs
  · exact h.kSetFlag _
  · rw [kPutFlag_runs h]
    exact h
  · exact h

theorem Begun.flagEffect (h : Begun s u c q z r l d z.i.flags) (hr : RunsOn u z.k c) (hl : .overruns ∈ l) (hd : (0x2600 + z.k, 0x37) ∈ d) :
    Begun s (u.flagEffect z) c q z r l d z.i.flags := by
  unfold State.flagEffect
  split_ifs with hop hz
  · exact h.kSetFlag hr hl hd (opFlag_mem hop)
  · rw [kPutFlag_runs hr]
    exact h.putFlag (opFlag_mem hop) false
  · exact h

theorem Begun.applySets (h : Begun s u c q z r l d z.i.flags) (hr : RunsOn u z.k c) (hl : .overruns ∈ l) (hd : (0x2600 + z.k, 0x37) ∈ d) :
    Begun s (u.applySets z.k z.doneOp) c q z r l d z.i.flags := by
  rw [applySets_doneOp]
  split
  · rename_i hs
    exact (h.flagEffect hr hl hd).kSetFlag hr.flagEffect hl hd (setFlag_mem hs)
  · exact h.flagEffect hr hl hd

/-- A stream whose oldest operation is unfinished retires none. -/
theorem retire_waits (h : RunsOn u k c) {o : Op} {rest : List Op} (ho : (u.strm c q st).ops = o :: rest) (hc : o.complete = false) :
    u.retire k q st = u := by
  have ho' : ((u.pair c q).strm st).ops = o :: rest := ho
  rw [State.retire, h.kPair, ho', List.length_cons, Machine.retireGo, h.kPair]
  simp [ho', hc]

/-- A stream's only operation retires once it is complete. -/
theorem retire_single (h : RunsOn u k c) {o : Op} (ho : (u.strm c q st).ops = [o]) (hc : o.complete = true) :
    u.retire k q st = (u.setStrm c q st { u.strm c q st with ops := [] }).applySets k o := by
  have ho' : ((u.pair c q).strm st).ops = [o] := ho
  rw [State.retire, h.kPair, ho', List.length_singleton, Machine.retireGo, h.kPair]
  simp only [ho', hc, if_true, h.kSetPair]
  rfl

/-- The stream of a control instruction once its operation has issued. -/
def Strm.done (r : Strm) (z : Site) : Strm :=
  { r with ops := if z.t.ops = [] then [] else z.t.ops ++ [z.doneOp], nextSeq := z.t.nextSeq + 1 }

/-- The operations before a control instruction: none, or the oldest is unfinished. -/
def Site.headOpen (z : Site) : Prop := z.t.ops = [] ∨ ∃ o rest, z.t.ops = o :: rest ∧ o.complete = false

section Done

variable (h : Begun s v c q z r [] [] z.waitClears) (hr : RunsOn s z.k c) (hc : z.c = c) (hq : z.q = q) (hops : r.ops = z.t.ops)
  (hseq : r.nextSeq = z.t.nextSeq)
include h hr hc hq hops hseq

/-- With nothing before it a control instruction takes its effect on flags as it issues. -/
theorem pushDone_first (hn : z.t.ops = []) : v.pushDone z =
    ((v.pushOp z fun o => { o with ran := true, complete := true }).setStrm c q z.st (r.done z)).applySets z.k z.doneOp := by
  have hb := h.pushOp hc hq fun o => { o with ran := true, complete := true }
  have hs : (v.pushOp z fun o => { o with ran := true, complete := true }).strm c q z.st = { r with ops := [z.doneOp], nextSeq := z.t.nextSeq + 1 } := by
    rw [hb.strm, Strm.issued, hops, hn, hseq]
    rfl
  unfold State.pushDone
  rw [hq, retire_single (hb.runsOn hr (by simp)) (congrArg Strm.ops hs) rfl, hs, Strm.done, if_pos hn]

theorem Begun.pushDone (hopen : z.headOpen) : Begun s (v.pushDone z) c q z (r.done z) [.overruns] [(0x2600 + z.k, 0x37)] z.i.flags := by
  have hb := h.pushOp hc hq fun o => { o with ran := true, complete := true }
  have hru := hb.runsOn hr (by simp)
  have hw {u : State} {r' : Strm} (hu : Begun s u c q z r' [] [] z.waitClears) :
      Begun s u c q z r' [.overruns] [(0x2600 + z.k, 0x37)] z.i.flags := hu.mono (by simp) (by simp) (waitClears_sub z)
  obtain hn | ⟨o, rest, ho, hopen⟩ := hopen
  · rw [pushDone_first h hr hc hq hops hseq hn]
    exact (hw (hb.setStrm _)).applySets hru (by simp) (by simp)
  · have hi : r.issued z (fun o => { o with ran := true, complete := true }) = r.done z := by
      rw [Strm.issued, Strm.done, hops, hseq, if_neg (by rw [ho]; exact List.cons_ne_nil _ _)]
      rfl
    rw [hi] at hb
    unfold State.pushDone
    rw [hq, retire_waits hru (o := o) (rest := rest ++ [z.doneOp]) ?_ hopen]
    · exact hw hb
    · rw [hb.strm, Strm.done, if_neg (by rw [ho]; exact List.cons_ne_nil _ _), ho]
      rfl

/-- A control instruction whose stream then holds `r` has issued once the row ends. -/
theorem pushDone_issued : ControlIssued s ((v.pushDone z).finishCheck z.k) c q z r := fun hopen =>
  have hb := h.pushDone hr hc hq hops hseq hopen
  ⟨strmKept_finishCheck hb.pair, hb.issueFrame (by decide)⟩

end Done

/-! ### The rows -/

theorem issue_congr_want {want want' : Insn → StreamId → Bool} (hs : s.site c q st = some z) (hw : want z.i st = want' z.i st)
    (checks : Site → State → List Nat) (busy : Site → State → Bool) (body : Site → State → State) :
    s.issue c q st want checks busy body = s.issue c q st want' checks busy body := by
  unfold State.issue
  simp only [hs, hw]

variable {op : Nat} {C : Fin 8} {Q : Fin 4}

/-- The registers of a control instruction's stream are as its row leaves them. -/
theorem controlRow_gives {cmd : Instr} {want : Insn → StreamId → Bool} {checks : Site → State → List Nat} {busy : Site → State → Bool}
    {body : Site → State → State}
    (he : exec cmd s = .next (s.fresh.issue C Q st want checks busy fun z s => (body z s).pushDone z)) (h : Issues s C Q st op z)
    (hw : want z.i st = true) (hc : checks z s.fresh = []) (hb : busy z s.fresh = false) {r : Strm}
    (hr : Begun s (body z ((s.fresh.takeWait z).advance z)) C Q z r [] [] z.waitClears) (hops : r.ops = z.t.ops)
    (hseq : r.nextSeq = z.t.nextSeq) :
    exec cmd s = .next (((body z ((s.fresh.takeWait z).advance z)).pushDone z).finishCheck z.k) ∧
      ControlIssued s (((body z ((s.fresh.takeWait z).advance z)).pushDone z).finishCheck z.k) C Q z r := by
  obtain ⟨hC, hQ, -, -, hrun⟩ := h.shows
  have hwant : want z.i st = isOp op z.i st := hw.trans (beq_iff_eq.mpr h.2.2.1).symm
  refine ⟨he.trans (congrArg Host.Outcome.next ?_), pushDone_issued hr hrun hC hQ hops hseq⟩
  rw [issue_congr_want h.1 hwant, issue_of_issues h hc]
  exact if_neg (ne_true_of_eq_false hb)

/-- A row that only changes registers of its stream. -/
theorem registerRow_gives {cmd : Instr} {want : Insn → StreamId → Bool} (f : Site → Strm → Strm)
    (he : exec cmd s = .next (s.fresh.issue C Q st want noChecks never fun z s => (s.mapStrm z (f z)).pushDone z)) (h : Issues s C Q st op z)
    (hw : want z.i st = true) (hf : (f z (z.after s)).ops = z.t.ops ∧ (f z (z.after s)).nextSeq = z.t.nextSeq) :
    Gives cmd s fun t => ControlIssued s t C Q z (f z (z.after s)) := by
  obtain ⟨hC, hQ, hst, -, -⟩ := h.shows
  have hb := Begun.of_issues h
  have hm : ((s.fresh.takeWait z).advance z).mapStrm z (f z) =
      ((s.fresh.takeWait z).advance z).setStrm C Q z.st (f z (z.after s)) := by
    rw [State.mapStrm, hC, hQ, hb.strm]
  obtain ⟨e, hi⟩ := controlRow_gives he h hw rfl rfl (hm ▸ hb.setStrm _) hf.1 hf.2
  exact gives_of_eq e hi

theorem Strm.setCounter_ops (r : Strm) (n : Nat) (x : BitVec 32) : (r.setCounter n x).ops = r.ops ∧ (r.setCounter n x).nextSeq = r.nextSeq := by
  unfold Strm.setCounter
  split <;> exact ⟨rfl, rfl⟩

end Control

/-- Settles O27: each row changes registers of its stream alone (`registerRow_gives`), and its operation is complete as it issues
(`pushDone_issued`). -/
theorem counterInstructionsIssue : Obligations.CounterInstructionsIssue := by
  intro s c q st z i
  have isOf {op : Nat} (h : Issues s c q st op z) : isOp op z.i st = true := beq_iff_eq.mpr h.2.2.1
  refine ⟨fun h => ?_, fun h => ?_, fun h => ?_, fun h => ?_, fun h => ?_, fun h => ?_⟩
  · have hw : nopRow z.i st = true := by rw [nopRow, h.2.2.1]; rfl
    obtain ⟨e, hi⟩ := controlRow_gives (cmd := .nopInstruction c q st) (checks := noChecks) (busy := never) (body := fun _ s => s) rfl h hw rfl rfl (Begun.of_issues h) rfl rfl
    exact gives_of_eq e hi
  · exact registerRow_gives (fun z t => t.setCounter (bits z.i.head 29 28) (BitVec.ofNat 32 (bits z.i.head 63 32))) rfl h (isOf h)
      (Strm.setCounter_ops ..)
  · exact registerRow_gives (fun z t => t.setCounter (bits z.i.head 29 28)
      (t.counter (bits z.i.head 29 28) + BitVec.ofNat 32 (bits z.i.head 63 32))) rfl h (isOf h) (Strm.setCounter_ops ..)
  · exact registerRow_gives (fun z t => t.setCounter (bits z.i.head 29 28) (t.counter (bits z.i.head 31 30))) rfl h (isOf h)
      (Strm.setCounter_ops ..)
  · refine registerRow_gives (fun z t => if bitAt z.i.head 28 then { t with p1 := cmpSetting z.i } else { t with p0 := cmpSetting z.i })
      rfl h (isOf h) ?_
    split <;> exact ⟨rfl, rfl⟩
  · exact registerRow_gives (fun _ t => { t with atEnd := true }) rfl h (isOf h) ⟨rfl, rfl⟩

end Sys2Proof.Machine

/-! PROOFS. Skips at issue, below the context's limit: what is logged and counted, where the stream then stands, and the hold on a wait
that is not met (R196–R199, R207, R222, R277). -/

namespace Sys2Proof.Machine

section Skips

variable {s t u v : State} {k c q n pos code : Nat} {st : StreamId} {z : Site} {late : Bool} {start : Int}

/-! ### The error log (R197) -/

/-- An entry of the error log as a number. -/
def State.skipRecord (s : State) (c q pos code : Nat) (st : StreamId) (late : Bool) (start : Int) : Nat :=
  s.frameNo % 2 ^ 32 + pos * 2 ^ 32 + code * 2 ^ 64 + q * 2 ^ 80 + stIx st * 2 ^ 82 + (if late then 2 ^ 83 else 0) +
    min 0xFFFFFFFF ((s.beats (c / 2) : Int) - start).toNat * 2 ^ 96

theorem bits_add_mul {a b lo w : Nat} (ha : a < 2 ^ lo) : bits (a + b * 2 ^ lo) (lo + w) lo = b % 2 ^ (w + 1) := by
  rw [bits, Nat.shiftRight_eq_div_pow, Nat.add_mul_div_right _ _ (Nat.two_pow_pos lo), Nat.div_eq_of_lt ha, Nat.zero_add,
    show lo + w + 1 - lo = w + 1 by omega]

/-- The code stands in bits [79:64]. -/
theorem bits_skipRecord (s : State) (c q : Nat) (hp : pos < 2 ^ 32) (hc : code < 2 ^ 16) (st : StreamId) (late : Bool) (start : Int) :
    bits (s.skipRecord c q pos code st late start) 79 64 = code := by
  have hf : s.frameNo % 2 ^ 32 < 2 ^ 32 := Nat.mod_lt _ (by decide)
  have e : s.skipRecord c q pos code st late start = s.frameNo % 2 ^ 32 + pos * 2 ^ 32 + (code + 2 ^ 16 * (q + stIx st * 2 ^ 2 +
      (if late then 2 ^ 3 else 0) + min 0xFFFFFFFF ((s.beats (c / 2) : Int) - start).toNat * 2 ^ 16)) * 2 ^ 64 := by
    unfold State.skipRecord
    split <;> ring
  rw [e, bits_add_mul (lo := 64) (w := 15) (by omega), Nat.add_mul_mod_self_left, Nat.mod_eq_of_lt hc]

/-- With room in the log the entry joins it. -/
theorem logSkip_room (h : s.cget k 0x33 < 64) : s.logSkip k c q pos code st late start =
    ((s.setCtx k { s.ctx k with lastSkip := s.skipRecord c q pos code st late start }).cset k (0x41 + s.cget k 0x33)
      (s.skipRecord c q pos code st late start)).cset k 0x33 (s.cget k 0x33 + 1) :=
  if_pos h

/-- What a report leaves of a context's entries. -/
theorem cget_logged (h : Logged s t) (hk : k < 64) {b : Nat} (hb : b < 256) : t.cget k b = s.cget k b :=
  h.dict _ b hb (by
    simp only [logEntries, List.mem_cons, Prod.mk.injEq, List.not_mem_nil, or_false]
    omega)

/-- What a skip logs and reports leaves the error log's entries as they are logged. -/
theorem cget_skipNoted_log (hk : k < 64) {b : Nat} (hb : b < 256) : (s.skipNoted k c q pos code st late).cget k b =
    (s.logSkip k c q pos code st late (s.strm c q st).startBeat).cget k b :=
  (dget_of_sameBut (ctxFault_same _ k 0x200C false) (by decide) _ _).trans (cget_logged (Logged.report ..) hk hb)

/-- A skip that the limit allows is counted in the frame and in all. -/
theorem noteSkip_below (hk : k < 64) (hl : s.cget k 0x31 < (s.ctx k).skipLimit) : s.noteSkip k c q pos code st late =
    ((s.skipNoted k c q pos code st late).cset k 0x31 (min 65535 (s.cget k 0x31 + 1))).cbump k 0x32 := by
  have hn : (s.skipNoted k c q pos code st late).cget k 0x31 = s.cget k 0x31 := cget_skipNoted s hk (by decide)
  have hlim := skipNoted_skipLimit (k := k) s c q pos code st late
  generalize hv : s.skipNoted k c q pos code st late = v at hn hlim ⊢
  have hx (x : Nat) : ((v.cset k 0x31 x).cbump k 0x32).ctx k = v.ctx k := rfl
  unfold State.noteSkip
  rw [State.skipNoted] at hv
  dsimp only
  rw [hv, hn, hx, hlim, if_neg (by omega)]

theorem cget_cbump_same (s : State) (k b : Nat) : (s.cbump k b).cget k b = (s.cget k b + 1) % 2 ^ 32 := State.dget_dset_same ..

/-- What a skip below the limit shows: the streams as they were, its counts, and its entry where the log has room. -/
theorem noteSkip_shows (hk : k < 64) (hl : s.cget k 0x31 < (s.ctx k).skipLimit) : let t := s.noteSkip k c q pos code st late
    t.pairs = s.pairs ∧ (∀ b < 0x31, t.cget k b = s.cget k b) ∧ t.cget k 0x31 = min 65535 (s.cget k 0x31 + 1) ∧
      t.cget k 0x32 = (s.cget k 0x32 + 1) % 2 ^ 32 ∧
      (s.cget k 0x33 < 64 → t.cget k 0x33 = s.cget k 0x33 + 1 ∧
        t.cget k (0x41 + s.cget k 0x33) = s.skipRecord c q pos code st late (s.strm c q st).startBeat) := by
  generalize hv : s.skipNoted k c q pos code st late = v
  have hget {b : Nat} (hb : b < 0x33) : v.cget k b = s.cget k b := hv ▸ cget_skipNoted s hk hb
  have hlogged {b : Nat} (hb : b < 256) : v.cget k b = (s.logSkip k c q pos code st late (s.strm c q st).startBeat).cget k b :=
    hv ▸ cget_skipNoted_log hk hb
  have hpairs : v.pairs = s.pairs := hv ▸ (skipNoted_framed s k c q pos code st late).same .pairs (by decide)
  rw [noteSkip_below hk hl, hv]
  refine ⟨by exact hpairs, fun b hb => ?_, ?_, ?_, fun hr => ⟨?_, ?_⟩⟩
  · rw [cget_cbump_ne _ (by decide) (by omega) (by omega), cget_cset_ne _ (by decide) (by omega) (by omega), hget (by omega)]
  · rw [cget_cbump_ne _ (by decide) (by decide) (by decide), cget_cset_same]
  · rw [cget_cbump_same, cget_cset_ne _ (by decide) (by decide) (by decide), hget (by decide)]
  · rw [cget_cbump_ne _ (by decide) (by decide) (by decide), cget_cset_ne _ (by decide) (by decide) (by decide), hlogged (by decide),
      logSkip_room hr, cget_cset_same]
  · rw [cget_cbump_ne _ (by decide) (by omega) (by omega), cget_cset_ne _ (by decide) (by omega) (by omega), hlogged (by omega),
      logSkip_room hr, cget_cset_ne _ (by decide) (by omega) (by omega), cget_cset_same]

/-! ### The stream at a skip -/

/-- The stream stands where it stood. -/
theorem Begun.refl (ht : z.t = s.strm c q z.st) : Begun s s c q z z.t [] [] [] :=
  ⟨.refl _ s, .refl _ s, fun _ _ => rfl, ht ▸ (Pair.setStrm_strm _ _).symm, fun _ _ => rfl⟩

/-- The wait of the instruction is over. -/
theorem Begun.waitTaken (hr : RunsOn s z.k c) (ht : z.t = s.strm c q z.st) : Begun s (s.takeWait z) c q z z.t [] [] z.waitClears := by
  have hb : Begun s s c q z z.t [] [] z.waitClears := (Begun.refl ht).mono (by simp) (by simp) (by simp)
  rw [takeWait_eq hr]
  split
  · rename_i hw
    exact hb.putFlag (by simp [Site.waitClears, hw.1]) false
  · exact hb

section Skipped

variable {fl : List Nat} (hb : Begun s v c q z (z.after s) [] [] fl) (hr : RunsOn s z.k c) (hk : z.k < 64)
  (hl : s.cget z.k 0x31 < (s.ctx z.k).skipLimit)
include hb hr hk hl

/-- An instruction skipped at issue, with the stream past it: R199's check may stop it, the skip is counted, and its entry joins the log. -/
theorem skipped_shows (code : Nat) : let t := (v.noteSkip z.k z.c z.q z.t.pos code z.st false).finishCheck z.k
    StrmKept (t.stopping z.k) (t.strm c q z.st) (z.after s) ∧ t.cstate z.k = csRunning ∧
      t.cget z.k 0x31 = min 65535 (s.cget z.k 0x31 + 1) ∧ t.cget z.k 0x32 = (s.cget z.k 0x32 + 1) % 2 ^ 32 ∧
      (z.t.pos < 2 ^ 32 → code < 2 ^ 16 → s.cget z.k 0x33 < 64 → t.cget z.k 0x33 = s.cget z.k 0x33 + 1 ∧
        bits (t.cget z.k (0x41 + s.cget z.k 0x33)) 79 64 = code) := by
  have hget {b : Nat} (hb' : b < 0x40) : v.cget z.k b = s.cget z.k b := hb.cget (by omega) (by omega) (by simp)
  have hx : v.ctx z.k = s.ctx z.k := congrArg (KV.get Ctx.zero · z.k) (hb.same .ctxs (by decide))
  have hlv : v.cget z.k 0x31 < (v.ctx z.k).skipLimit := by rw [hget (by decide), hx]; exact hl
  obtain ⟨hpairs, hlow, hn, hall, hlog⟩ := noteSkip_shows (c := z.c) (q := z.q) (pos := z.t.pos) (code := code) (st := z.st) (late := false) hk hlv
  intro t
  have hfin (b : Nat) : t.cget z.k b = (v.noteSkip z.k z.c z.q z.t.pos code z.st false).cget z.k b :=
    dget_of_sameBut (finishCheck_same _ z.k) (by decide) _ _
  refine ⟨strmKept_finishCheck (s := s) ?_, ?_, ?_, ?_, fun hp hcode hroom => ?_⟩
  · rw [State.pair, hpairs]
    exact hb.pair
  · rw [State.cstate, hfin, hlow 1 (by decide), hget (by decide)]
    exact hr.1
  · rw [hfin, hn, hget (by decide)]
  · rw [hfin, hall, hget (by decide)]
  · rw [hget (by decide)] at hlog
    rw [hfin, hfin, (hlog hroom).1, (hlog hroom).2, bits_skipRecord _ _ _ hp hcode]
    exact ⟨rfl, rfl⟩

end Skipped

/-- Every code of an illegal instruction takes 16 bits (R221). -/
theorem illegal_lt {i : Insn} (h : i.illegal st = some code) : code < 2 ^ 16 := by
  unfold Insn.illegal at h
  split at h
  · simp only [Option.some.injEq] at h
    omega
  · split_ifs at h <;> (simp only [Option.some.injEq] at h; omega)

theorem leastCode_eq {l : List Nat} (hm : code ∈ l) (hl : ∀ d ∈ l, code ≤ d) : leastCode l = some code :=
  List.min?_eq_some_iff.mpr ⟨hm, hl⟩

/-! ### The hold on a wait (R277) -/

/-- A stream's position and count are as they were, and the rest but streams and entries too. -/
structure StandsStill (c q : Nat) (st : StreamId) (s t : State) : Prop where
  same : SameBut [.pairs, .dict] s t
  pos : (t.strm c q st).pos = (s.strm c q st).pos
  count : (t.strm c q st).count = (s.strm c q st).count

namespace StandsStill

theorem refl (s : State) : StandsStill c q st s s := ⟨.refl _ s, rfl, rfl⟩

theorem trans (h : StandsStill c q st s t) (k : StandsStill c q st t u) : StandsStill c q st s u :=
  ⟨h.same.trans k.same, k.pos.trans h.pos, k.count.trans h.count⟩

theorem of_dict (h : SameBut [.dict] s t) : StandsStill c q st s t := by
  have e : t.strm c q st = s.strm c q st := congrArg (fun m => (KV.get Pair.zero m (pairKey c q)).strm st) (h .pairs (by decide))
  exact ⟨h.mono (by decide), congrArg Strm.pos e, congrArg Strm.count e⟩

/-- A stream whose operations alone change stands where it stood, and so does every other. -/
theorem mapOp (s : State) (c' q' : Nat) (n : Nat) (f : Op → Op) :
    StandsStill c q st s (s.setStrm c' q' .a ((s.strm c' q' .a).mapOp n f)) := by
  have h : ((s.setStrm c' q' .a ((s.strm c' q' .a).mapOp n f)).strm c q st).pos = (s.strm c q st).pos ∧
      ((s.setStrm c' q' .a ((s.strm c' q' .a).mapOp n f)).strm c q st).count = (s.strm c q st).count := by
    by_cases hk : pairKey c q = pairKey c' q'
    · have hp : s.pair c' q' = s.pair c q := congrArg (KV.get Pair.zero s.pairs) hk.symm
      have ht : (s.setStrm c' q' .a ((s.strm c' q' .a).mapOp n f)).pair c q = (s.pair c q).setStrm .a (((s.pair c q).strm .a).mapOp n f) := by
        rw [State.pair, hk]
        exact (State.pair_setPair ..).trans (by rw [State.strm, hp])
      rw [State.strm, ht]
      cases st <;> exact ⟨rfl, rfl⟩
    · have ht : (s.setStrm c' q' .a ((s.strm c' q' .a).mapOp n f)).pair c q = s.pair c q := KV.get_set_ne _ _ _ hk
      rw [State.strm, ht]
      exact ⟨rfl, rfl⟩
  exact ⟨(SameBut.setPair s c' q' _).mono (by decide), h.1, h.2⟩

theorem foldS {α : Type} {l : List α} {f : State → α → State} (h : StandsStill c q st s t)
    (hf : ∀ x a, StandsStill c q st s x → StandsStill c q st s (f x a)) : StandsStill c q st s (foldS l f t) := by
  induction l generalizing t with
  | nil => exact h
  | cons a l ih => exact ih (hf t a h)

theorem stopCheck (h : StandsStill c q st s t) (k : Nat) : StandsStill c q st s (t.stopCheck k) := by
  have hk : StrmKept (t.stopping k) ((t.stopCheck k).strm c q st) (t.strm c q st) := (stopCheck_pairs t k (pairKey c q)).strm st
  refine h.trans ⟨(stopCheck_same t k).mono (by decide), ?_, ?_⟩
  · obtain e | ⟨-, e⟩ := hk
    · rw [e]
    · rw [e]
  · obtain e | ⟨-, e⟩ := hk
    · rw [e]
    · rw [e]

end StandsStill

/-- A hold on a flag that a transfer is to set is counted, and moves no stream. -/
theorem noteDramHold_still (s : State) (z : Site) (c q : Nat) (st : StreamId) : StandsStill c q st s (s.noteDramHold z) := by
  unfold State.noteDramHold
  refine .foldS (.refl s) fun x q' hx => .foldS hx fun y n hy => ?_
  dsimp only
  split
  · exact (hy.trans (.mapOp y _ _ _ _)).trans (.of_dict (choice_same _ _ _))
  · exact hy

/-! ### The three ends of a row that does not issue -/

section Ends

variable {want : Insn → StreamId → Bool} (hs : s.site c q st = some z) (hw : want z.i st = true) (hf : s.fetchErrors z = (false, s))
  (checks : Site → State → List Nat) (busy : Site → State → Bool) (body : Site → State → State)
include hs hw hf

theorem issue_illegal (hi : z.i.illegal st = some code) :
    s.issue c q st want checks busy body = (s.skip z code).finishCheck z.k := by
  unfold State.issue
  simp only [hs, hw, hf, hi, Bool.not_true, Bool.false_eq_true, if_false]

theorem issue_unmet (hi : z.i.illegal st = none) (hm : s.waitMet z = false) :
    s.issue c q st want checks busy body = (s.noteDramHold z).stopCheck z.k := by
  unfold State.issue
  simp only [hs, hw, hf, hi, hm, Bool.not_true, Bool.not_false, Bool.false_eq_true, if_false, if_true]

theorem issue_inconsistent (hi : z.i.illegal st = none) (hm : s.waitMet z = true) (hc : leastCode (s.commonChecks z ++ checks z s) = some code) :
    s.issue c q st want checks busy body = ((s.takeWait z).skip z code).finishCheck z.k := by
  unfold State.issue
  simp only [hs, hw, hf, hi, hm, hc, Bool.not_true, Bool.false_eq_true, if_false]

end Ends

end Skips

/-- Settles O33: an illegal or inconsistent instruction by `skipped_shows`, with its wait taken or not; an unmet wait by
`noteDramHold_still`. -/
theorem skipsMoveOnAndAreCounted : Obligations.SkipsMoveOnAndAreCounted := by
  intro s c q st want checks busy body z _ _ hs hw hf hp t n skipped
  obtain ⟨hc, hq, rfl, ht, hrun⟩ := site_shows hs
  have hr := runsOn_of_runner hrun
  have hk := runner_lt hrun
  have of {v : State} {fl : List Nat} {code : Nat} (hb : Begun s v c q z (z.after s) [] [] fl) (hl : s.cget z.k 0x31 < (s.ctx z.k).skipLimit)
      (hcode : code < 2 ^ 16) (e : t = (v.noteSkip z.k z.c z.q z.t.pos code z.st false).finishCheck z.k) : skipped code := by
    obtain ⟨hstrm, hstate, hn, hall, hlog⟩ := skipped_shows hb hr hk hl code
    rw [← e] at hstrm hstate hn hall hlog
    exact ⟨hstrm, hstate, hn, hall, hlog hp hcode⟩
  refine ⟨fun code hi hl => ?_, fun hi hm hl code hcode hmem hmin => ?_, fun hi hm => ?_⟩
  · exact of ((Begun.refl ht).advance hc hq) hl (illegal_lt hi) (issue_illegal hs hw hf _ _ _ hi)
  · exact of ((Begun.waitTaken hr ht).advance hc hq) hl hcode (issue_inconsistent hs hw hf _ _ _ hi hm (leastCode_eq hmem hmin))
  · have e : t = (s.noteDramHold z).stopCheck z.k := issue_unmet hs hw hf _ _ _ hi hm
    obtain ⟨hsame, hpos, hcount⟩ := (noteDramHold_still s z c q z.st).stopCheck z.k
    rw [← e] at hsame hpos hcount
    exact ⟨hpos.trans (congrArg Strm.pos ht.symm), hcount.trans (congrArg Strm.count ht.symm), hsame⟩

end Sys2Proof.Machine

/-! PROOFS. FLAG, GUARD and JUMP: the flag a FLAG names, where a GUARD and a JUMP go, and a JUMP to no boundary
(R184, R185, R189, R204, R205, R212, R213, R222). -/

namespace Sys2Proof.Machine

section Branches

variable {s t u v : State} {c q op : Nat} {p : Int} {st : StreamId} {z : Site} {C : Fin 8} {Q : Fin 4}

theorem finishCheck_flag (u : State) (k c f : Nat) : (u.finishCheck k).flag c f = u.flag c f :=
  congrArg (KV.get false · (flagKey c f)) (finishCheck_same u k .flags (by decide))

/-! ### FLAG -/

/-- With nothing before it, what a FLAG's operation leaves its flag is what the row leaves it. -/
theorem flag_pushDone (h : Issues s C Q st op z) (hn : z.t.ops = []) : ∃ u, RunsOn u z.k C ∧
    ∀ f, ((((s.fresh.takeWait z).advance z).pushDone z).finishCheck z.k).flag C f = (u.applySets z.k z.doneOp).flag C f := by
  obtain ⟨hC, hQ, -, -, hr⟩ := h.shows
  have hb := Begun.of_issues h
  have hd := (hb.pushOp hC hQ fun o => { o with ran := true, complete := true }).setStrm ((z.after s).done z)
  refine ⟨_, hd.runsOn hr (by simp), fun f => ?_⟩
  rw [finishCheck_flag, pushDone_first hb hr hC hQ rfl rfl hn]

theorem flagSet_shows (hr : RunsOn u z.k c) (hop : z.i.op = 0x01) (h0 : bits z.i.head 29 28 = 0) :
    (u.applySets z.k z.doneOp).flag c (bits z.i.head 35 30) = true := by
  have hf : u.flagEffect z = u.kSetFlag z.k (bits z.i.head 35 30) := by rw [State.flagEffect, if_pos hop, if_pos h0]
  have hset := flag_kSetFlag hr (bits z.i.head 35 30)
  rw [applySets_doneOp, hf]
  split
  · exact flag_kSetFlag_of (hr.kSetFlag _) hset
  · exact hset

theorem flagClear_shows (hr : RunsOn u z.k c) (hop : z.i.op = 0x01) (h1 : bits z.i.head 29 28 = 1)
    (hne : z.i.setOn = true → z.i.setFlag ≠ bits z.i.head 35 30) :
    (u.applySets z.k z.doneOp).flag c (bits z.i.head 35 30) = false := by
  have hf : u.flagEffect z = u.putFlag c (bits z.i.head 35 30) false := by
    rw [State.flagEffect, if_pos hop, if_neg (by omega), kPutFlag_runs hr]
  have hclear : (u.putFlag c (bits z.i.head 35 30) false).flag c (bits z.i.head 35 30) = false := State.flag_putFlag ..
  have hrp : RunsOn (u.putFlag c (bits z.i.head 35 30) false) z.k c := hr
  rw [applySets_doneOp, hf]
  split
  · rename_i hs
    exact (flag_kSetFlag_ne hrp (hne hs).symm).trans hclear
  · exact hclear

/-! ### GUARD and JUMP -/

/-- A stream that goes to a position, which may be the program's end. -/
def Strm.at (r : Strm) (z : Site) (p : Nat) : Strm := { r with pos := p, atEnd := p == z.len }

theorem Begun.goTo {r : Strm} {l : List Field} {d : List (Nat × Nat)} {fl : List Nat} (h : Begun s u c q z r l d fl) (hc : z.c = c)
    (hq : z.q = q) (p : Nat) : Begun s (u.goTo z p) c q z (r.at z p) l d fl := by
  subst hc hq
  have e : u.goTo z p = u.setStrm z.c z.q z.st (r.at z p) := by rw [State.goTo, h.strm]; rfl
  rw [e]
  exact h.setStrm _

theorem advance_flags (u : State) (z : Site) : (u.advance z).flags = u.flags := by
  unfold State.advance
  dsimp only
  split <;> rfl

/-- A GUARD reads its flag with its own wait taken. -/
theorem guard_flag (h : Issues s C Q st op z) (f : Nat) : ((s.fresh.takeWait z).advance z).kFlag z.k f = (s.takeWait z).kFlag z.k f := by
  obtain ⟨hC, hQ, hst, ht, hr⟩ := h.shows
  have hw : (s.fresh.takeWait z).flags = (s.takeWait z).flags := by
    rw [takeWait_eq (s := s.fresh) hr, takeWait_eq hr]
    split <;> rfl
  rw [kFlag_runs ((Begun.of_issues h).runsOn hr (by simp)), kFlag_runs ((Begun.waitTaken hr (hst ▸ ht)).runsOn hr (by simp)), State.flag,
    advance_flags, hw, State.flag]

theorem boundary_checks (h : s.boundary z p = true) : failIf (!s.boundary z p) 0x2070 = [] := failIf_eq_nil (by rw [h]; rfl) _

theorem guard_gives (h : Issues s C Q st 0x02 z) (hn : z.t.ops = []) (hb : s.boundary z (guardTarget z) = true) :
    Gives (.guardInstr C Q st) s fun t => ControlIssued s t C Q z
      (if (s.takeWait z).kFlag z.k (bits z.i.head 33 28) then z.after s else (z.after s).at z (guardTarget z).toNat) := by
  obtain ⟨hC, hQ, -, -, -⟩ := h.shows
  have hbusy : (!z.t.ops.isEmpty) = false := by rw [hn]; rfl
  have hg := Begun.of_issues h
  obtain ⟨e, hi⟩ := controlRow_gives (cmd := .guardInstr C Q st) (busy := fun z _ => !z.t.ops.isEmpty)
    (body := fun z s => if s.kFlag z.k (bits z.i.head 33 28) then s else s.goTo z (guardTarget z).toNat)
    (r := if (s.takeWait z).kFlag z.k (bits z.i.head 33 28) then z.after s else (z.after s).at z (guardTarget z).toNat)
    rfl h (beq_iff_eq.mpr h.2.2.1) (boundary_checks hb) hbusy
    (by rw [guard_flag h]; split; exacts [hg, hg.goTo hC hQ _]) (by split <;> rfl) (by split <;> rfl)
  exact gives_of_eq e hi

theorem guard_holds (h : Issues s C Q st 0x02 z) (hn : z.t.ops ≠ []) (hb : s.boundary z (guardTarget z) = true) :
    Gives (.guardInstr C Q st) s fun t => Holds s t C Q z := by
  have hbusy : (!z.t.ops.isEmpty) = true := by simpa using hn
  exact gives_of_eq (congrArg Host.Outcome.next ((issue_of_issues h (boundary_checks hb) _ _).trans (if_pos hbusy))) (holds_of_issues h)

theorem jump_gives (h : Issues s C Q st 0x03 z) (hb : s.boundary z (jumpTarget z) = true) :
    Gives (.jump C Q st) s fun t => ControlIssued s t C Q z
      (if jumpTaken z then (z.after s).at z (jumpTarget z).toNat else z.after s) := by
  obtain ⟨hC, hQ, -, -, -⟩ := h.shows
  have hg := Begun.of_issues h
  obtain ⟨e, hi⟩ := controlRow_gives (cmd := .jump C Q st) (busy := never)
    (body := fun z s => if jumpTaken z then s.goTo z (jumpTarget z).toNat else s)
    (r := if jumpTaken z then (z.after s).at z (jumpTarget z).toNat else z.after s)
    rfl h (beq_iff_eq.mpr h.2.2.1) (boundary_checks hb) rfl
    (by split; exacts [hg.goTo hC hQ _, hg]) (by split <;> rfl) (by split <;> rfl)
  exact gives_of_eq e hi

/-- A JUMP to no boundary is skipped with INC_JUMP. -/
theorem jump_skips (h : Issues s C Q st 0x03 z) (hb : s.boundary z (jumpTarget z) = false) (hl : s.cget z.k 0x31 < (s.ctx z.k).skipLimit) :
    Gives (.jump C Q st) s fun t => StrmKept (t.stopping z.k) (t.strm C Q st) (z.after s) ∧
      t.cget z.k 0x31 = min 65535 (s.cget z.k 0x31 + 1) := by
  obtain ⟨-, -, hst, -, hr⟩ := h.shows
  obtain ⟨hsite, hfetch, hop, hill, hwait, hcommon⟩ := h
  have hc : leastCode (s.fresh.commonChecks z ++ failIf (!s.fresh.boundary z (jumpTarget z)) 0x2070) = some 0x2070 := by
    rw [show s.fresh.commonChecks z = [] from hcommon, show s.fresh.boundary z (jumpTarget z) = false from hb]
    rfl
  have e := issue_inconsistent (want := isOp 0x03) hsite (beq_iff_eq.mpr hop) hfetch (fun z s => failIf (!s.boundary z (jumpTarget z)) 0x2070) never
    (fun z s => (if jumpTaken z then s.goTo z (jumpTarget z).toNat else s).pushDone z) hill hwait hc
  obtain ⟨hstrm, -, hn, -, -⟩ := skipped_shows (Begun.of_issues ⟨hsite, hfetch, hop, hill, hwait, hcommon⟩) hr
    (runner_lt (s := s.fresh) (site_shows hsite).2.2.2.2) hl 0x2070
  exact gives_of_eq (congrArg Host.Outcome.next e) ⟨hst ▸ hstrm, hn⟩

end Branches

/-- Settles O28: FLAG by `flagSet_shows` and `flagClear_shows`, GUARD by `guard_gives` and `guard_holds`, JUMP by `jump_gives` and `jump_skips`. -/
theorem flagsGuardsAndJumps : Obligations.FlagsGuardsAndJumps := by
  intro s c q st z i f
  have flagOf {cl : Bool} (h : Issues s c q st 0x01 z) (hb : (bits i 29 28 == 1) = cl) : flagRow cl z.i st = true := by
    simp [flagRow, h.2.2.1, i] at hb ⊢
    exact hb
  refine ⟨fun h hn => ⟨fun h0 => ?_, fun h1 hne => ?_⟩, guard_gives, guard_holds, jump_gives, jump_skips⟩
  · obtain ⟨e, hi⟩ := controlRow_gives (cmd := .flagSet c q st) (checks := noChecks) (busy := never) (body := fun _ s => s) rfl h
      (flagOf h (by rw [h0]; rfl)) rfl rfl (Begun.of_issues h) rfl rfl
    obtain ⟨u, hu, hflag⟩ := flag_pushDone h hn
    exact gives_of_eq e ⟨hi, (hflag f).trans (flagSet_shows hu h.2.2.1 h0)⟩
  · obtain ⟨e, hi⟩ := controlRow_gives (cmd := .flagClear c q st) (checks := noChecks) (busy := never) (body := fun _ s => s) rfl h
      (flagOf h (by rw [h1]; rfl)) rfl rfl (Begun.of_issues h) rfl rfl
    obtain ⟨u, hu, hflag⟩ := flag_pushDone h hn
    exact gives_of_eq e ⟨hi, (hflag f).trans (flagClear_shows hu h.2.2.1 h1 hne)⟩

end Sys2Proof.Machine

/-! PROOFS. DLD, DST, PUT, SPUT, GET, AADD, RFLAG and FENCE as they issue: the hold for END in strict mode, the target taken at issue, and
a FENCE with nothing before it (R180, R192, R216, R231, R247, R252, R259, R263, R280). -/

namespace Sys2Proof.Machine

section Remote

variable {s u v : State} {k c q w : Nat} {z : Site} {r : Strm} {l : List Field} {d : List (Nat × Nat)} {fl : List Nat}

/-! ### Reads that change nothing -/

/-- What a local read of a state without latent errors depends on. -/
structure ReadsAlike (s u : State) : Prop where
  mem : u.mem = s.mem
  poison : u.poison = s.poison
  windows : u.windows = s.windows
  ctxs : u.ctxs = s.ctxs
  ecc : u.ecc = s.ecc
  places : ∀ j, u.cget j 1 = s.cget j 1 ∧ u.cget j 7 = s.cget j 7

namespace ReadsAlike

theorem ctx (h : ReadsAlike s u) (k : Nat) : u.ctx k = s.ctx k := congrArg (KV.get Ctx.zero · k) h.ctxs

theorem spm (h : ReadsAlike s u) (c w : Nat) : (u.spm c w, u.spmPoison c w) = (s.spm c w, s.spmPoison c w) := by
  rw [spm_congr h.mem, State.spmPoison, State.wordPoison, h.poison, State.spmPoison, State.wordPoison]

theorem kWord (h : ReadsAlike s u) (k w : Nat) : u.kWord k w = s.kWord k w := by
  have ht : (u.ctx k).tearCore = (s.ctx k).tearCore := by rw [h.ctx]
  rw [State.kWord, isLive_congr (h.places k).1 (h.places k).2 ht, ccore_congr (h.places k).1 (h.places k).2 ht, h.spm, State.saved, h.ctx,
    State.kWord, State.saved]

theorem matchWindow (h : ReadsAlike s u) (c unit right a : Nat) : u.matchWindow c unit right a = s.matchWindow c unit right a := by
  unfold State.matchWindow State.win
  rw [h.windows]

end ReadsAlike

theorem matchedRead_clean (he : s.ecc = []) (c unit w : Nat) :
    s.matchedRead c unit w = (s.matchWindow c unit rGet w).map fun n => (s.kWord (wnOwner (s.win c n)) w, s) := by
  unfold State.matchedRead
  simp only [readK_clean s _ _ he]

/-- A read that no window admits is reported, so that it changes the state. -/
theorem rep_ne (s : State) (code unit : Nat) : s.rep code unit ≠ s := by
  intro h
  have hn : (s.rep code unit).dget 0x2800 0x03 = (s.dget 0x2800 0x03 + 1) % 2 ^ 32 := report_counts ..
  rw [h] at hn
  omega

/-- A read that changes nothing answers the same in a state that reads alike, and changes nothing there. -/
theorem localRead_alike (h : ReadsAlike s u) (he : s.ecc = []) (hs : (s.localRead k c w).2 = s) :
    u.localRead k c w = ((s.localRead k c w).1, u) := by
  have heu : u.ecc = [] := h.ecc.trans he
  by_cases ho : (s.ctx k).ownsWord w = true
  · rw [localRead_owned (s := u) (by rw [h.ctx]; exact ho) heu, localRead_owned ho he, h.spm]
  · have hou : ¬ (u.ctx k).ownsWord w = true := by rw [h.ctx]; exact ho
    unfold State.localRead at hs ⊢
    rw [if_neg ho, matchedRead_clean he] at hs
    rw [if_neg hou, if_neg ho, matchedRead_clean heu, matchedRead_clean he, h.matchWindow]
    cases hm : s.matchWindow c c rGet w with
    | none =>
      rw [hm] at hs
      exact absurd hs (rep_ne s _ _)
    | some n =>
      dsimp only [Option.map_some]
      rw [h.kWord, State.win, h.windows]
      rfl

/-- A stream that has moved reads alike. -/
theorem Begun.readsAlike (h : Begun s u c q z r [] [] fl) : ReadsAlike s.fresh u where
  mem := h.same .mem (by decide)
  poison := h.same .poison (by decide)
  windows := h.same .windows (by decide)
  ctxs := h.same .ctxs (by decide)
  ecc := h.same .ecc (by decide)
  places j := ⟨h.entries _ 1 (by decide) (by simp), h.entries _ 7 (by decide) (by simp)⟩

/-! ### Staging (R259, R280) -/

theorem Begun.dbump (h : Begun s u c q z r l d fl) {i b : Nat} (hd : (i, b) ∈ d) (hb : b < 256) (hn : (i, b) ≠ (0x2500, 0x4A))
    (ho : (i, b) ≠ (0x2500, 0x05)) : Begun s (u.dbump i b) c q z r l d fl :=
  { same := h.same.step (.dbump u i b) (by simp)
    entries := h.entries.trans ((DictBut.dbump u i b hb hn ho).mono (by simp [hd]))
    pairs := h.pairs
    pair := h.pair
    flags := h.flags }

variable {C : Fin 8} {Q : Fin 4} {op : Nat}

/-- In strict mode a transfer of an LC context's frame program is held. -/
def State.holdsStaging (s : State) (k : Nat) : Bool := s.strict && s.isLC k

theorem Begun.holdsStaging (h : Begun s u c q z r [] [] fl) : u.holdsStaging z.k = s.holdsStaging z.k := by
  have h₁ : u.strict = s.strict := congrArg (· == 1) (h.entries 0x2900 0x01 (by decide) (by simp))
  have h₂ : u.isLC z.k = s.isLC z.k := congrArg (· == 1) (h.cget (by decide) (by decide) (by simp))
  rw [State.holdsStaging, h₁, h₂, State.holdsStaging]

theorem staging_issues (h : Issues s C Q .a op z) (hs : s.holdsStaging z.k = false) :
    let t := (pushStaging z ((s.fresh.takeWait z).advance z)).finishCheck z.k
    OpIssued s t C Q z (z.op z.t.nextSeq) ∧ IssueFrame s t C Q z [] [] z.waitClears := by
  have e : pushStaging z ((s.fresh.takeWait z).advance z) = ((s.fresh.takeWait z).advance z).pushOp z id :=
    if_neg (ne_true_of_eq_false ((Begun.of_issues h).holdsStaging.trans hs))
  rw [e]
  exact pushed_issues h id

theorem staging_held (h : Issues s C Q .a op z) (hs : s.holdsStaging z.k = true) :
    let t := (pushStaging z ((s.fresh.takeWait z).advance z)).finishCheck z.k
    OpIssued s t C Q z { z.op z.t.nextSeq with held := true } ∧ t.dget 0x2900 0x16 = (s.dget 0x2900 0x16 + 1) % 2 ^ 32 ∧
      IssueFrame s t C Q z [] [(0x2900, 0x16)] z.waitClears := by
  have hp := Begun.pushed h fun o => { o with held := true }
  have e : pushStaging z ((s.fresh.takeWait z).advance z) =
      (((s.fresh.takeWait z).advance z).pushOp z fun o => { o with held := true }).dbump 0x2900 0x16 :=
    if_pos ((Begun.of_issues h).holdsStaging.trans hs)
  have hb := (hp.mono (m := []) (d' := [(0x2900, 0x16)]) (by simp) (by simp) fun _ => id).dbump (i := 0x2900) (b := 0x16) (by simp)
    (by decide) (by decide) (by decide)
  rw [e]
  refine ⟨opIssued_finishCheck hb, ?_, hb.issueFrame (by decide)⟩
  rw [dget_of_sameBut (finishCheck_same _ z.k) (by decide), ← hp.entries 0x2900 0x16 (by decide) (by simp)]
  exact State.dget_dset_same ..

/-! ### Targets (R216, R263) -/

/-- An SPUT begins a transfer of its own: what failed under its tag before is forgotten. -/
def State.tagCleared (s : State) (z : Site) : State :=
  { s with sputBad := s.sputBad.filter fun b => b != (z.c, z.k, z.q, (s.strm z.c z.q z.st).nextSeq % 65536) }

theorem SameBut.tagCleared (s : State) (z : Site) : SameBut [.sputBad] s (s.tagCleared z) := by
  intro f hf
  cases f
  case sputBad => exact absurd (by decide) hf
  all_goals rfl

/-- A remote instruction whose target record is not poisoned, and reads without a trace, takes its target. -/
theorem pushRemote_takes {tg : Target} (h : ReadsAlike s.fresh v) (he : s.ecc = [])
    (hr : tgtSource z.i.tgt = true → (s.fresh.localRead z.k z.c (bits z.i.tgt 38 18)).2 = s.fresh)
    (hp : s.fresh.targetPoison z = false) (ht : s.fresh.targetOf z = some tg) :
    pushRemote z v = (v.tagCleared z).pushOp z fun o => { o with target := tg } := by
  unfold State.targetPoison at hp
  unfold State.targetOf at ht
  unfold pushRemote State.targetPoison State.targetOf
  cases hsrc : tgtSource z.i.tgt with
  | false =>
    simp only [hsrc, Bool.false_and, Bool.false_eq_true, if_false] at ht ⊢
    simp only [ht, Option.getD_some]
    rfl
  | true =>
    have hv := localRead_alike h (s := s.fresh) he (hr hsrc)
    simp only [hsrc, Bool.true_and, if_true] at hp ht ⊢
    simp only [hv, hp, ht, Bool.false_eq_true, if_false, Option.getD_some]
    rfl

theorem remote_issues {tg : Target} (h : Issues s C Q .a op z) (he : s.ecc = [])
    (hr : tgtSource z.i.tgt = true → (s.fresh.localRead z.k C (bits z.i.tgt 38 18)).2 = s.fresh)
    (hp : s.fresh.targetPoison z = false) (ht : s.fresh.targetOf z = some tg) :
    let t := (pushRemote z ((s.fresh.takeWait z).advance z)).finishCheck z.k
    OpIssued s t C Q z { z.op z.t.nextSeq with target := tg } ∧ IssueFrame s t C Q z [.sputBad] [] z.waitClears := by
  obtain ⟨hC, hQ, -, -, -⟩ := h.shows
  have hb := Begun.of_issues h
  have hc := ((hb.widen (m := [.sputBad]) (by simp)).other (.tagCleared _ z) (fun _ => id) (by decide)).pushOp hC hQ
    fun o => { o with target := tg }
  rw [pushRemote_takes hb.readsAlike he (hC ▸ hr) hp ht]
  exact ⟨opIssued_finishCheck hc, hc.issueFrame (by decide)⟩

/-! ### FENCE (R252) -/

theorem fence_issues (h : Issues s C Q .a 0x21 z) (hu : z.t.unitBusy .remote = false) : exec (.fence C Q) s = .next (
    (if z.t.remoteDone z.t.nextSeq then ((s.fresh.takeWait z).advance z).pushDone z
      else ((s.fresh.takeWait z).advance z).pushOp z id).finishCheck z.k) := by
  obtain ⟨hC, hQ, hst, -, -⟩ := h.shows
  have hstrm : ((s.fresh.takeWait z).advance z).strm z.c z.q z.st = z.after s := by rw [hC, hQ, (Begun.of_issues h).strm]
  refine congrArg Host.Outcome.next ((issueA_free (checks := noChecks) h rfl hu _).trans ?_)
  rw [hstrm]
  rfl

end Remote

/-- Settles O30: DLD and DST by `staging_issues` and `staging_held`, the remote instructions by `remote_issues`, FENCE by
`fence_issues`. -/
theorem stagingAndRemoteInstructionsIssue : Obligations.StagingAndRemoteInstructionsIssue := by
  intro s c q z C Q
  refine ⟨fun cmd op hm h hu hc => ?_, fun cmd op hm tg h hu hc hp ht he hr => ?_, fun h hu => ⟨fun hd => ?_, fun hd => ?_⟩⟩
  · have e : exec cmd s = .next (s.fresh.issueA C Q op .stager stagingChecks pushStaging) := by
      simp only [List.mem_cons, Prod.mk.injEq, List.not_mem_nil, or_false] at hm
      obtain ⟨rfl, rfl⟩ | ⟨rfl, rfl⟩ := hm <;> rfl
    rw [issueA_free h hc hu] at e
    exact ⟨fun hs => gives_of_eq e (staging_issues h hs), fun hs => gives_of_eq e (staging_held h hs)⟩
  · have e : exec cmd s = .next (s.fresh.issueA C Q op .remote remoteCheck pushRemote) := by
      simp only [List.mem_cons, Prod.mk.injEq, List.not_mem_nil, or_false] at hm
      obtain ⟨rfl, rfl⟩ | ⟨rfl, rfl⟩ | ⟨rfl, rfl⟩ | ⟨rfl, rfl⟩ | ⟨rfl, rfl⟩ := hm <;> rfl
    rw [issueA_free h hc hu] at e
    exact gives_of_eq e (remote_issues h he hr hp ht)
  · obtain ⟨hC, hQ, -, -, hr⟩ := h.shows
    exact gives_of_eq ((fence_issues h hu).trans (by rw [if_pos hd])) (pushDone_issued (Begun.of_issues h) hr hC hQ rfl rfl)
  · exact gives_of_eq ((fence_issues h hu).trans (by rw [if_neg (ne_true_of_eq_false hd)])) (pushed_issues h id)

end Sys2Proof.Machine

/-! PROOFS. INSTRUCTION_COMPLETE: what becomes visible as an operation completes, the flags that it sets, and its place in the stream
(R180, R185, R217, R236). -/

namespace Sys2Proof.Machine

section Completion

variable {s u : State} {k c q : Nat} {o : Op}

/-! ### What becomes visible -/

/-- What is written by a context's own access, or to its window's owner, shows in no entry. -/
theorem dget_of_copy (h : SameBut copyFields s u) (i b : Nat) : u.dget i b = s.dget i b :=
  dget_congr (h .dict (by decide)) (h .fuses (by decide)) (errorRegister_congr (h .dict (by decide)) (h .safeState (by decide))
    (h .busOffRecent (by decide)) (h .logOpen (by decide))) i b

theorem cget_localWrite (s : State) (hk : k < 64) (m w : Nat) (x : SWord) (p : Bool) {b : Nat} (hb : b < 256) :
    (s.localWrite m c w x p).cget k b = s.cget k b := by
  unfold State.localWrite
  split
  · rfl
  · split
    · rename_i e
      obtain ⟨n, -, rfl⟩ := Option.map_eq_some_iff.mp e
      exact dget_of_copy (.kSetWord s _ w x p) _ _
    · exact cget_logged (.rep ..) hk hb

/-- The bytes that an MDIGEST has gathered, as their digest. -/
def Op.digest (o : Op) : SWord := wordOfBytes (sha256 ((o.buf.map fun x => bytesOfWord x.data).flatten))

theorem completeEffects_plain (s : State) (k c : Nat) (h : Insn.op o.words ≠ 0x27) : s.completeEffects k c o = s :=
  if_neg (by simp [h])

theorem completeEffects_digest (s : State) (k c : Nat) (h : Insn.op o.words = 0x27) (hs : o.skipped = false) :
    s.completeEffects k c o = s.localWrite k c (bits (Insn.w o.words 1) 20 0) o.digest false :=
  if_pos (by simp [h, hs])

/-- What becomes visible moves no stream, and the context still runs. -/
theorem completeEffects_kept (hr : RunsOn s k c) (hk : k < 64) (o : Op) :
    RunsOn (s.completeEffects k c o) k c ∧ (s.completeEffects k c o).pairs = s.pairs := by
  unfold State.completeEffects
  split
  · exact ⟨hr.of_cget (cget_localWrite s hk _ _ _ _ (by decide)) (cget_localWrite s hk _ _ _ _ (by decide)),
      localWrite_same s _ _ _ _ _ .pairs (by decide)⟩
  · exact ⟨hr, rfl⟩

/-! ### The flags of an operation, and its end -/

theorem kSetFlag_runs_same (hr : RunsOn u k c) (f : Nat) : SameBut [.flags, .overruns, .dict] u (u.kSetFlag k f) := by
  rw [kSetFlag_runs hr]
  exact .ite ((SameBut.overran u k f).mono (by decide)) ((SameBut.putFlag u c f true).mono (by decide))

/-- The done flag of an operation, set as it completes. -/
def State.doneSet (u : State) (k : Nat) (o : Op) : State :=
  match Insn.doneFlag o.words with
  | some f => if o.skipped then u else u.kSetFlag k f
  | none => u

/-- The operation of a stream is complete: its done flag is set, and what is complete at the stream's head retires. -/
def State.finishes (u : State) (k c q : Nat) (o : Op) : State :=
  ((u.setStrm c q .a ((u.strm c q .a).mapOp o.seq fun o => { o with complete := true })).doneSet k o).retire k q .a

theorem doneSet_shows (hr : RunsOn u k c) (hs : o.skipped = false) : RunsOn (u.doneSet k o) k c ∧
    SameBut [.flags, .overruns, .dict] u (u.doneSet k o) ∧ ∀ f, Insn.doneFlag o.words = some f → (u.doneSet k o).flag c f = true := by
  unfold State.doneSet
  cases Insn.doneFlag o.words with
  | none => exact ⟨hr, .refl _ u, fun _ h => (Option.some_ne_none _ h.symm).elim⟩
  | some f =>
    simp only [hs, Bool.false_eq_true, if_false]
    exact ⟨hr.kSetFlag f, kSetFlag_runs_same hr f, fun g hg => Option.some.inj hg ▸ flag_kSetFlag hr f⟩

/-- An operation that is not skipped and is no FLAG does to flags what its set field says. -/
theorem applySets_plain (u : State) (k : Nat) (hs : o.skipped = false) (hop : Insn.op o.words ≠ 0x01) :
    u.applySets k o = if Insn.setOn o.words then u.kSetFlag k (Insn.setFlag o.words) else u := by
  unfold State.applySets
  simp only [hs, hop, Bool.false_eq_true, if_false]

theorem applySets_shows (hr : RunsOn u k c) (hs : o.skipped = false) (hop : Insn.op o.words ≠ 0x01) : let t := u.applySets k o
    SameBut [.flags, .overruns, .dict] u t ∧ (∀ f, u.flag c f = true → t.flag c f = true) ∧
      (Insn.setOn o.words = true → t.flag c (Insn.setFlag o.words) = true) := by
  intro t
  rw [show t = _ from applySets_plain u k hs hop]
  split
  · exact ⟨kSetFlag_runs_same hr _, fun _ h => flag_kSetFlag_of hr h, fun _ => flag_kSetFlag hr _⟩
  · rename_i hn
    exact ⟨.refl _ u, fun _ => id, fun h => absurd h hn⟩

/-- A stream's only operation completes, and retires with its flags set. -/
theorem finishes_shows (hr : RunsOn u k c) (ho : (u.strm c q .a).ops = [o]) (hs : o.skipped = false) (hop : Insn.op o.words ≠ 0x01) :
    let t := u.finishes k c q o
    (t.strm c q .a).ops = [] ∧ (∀ f, Insn.doneFlag o.words = some f → t.flag c f = true) ∧
      (Insn.setOn o.words = true → t.flag c (Insn.setFlag o.words) = true) ∧ SameBut [.pairs, .flags, .overruns, .dict] u t := by
  have hmap : ((u.strm c q .a).mapOp o.seq fun o => { o with complete := true }).ops = [{ o with complete := true }] := by
    simp [Strm.mapOp, ho]
  generalize hv : u.setStrm c q .a ((u.strm c q .a).mapOp o.seq fun o => { o with complete := true }) = v
  have hrv : RunsOn v k c := hv ▸ hr
  have huv : SameBut [.pairs] u v := hv ▸ .setPair u c q _
  obtain ⟨hrd, hsd, hfd⟩ := doneSet_shows hrv hs
  have hops : ((v.doneSet k o).strm c q .a).ops = [{ o with complete := true }] := by
    rw [State.strm, State.pair, hsd .pairs (by decide), ← hv, ← hmap]
    exact congrArg Strm.ops (State.strm_setStrm ..)
  intro t
  have ht : t = ((v.doneSet k o).setStrm c q .a { (v.doneSet k o).strm c q .a with ops := [] }).applySets k { o with complete := true } := by
    rw [← retire_single hrd hops rfl, ← hv]
    rfl
  generalize hw : (v.doneSet k o).setStrm c q .a { (v.doneSet k o).strm c q .a with ops := [] } = w at ht
  have hrw : RunsOn w k c := hw ▸ hrd
  have hvw : SameBut [.pairs] (v.doneSet k o) w := hw ▸ .setPair (v.doneSet k o) c q _
  obtain ⟨hst, hkeep, hset⟩ := applySets_shows (o := { o with complete := true }) hrw hs hop
  rw [← ht] at hst hkeep hset
  refine ⟨?_, fun f hf => hkeep f ?_, hset, ?_⟩
  · rw [State.strm, State.pair, hst .pairs (by decide), ← hw]
    exact congrArg Strm.ops (State.strm_setStrm ..)
  · rw [State.flag, hvw .flags (by decide)]
    exact hfd f hf
  · exact (((huv.mono (by decide)).step hsd (by decide)).step hvw (by decide)).step hst (by decide)

/-- The row for a stream with one operation that has run and waits for no answer. -/
theorem instructionComplete_single (hr : s.runner c q = some k) (ho : (s.strm c q .a).ops = [o]) (hran : o.ran = true)
    (hc : o.complete = false) (hout : (s.pair c q).outstanding = []) :
    s.instructionComplete c q .a = ((s.completeEffects k c o).finishes k c q o).finishCheck k := by
  have ho' : ((s.pair c q).strm .a).ops = [o] := ho
  have hf : [o].find? (fun o => o.ran && !o.complete && !(s.pair c q).outstanding.any fun x => x.op == o.seq) = some o := by
    simp [hran, hc, hout]
  unfold State.instructionComplete
  simp only [hr, ho', hf]
  rfl

end Completion

end Sys2Proof.Machine

/-! PROOFS. The stall monitor's teardown, and a context that stops at its marks (R195, R199, R200, R314, R331). -/

namespace Sys2Proof.Machine

section Stalls

variable {s t u : State} {k m c q cause : Nat} {b : Bool} {i : StreamId}

/-! ### A teardown starts (R314, R331) -/

/-- The entries that a context's teardown writes as it starts. -/
def tearEntries (m : Nat) : List (Nat × Nat) := [(0x2500, 0x33), (0x2600 + m, 0x1B), (0x2600 + m, 1), (0x2600 + m, 7)]

theorem DictBut.cset (s : State) (k : Nat) {b : Nat} (hb : b < 256) (v : Nat) : DictBut [(0x2600 + k, b)] s (s.cset k b v) :=
  .dset s _ b v hb (by simp; omega) (by simp; omega)

theorem DictBut.setWaiting (s : State) (l : List Nat) : DictBut [(0x2500, 0x33)] s (s.setWaiting l) :=
  DictBut.trans (t := { s with waiting := l }) (.of_same rfl rfl rfl) (.dset _ _ _ _ (by decide) (by decide) (by decide))

theorem DictBut.setCtx {d : List (Nat × Nat)} (s : State) (k : Nat) (x : Ctx) : DictBut d s (s.setCtx k x) := .of_same rfl rfl rfl

theorem DictBut.ite {d : List (Nat × Nat)} {p : Prop} {_ : Decidable p} (h : DictBut d s t) (h' : DictBut d s u) :
    DictBut d s (if p then t else u) := by
  split
  · exact h
  · exact h'

theorem tearOne_dict (s : State) (m cause : Nat) : DictBut (tearEntries m) s (s.tearOne m cause) := by
  unfold State.tearOne
  extract_lets x s₁ s₂ s₃
  refine .ite (.refl _ s) (.ite (.setCtx s m _) ?_)
  have h₁ : DictBut (tearEntries m) s s₁ := .ite (.of_sameBut (ctxFault_same s m cause false) (by decide)) (.refl _ s)
  have h₂ : DictBut (tearEntries m) s s₂ := (h₁.trans ((DictBut.cset s₁ m (by decide) _).mono (by simp [tearEntries]))).trans (.setCtx _ m _)
  have h₃ : DictBut (tearEntries m) s s₃ := h₂.trans ((DictBut.setWaiting s₂ _).mono (by simp [tearEntries]))
  exact (h₃.trans ((DictBut.cset s₃ m (by decide) _).mono (by simp [tearEntries]))).trans
    ((DictBut.cset _ m (by decide) _).mono (by simp [tearEntries]))

theorem cget_tearOne_ne (s : State) (h : k ≠ m) {b : Nat} (hb : b < 256) (cause : Nat) : (s.tearOne m cause).cget k b = s.cget k b :=
  tearOne_dict s m cause _ b hb (by
    simp only [tearEntries, List.mem_cons, Prod.mk.injEq, List.not_mem_nil, or_false]
    omega)

/-- A running context whose teardown starts is in state 6 with the cause recorded. -/
theorem tearOne_running (h : s.cstate k = csRunning) (cause : Nat) :
    (s.tearOne k cause).cstate k = csTearing ∧ (s.tearOne k cause).cget k 0x1B = cause := by
  unfold State.tearOne
  rw [if_neg (by rw [h]; decide), if_neg (by rw [h]; decide)]
  generalize (if s.tearFaults k then s.ctxFault k cause false else s) = v
  generalize hw : (v.cset k 0x1B cause).setCtx k { s.ctx k with move := .tearing, cause := cause, dest := none, tearCore := v.ccore k } = w
  have hc : w.cget k 0x1B = cause := hw ▸ cget_cset_same v k 0x1B cause
  have hq : (w.setWaiting (w.waiting.filter (· != k))).cget k 0x1B = cause := (DictBut.setWaiting w _ _ 0x1B (by decide) (by simp)).trans hc
  rw [State.cstate]
  dsimp only
  rw [hw, cget_cset_ne _ (by decide) (by decide) (by decide), cget_cset_same, cget_cset_ne _ (by decide) (by decide) (by decide),
    cget_cset_ne _ (by decide) (by decide) (by decide)]
  exact ⟨rfl, hq⟩

/-- The teardown of a context takes its group with it, and leaves what it wrote of the context itself. -/
theorem startTeardown_running (hk : k < 64) (h : s.cstate k = csRunning) (cause : Nat) :
    (s.startTeardown k cause).cstate k = csTearing ∧ (s.startTeardown k cause).cget k 0x1B = cause := by
  unfold State.startTeardown
  extract_lets fresh mates u
  have hne : ∀ m ∈ mates, k ≠ m := by
    intro m hm
    simp only [mates, State.groupMates] at hm
    split_ifs at hm
    · simp at hm
    · simp at hm
    · simp only [List.mem_filter, Bool.and_eq_true, bne_iff_ne] at hm
      exact hm.2.1.1.symm
  have hu : u.cstate k = csTearing ∧ u.cget k 0x1B = cause := tearOne_running h cause
  clear_value u mates
  induction mates generalizing u with
  | nil => exact hu
  | cons m l ih =>
    rw [List.forall_mem_cons] at hne
    have hget {b : Nat} (hb : b < 256) : (if (u.cstate m != csTearing) = true then
        (u.tearOne m cause).report cause (ucCtx m) (ucCtx k) [] (u.tearFaults m) else u.tearOne m cause).cget k b = u.cget k b := by
      split
      · exact (cget_logged (.report ..) hk hb).trans (cget_tearOne_ne u hne.1 hb cause)
      · exact cget_tearOne_ne u hne.1 hb cause
    exact ih _ hne.2 ⟨(hget (by decide)).trans hu.1, (hget (by decide)).trans hu.2⟩

/-! ### The stall monitor (R195) -/

/-- What the stall monitor waits for. -/
def State.stalled (s : State) (k : Nat) : Bool :=
  s.cstate k = csRunning && (s.runner (s.ccore k) (s.ctx k).o) = some k && s.cget k 0x40 ≠ 2 && stallLimit ≤ (s.ctx k).stall && s.crossBlocked k

theorem crossWait_tears (hk : k < 64) (h : s.stalled k = true) :
    (s.crossWait k).cstate k = csTearing ∧ (s.crossWait k).cget k 0x1B = 0x200A := by
  have hrun : s.cstate k = csRunning := by
    simp only [State.stalled, Bool.and_eq_true, decide_eq_true_eq] at h
    exact h.1.1.1.1
  have e : s.crossWait k = ((s.reportCtx k 0x200A (ucPair (s.ccore k) (s.ctx k).o k) (ucPair (s.ccore k) (s.ctx k).o k)
      (s.crossDetail k)).noteDetail k (s.crossDetail k)).startTeardown k 0x200A := if_pos h
  rw [e]
  refine startTeardown_running hk ?_ 0x200A
  have hl : (s.reportCtx k 0x200A (ucPair (s.ccore k) (s.ctx k).o k) (ucPair (s.ccore k) (s.ctx k).o k)
      (s.crossDetail k)).cget k 1 = s.cget k 1 := cget_logged (.report ..) hk (by decide)
  have hn : ∀ u : State, (u.noteDetail k (s.crossDetail k)).cget k 1 = u.cget k 1 := fun u => by
    unfold State.noteDetail
    split <;> rfl
  exact (hn _).trans (hl.trans hrun)

theorem crossWait_waits (h : s.stalled k = false) : s.crossWait k = s := if_neg (ne_true_of_eq_false h)

/-! ### What stops with a stream (R199) -/

theorem PairKept.outstanding {x y : Pair} (h : PairKept b x y) : x.outstanding = y.outstanding := by rw [h.1]

/-- Streams of some pairs have stopped; nothing else has changed. -/
structure Halted (b : Bool) (s u : State) : Prop where
  same : SameBut [.pairs] s u
  pairs : ∀ n, PairKept b (KV.get Pair.zero u.pairs n) (KV.get Pair.zero s.pairs n)

theorem stopCheck_halted (s : State) (k : Nat) : Halted (s.stopping k) s (s.stopCheck k) := ⟨stopCheck_same s k, stopCheck_pairs s k⟩

namespace Halted

variable (h : Halted b s u)
include h

theorem pair (c q : Nat) : PairKept b (u.pair c q) (s.pair c q) := h.pairs _

theorem ops (c q : Nat) (i : StreamId) : (u.strm c q i).ops = (s.strm c q i).ops := ((h.pair c q).strm i).ops

theorem stopped (c q : Nat) (i : StreamId) (hs : (s.strm c q i).stopped = true) : (u.strm c q i).stopped = true := by
  obtain e | ⟨-, e⟩ := (h.pair c q).strm i
  · exact (congrArg Strm.stopped e).trans hs
  · exact congrArg Strm.stopped e

theorem dget (i b : Nat) : u.dget i b = s.dget i b := dget_of_sameBut h.same (by decide) i b

theorem ctx (k : Nat) : u.ctx k = s.ctx k := congrArg (KV.get Ctx.zero · k) (h.same .ctxs (by decide))

theorem group (c a g : Nat) : u.group c a g = s.group c a g := group_congr (h.same .groups (by decide)) c a g

theorem split (c a : Nat) : u.split c a = s.split c a := congrArg (KV.get 0 · (arrKey c a)) (h.same .splits (by decide))

theorem cget (k b : Nat) : u.cget k b = s.cget k b := h.dget _ _

theorem ccore (k : Nat) : u.ccore k = s.ccore k := ccore_congr (h.cget k 1) (h.cget k 7) (by rw [h.ctx])

theorem isLive (k : Nat) : u.isLive k = s.isLive k := isLive_congr (h.cget k 1) (h.cget k 7) (by rw [h.ctx])

theorem kPair (k q : Nat) : (u.kPair k q).outstanding = (s.kPair k q).outstanding ∧ (u.kPair k q).sa.ops = (s.kPair k q).sa.ops := by
  rw [State.kPair, State.kPair, h.isLive, h.ccore, State.saved, h.ctx]
  split
  · exact ⟨(h.pair _ q).outstanding, ((h.pair _ q).strm .a).ops⟩
  · exact ⟨rfl, rfl⟩

theorem runner (c q : Nat) : u.runner c q = s.runner c q := by
  have ho : u.owner c q = s.owner c q := by simp only [State.owner, State.cstate, h.cget, h.ccore, h.ctx]
  unfold State.runner State.part
  rw [ho, h.same .parts (by decide), h.same .ringsOn (by decide)]
  simp only [h.ctx]

theorem quiet (k : Nat) : u.quiet k = s.quiet k := by simp only [State.quiet, h.ctx, (h.kPair k _).1, (h.kPair k _).2]

theorem groupHold (c a g : Nat) : u.groupHold c a g = s.groupHold c a g := by
  simp only [State.groupHold, h.group, (h.pair c _).oq, (h.pair c _).rq]

theorem loadHold (c a g : Nat) : u.loadHold c a g = s.loadHold c a g := by
  simp only [State.loadHold, h.group, h.groupHold, h.split, (h.pair c _).oq]

theorem groupsBlocked (k : Nat) : u.groupsBlocked k = s.groupsBlocked k := by
  simp only [State.groupsBlocked, h.ctx, h.ccore, h.group, h.groupHold, h.loadHold, h.split]

theorem opHold (c q : Nat) (o : Op) : u.opHold c q o = s.opHold c q o := by
  simp only [State.opHold, (h.pair c q).oq, (h.pair c q).rq]

theorem orderLimit (c q : Nat) (i : StreamId) (o : Op) : (u.strm c q i).orderLimit o = (s.strm c q i).orderLimit o := by
  simp only [Strm.orderLimit, Strm.earlier, h.ops]

theorem accessBlocked (k : Nat) : u.accessBlocked k = s.accessBlocked k := by
  simp only [State.accessBlocked, h.ctx, h.ccore, h.ops, h.opHold, h.orderLimit]

theorem closesBlocked (k : Nat) : u.closesBlocked k = s.closesBlocked k := by
  simp only [State.closesBlocked, h.ctx, h.ccore, h.group, slot_congr (h.same .slots (by decide))]

end Halted

/-! ### Stopped at mark (R200) -/

/-- The streams of a context that have not stopped. -/
def State.liveStreams (s : State) (k : Nat) : List (Nat × StreamId) :=
  (s.ctx k).streams.filter fun p => !(s.strm (s.ccore k) p.1 p.2).stopped

/-- The last stream that runs stops where it is locally blocked, so that all have. -/
theorem stopCheck_stops (hm : s.cget k 0x40 = 1) (hl : (s.liveStreams k).length ≤ 1)
    (hh : ∀ p ∈ s.liveStreams k, (s.holdOf (s.ccore k) p.1 p.2).isSome = true) :
    ∀ p ∈ (s.ctx k).streams, ((s.stopCheck k).strm (s.ccore k) p.1 p.2).stopped = true := by
  intro p hp
  by_cases hs : (s.strm (s.ccore k) p.1 p.2).stopped = true
  · exact (stopCheck_halted s k).stopped _ _ _ hs
  have hlive : p ∈ s.liveStreams k := List.mem_filter.mpr ⟨hp, by simpa using hs⟩
  obtain ⟨x, hx⟩ := List.length_eq_one_iff.mp (le_antisymm hl (List.length_pos_of_mem hlive))
  obtain rfl : p = x := by simpa [hx] using hlive
  have e : s.stopCheck k = s.setStrm (s.ccore k) p.1 p.2 { s.strm (s.ccore k) p.1 p.2 with stopped := true } := by
    have hf : (s.ctx k).streams.filter (fun p => !(s.strm (s.ccore k) p.1 p.2).stopped) = [p] := hx
    unfold State.stopCheck
    simp only [hm, ne_eq, not_true_eq_false, if_false, hf, hh p hlive, if_true]
  rw [e, State.strm_setStrm]

/-- What holds of a context that is stopped at mark. -/
def State.allStopped (s : State) (k : Nat) : Bool :=
  s.cstate k = csRunning && (s.runner (s.ccore k) (s.ctx k).o) = some k && s.cget k 0x40 = 1
    && (s.ctx k).streams.all (fun p => (s.strm (s.ccore k) p.1 p.2).stopped) && s.quiet k && s.groupsBlocked k && s.accessBlocked k
    && s.closesBlocked k

theorem statusCreator_same (s : State) (k code unit : Nat) (body : List Byte) : SameBut recordFields s (s.statusCreator k code unit body) := by
  unfold State.statusCreator
  split
  · exact hostRecord_same _ _ _ _ _ _ _ _
  · exact .refl _ s

theorem statusCreator_dict (s : State) (k code unit : Nat) (body : List Byte) :
    DictBut [(0x2500, 0x32)] s (s.statusCreator k code unit body) := by
  unfold State.statusCreator
  split
  · exact hostRecord_dictBut _ _ _ _ _ _ _ _
  · exact .refl _ s

/-- A context whose streams have all stopped, with nothing of it able to go on, shows that it is stopped at mark. -/
theorem stopReached_shows (h : (s.stopCheck k).allStopped k = true) : let t := s.stopReached k
    t.cget k 0x40 = 2 ∧ (∀ p ∈ (s.ctx k).streams, (t.strm (s.ccore k) p.1 p.2).stopped = true) ∧
      SameBut [.sent, .pairs, .dict, .hostMem, .portA, .portB] s t := by
  have hc := stopCheck_halted s k
  generalize hu : s.stopCheck k = u at h hc
  intro t
  have e : t = (u.cset k 0x40 2).statusCreator k 0x200E (ucPair (u.ccore k) (u.ctx k).o k) [] := by
    have : t = s.stopReached k := rfl
    rw [this]
    unfold State.stopReached
    dsimp only
    rw [hu]
    exact if_pos h
  have hs := statusCreator_same (u.cset k 0x40 2) k 0x200E (ucPair (u.ccore k) (u.ctx k).o k) []
  have hstop : ∀ p ∈ (s.ctx k).streams, (u.strm (s.ccore k) p.1 p.2).stopped = true := by
    simp only [State.allStopped, Bool.and_eq_true, List.all_eq_true] at h
    rw [← hc.ctx, ← hc.ccore]
    exact h.1.1.1.1.2
  rw [e]
  refine ⟨?_, fun p hp => ?_, ?_⟩
  · exact (statusCreator_dict _ _ _ _ _ _ 0x40 (by decide) (by simp)).trans (cget_cset_same u k 0x40 2)
  · rw [State.strm, State.pair, hs .pairs (by decide)]
    exact hstop p hp
  · exact ((hc.same.mono (by decide)).step (.dset u _ _ _) (by decide)).step hs (by decide)

end Stalls

/-- Settles O35: a completion by `instructionComplete_single` and `finishes_shows`, the stall monitor by `crossWait_tears` and
`crossWait_waits`, a stop at the marks by `stopCheck_stops` and `stopReached_shows`. -/
theorem instructionsCompleteAndSetTheirFlags : Obligations.InstructionsCompleteAndSetTheirFlags := by
  intro s
  refine ⟨?_, fun k => ?_⟩
  · intro c q k o C Q hr ho hran hc hs hout hop
    obtain ⟨hru, hpairs⟩ := completeEffects_kept (s := s.fresh) (runsOn_of_runner hr) (runner_lt hr) o
    have hou : ((s.fresh.completeEffects k C o).strm C Q .a).ops = [o] := by
      rw [State.strm, State.pair, hpairs]
      exact ho
    obtain ⟨hops, hdone, hset, hsame⟩ := finishes_shows hru hou hs hop
    have hfin := finishCheck_same ((s.fresh.completeEffects k C o).finishes k C Q o) k
    refine gives_of_eq (congrArg Host.Outcome.next (instructionComplete_single (s := s.fresh) hr ho hran hc hout))
      ⟨(finishCheck_ops ..).trans hops, fun f hf => (finishCheck_flag ..).trans (hdone f hf), fun h => (finishCheck_flag ..).trans (hset h),
        fun h27 hown => ?_, fun hne => ?_⟩
    · rw [spm_congr (hfin .mem (by decide)), spm_congr (hsame .mem (by decide)), completeEffects_digest _ _ _ h27 hs,
        localWrite_owned (s := s.fresh) hown, spm_setSpm_same, Op.digest]
    · rw [completeEffects_plain _ _ _ hne] at hsame hfin
      rw [completeEffects_plain _ _ _ hne]
      exact (((SameBut.fresh s).mono (by decide)).step hsame (by decide)).step hfin (by decide)
  intro K C hrun hr
  refine ⟨fun hm hl hb => ?_, fun h => ?_, ?_⟩
  · have h : s.fresh.stalled K = true := by
      simp only [State.stalled, Bool.and_eq_true, decide_eq_true_eq]
      exact ⟨⟨⟨⟨hrun, hr⟩, hm⟩, hl⟩, hb⟩
    exact ⟨_, rfl, crossWait_tears k.isLt h⟩
  · have hn : s.fresh.stalled K = false := by
      refine Bool.eq_false_iff.mpr fun hs => ?_
      simp only [State.stalled, Bool.and_eq_true, decide_eq_true_eq] at hs
      obtain ⟨⟨⟨-, hm⟩, hl⟩, hb⟩ := hs
      obtain h | h | h := h
      · exact hm h
      · exact absurd hl (not_le.mpr h)
      · exact Bool.false_ne_true (h.symm.trans hb)
    exact gives_of_eq (congrArg Host.Outcome.next (crossWait_waits hn)) (.fresh s)
  · intro live hm hl hh hq hg ha hc
    have hh' := stopCheck_halted s.fresh K
    have hall := stopCheck_stops (s := s.fresh) hm hl hh
    have h : (s.fresh.stopCheck K).allStopped K = true := by
      simp only [State.allStopped, Bool.and_eq_true, decide_eq_true_eq, List.all_eq_true, State.cstate, hh'.cget, hh'.ctx, hh'.ccore, hh'.runner,
        hh'.quiet, hh'.groupsBlocked, hh'.accessBlocked, hh'.closesBlocked]
      exact ⟨⟨⟨⟨⟨⟨⟨hrun, hr⟩, hm⟩, hall⟩, hq⟩, hg⟩, ha⟩, hc⟩
    obtain ⟨hmark, hstop, hsame⟩ := stopReached_shows h
    exact ⟨_, rfl, hmark, hstop, ((SameBut.fresh s).mono (by decide)).trans hsame⟩

end Sys2Proof.Machine

/-! PROOFS. What a read that finds latent errors may change, and what the drain of a column group keeps: the late-reply buffers, and
which stream pairs each context has (R234, R257, R261, R325). -/

namespace Sys2Proof.Machine

section Drain

variable {s t u : State} {k c a g w : Nat} {j : Job}

/-! ### A read of a word with latent errors -/

/-- What the response to an error that a read finds may change. -/
def touchFields : List Field :=
  resetFields ++ [.poison, .ecc, .safeState, .laterCauses, .safeOk, .faultN, .devReset, .devCause, .devLater, .aonLog, .aonCodes, .resetCause,
    .pwrEn, .wake, .lpExitBegun, .lpRails, .lpStuck, .bootDue]

theorem SameBut.pinsSafe (s : State) : SameBut [.safeOk, .faultN] s s.pinsSafe := by
  intro f hf
  cases f
  case safeOk | faultN => exact absurd (by decide) hf
  all_goals rfl

theorem SameBut.setEcc (s : State) (m : KV Nat) : SameBut [.ecc] s { s with ecc := m } := by
  intro f hf
  cases f
  case ecc => exact absurd (by decide) hf
  all_goals rfl

theorem SameBut.setPoisonEcc (s : State) (p : KV Bool) (m : KV Nat) : SameBut [.poison, .ecc] s { s with poison := p, ecc := m } := by
  intro f hf
  cases f
  case poison | ecc => exact absurd (by decide) hf
  all_goals rfl

theorem SameBut.setLaterCauses (s : State) (n : Nat) : SameBut [.laterCauses] s { s with laterCauses := n } := by
  intro f hf
  cases f
  case laterCauses => exact absurd (by decide) hf
  all_goals rfl

theorem SameBut.dclear (s : State) (i b : Nat) : SameBut [.dict] s (s.dclear i b) := by
  intro f hf
  cases f
  case dict => exact absurd (by decide) hf
  all_goals rfl

theorem SameBut.setDevLater (s : State) (n : Nat) : SameBut [.devLater] s { s with devLater := n } := by
  intro f hf
  cases f
  case devLater => exact absurd (by decide) hf
  all_goals rfl

theorem SameBut.setAonCodes (s : State) (l : List Nat) : SameBut [.aonCodes] s { s with aonCodes := l } := by
  intro f hf
  cases f
  case aonCodes => exact absurd (by decide) hf
  all_goals rfl

theorem setSafe_same (s : State) (v : Nat) : SameBut [.safeState, .dict] s (s.setSafe v) := by
  intro f hf
  cases f
  case safeState | dict => exact absurd (by decide) hf
  all_goals rfl

theorem startDevReset_same (s : State) (cause : Nat) (poreset : Bool) (detail : Nat) :
    SameBut touchFields s (s.startDevReset cause poreset detail) := by
  unfold State.startDevReset
  extract_lets later s₁ s₂
  have hl : SameBut touchFields s later := (SameBut.setDevLater s _).mono (by decide)
  have h₁ : SameBut touchFields s s₁ := ((SameBut.pinsSafe s).mono (by decide)).step (.dbump _ _ _) (by decide)
  have h₂ : SameBut touchFields s s₂ := (h₁.step (.dset s₁ _ _ _) (by decide)).step (.dclear _ _ _) (by decide)
  refine .ite (.ite (hl.step (.setAonCodes later _) (by decide)) (hl.step (Logged.rep ..).same (by decide))) (h₂.trans ?_)
  intro f hf
  cases f
  case devReset | devCause | resetCause | activity | testCap | pwrEn | wake | lpExitBegun | lpRails | lpStuck | bootDue | aonLog =>
    exact absurd (by decide) hf
  all_goals rfl

theorem enterSafe_same (s : State) (cause : Nat) (r : SafeReset) (poreset : Bool) :
    SameBut touchFields s (s.enterSafe cause r poreset) := by
  unfold State.enterSafe
  extract_lets cur s₁ s₂ s₃ s₄
  have h₁ : SameBut touchFields s s₁ := (SameBut.pinsSafe s).mono (by decide)
  have h₂ : SameBut touchFields s s₂ := h₁.step (setSafe_same s₁ _) (by decide)
  have h₃ : SameBut touchFields s s₃ := (h₂.step (.dset s₂ _ _ _) (by decide)).step (.dbump _ _ _) (by decide)
  have h₄ : SameBut touchFields s s₄ := h₃.step (Logged.report s₃ ..).same (by decide)
  have hl : SameBut touchFields s { s with laterCauses := s.laterCauses + 1 } := (SameBut.setLaterCauses s _).mono (by decide)
  cases r with
  | part p => exact .ite (h₄.step (startPartReset_same s₄ _ _ _ _ _) (by decide)) hl
  | device =>
    exact .ite (h₄.trans (startDevReset_same s₄ _ _ _)) (.ite (((setSafe_same s _).mono (by decide)).trans (startDevReset_same _ _ _ _))
      (hl.trans (startDevReset_same _ _ _ _)))

theorem reportUnc_same (s : State) (a : Nat) : SameBut logFields s (s.reportUnc a) := by
  unfold State.reportUnc
  split
  · exact (Logged.report ..).same
  · exact (Logged.report s ..).same.step (.dbump _ _ _) (by decide)
  · exact (Logged.report ..).same

theorem uncorrectable_same (s : State) (a : Nat) : SameBut touchFields s (s.uncorrectable a) := by
  have h : SameBut touchFields s (s.reportUnc a) := (reportUnc_same s a).mono (by decide)
  exact .ite (h.step (.setPoisonEcc _ _ _) (by decide)) (h.trans (enterSafe_same _ _ _ _))

theorem corrected_same (s : State) (a : Nat) : SameBut touchFields s (s.corrected a) := by
  unfold State.corrected
  extract_lets s₁
  have h : SameBut touchFields s s₁ := (SameBut.setEcc s _).mono (by decide)
  have hr (code unit i b : Nat) : SameBut touchFields s ((s₁.rep code unit).dbump i b) :=
    (h.step (Logged.rep ..).same (by decide)).step (.dbump _ _ _) (by decide)
  split
  · exact hr _ _ _ _
  · exact hr _ _ _ _
  · exact hr _ _ _ _

theorem touch_same (s : State) (a : Nat) : SameBut touchFields s (s.touch a) := by
  unfold State.touch
  refine .foldS (.refl _ s) fun x i => ?_
  split
  · exact .refl _ x
  · exact corrected_same x _
  · exact uncorrectable_same x _

/-! ### The drain of a group -/

/-- The late-reply buffers, and the stream pairs of each context, are as they were. -/
structure PlacesKept (s t : State) : Prop where
  late : t.late = s.late
  pairsOf : ∀ m, (t.ctx m).pairsOf = (s.ctx m).pairsOf

namespace PlacesKept

theorem refl (s : State) : PlacesKept s s := ⟨rfl, fun _ => rfl⟩

theorem trans (h : PlacesKept s t) (h' : PlacesKept t u) : PlacesKept s u :=
  ⟨h'.late.trans h.late, fun m => (h'.pairsOf m).trans (h.pairsOf m)⟩

/-- An update of other fields. -/
theorem of_same {l : List Field} (h : PlacesKept s t) (hs : SameBut l t u) (hl : ∀ f ∈ [Field.late, .ctxs], f ∉ l) : PlacesKept s u :=
  h.trans ⟨hs .late (hl _ (by decide)), fun m => by rw [State.ctx, hs .ctxs (hl _ (by decide)), State.ctx]⟩

theorem setCtx {x : Ctx} (h : PlacesKept s t) (hx : x.pairsOf = (t.ctx k).pairsOf) : PlacesKept s (t.setCtx k x) := by
  refine h.trans ⟨rfl, fun m => ?_⟩
  by_cases hm : m = k
  · rw [hm, State.ctx_setCtx, hx]
  · rw [State.ctx_setCtx_ne _ _ _ _ hm]

theorem ite {p : Prop} {_ : Decidable p} (h : PlacesKept s t) (h' : PlacesKept s u) : PlacesKept s (if p then t else u) := by
  split
  · exact h
  · exact h'

theorem ite_snd {α : Type} {p : Prop} {_ : Decidable p} {x y : α × State} (h : PlacesKept s x.2) (h' : PlacesKept s y.2) :
    PlacesKept s (if p then x else y).2 := by
  split
  · exact h
  · exact h'

theorem foldS {α : Type} {as : List α} {f : State → α → State} (h : PlacesKept s t)
    (hf : ∀ x a, PlacesKept s x → PlacesKept s (f x a)) : PlacesKept s (foldS as f t) := by
  induction as generalizing t with
  | nil => exact h
  | cons a as ih => exact ih (hf t a h)

theorem setPair {q : Nat} {p : Pair} (h : PlacesKept s t) : PlacesKept s (t.setPair c q p) := h.of_same (.setPair t c q p) (by decide)

theorem setSlot {q i : Nat} {v : ScaleSlot} (h : PlacesKept s t) : PlacesKept s (t.setSlot c q i v) :=
  h.of_same (.setSlot t c q i v) (by decide)

theorem setAcc {e n : Nat} {v : Acc} (h : PlacesKept s t) : PlacesKept s (t.setAcc c a e n v) := h.of_same (.setAcc t c a e n v) (by decide)

theorem rep {code unit : Nat} (h : PlacesKept s t) : PlacesKept s (t.rep code unit) := h.of_same (Logged.rep ..).same (by decide)

/-- A word written to the save area leaves a context its pairs. -/
theorem kSetWord {v : SWord} {b : Bool} (h : PlacesKept s t) : PlacesKept s (t.kSetWord k w v b) :=
  .ite (h.of_same (.setSpm t _ w v b) (by decide)) (.ite (h.setCtx rfl) h)

theorem localWrite {v : SWord} {b : Bool} (h : PlacesKept s t) : PlacesKept s (t.localWrite k c w v b) := by
  unfold State.localWrite
  refine .ite (h.of_same (.setSpm t c w v b) (by decide)) ?_
  split
  · rename_i e
    obtain ⟨n, -, rfl⟩ := Option.map_eq_some_iff.mp e
    exact h.kSetWord
  · exact h.rep

theorem touch {x : Nat} (h : PlacesKept s t) : PlacesKept s (t.touch x) := h.of_same (touch_same t x) (by decide)

theorem readK (h : PlacesKept s t) : PlacesKept s (t.readK k w).2 := .ite h.touch h

theorem localRead (h : PlacesKept s t) : PlacesKept s (t.localRead k c w).2 := by
  unfold State.localRead
  refine .ite_snd h.touch ?_
  split
  · rename_i e
    obtain ⟨n, -, rfl⟩ := Option.map_eq_some_iff.mp e
    exact h.readK
  · exact h.rep

theorem laneReport {slot code : Nat} {detail : List Byte} (h : PlacesKept s t) : PlacesKept s (t.laneReport k c a g slot code detail) := by
  unfold State.laneReport
  extract_lets s₁ s₂
  have h₁ : PlacesKept s s₁ := h.of_same (Logged.report ..).same (by decide)
  have h₂ : PlacesKept s s₂ := by
    unfold s₂
    split
    · exact h₁.of_same (.dbump s₁ _ _) (by decide)
    · exact h₁
  exact .ite (h₂.of_same (ctxDegrade_same s₂ k code) (by decide)) (h₂.of_same (ctxFault_same s₂ k code true) (by decide))

theorem elemFault {q slot code : Nat} (h : PlacesKept s t) : PlacesKept s (t.elemFault k c a g q slot code) := h.laneReport.setSlot

theorem elemCode {n col : Nat} {recip : F32} {e : Elem} (h : PlacesKept s t) : PlacesKept s (t.elemCode k c a g j n col recip e).2 := by
  unfold State.elemCode
  cases e with
  | forced => exact h
  | largest => exact h
  | absent => exact h
  | value y v =>
    refine .ite_snd h.setSlot (.ite_snd h.setSlot (.ite_snd h.setSlot ?_))
    split
    · exact h.elemFault
    · exact h.setSlot

theorem elemCodes {n : Nat} {l : List (Nat × F32 × Elem)} (h : PlacesKept s t) : PlacesKept s (t.elemCodes k c a g j n l).2 := by
  induction l generalizing t with
  | nil => exact h
  | cons x l ih => exact ih h.elemCode

theorem putJob (h : PlacesKept s t) : PlacesKept s (t.putJob c a g j) := h.of_same (.mapGroup t c a g _) (by decide)

/-- The end of a slot: its codes and words are written, and its output enters the result queue. -/
theorem endSlot (h : PlacesKept s t) : PlacesKept s (t.endSlot k c a g j) := by
  unfold State.endSlot
  extract_lets n rs x s₁ cut s₂ __src d
  have h₁ : PlacesKept s s₁ := .foldS h.elemCodes fun _ _ hx => hx.localRead.localWrite
  have h₂ : PlacesKept s s₂ := .foldS h₁ fun _ _ hx => hx.localWrite
  exact .ite h.putJob h₂.setPair.putJob

theorem dataColumn {f : SlotSums} (h : PlacesKept s t) : PlacesKept s (t.dataColumn k c a g j f).2 := by
  unfold State.dataColumn
  extract_lets r p col e old pass acc s₁ v s₂ h' s₃
  have hf : ∀ {x : State} (o : Option Nat), PlacesKept s x →
      PlacesKept s (match o with | some code => x.elemFault k c a g j.pair r.slot code | none => x) := fun o hx => by
    cases o with
    | none => exact hx
    | some code => exact hx.elemFault
  have h₁ : PlacesKept s s₁ := .ite h.setAcc h
  exact .ite_snd h.setAcc (.ite_snd h₁ (hf h'.2 (hf v.2 h₁)))

theorem columnWork (h : PlacesKept s t) : PlacesKept s (t.columnWork k c a g j) := by
  unfold State.columnWork
  split
  · exact h.putJob
  · dsimp only
    refine .ite (.ite h.putJob (.putJob (.ite (.laneReport ?_) ?_)))
      (.ite h.dataColumn.putJob (.endSlot (.ite h.dataColumn.laneReport h.dataColumn)))
    · split
      · exact h.laneReport
      · exact h
    · split
      · exact h.laneReport
      · exact h

theorem drainGroup {n : Nat} (h : PlacesKept s t) : PlacesKept s (drainGroup n t k c a g) := by
  induction n generalizing t with
  | zero => exact h
  | succ n ih =>
    unfold Machine.drainGroup
    split
    · exact h
    · exact .ite (ih h.setPair.putJob) (.ite h (ih h.columnWork))

end PlacesKept

end Drain

end Sys2Proof.Machine

/-! PROOFS. A context leaves its place and comes back to one (R324–R327). -/

namespace Sys2Proof.Machine

section Switches

variable {s t u : State} {k c q : Nat}

/-! ### The late-reply buffer of a core with nothing in it -/

theorem releaseLate_empty (h : KV.get [] s.late c = []) : s.releaseLate c = { s with late := KV.set [] s.late c [] } := by
  unfold State.releaseLate
  simp only [h]
  rfl

theorem SameBut.setWaiting (s : State) (l : List Nat) : SameBut [.waiting, .dict] s (s.setWaiting l) := by
  intro f hf
  cases f
  case waiting | dict => exact absurd (by decide) hf
  all_goals rfl

/-! ### A switch-out -/

theorem SameBut.clearAccs (s : State) (c a g : Nat) : SameBut [.accs] s (s.clearAccs c a g) := by
  intro f hf
  cases f
  case accs => exact absurd (by decide) hf
  all_goals rfl

/-- A stream pair and its scale slots are cleared. -/
def State.clearPair (s : State) (c q : Nat) : State := foldS (List.range 16) (fun s i => s.setSlot c q i .zero) (s.setPair c q .zero)

theorem clearPair_pairs (s : State) (c q : Nat) : (s.clearPair c q).pairs = (s.setPair c q .zero).pairs :=
  (SameBut.foldS (.refl [.slots] _) fun x _ => SameBut.setSlot x c q _ _) .pairs (by decide)

/-- Groups, accumulators and flags of a context are cleared, the stream pairs behind them. -/
theorem clearUnits_rest (s : State) (k c : Nat) :
    SameBut [.groups, .accs, .flags] (foldS (s.ctx k).pairsOf (fun s q => s.clearPair c q) s) (s.clearUnits k c) := by
  unfold State.clearUnits
  extract_lets x s₁ s₂
  have h₂ : SameBut [.groups, .accs, .flags] s₁ s₂ := .foldS (.refl _ s₁) fun y o =>
    ((SameBut.clearAccs y c o.1 o.2.1).mono (by decide)).step (.setGroup _ _ _ _ _) (by decide)
  exact .foldS h₂ fun y f => .ite ((SameBut.putFlag y c f false).mono (by decide)) (.refl _ y)

theorem clearUnits_same (s : State) (k c : Nat) : SameBut [.pairs, .slots, .groups, .accs, .flags] s (s.clearUnits k c) := by
  have h : SameBut [.pairs, .slots, .groups, .accs, .flags] s (foldS (s.ctx k).pairsOf (fun s q => s.clearPair c q) s) :=
    .foldS (.refl _ s) fun x q => .foldS ((SameBut.setPair x c q _).mono (by decide)) fun y i => (SameBut.setSlot y c q i _).mono (by decide)
  exact h.step (clearUnits_rest s k c) (by decide)

/-- The stream pairs of a context are as after a reset. -/
theorem clearUnits_pair (hq : q ∈ (s.ctx k).pairsOf) : (s.clearUnits k c).pair c q = .zero := by
  rw [State.pair, clearUnits_rest s k c .pairs (by decide)]
  refine foldS_reaches (I := fun _ => True) (P := fun t => t.pair c q = .zero) _ s hq trivial (fun _ _ _ => trivial) (fun t _ => ?_)
    fun t r _ h => ?_
  · rw [State.pair, clearPair_pairs]
    exact State.pair_setPair t c q .zero
  · rw [State.pair, clearPair_pairs]
    refine (KV.get_set Pair.zero t.pairs (pairKey c r) (pairKey c q) .zero).trans ?_
    split
    · rfl
    · exact h

/-- A saved context has left its place, and its pairs there are cleared. -/
structure LeftPlace (s : State) (k : Nat) (t : State) : Prop where
  save : (t.ctx k).save.isSome = true
  still : (t.ctx k).move = .still
  unplaced : (t.ctx k).placed = false
  noCore : t.cget k 7 = 255
  cstate : t.cstate k = csWaiting ∨ t.cstate k = csFinished
  pairs : ∀ q ∈ (s.ctx k).pairsOf, t.pair (s.ccore k) q = .zero

theorem drained_kept (s : State) (k c : Nat) (l : List (Nat × Nat × Nat)) :
    PlacesKept s (foldS l (fun s o => s.drainAll k c o.1 o.2.1) s) :=
  .foldS (.refl s) fun _ _ h => h.drainGroup

/-- The record and the entries of a context that is saved (R326). -/
def State.takenOff (s : State) (k c : Nat) (area : SaveArea) (fin : Bool) : State :=
  ((s.setCtx k { s.ctx k with save := some area, move := .still, ready := false, placed := false, lastCore := c + 1 }).cset k 0x07 255).cset k 0x01
    (if fin then csFinished else csWaiting)

theorem takenOff_leaves (area : SaveArea) (fin : Bool) (h : ∀ q ∈ (s.ctx k).pairsOf, u.pair (s.ccore k) q = .zero) :
    LeftPlace s k (u.takenOff k c area fin) := by
  have hx : (u.takenOff k c area fin).ctx k =
      { u.ctx k with save := some area, move := .still, ready := false, placed := false, lastCore := c + 1 } := State.ctx_setCtx ..
  refine ⟨by rw [hx]; rfl, by rw [hx], by rw [hx], (cget_cset_ne _ (by decide) (by decide) (by decide)).trans (cget_cset_same ..), ?_, h⟩
  rw [State.cstate, State.takenOff, cget_cset_same]
  cases fin
  · exact .inl rfl
  · exact .inr rfl

theorem saveOut_leaves (s : State) (k : Nat) : LeftPlace s k (s.saveOut k) ∧ (s.saveOut k).late = s.late := by
  have hd := drained_kept s k (s.ccore k) (s.ctx k).owned
  have e : s.saveOut k = let d := foldS (s.ctx k).owned (fun x o => x.drainAll k (s.ccore k) o.1 o.2.1) s
      (d.clearUnits k (s.ccore k)).takenOff k (s.ccore k) (d.makeSave k (s.ccore k)) (d.allEnd k && d.localIdle k) := rfl
  rw [e]
  generalize foldS (s.ctx k).owned _ s = d at hd
  have hp : ∀ q ∈ (s.ctx k).pairsOf, (d.clearUnits k (s.ccore k)).pair (s.ccore k) q = .zero := fun q hq =>
    clearUnits_pair ((hd.pairsOf k).symm ▸ hq)
  have hl : (d.clearUnits k (s.ccore k)).late = s.late := (clearUnits_same d k _ .late (by decide)).trans hd.late
  dsimp only
  generalize d.clearUnits k (s.ccore k) = v at hp hl
  exact ⟨takenOff_leaves _ _ hp, hl⟩

/-- A context at END leaves the queue, and nothing else of it changes. -/
theorem LeftPlace.unqueued (h : LeftPlace s k u) (l : List Nat) (e : State) (he : e = (u.setWaiting l).setCtx k { u.ctx k with dest := none }) :
    LeftPlace s k e := by
  have hg : ∀ b < 256, e.cget k b = u.cget k b := fun b hb => by
    rw [he]
    exact DictBut.setWaiting u l _ b hb (by simp; omega)
  have hx : e.ctx k = { u.ctx k with dest := none } := he ▸ State.ctx_setCtx ..
  exact ⟨hx ▸ h.save, hx ▸ h.still, hx ▸ h.unplaced, (hg 7 (by decide)).trans h.noCore, by rw [State.cstate, hg 1 (by decide)]; exact h.cstate,
    he ▸ h.pairs⟩

/-- What a switch-out leaves behind, where nothing waits for the core. -/
theorem switchOut_leaves (hd : (s.ctx k).dest = none) (hl : KV.get [] s.late (s.ccore k) = []) : LeftPlace s k (s.switchOut k) := by
  obtain ⟨h, hlate⟩ := saveOut_leaves s k
  unfold State.switchOut
  rw [hd]
  generalize s.saveOut k = u at h hlate
  extract_lets c dest w x v
  have hv : LeftPlace s k v ∧ v.late = s.late := by
    unfold v
    split
    · exact ⟨h.unqueued _ _ rfl, hlate⟩
    · exact ⟨h, hlate⟩
  obtain ⟨hv, hvl⟩ := hv
  rw [releaseLate_empty (hvl.symm ▸ hl)]
  exact ⟨hv.save, hv.still, hv.unplaced, hv.noCore, hv.cstate, hv.pairs⟩

end Switches

end Sys2Proof.Machine

/-! PROOFS. A context comes back to a place (R326, R327). -/

namespace Sys2Proof.Machine

section Returns

variable {s t u : State} {k c : Nat}

/-- What the registers, words and flags of a place are kept in. -/
def placeFields : List Field := [.mem, .poison, .ecc, .ctxs, .splits, .groups, .pairs, .slots, .accs, .flags]

theorem SameBut.zeroRange (s : State) (a n : Nat) : SameBut [.mem, .poison, .ecc] s (s.zeroRange a n) := by
  intro f hf
  cases f
  case mem | poison | ecc => exact absurd (by decide) hf
  all_goals rfl

theorem SameBut.setAccs (s : State) (m : KV Acc) : SameBut [.accs] s { s with accs := m } := by
  intro f hf
  cases f
  case accs => exact absurd (by decide) hf
  all_goals rfl

theorem takeGroups_same (s : State) (k c : Nat) : SameBut placeFields s (s.takeGroups k c) :=
  .foldS ((SameBut.setCtx s k _).mono (by decide)) fun x o =>
    ((SameBut.setSplit x c o.1 _).mono (by decide)).step (.setGroup _ _ _ _ _) (by decide)

/-- What a place shows in no entry. -/
theorem dget_of_place (h : SameBut placeFields s t) (i b : Nat) : t.dget i b = s.dget i b :=
  dget_congr (h .dict (by decide)) (h .fuses (by decide)) (errorRegister_congr (h .dict (by decide)) (h .safeState (by decide))
    (h .busOffRecent (by decide)) (h .logOpen (by decide))) i b

/-- The record and the entries of a context that is back at a place. -/
def State.backAt (s : State) (k c : Nat) : State :=
  ((s.setCtx k { s.ctx k with save := none, move := .still, dest := none, placed := true, ready := true, started := true, ranSlices := 0,
                              stall := 0 }).cset k 0x07 c).cset k 0x01 csRunning

/-- A context runs at a place, restored. -/
structure Back (k c n : Nat) (t : State) : Prop where
  cstate : t.cstate k = csRunning
  core : t.cget k 7 = c
  placed : (t.ctx k).placed = true
  still : (t.ctx k).move = .still
  dest : (t.ctx k).dest = none
  save : (t.ctx k).save = none
  switches : t.cget k 0x15 = n

theorem backAt_back (s : State) (k c : Nat) : Back k c (s.cget k 0x15) (s.backAt k c) := by
  have hx := State.ctx_setCtx (s := s) k { s.ctx k with
    save := none, move := .still, dest := none, placed := true, ready := true, started := true, ranSlices := 0, stall := 0 }
  have hg : ∀ b < 256, b ≠ 1 → (s.backAt k c).cget k b = ((s.setCtx k _).cset k 7 c).cget k b := fun b hb h =>
    cget_cset_ne _ (by decide) hb h
  refine ⟨cget_cset_same .., (hg 7 (by decide) (by decide)).trans (cget_cset_same ..), congrArg (·.placed) hx, congrArg (·.move) hx,
    congrArg (·.dest) hx, congrArg (·.save) hx, ?_⟩
  exact (hg 0x15 (by decide) (by decide)).trans (cget_cset_ne _ (by decide) (by decide) (by decide))

/-- The words, registers and flags are back before the record says so. -/
theorem restoreIn_eq (s : State) (k c : Nat) : ∃ u, SameBut placeFields s u ∧ s.restoreIn k c = u.backAt k c := by
  unfold State.restoreIn
  extract_lets s₁ s₂ area x bed run s₃ s₄ s₅ s₆ s₇ s₈
  have h₁ : SameBut placeFields s s₁ := (SameBut.zeroRange s _ _).mono (by decide)
  have h₂ : SameBut placeFields s s₂ := h₁.trans (takeGroups_same s₁ k c)
  have h₃ : SameBut placeFields s s₃ := .foldS h₂ fun y w => (SameBut.setSpm y c w.1 w.2.1 w.2.2).mono (by decide)
  have h₄ : SameBut placeFields s s₄ := .foldS h₃ fun y p => (SameBut.setPair y c _ _).mono (by decide)
  have h₅ : SameBut placeFields s s₅ := .foldS h₄ fun y p => (SameBut.setSlot y c _ _ _).mono (by decide)
  have h₆ : SameBut placeFields s s₆ := .foldS h₅ fun y g => (SameBut.setGroup y c _ _ _).mono (by decide)
  have h₇ : SameBut placeFields s s₇ := .foldS h₆ fun y g => .foldS (.refl _ y) fun z e => (SameBut.setAccs z _).mono (by decide)
  have h₈ : SameBut placeFields s s₈ := .foldS h₇ fun y f => (SameBut.putFlag y c _ _).mono (by decide)
  exact ⟨s₈, h₈, rfl⟩

theorem backAt_same (s : State) (k c : Nat) : SameBut [.ctxs, .dict] s (s.backAt k c) :=
  (((SameBut.setCtx s k _).mono (by decide)).step (.dset _ _ _ _) (by decide)).step (.dset _ _ _ _) (by decide)

theorem restoreIn_back (s : State) (k c : Nat) : Back k c (s.cget k 0x15) (s.restoreIn k c) ∧
    (s.restoreIn k c).late = s.late ∧ (s.restoreIn k c).clearing = s.clearing := by
  obtain ⟨u, hu, e⟩ := restoreIn_eq s k c
  have hb := backAt_same u k c
  rw [e]
  refine ⟨?_, (hb .late (by decide)).trans (hu .late (by decide)), (hb .clearing (by decide)).trans (hu .clearing (by decide))⟩
  have hg : u.cget k 0x15 = s.cget k 0x15 := dget_of_place hu ..
  exact hg ▸ backAt_back u k c

/-- A choice is counted in entries of its own (R278). -/
theorem choice_dict (s : State) (k : Nat) {i : Nat} (hi : i < 8) :
    DictBut [(0x2600 + k, 0x83), (0x2600 + k, 0x84 + i), (0x2900, 0x15)] s (s.choice k i) := by
  have h₁ := (DictBut.cset s k (by decide : 0x83 < 256) (min 65535 (s.cget k 0x83 + 1))).mono
    (m := [(0x2600 + k, 0x83), (0x2600 + k, 0x84 + i), (0x2900, 0x15)]) (by simp)
  have h₂ := (DictBut.dbump (s.cset k 0x83 (min 65535 (s.cget k 0x83 + 1))) (0x2600 + k) (0x84 + i) (by omega)
    (by simp only [ne_eq, Prod.mk.injEq]; omega) (by simp only [ne_eq, Prod.mk.injEq]; omega)).mono
    (m := [(0x2600 + k, 0x83), (0x2600 + k, 0x84 + i), (0x2900, 0x15)]) (by simp)
  exact .ite (.refl _ s) ((h₁.trans h₂).trans (.mono (.dbump _ _ _ (by decide) (by decide) (by decide)) (by simp)))

theorem Back.choice {n : Nat} (hk : k < 64) (h : Back k c n s) {i : Nat} (hi : i < 8) : Back k c n (s.choice k i) := by
  have hx : (s.choice k i).ctx k = s.ctx k := congrArg (KV.get Ctx.zero · k) (choice_same s k i .ctxs (by decide))
  have hg : ∀ b < 0x83, (s.choice k i).cget k b = s.cget k b := fun b hb => choice_dict s k hi _ b (by omega)
    (by simp only [List.mem_cons, Prod.mk.injEq, List.not_mem_nil, true_and, or_false]; omega)
  exact ⟨(hg 1 (by decide)).trans h.cstate, (hg 7 (by decide)).trans h.core, hx ▸ h.placed, hx ▸ h.still, hx ▸ h.dest, hx ▸ h.save,
    (hg 0x15 (by decide)).trans h.switches⟩

theorem Back.counted {n : Nat} (h : Back k c n s) : Back k c ((n + 1) % 2 ^ 32) (s.cbump k 0x15) :=
  ⟨(cget_cbump_ne s (by decide) (by decide) (by decide)).trans h.cstate, (cget_cbump_ne s (by decide) (by decide) (by decide)).trans h.core,
    h.placed, h.still, h.dest, h.save, h.switches ▸ cget_cbump_same s k 0x15⟩

theorem allEnd_setMove (s : State) (k : Nat) (m : CtxMove) : (s.setCtx k { s.ctx k with move := m }).allEnd k = s.allEnd k := by
  have hx := State.ctx_setCtx (s := s) k { s.ctx k with move := m }
  generalize hu : s.setCtx k { s.ctx k with move := m } = u at hx
  have hg : ∀ b, u.cget k b = s.cget k b := fun b => hu ▸ rfl
  have ht : (u.ctx k).tearCore = (s.ctx k).tearCore := by rw [hx]
  have hp : ∀ c q, u.pair c q = s.pair c q := fun c q => hu ▸ rfl
  simp only [State.allEnd, State.kPair, State.saved, isLive_congr (hg 1) (hg 7) ht, ccore_congr (hg 1) (hg 7) ht, hp, hx]
  rfl

/-- What the check of a finished context sets back. -/
theorem finishCheck_moves (s : State) (k : Nat) : ((s.finishCheck k).ctx k = s.ctx k) ∨
    ((s.finishCheck k).ctx k = { s.ctx k with move := .switchingOut } ∧ (s.finishCheck k).allEnd k = true) := by
  have hs : (s.stopCheck k).ctx k = s.ctx k := congrArg (KV.get Ctx.zero · k) (stopCheck_same s k .ctxs (by decide))
  unfold State.finishCheck
  extract_lets u x
  split
  · rename_i h
    simp only [Bool.and_eq_true] at h
    obtain ⟨⟨⟨⟨-, he⟩, -⟩, -⟩, -⟩ := h
    have hx : (u.setCtx k { x with move := .switchingOut }).ctx k = { x with move := .switchingOut } := State.ctx_setCtx ..
    have hxs : x = s.ctx k := hs
    refine .inr ⟨by rw [hx, hxs], ?_⟩
    exact (allEnd_setMove u k .switchingOut).trans he
  · exact .inl hs

theorem Back.ends {n : Nat} (h : Back k c n s) : (s.finishCheck k).cstate k = csRunning ∧ (s.finishCheck k).cget k 7 = c ∧
    ((s.finishCheck k).ctx k).placed = true ∧ (((s.finishCheck k).ctx k).move = .still ∨ (s.finishCheck k).allEnd k = true) ∧
    ((s.finishCheck k).ctx k).dest = none ∧ ((s.finishCheck k).ctx k).save = none ∧ (s.finishCheck k).cget k 0x15 = n := by
  have hg : ∀ b, (s.finishCheck k).cget k b = s.cget k b := fun b => dget_of_sameBut (finishCheck_same s k) (by decide) _ b
  have hc : (s.finishCheck k).cstate k = csRunning := (hg 1).trans h.cstate
  obtain hx | ⟨hx, he⟩ := finishCheck_moves s k
  · exact ⟨hc, (hg 7).trans h.core, hx ▸ h.placed, .inl (hx ▸ h.still), hx ▸ h.dest, hx ▸ h.save, (hg _).trans h.switches⟩
  · exact ⟨hc, (hg 7).trans h.core, by rw [hx]; exact h.placed, .inr he, by rw [hx]; exact h.dest, by rw [hx]; exact h.save,
      (hg _).trans h.switches⟩

/-- Whoever held the place has left it. -/
def State.placeLeft (s : State) (k c : Nat) : Prop :=
  ∀ m < 64, m ≠ k → s.ccore m = c → s.cstate m ≠ csTearing ∧ ¬ (s.cstate m = csRunning ∧ (s.ctx m).move = .switchingOut)

/-- A switch-in to a place that is left, on a core with no late replies and not in slot clearing, ends in the check of a finished context. -/
theorem switchIn_back (hk : k < 64) (hf : s.isFenced (c / 2) = false) (ha : s.allotUp k = true) (hcl : s.clearing.getLsbD c = false)
    (hl : KV.get [] s.late c = []) (hp : s.placeLeft k c) :
    ∃ u, Back k c ((s.cget k 0x15 + 1) % 2 ^ 32) u ∧ s.switchIn k c = u.finishCheck k := by
  have hheld : allCtx.any (fun m => m != k && s.ccore m == c && !s.compatible c k m
      && ((s.cstate m == csRunning && (s.ctx m).move == .switchingOut) || s.cstate m == csTearing)) = false := by
    refine List.any_eq_false.mpr fun m hm h => ?_
    simp only [Bool.and_eq_true, Bool.or_eq_true, bne_iff_ne, beq_iff_eq] at h
    obtain ⟨⟨⟨hne, hc⟩, -⟩, h⟩ := h
    obtain ⟨ht, hr⟩ := hp m (List.mem_range.mp hm) hne hc
    exact h.elim hr ht
  obtain ⟨hb, hbl, hbc⟩ := restoreIn_back s k c
  unfold State.switchIn
  rw [hheld, hf, ha]
  generalize s.restoreIn k c = u at hb hbl hbc
  dsimp only
  generalize hv : (if (s.ctx k).lastCore ≠ 0 && (s.ctx k).lastCore ≠ c + 1 then (u.cbump k 0x15).choice k 2 else u.cbump k 0x15) = v
  have hbv : Back k c ((s.cget k 0x15 + 1) % 2 ^ 32) v ∧ SameBut [.dict] u v := by
    have hu : SameBut [.dict] u (u.cbump k 0x15) := .dset _ _ _ _
    rw [← hv]
    split
    · exact ⟨hb.counted.choice hk (by decide), hu.trans (choice_same _ k 2)⟩
    · exact ⟨hb.counted, hu⟩
  obtain ⟨hbv, hs⟩ := hbv
  rw [releaseLate_empty (((hs .late (by decide)).trans hbl).symm ▸ hl)]
  refine ⟨{ v with late := KV.set [] v.late c [] }, ⟨hbv.cstate, hbv.core, hbv.placed, hbv.still, hbv.dest, hbv.save, hbv.switches⟩, ?_⟩
  have hvc : v.clearing.getLsbD c = false := by rw [hs .clearing (by decide), hbc]; exact hcl
  exact if_neg (ne_true_of_eq_false hvc)

end Returns

end Sys2Proof.Machine

/-! PROOFS. Slice boundaries and slot clearing: who leaves, and who is dispatched (R324, R346). -/

namespace Sys2Proof.Machine

section Boundaries

variable {s t u : State} {k c : Nat} {l : List Nat}

/-! ### Contexts changed one after the other -/

/-- The records of the contexts in a list, changed. -/
def State.mapCtxs (s : State) (l : List Nat) (f : Ctx → Ctx) : State := foldS l (fun s k => s.setCtx k (f (s.ctx k))) s

theorem mapCtxs_same (s : State) (l : List Nat) (f : Ctx → Ctx) : SameBut [.ctxs] s (s.mapCtxs l f) :=
  .foldS (.refl _ s) fun x m => .setCtx x m _

theorem mapCtxs_dict (s : State) (l : List Nat) (f : Ctx → Ctx) {d : List (Nat × Nat)} : DictBut d s (s.mapCtxs l f) :=
  .of_sameBut (mapCtxs_same s l f) (by decide)

theorem ctx_mapCtxs (h : l.Nodup) (s : State) (f : Ctx → Ctx) (k : Nat) :
    (s.mapCtxs l f).ctx k = if k ∈ l then f (s.ctx k) else s.ctx k := by
  induction l generalizing s with
  | nil => rfl
  | cons m l ih =>
    obtain ⟨hm, hl⟩ := List.nodup_cons.mp h
    refine (ih hl _).trans ?_
    by_cases hk : k = m
    · subst hk
      rw [if_neg hm, if_pos List.mem_cons_self, State.ctx_setCtx]
    · rw [State.ctx_setCtx_ne _ _ _ _ hk]
      simp only [List.mem_cons, hk, false_or]

theorem runningBE_nodup (s : State) (p : Nat → Bool) : (s.runningBE p).Nodup := List.nodup_range.filter _

theorem runningBE_running {p : Nat → Bool} (h : k ∈ s.runningBE p) : s.cstate k = csRunning := by
  obtain ⟨-, h⟩ := List.mem_filter.mp h
  simp only [Bool.and_eq_true, beq_iff_eq] at h
  obtain ⟨⟨⟨⟨h, -⟩, -⟩, -⟩, -⟩ := h
  exact h

/-! ### Leaving -/

/-- A context that leaves its place at the next switch. -/
def Ctx.leaving (x : Ctx) : Ctx := { x with move := .switchingOut }

theorem leave_eq (s : State) (l : List Nat) : s.leave l = (s.mapCtxs l Ctx.leaving).setWaiting (s.waiting ++ l) := rfl

theorem leave_waiting (s : State) (l : List Nat) : (s.leave l).waiting = s.waiting ++ l := rfl

theorem leave_ctx (h : l.Nodup) (s : State) (k : Nat) : (s.leave l).ctx k = if k ∈ l then (s.ctx k).leaving else s.ctx k :=
  ctx_mapCtxs h s Ctx.leaving k

theorem leave_same (s : State) (l : List Nat) : SameBut [.ctxs, .waiting, .dict] s (s.leave l) := by
  rw [leave_eq]
  exact ((mapCtxs_same s l _).mono (by decide)).step (.setWaiting _ _) (by decide)

theorem leave_dict (s : State) (l : List Nat) : DictBut [(0x2500, 0x33)] s (s.leave l) := by
  rw [leave_eq]
  exact (mapCtxs_dict s l _).trans (.setWaiting _ _)

theorem cget_of_waiting (h : DictBut [(0x2500, 0x33)] s t) (k : Nat) {b : Nat} (hb : b < 256) : t.cget k b = s.cget k b :=
  h _ b hb (by simp; omega)

/-! ### The walk of the queue -/

/-- A waiting context is dispatched to a core. -/
def State.dispatch (s : State) (k c : Nat) : State :=
  let v := s.setCtx k { s.ctx k with dest := some c, move := if s.cstate k = csWaiting then .switchingIn else (s.ctx k).move }
  v.setWaiting (v.waiting.filter (· != k))

theorem walkQueue_cons (k : Nat) (r : List Nat) (s : State) : walkQueue (k :: r) s =
    match allCores.find? (fun c => s.mayDispatch k c) with
    | none => walkQueue r s
    | some c => walkQueue r (s.dispatch k c) := rfl

theorem dispatch_cget (s : State) (m c k : Nat) {b : Nat} (hb : b < 256) : (s.dispatch m c).cget k b = s.cget k b :=
  cget_of_waiting (s := s.setCtx m _) (.setWaiting _ _) k hb

theorem dispatch_ctx (s : State) (k c : Nat) : (s.dispatch k c).ctx k =
    { s.ctx k with dest := some c, move := if s.cstate k = csWaiting then .switchingIn else (s.ctx k).move } := State.ctx_setCtx ..

theorem dispatch_ctx_ne (s : State) {k m : Nat} (h : k ≠ m) (c : Nat) : (s.dispatch m c).ctx k = s.ctx k := State.ctx_setCtx_ne _ _ _ _ h

theorem dispatch_waiting (s : State) (k c : Nat) : (s.dispatch k c).waiting = s.waiting.filter (· != k) := rfl

/-- A dispatch turns no running context from its way. -/
theorem walkQueue_move (l : List Nat) (s : State) (h : s.cstate k = csRunning) : ((walkQueue l s).ctx k).move = (s.ctx k).move := by
  induction l generalizing s with
  | nil => rfl
  | cons m l ih =>
    rw [walkQueue_cons]
    split
    · exact ih s h
    · rename_i c _
      refine (ih (s.dispatch m c) ((dispatch_cget s m c k (by decide)).trans h)).trans ?_
      by_cases hk : k = m
      · subst hk
        rw [dispatch_ctx, h]
        rfl
      · rw [dispatch_ctx_ne s hk]

theorem walkQueue_ctx_not_mem (h : k ∉ l) (s : State) : (walkQueue l s).ctx k = s.ctx k := by
  induction l generalizing s with
  | nil => rfl
  | cons m l ih =>
    obtain ⟨hm, hl⟩ := not_or.mp (List.mem_cons.not.mp h)
    rw [walkQueue_cons]
    split
    · exact ih hl s
    · exact (ih hl _).trans (dispatch_ctx_ne s hm _)

theorem walkQueue_waiting (l : List Nat) (s : State) (h : k ∉ s.waiting) : k ∉ (walkQueue l s).waiting := by
  induction l generalizing s with
  | nil => exact h
  | cons m l ih =>
    rw [walkQueue_cons]
    split
    · exact ih s h
    · exact ih _ fun hk => h (List.mem_of_mem_filter (dispatch_waiting s m _ ▸ hk))

/-- The head of the queue goes to the core found for it. -/
theorem walkQueue_head {rest : List Nat} (hk : k ∉ rest) (hw : s.cstate k = csWaiting)
    (hf : allCores.find? (fun d => s.mayDispatch k d) = some c) : let t := walkQueue (k :: rest) s
    (t.ctx k).dest = some c ∧ (t.ctx k).move = .switchingIn ∧ k ∉ t.waiting := by
  intro t
  have ht : t = walkQueue rest (s.dispatch k c) := by
    simp only [t, walkQueue_cons, hf]
  have hx : t.ctx k = { s.ctx k with dest := some c, move := .switchingIn } := by
    rw [ht, walkQueue_ctx_not_mem hk, dispatch_ctx, if_pos hw]
  refine ⟨by rw [hx], by rw [hx], ?_⟩
  rw [ht]
  exact walkQueue_waiting _ _ (by simp [dispatch_waiting])

/-! ### Where a context may go -/

theorem requested_congr (h : ∀ b < 256, t.cget k b = s.cget k b) : t.requested k = s.requested k :=
  List.flatMap_congr fun i hi => by
    have hi : i < 4 := List.mem_range.mp hi
    rw [h (0x10 + i) (by omega)]

/-- Where a context may be dispatched to does not depend on the queue. -/
theorem mayDispatch_congr (hs : SameBut [.ctxs, .waiting, .dict] s t) (hx : ∀ k, t.ctx k = s.ctx k)
    (hd : DictBut [(0x2500, 0x33)] s t) (k c : Nat) : t.mayDispatch k c = s.mayDispatch k c := by
  have hg : ∀ k, ∀ b < 256, t.cget k b = s.cget k b := fun k b hb => cget_of_waiting hd k hb
  have hp : ∀ p, t.part p = s.part p := fun p => congrArg (KV.get Partition.zero · p) (hs .parts (by decide))
  have hcl : t.clearing = s.clearing := hs .clearing (by decide)
  have hsp : ∀ c a, t.split c a = s.split c a := fun c a => congrArg (KV.get 0 · (arrKey c a)) (hs .splits (by decide))
  have hcc : ∀ k, t.ccore k = s.ccore k := fun k => ccore_congr (hg k 1 (by decide)) (hg k 7 (by decide)) (by rw [hx])
  have hr : ∀ k, t.requested k = s.requested k := fun k => requested_congr (hg k)
  simp only [State.mayDispatch, State.placeFree, State.occupants, State.compatible, State.windowsFree, State.allotUp, State.yields,
    State.isFenced, State.outSet, State.strict, State.groupsOf, State.wantSplit, State.cstate, State.isLC, State.cclass, hx, hp, hsp, hcc, hr,
    hg _ 1 (by decide), hg _ 2 (by decide), hg _ 8 (by decide), hg _ 0x0C (by decide), hcl,
    hd 0x2500 5 (by decide) (by decide), hd 0x2900 1 (by decide) (by decide)]

/-! ### A boundary -/

/-- A context that ran for one more slice. -/
def Ctx.ranOn (x : Ctx) : Ctx := { x with ranSlices := x.ranSlices + 1 }

/-- Who leaves at a boundary. -/
def State.leavers (s : State) : List Nat :=
  if s.waiting.isEmpty then []
  else (s.runningBE (fun _ => true)).filter (fun k => 1 ≤ (s.ctx k).ranSlices && s.cget k 0x40 != 2)

/-- The boundary before the walk of the queue. -/
def State.bounded (s : State) : State := (s.mapCtxs (s.runningBE (fun _ => true)) Ctx.ranOn).leave s.leavers

theorem sliceBoundary_walks (h : s.dev = dsOp ∨ s.dev = dsMaint) : s.sliceBoundary = walkQueue s.bounded.waiting s.bounded := by
  have hn : ¬ (decide (s.dev ≠ dsOp) && decide (s.dev ≠ dsMaint)) = true := by simpa [← not_or, Decidable.not_not] using h
  exact if_neg hn

theorem sliceBoundary_idle (h₁ : s.dev ≠ dsOp) (h₂ : s.dev ≠ dsMaint) : s.sliceBoundary = s := if_pos (by simp [h₁, h₂])

theorem leavers_nodup (s : State) : s.leavers.Nodup := by
  unfold State.leavers
  split
  · exact List.nodup_nil
  · exact (runningBE_nodup s _).filter _

theorem bounded_same (s : State) : SameBut [.ctxs, .waiting, .dict] s s.bounded :=
  ((mapCtxs_same s _ _).mono (by decide)).trans (leave_same _ _)

theorem bounded_dict (s : State) : DictBut [(0x2500, 0x33)] s s.bounded := (mapCtxs_dict s _ _).trans (leave_dict _ _)

theorem bounded_waiting (s : State) : s.bounded.waiting = s.waiting ++ s.leavers :=
  (leave_waiting _ _).trans (congrArg (· ++ s.leavers) (mapCtxs_same s _ _ .waiting (by decide)))

/-- With no context waiting, none leaves. -/
theorem leavers_none (h : s.waiting = []) : s.leavers = [] := by simp [State.leavers, h]

/-- With no context running, none leaves. -/
theorem leavers_idle (h : s.runningBE (fun _ => true) = []) : s.leavers = [] := by simp [State.leavers, h]

theorem bounded_ctx_stays (h : s.leavers = []) (k : Nat) :
    s.bounded.ctx k = if k ∈ s.runningBE (fun _ => true) then (s.ctx k).ranOn else s.ctx k := by
  rw [State.bounded, h]
  exact ctx_mapCtxs (runningBE_nodup s _) s Ctx.ranOn k

theorem bounded_leaves (hw : s.waiting ≠ []) (hk : k ∈ s.runningBE (fun _ => true)) (hr : 1 ≤ (s.ctx k).ranSlices)
    (hm : s.cget k 0x40 ≠ 2) : (s.bounded.ctx k).move = .switchingOut := by
  have hl : k ∈ s.leavers := by
    rw [State.leavers, if_neg (by simpa using hw)]
    exact List.mem_filter.mpr ⟨hk, by simp [hr, hm]⟩
  rw [State.bounded, leave_ctx (leavers_nodup s), if_pos hl]
  rfl

end Boundaries

end Sys2Proof.Machine

/-! PROOFS. A deadline that passes, and the contexts of a core in slot clearing (R200, R323, R346). -/

namespace Sys2Proof.Machine

section Deadlines

variable {s t u : State} {k c : Nat} {l : List Nat}

theorem SameBut.setClearing (s : State) (b : BitVec 8) : SameBut [.clearing] s { s with clearing := b } := by
  intro f hf
  cases f
  case clearing => exact absurd (by decide) hf
  all_goals rfl

/-- A core in slot clearing: its BE contexts leave, and nothing else. -/
theorem slotClearing_shows (s : State) (c : Nat) : let t := s.slotClearing c
    t.clearing = s.clearing ||| BitVec.ofNat 8 (2 ^ c) ∧ t.waiting = s.waiting ++ s.runningBE (fun d => d == c) ∧
      (∀ k ∈ s.runningBE (fun d => d == c), (t.ctx k).move = .switchingOut) ∧
      SameBut [.clearing, .ctxs, .waiting, .dict] s t ∧ DictBut [(0x2500, 0x33)] s t := by
  intro t
  have hs := SameBut.setClearing s (s.clearing ||| BitVec.ofNat 8 (2 ^ c))
  generalize hu : { s with clearing := s.clearing ||| BitVec.ofNat 8 (2 ^ c) } = u at hs
  have hr : u.runningBE (fun d => d == c) = s.runningBE (fun d => d == c) := hu ▸ rfl
  have ht : t = u.leave (s.runningBE (fun d => d == c)) := by rw [← hr, ← hu]; rfl
  have hl := leave_same u (s.runningBE (fun d => d == c))
  refine ⟨?_, ?_, fun k hk => ?_, ?_, ?_⟩
  · rw [ht, hl .clearing (by decide), ← hu]
  · rw [ht, leave_waiting, ← hu]
  · rw [ht, leave_ctx (runningBE_nodup s _), if_pos hk]
    rfl
  · rw [ht]
    exact (hs.mono (by decide)).step hl (by decide)
  · rw [ht]
    exact (DictBut.of_sameBut hs (by decide)).trans (leave_dict _ _)

/-- What a frame fault of an LC context appends to the frame's record. -/
theorem ctxFault_faults (h : s.isLC k = true) (code : Nat) (b : Bool) : (s.ctxFault k code b).frame.faults =
    s.frame.faults ++ [FrameFault.mk code (if s.ccore k < 8 then some (s.ccore k) else none) b true] := by
  unfold State.ctxFault
  rw [if_pos h]
  rfl

theorem frameDeadline_passed (hdev : s.dev = dsOp) (hr : s.lcReady k = true)
    (h : (s.ctx k).started = true ∧ s.allEnd k = false ∨ s.cget k 0x40 = 2) :
    s.frameDeadline k = ((s.report 0x20A3 (ucCtx k) (ucCtx k) [] true).ctxFault k 0x20A3 false).cbump k 0x19 :=
  if_pos (by simp only [hdev, hr, Bool.and_eq_true, Bool.or_eq_true, Bool.not_eq_true', decide_eq_true_eq]; exact ⟨⟨trivial, trivial⟩, h⟩)

/-- A deadline that passes is reported, a frame fault, and counted. -/
theorem frameDeadline_shows (hk : k < 64) (hdev : s.dev = dsOp) (hr : s.lcReady k = true)
    (h : (s.ctx k).started = true ∧ s.allEnd k = false ∨ s.cget k 0x40 = 2) : let t := s.frameDeadline k
    t.cget k 0x19 = (s.cget k 0x19 + 1) % 2 ^ 32 ∧
      t.frame.faults = s.frame.faults ++ [FrameFault.mk 0x20A3 (if s.ccore k < 8 then some (s.ccore k) else none) false true] ∧
      Framed (.frame :: logFields) ((0x2600 + k, 0x19) :: logEntries) s t := by
  intro t
  have ht : t = _ := frameDeadline_passed hdev hr h
  have hlog := Logged.report s 0x20A3 (ucCtx k) (ucCtx k) [] true
  have hlc : s.isLC k = true := by
    simp only [State.lcReady, Bool.and_eq_true] at hr
    obtain ⟨⟨⟨-, hlc⟩, -⟩, -⟩ := hr
    exact hlc
  generalize s.report 0x20A3 (ucCtx k) (ucCtx k) [] true = u at hlog ht
  have hg : ∀ b < 256, u.cget k b = s.cget k b := fun b hb => cget_logged hlog hk hb
  have hul : u.isLC k = true := (congrArg (· == 1) (hg 2 (by decide))).trans hlc
  have huc : u.ccore k = s.ccore k := ccore_congr (hg 1 (by decide)) (hg 7 (by decide)) (by rw [State.ctx, hlog.same .ctxs (by decide), State.ctx])
  have hf := ctxFault_same u k 0x20A3 false
  refine ⟨?_, ?_, ?_⟩
  · rw [ht, cget_cbump_same, State.cget, dget_of_sameBut hf (by decide)]
    exact congrArg (fun n => (n + 1) % 2 ^ 32) (hg 0x19 (by decide))
  · rw [ht]
    refine (ctxFault_faults hul 0x20A3 false).trans ?_
    rw [huc, hlog.same .frame (by decide)]
  · rw [ht]
    have h₁ : Framed (.frame :: logFields) ((0x2600 + k, 0x19) :: logEntries) s u :=
      (Framed.refl s).logged hlog (by decide) fun e he => List.mem_cons_of_mem _ he
    exact (h₁.then_same hf (by decide) (by decide)).dbump (by decide) List.mem_cons_self (by decide)
      (by simp only [ne_eq, Prod.mk.injEq]; omega) (by simp only [ne_eq, Prod.mk.injEq]; omega)

/-! ### The switch row -/

theorem switch_out (hc : s.cstate k = csRunning) (hm : (s.ctx k).move = .switchingOut) (ha : s.allotUp k = true)
    (hf : s.isFenced (s.ccore k / 2) = false) : s.switch k = s.switchOut k := by
  unfold State.switch
  rw [hm]
  exact if_pos (by simp [hc, ha, hf])

theorem switch_in (hm : (s.ctx k).move = .switchingIn) (hd : (s.ctx k).dest = some c) : s.switch k = s.switchIn k c := by
  unfold State.switch
  rw [hm, hd]

theorem switch_still (hm : (s.ctx k).move = .still) : s.switch k = s := by
  unfold State.switch
  rw [hm]

theorem ccore_of_cstate (h : s.cstate k ≠ csTearing) : s.ccore k = s.cget k 7 := if_neg h

/-! ### The boundary row -/

/-- With an empty queue a boundary counts for each context that runs, and none leaves. -/
theorem sliceBoundary_no_queue (hdev : s.dev = dsOp ∨ s.dev = dsMaint) (hw : s.waiting = []) : let t := s.sliceBoundary
    t.waiting = [] ∧ (∀ k, t.ctx k = if k ∈ s.runningBE (fun _ => true) then (s.ctx k).ranOn else s.ctx k) ∧
      SameBut [.ctxs, .waiting, .dict] s t ∧ DictBut [(0x2500, 0x33)] s t := by
  have hl := leavers_none hw
  have hbw : s.bounded.waiting = [] := by rw [bounded_waiting, hw, hl, List.append_nil]
  rw [sliceBoundary_walks hdev, hbw]
  exact ⟨hbw, bounded_ctx_stays hl, bounded_same s, bounded_dict s⟩

/-- A boundary with a waiting context sends each that ran a whole slice out. -/
theorem sliceBoundary_leaves (hdev : s.dev = dsOp ∨ s.dev = dsMaint) (hw : s.waiting ≠ []) (hk : k ∈ s.runningBE (fun _ => true))
    (hr : 1 ≤ (s.ctx k).ranSlices) (hm : s.cget k 0x40 ≠ 2) : (s.sliceBoundary.ctx k).move = .switchingOut := by
  rw [sliceBoundary_walks hdev]
  exact (walkQueue_move _ _ ((cget_of_waiting (bounded_dict s) k (by decide)).trans (runningBE_running hk))).trans (bounded_leaves hw hk hr hm)

/-- With no context running, a boundary dispatches the head of the queue. -/
theorem sliceBoundary_dispatches {rest : List Nat} (hdev : s.dev = dsOp ∨ s.dev = dsMaint) (hw : s.waiting = k :: rest) (hk : k ∉ rest)
    (hc : s.cstate k = csWaiting) (hr : s.runningBE (fun _ => true) = []) (hf : allCores.find? (fun d => s.mayDispatch k d) = some c) :
    let t := s.sliceBoundary
    (t.ctx k).dest = some c ∧ (t.ctx k).move = .switchingIn ∧ k ∉ t.waiting := by
  have hl := leavers_idle hr
  have hx : ∀ m, s.bounded.ctx m = s.ctx m := fun m => by rw [bounded_ctx_stays hl, hr, if_neg List.not_mem_nil]
  have hm : ∀ d, s.bounded.mayDispatch k d = s.mayDispatch k d := mayDispatch_congr (bounded_same s) hx (bounded_dict s) k
  rw [sliceBoundary_walks hdev, bounded_waiting, hw, hl, List.append_nil]
  refine walkQueue_head hk ((cget_of_waiting (bounded_dict s) k (by decide)).trans hc) ?_
  simpa only [hm] using hf

end Deadlines

/-- Settles O43: boundaries by `sliceBoundary_walks` and the walk of the queue, a switch-out by `switchOut_leaves`, a switch-in by
`switchIn_back`, slot clearing by `slotClearing_shows`, a deadline by `frameDeadline_shows`. -/
theorem slicesSwitchTheContexts : Obligations.SlicesSwitchTheContexts := by
  intro s
  refine ⟨fun n h₁ h₂ => ?_, fun n hdev => ⟨fun hw => ?_, fun hw => ?_, fun k c rest hw hk hc hr hf => ?_⟩,
    fun k hc hm hd ha hf hl => ?_, fun k c hm hd hc hf ha hcl hl hp => ?_, fun k hm => ?_, fun c => ?_, fun k hdev hr h => ?_⟩
  · exact gives_of_eq (congrArg Host.Outcome.next (sliceBoundary_idle (s := s.fresh.atTime n) h₁ h₂)) (.atTime s n)
  · obtain ⟨ht, hx, hs, hd⟩ := sliceBoundary_no_queue (s := s.fresh.atTime n) hdev hw
    exact ⟨_, rfl, ht, hx, ((SameBut.atTime s n).mono (by decide)).step hs (by decide), hd⟩
  · exact ⟨_, rfl, fun k hk hr hm => sliceBoundary_leaves (s := s.fresh.atTime n) hdev hw hk hr hm⟩
  · exact ⟨_, rfl, sliceBoundary_dispatches (s := s.fresh.atTime n) hdev hw hk hc hr hf⟩
  · have h := switchOut_leaves (s := s.fresh) (k := k) hd hl
    refine gives_of_eq (congrArg Host.Outcome.next (switch_out (s := s.fresh) hc hm ha hf)) ?_
    refine ⟨h.save, h.still, h.unplaced, ?_, h.cstate, h.pairs⟩
    refine (ccore_of_cstate fun ht => ?_).trans h.noCore
    obtain hc | hc := h.cstate
    · exact absurd (hc.symm.trans ht) (by decide)
    · exact absurd (hc.symm.trans ht) (by decide)
  · obtain ⟨u, hu, e⟩ := switchIn_back (s := s.fresh) k.isLt hf ha hcl hl hp
    obtain ⟨hcs, hcore, hrest⟩ := hu.ends
    refine gives_of_eq (congrArg Host.Outcome.next ((switch_in (s := s.fresh) hm hd).trans e)) ⟨hcs, ?_, hrest⟩
    exact (ccore_of_cstate fun ht => absurd (hcs.symm.trans ht) (by decide)).trans hcore
  · exact gives_of_eq (congrArg Host.Outcome.next (switch_still (s := s.fresh) hm)) (.fresh s)
  · obtain ⟨hcl, hw, hm, hs, hd⟩ := slotClearing_shows s.fresh c
    exact ⟨_, rfl, hcl, hw, hm, ((SameBut.fresh s).mono (by decide)).step hs (by decide), hd⟩
  · obtain ⟨hn, hfault, hfr⟩ := frameDeadline_shows (s := s.fresh) k.isLt hdev hr h
    exact ⟨_, rfl, hn, hfault, ((SameBut.fresh s).mono (by decide)).step hfr.same (by decide), hfr.log, hfr.dict⟩

end Sys2Proof.Machine

/-! PROOFS. Words of a running context changed in place, and the packets that arrive at a window of one (R240, R242–R245, R262). -/

namespace Sys2Proof.Machine

section Runs

variable {s t u : State} {k c a n : Nat} {poison : Bool}

/-! ### The copy of a context that runs -/

theorem kSetWord_runs (h : RunsOn s k c) (w : Nat) (v : SWord) (b : Bool) : s.kSetWord k w v b = s.setSpm c w v b := by
  rw [State.kSetWord, if_pos h.isLive, h.ccore]

theorem kWord_runs (h : RunsOn s k c) (w : Nat) : s.kWord k w = (s.spm c w, s.spmPoison c w) := by
  rw [State.kWord, if_pos h.isLive, h.ccore]

theorem noteSaved_runs (h : RunsOn s k c) : s.noteSaved k = s := if_pos h.isLive

theorem RunsOn.of_copy (h : RunsOn s k c) (hs : SameBut copyFields s t) : RunsOn t k c :=
  h.of_cget (dget_of_copy hs _ _) (dget_of_copy hs _ _)

theorem spmPoison_congr (h : t.poison = s.poison) (c w : Nat) : t.spmPoison c w = s.spmPoison c w := by
  unfold State.spmPoison State.wordPoison
  rw [h]

/-! ### Words changed in place -/

/-- A scratchpad word and its poison mark, changed in place. -/
def State.editSpm (s : State) (c w : Nat) (g : SWord × Bool → SWord × Bool) : State :=
  s.setSpm c w (g (s.spm c w, s.spmPoison c w)).1 (g (s.spm c w, s.spmPoison c w)).2

/-- The words from `a` up, each changed by one item of a list. -/
def State.editRun {α : Type} (s : State) (c a : Nat) (g : α → SWord × Bool → SWord × Bool) : List α → State
  | [] => s
  | x :: l => (s.editSpm c a (g x)).editRun c (a + 1) g l

/-- A word that takes a new value and mark. -/
def newWord (poison : Bool) (w : SWord) (_ : SWord × Bool) : SWord × Bool := (w, poison)

/-- A word that another is added to: it keeps its poison mark, or takes the other's (R262). -/
def addedWord (f : SWord → SWord → SWord) (poison : Bool) (v : SWord) (old : SWord × Bool) : SWord × Bool :=
  (f old.1 v, old.2 || poison)

section Edit

variable {α : Type} {g : α → SWord × Bool → SWord × Bool}

theorem SameBut.editSpm (s : State) (c w : Nat) (g : SWord × Bool → SWord × Bool) : SameBut [.mem, .poison] s (s.editSpm c w g) :=
  .setSpm s c w _ _

theorem editRun_same (s : State) (c a : Nat) (g : α → SWord × Bool → SWord × Bool) (l : List α) :
    SameBut [.mem, .poison] s (s.editRun c a g l) := by
  induction l generalizing s a with
  | nil => exact .refl _ s
  | cons x l ih => exact (SameBut.editSpm s c a (g x)).trans (ih _ _)

theorem editRun_memBut (s : State) (c a : Nat) (g : α → SWord × Bool → SWord × Bool) (l : List α) :
    MemBut (spmAddr c a) (32 * l.length) s (s.editRun c a g l) := by
  induction l generalizing s a with
  | nil => exact .refl _ _ s
  | cons x l ih =>
    intro b hb
    rw [List.length_cons] at hb
    have ha : spmAddr c (a + 1) = spmAddr c a + 32 := by unfold spmAddr; omega
    rw [State.editRun, ih _ _ b (by omega)]
    exact byteAt_setSpm s (by omega) _ _

theorem editRun_below (s : State) {w : Nat} (h : w < a) (l : List α) :
    (s.editRun c a g l).spm c w = s.spm c w ∧ (s.editRun c a g l).spmPoison c w = s.spmPoison c w := by
  induction l generalizing s a with
  | nil => exact ⟨rfl, rfl⟩
  | cons x l ih =>
    obtain ⟨hw, hp⟩ := ih (s.editSpm c a (g x)) (a := a + 1) (by omega)
    exact ⟨hw.trans (spm_setSpm_ne s c (by omega) _ _), hp.trans (spmPoison_setSpm_ne s c (by omega) _ _)⟩

theorem editSpm_shows (s : State) (c w : Nat) (f : SWord × Bool → SWord × Bool) :
    ((s.editSpm c w f).spm c w, (s.editSpm c w f).spmPoison c w) = f (s.spm c w, s.spmPoison c w) :=
  Prod.ext (spm_setSpm_same s c w _ _) (wordPoison_putWord_same s _ _ _)

theorem editRun_shows (s : State) (l : List α) (i : Nat) (h : i < l.length) :
    ((s.editRun c a g l).spm c (a + i), (s.editRun c a g l).spmPoison c (a + i)) = g l[i] (s.spm c (a + i), s.spmPoison c (a + i)) := by
  induction l generalizing s a i with
  | nil => exact absurd h (Nat.not_lt_zero i)
  | cons x l ih =>
    cases i with
    | zero =>
      obtain ⟨hw, hp⟩ := editRun_below (c := c) (g := g) (s.editSpm c a (g x)) (show a < a + 1 from Nat.lt_succ_self a) l
      rw [State.editRun, Nat.add_zero a, hw, hp]
      exact editSpm_shows s c a (g x)
    | succ i =>
      have hi : a + (i + 1) ≠ a := by omega
      rw [← spm_setSpm_ne s c hi (g x (s.spm c a, s.spmPoison c a)).1 (g x (s.spm c a, s.spmPoison c a)).2,
        ← spmPoison_setSpm_ne s c hi (g x (s.spm c a, s.spmPoison c a)).1 (g x (s.spm c a, s.spmPoison c a)).2,
        show a + (i + 1) = a + 1 + i by omega]
      exact ih (s.editSpm c a (g x)) i (Nat.lt_of_succ_lt_succ h)

/-- A fold that changes one word per item, in ascending order, is a run. -/
theorem foldS_editRun (f : State → Nat × α → State) (s₀ : State) (l : List α) (n : Nat) {s : State} (hs : SameBut [.mem, .poison] s₀ s)
    (hf : ∀ x, SameBut [.mem, .poison] s₀ x → ∀ y ∈ (List.range' n l.length).zip l, f x y = x.editSpm c (a + y.1) (g y.2)) :
    foldS ((List.range' n l.length).zip l) f s = s.editRun c (a + n) g l := by
  induction l generalizing n s with
  | nil => rfl
  | cons x l ih =>
    rw [List.length_cons, List.range'_succ, List.zip_cons_cons] at hf ⊢
    have h₀ : f s (n, x) = s.editSpm c (a + n) (g x) := hf s hs _ List.mem_cons_self
    exact (congrArg (foldS _ f) h₀).trans
      (ih (n + 1) (hs.trans (.editSpm s c _ _)) fun y hy e he => hf y hy e (List.mem_cons_of_mem _ he))

theorem foldS_editRun_range (f : State → Nat × α → State) (s : State) (l : List α)
    (hf : ∀ x, SameBut [.mem, .poison] s x → ∀ y ∈ (List.range l.length).zip l, f x y = x.editSpm c (a + y.1) (g y.2)) :
    foldS ((List.range l.length).zip l) f s = s.editRun c a g l := by
  rw [List.range_eq_range'] at hf ⊢
  exact foldS_editRun f s l 0 (.refl _ s) hf

end Edit

theorem putWords_runs (h : RunsOn s k c) (ws : List SWord) : s.putWords k a ws poison = s.editRun c a (newWord poison) ws :=
  foldS_editRun_range _ s ws fun _ hx _ _ => kSetWord_runs (h.of_copy (hx.mono (by decide))) _ _ _

theorem addWords_runs (h : RunsOn s k c) (he : s.ecc = []) (f : SWord → SWord → SWord) (ws : List SWord) :
    foldS ((List.range ws.length).zip ws) (fun s x => s.addWord k (a + x.1) f x.2 poison) s = s.editRun c a (addedWord f poison) ws :=
  foldS_editRun_range _ s ws fun x hx y _ => by
    have hr : RunsOn x k c := h.of_copy (hx.mono (by decide))
    unfold State.addWord
    rw [readK_clean x k _ ((hx .ecc (by decide)).trans he), kWord_runs hr]
    exact kSetWord_runs hr _ _ _

end Runs

section Windows

variable {s t u : State} {p : Packet} {kind : BitVec 4} {k c a : Nat} {e : BitVec 128}

/-! ### Arrivals at a window -/

theorem pauseFull_kept {m : KV (List Packet)} (h : s.late = m) : s.pauseFull m = s := if_pos h

theorem arriveWindow_checked (hk : p.kind = kind) (hd : p.dst < 8)
    (hc : s.windowCheck p.dst p.window p.gen p.src (rightsOf kind) p.off p.count = none)
    (hs : s.switchCore (wnOwner (s.win p.dst p.window)) = none) :
    s.arriveWindow kind p = (s.fresh.arrive p).applyPacket (wnOwner (s.win p.dst p.window)) (s.win p.dst p.window) p := by
  subst hk
  have hw : (s.fresh.arrive p).windowPacket p false =
      (s.fresh.arrive p).applyPacket (wnOwner (s.win p.dst p.window)) (s.win p.dst p.window) p := by
    have hc' : (s.fresh.arrive p).windowCheck p.dst p.window p.gen p.src (rightsOf p.kind) p.off p.count = none := hc
    have hs' : (s.fresh.arrive p).switchCore (wnOwner ((s.fresh.arrive p).win p.dst p.window)) = none := hs
    simp only [State.windowPacket, if_neg (Nat.not_le.mpr hd), hc', hs']
    rfl
  rw [State.arriveWindow, if_pos rfl, hw]
  exact pauseFull_kept (LateKept.applyPacket (.refl (s.fresh.arrive p)))

theorem arriveWindow_refused {code : Nat} (hk : p.kind = kind) (hd : p.dst < 8)
    (hc : s.windowCheck p.dst p.window p.gen p.src (rightsOf kind) p.off p.count = some code) :
    s.arriveWindow kind p = (s.fresh.arrive p).nackPacket p code := by
  subst hk
  have hw : (s.fresh.arrive p).windowPacket p false = (s.fresh.arrive p).nackPacket p code := by
    have hc' : (s.fresh.arrive p).windowCheck p.dst p.window p.gen p.src (rightsOf p.kind) p.off p.count = some code := hc
    simp only [State.windowPacket, if_neg (Nat.not_le.mpr hd), hc']
  rw [State.arriveWindow, if_pos rfl, hw]
  exact pauseFull_kept (LateKept.nackPacket (.refl (s.fresh.arrive p)))

/-- A packet that is refused: reported, counted and answered; a SPUT's instruction is marked (R242, R244, R245). -/
theorem nackPacket_shows (s : State) (p : Packet) (code : Nat) : let t := s.nackPacket p code
    t.fabric = s.fabric ++ [p.answer pkNack code] ∧ t.dget 0x2500 0x2E = (s.dget 0x2500 0x2E + 1) % 2 ^ 32 ∧
      Framed ([.fabric, .sputBad] ++ logFields) ((0x2500, 0x2E) :: logEntries) s t := by
  intro t
  unfold t State.nackPacket
  extract_lets unit s₁ s₂ s₃
  have h₁ : Framed ([.fabric, .sputBad] ++ logFields) ((0x2500, 0x2E) :: logEntries) s s₁ :=
    (Framed.refl s).report (by decide) (by decide) _ _ _ _ _
  have h₂ : Framed ([.fabric, .sputBad] ++ logFields) ((0x2500, 0x2E) :: logEntries) s s₂ :=
    h₁.dbump (by decide) (by decide) (by decide) (by decide) (by decide)
  have h₃ : SameBut [.sputBad] s₂ s₃ := .ite (.setSputBad s₂ _) (.refl _ s₂)
  have hd : s₂.dget 0x2500 0x2E = (s.dget 0x2500 0x2E + 1) % 2 ^ 32 := by
    rw [← dget_report s code unit (nackOrigin code p.dst p.window p.srcCode) [] false (by decide) (by decide)]
    exact State.dget_dset_same ..
  have hs : SameBut [.sputBad, .fabric] s₂ (s₃.sendPacket (p.answer pkNack code)) :=
    (h₃.mono (by decide)).step (.setFabric s₃ _) (by decide)
  refine ⟨?_, (dget_of_sameBut hs (by decide) _ _).trans hd, h₂.then_same hs (by decide) (by decide)⟩
  exact congrArg (· ++ _) ((h₃ .fabric (by decide)).trans ((Logged.report s ..).same .fabric (by decide)))

/-! ### What a packet does at the window of a running context (R243) -/

/-- The flag of a SPUT's last packet, unless an earlier packet of its instruction failed (R243, R244). -/
def State.endSput (s : State) (k : Nat) (p : Packet) : State :=
  if s.sputBad.contains (sputId p) then { s with sputBad := s.sputBad.filter (· != sputId p) } else s.kSetFlag k (32 + p.flag.toNat)

theorem applyPacket_put (h : RunsOn s k c) (hk : p.kind = 0 ∨ p.kind = 1) :
    s.applyPacket k e p = (s.editRun c (wnBase e + p.off) (newWord p.poison) p.data).sendPacket (p.answer pkAck 0) := by
  obtain hk | hk := hk
  · simp [State.applyPacket, noteSaved_runs h, putWords_runs h, hk]
  · simp [State.applyPacket, noteSaved_runs h, putWords_runs h, hk]

theorem applyPacket_last (h : RunsOn s k c) (hk : p.kind = 2) :
    s.applyPacket k e p = ((s.editRun c (wnBase e + p.off) (newWord p.poison) p.data).endSput k p).sendPacket (p.answer pkAck 0) := by
  simp [State.applyPacket, noteSaved_runs h, putWords_runs h, hk, State.endSput]

theorem applyPacket_flag (h : RunsOn s k c) (hk : p.kind = 7) :
    s.applyPacket k e p = (s.kSetFlag k (32 + p.flag.toNat)).sendPacket (p.answer pkAck 0) := by
  simp [State.applyPacket, noteSaved_runs h, hk]

theorem endSput_shows (h : RunsOn s k c) (p : Packet) : let t := s.endSput k p
    SameBut [.flags, .overruns, .dict, .sputBad] s t ∧ (sputId p ∉ s.sputBad → t.flag c (32 + p.flag.toNat) = true) := by
  intro t
  unfold t State.endSput
  split
  · rename_i hb
    exact ⟨(SameBut.setSputBad s _).mono (by decide), fun hn => absurd (List.contains_iff_mem.mp hb) hn⟩
  · exact ⟨(kSetFlag_runs_same h _).mono (by decide), fun _ => flag_kSetFlag h _⟩

/-- The words of a put: written, with the packet's poison mark, and no other byte. -/
theorem putRun_shows (s : State) (c a : Nat) (ws : List SWord) (poison : Bool) : let t := s.editRun c a (newWord poison) ws
    (∀ (i : Nat) (h : i < ws.length), t.spm c (a + i) = ws[i] ∧ t.spmPoison c (a + i) = poison) ∧
      MemBut (spmAddr c a) (32 * ws.length) s t ∧ SameBut [.mem, .poison] s t :=
  ⟨fun i h => Prod.mk.inj (editRun_shows s ws i h), editRun_memBut s c a _ ws, editRun_same s c a _ ws⟩

/-- A window packet's row, with its kind in the packet. -/
theorem exec_window {cmd : Instr} (hm : (cmd, kind) ∈ [(Instr.putPacket p, (0 : BitVec 4)), (Instr.sputData p, 1),
    (Instr.sputLast p, 2), (Instr.flagPacket p, 7)]) (hp : kind = 2 → s.sputPending p = false) :
    exec cmd s = .next (s.arriveWindow kind p) := by
  simp only [List.mem_cons, Prod.mk.injEq, List.not_mem_nil, or_false] at hm
  obtain ⟨rfl, rfl⟩ | ⟨rfl, rfl⟩ | ⟨rfl, rfl⟩ | ⟨rfl, rfl⟩ := hm
  · rfl
  · rfl
  · exact congrArg Host.Outcome.next (if_neg (by rw [hp rfl]; decide))
  · rfl

/-- A refused packet that arrives. -/
theorem window_refused (s : State) (p : Packet) (code : Nat) : let t := (s.fresh.arrive p).nackPacket p code
    t.fabric = s.fabric.erase p ++ [p.answer pkNack code] ∧ t.dget 0x2500 0x2E = (s.dget 0x2500 0x2E + 1) % 2 ^ 32 ∧
      Framed ([.sent, .fabric, .sputBad] ++ logFields) ((0x2500, 0x2E) :: logEntries) s t := by
  obtain ⟨hf, hd, hs⟩ := nackPacket_shows (s.fresh.arrive p) p code
  have ha : Framed [.sent, .fabric] ((0x2500, 0x2E) :: logEntries) s (s.fresh.arrive p) := .of_same (.arrived s p) (by decide)
  refine ⟨hf, ?_, (ha.mono (by decide) fun _ => id).step hs (by decide) fun _ => id⟩
  rwa [dget_of_sameBut (SameBut.arrived s p) (by decide)] at hd

/-- A put, or SPUT data, that arrives at a running context. -/
theorem put_arrives (h : RunsOn s k c) (hk : p.kind = 0 ∨ p.kind = 1) : let t := (s.fresh.arrive p).applyPacket k e p
    let a := wnBase e + p.off
    t.fabric = s.fabric.erase p ++ [p.answer pkAck 0] ∧
      (∀ (i : Nat) (h : i < p.data.length), t.spm c (a + i) = p.data[i] ∧ t.spmPoison c (a + i) = p.poison) ∧
      MemBut (spmAddr c a) (32 * p.data.length) s t ∧ SameBut [.sent, .fabric, .mem, .poison] s t := by
  have hr : RunsOn (s.fresh.arrive p) k c := h
  rw [applyPacket_put hr hk]
  obtain ⟨hw, hm, hs⟩ := putRun_shows (s.fresh.arrive p) c (wnBase e + p.off) p.data p.poison
  refine ⟨congrArg (· ++ _) (hs .fabric (by decide)), hw, hm, ?_⟩
  exact (((SameBut.arrived s p).mono (by decide)).step hs (by decide)).step (.setFabric _ _) (by decide)

/-- The last packet of a SPUT that arrives at a running context. -/
theorem sputLast_arrives (h : RunsOn s k c) (hk : p.kind = 2) : let t := (s.fresh.arrive p).applyPacket k e p
    let a := wnBase e + p.off
    t.fabric = s.fabric.erase p ++ [p.answer pkAck 0] ∧
      (∀ (i : Nat) (h : i < p.data.length), t.spm c (a + i) = p.data[i] ∧ t.spmPoison c (a + i) = p.poison) ∧
      MemBut (spmAddr c a) (32 * p.data.length) s t ∧ (sputId p ∉ s.sputBad → t.flag c (32 + p.flag.toNat) = true) ∧
      SameBut [.sent, .fabric, .mem, .poison, .flags, .overruns, .dict, .sputBad] s t := by
  have hr : RunsOn (s.fresh.arrive p) k c := h
  rw [applyPacket_last hr hk]
  obtain ⟨hw, hm, hs⟩ := putRun_shows (s.fresh.arrive p) c (wnBase e + p.off) p.data p.poison
  generalize (s.fresh.arrive p).editRun c (wnBase e + p.off) (newWord p.poison) p.data = u at hw hm hs
  obtain ⟨hse, hfl⟩ := endSput_shows (hr.of_copy (hs.mono (by decide))) p
  refine ⟨congrArg (· ++ _) ((hse .fabric (by decide)).trans (hs .fabric (by decide))), fun i hi => ?_, ?_, fun hb => ?_, ?_⟩
  · have hmem : (u.endSput k p).mem = u.mem := hse .mem (by decide)
    have hpo : (u.endSput k p).poison = u.poison := hse .poison (by decide)
    exact ⟨(spm_congr (t := (u.endSput k p).sendPacket _) hmem c _).trans (hw i hi).1, (spmPoison_congr hpo c _).trans (hw i hi).2⟩
  · exact hm.trans (.of_mem (hse .mem (by decide)))
  · exact hfl (by rw [hs .sputBad (by decide)]; exact hb)
  · exact ((((SameBut.arrived s p).mono (by decide)).step hs (by decide)).step hse (by decide)).step (.setFabric _ _) (by decide)

/-- A remote flag set that arrives at a running context. -/
theorem flag_arrives (h : RunsOn s k c) (hk : p.kind = 7) : let t := (s.fresh.arrive p).applyPacket k e p
    t.fabric = s.fabric.erase p ++ [p.answer pkAck 0] ∧ t.flag c (32 + p.flag.toNat) = true ∧
      SameBut [.sent, .fabric, .flags, .overruns, .dict] s t := by
  have hr : RunsOn (s.fresh.arrive p) k c := h
  have hs := kSetFlag_runs_same hr (32 + p.flag.toNat)
  rw [applyPacket_flag hr hk]
  refine ⟨congrArg (· ++ _) (hs .fabric (by decide)), flag_kSetFlag hr _, ?_⟩
  exact (((SameBut.arrived s p).mono (by decide)).step hs (by decide)).step (.setFabric _ _) (by decide)

end Windows

/-- Settles O38: the row by `exec_window` with `arriveWindow_checked` or `arriveWindow_refused`, its effect by `put_arrives`,
`sputLast_arrives` and `flag_arrives`, a refusal by `window_refused`. -/
theorem putsAndFlagsArriveAtTheirWindow : Obligations.PutsAndFlagsArriveAtTheirWindow := by
  intro s p cmd kind hm hk hd hp e k c a
  refine ⟨fun hc hrun hsw => ?_, fun code hc => ?_⟩
  · have hr : RunsOn s k c := runsOn_of hrun rfl
    refine gives_of_eq ((exec_window hm hp).trans (congrArg _ (arriveWindow_checked hk hd hc hsw))) ?_
    simp only [List.mem_cons, Prod.mk.injEq, List.not_mem_nil, or_false] at hm
    obtain ⟨-, rfl⟩ | ⟨-, rfl⟩ | ⟨-, rfl⟩ | ⟨-, rfl⟩ := hm
    · obtain ⟨hf, hw, hmem, hs⟩ := put_arrives (e := e) hr (.inl hk)
      exact ⟨hf, fun _ => ⟨hw, hmem⟩, fun _ => hs, fun h => absurd h (by decide), fun h => absurd h (by decide)⟩
    · obtain ⟨hf, hw, hmem, hs⟩ := put_arrives (e := e) hr (.inr hk)
      exact ⟨hf, fun _ => ⟨hw, hmem⟩, fun _ => hs, fun h => absurd h (by decide), fun h => absurd h (by decide)⟩
    · obtain ⟨hf, hw, hmem, hfl, hs⟩ := sputLast_arrives (e := e) hr hk
      exact ⟨hf, fun _ => ⟨hw, hmem⟩, fun h => absurd h (by decide), fun _ => ⟨hfl, hs.mono (by decide)⟩, fun h => absurd h (by decide)⟩
    · obtain ⟨hf, hfl, hs⟩ := flag_arrives (e := e) hr hk
      exact ⟨hf, fun h => absurd rfl h, fun h => absurd h (by decide), fun h => absurd h (by decide), fun _ => ⟨hfl, hs⟩⟩
  · obtain ⟨hf, hn, hs⟩ := window_refused s p code
    exact gives_of_eq ((exec_window hm hp).trans (congrArg _ (arriveWindow_refused hk hd hc))) ⟨hf, hn, hs.same, hs.log, hs.dict⟩

end Sys2Proof.Machine

/-! PROOFS. Answers at the core that waits: an ACK, a NACK, a HOLD and the replies, and an answer that nothing waits for (R231, R243–R246,
R249, R254). -/

namespace Sys2Proof.Machine

section Answers

variable {s t u : State} {p : Packet} {kind : BitVec 4} {k c q a : Nat} {o : Out}

/-! ### The row -/

theorem exec_answer {cmd : Instr} (hm : (cmd, kind) ∈ [(Instr.ack p, (8 : BitVec 4)), (.nack p, 9), (.hold p, 13), (.getReply p, 4),
    (.memoryReadReply p, 12)]) : exec cmd s = .next (s.arriveAnswer kind p) := by
  simp only [List.mem_cons, Prod.mk.injEq, List.not_mem_nil, or_false] at hm
  obtain ⟨rfl, rfl⟩ | ⟨rfl, rfl⟩ | ⟨rfl, rfl⟩ | ⟨rfl, rfl⟩ | ⟨rfl, rfl⟩ := hm <;> rfl

/-- At a running context that is in no switch an answer goes to what waits for it, or is dropped. -/
theorem answerPacket_runs (hv : p.ctxValid = true) (hr : RunsOn s p.k c) (hm : (s.ctx p.k).move = .still) :
    (findOut (s.pair c p.srcPair.toNat).outstanding p.seq.toNat = none → s.answerPacket p false = s.dropAnswer p) ∧
    ∀ o, findOut (s.pair c p.srcPair.toNat).outstanding p.seq.toNat = some o →
      s.answerPacket p false = s.applyAnswer p.k p.srcPair.toNat o p := by
  have hst : s.cstate p.k = csRunning := hr.1
  have hs : s.switchCore p.k = none := by rw [State.switchCore, hm]
  refine ⟨fun ho => ?_, fun o ho => ?_⟩
  · simp [State.answerPacket, hv, hst, hm, hs, hr.kPair, ho, csRunning, csTearing]
  · simp [State.answerPacket, hv, hst, hm, hs, hr.kPair, ho, csRunning, csTearing]

section Arrival

variable (hk : p.kind = kind) (hd : p.dst < 8) (hv : p.ctxValid = true) (hr : RunsOn s p.k p.dst) (hm : (s.ctx p.k).move = .still)
include hk hd hv hr hm

theorem arriveAnswer_found (ho : findOut (s.pair p.dst p.srcPair.toNat).outstanding p.seq.toNat = some o) :
    s.arriveAnswer kind p = (s.fresh.arrive p).applyAnswer p.k p.srcPair.toNat o p := by
  have hw : (s.fresh.arrive p).answerPacket p false = _ := (answerPacket_runs (s := s.fresh.arrive p) hv hr hm).2 o ho
  rw [State.arriveAnswer, if_pos hk]
  dsimp only
  rw [if_pos hd, hw]
  exact pauseFull_kept (LateKept.applyAnswer (.refl (s.fresh.arrive p)))

theorem arriveAnswer_lost (ho : findOut (s.pair p.dst p.srcPair.toNat).outstanding p.seq.toNat = none) :
    s.arriveAnswer kind p = (s.fresh.arrive p).dropAnswer p := by
  have hw : (s.fresh.arrive p).answerPacket p false = _ := (answerPacket_runs (s := s.fresh.arrive p) hv hr hm).1 ho
  rw [State.arriveAnswer, if_pos hk]
  dsimp only
  rw [if_pos hd, hw]
  exact pauseFull_kept (LateKept.dropAnswer (.refl (s.fresh.arrive p)))

end Arrival

/-! ### An answer that nothing waits for (R246, R254) -/

theorem dropAnswer_shows (s : State) (p : Packet) : let t := s.dropAnswer p
    t.dget 0x2500 0x2F = (s.dget 0x2500 0x2F + 1) % 2 ^ 32 ∧ SameBut logFields s t ∧ LogOnly s t := by
  have hl := Logged.report (s.dbump 0x2500 0x2F) codeCtxGone
    (if p.dst < 8 then ucCore p.dst else if p.dst = 9 then ucSm else ucDevice) (ucCtx p.k) [] false
  refine ⟨(hl.dict 0x2500 0x2F (by decide) (by decide)).trans (State.dget_dset_same ..), ?_, hl.log⟩
  exact ((SameBut.dbump s _ _).mono (by decide)).trans hl.same

/-! ### ACK and HOLD (R243, R249) -/

theorem applyAnswer_ack (h : RunsOn s k c) (hk : p.kind = 8) :
    s.applyAnswer k q o p = s.setPair c q ((s.pair c q).dropOut o.seq) := by
  have hr : RunsOn (s.setPair c q ((s.pair c q).dropOut o.seq)) k c := h
  simp [State.applyAnswer, noteSaved_runs h, h.kPair, h.kSetPair, hk, pkHold, pkAck, hr.settleSaved]

theorem applyAnswer_hold (h : RunsOn s k c) (hk : p.kind = 13) :
    s.applyAnswer k q o p = s.setPair c q ((s.pair c q).putOut { o with held := true }) := by
  simp [State.applyAnswer, noteSaved_runs h, h.kPair, h.kSetPair, hk, pkHold]

/-! ### NACK (R244, R245) -/

/-- An operation that had not failed counts as it fails. -/
theorem failOp_counts (h : RunsOn s k c) {seq code : Nat} (ho : ∃ x ∈ (s.pair c q).sa.ops, x.seq = seq ∧ x.failed = false) :
    (s.failOp k q seq code).cget k 0x2A = (s.cget k 0x2A + 1) % 2 ^ 32 := by
  have hk : (s.pair c q).sa.ops.any (fun o => o.seq == seq && !o.failed) = true := by
    obtain ⟨x, hx, hs, hf⟩ := ho
    exact List.any_eq_true.mpr ⟨x, hx, by simp [hs, hf]⟩
  have e : s.failOp k q seq code = ((s.setPair c q ((s.pair c q).failed seq)).cbump k 0x2A).ctxFault k code false := by
    unfold State.failOp
    rw [h.kPair]
    dsimp only
    rw [h.kSetPair, hk, if_pos rfl]
    rfl
  have hf := dget_of_sameBut (ctxFault_same ((s.setPair c q ((s.pair c q).failed seq)).cbump k 0x2A) k code false) (by decide) (0x2600 + k) 0x2A
  rw [e]
  exact hf.trans (cget_cbump_same _ _ _)

/-- The report of a NACK, at the stream pair that waits (R245). -/
def State.nackNoted (s : State) (k q : Nat) (o : Out) (p : Packet) : State :=
  s.reportCtx k p.status.toNat (if s.isLive k then ucPair p.dst q k else ucCtx k)
    (nackOrigin p.status.toNat o.dst o.win (ucPair p.dst q k)) []

theorem applyAnswer_nack (h : RunsOn s k c) (hk : k < 64) (hp : p.kind = 9) : let t := s.applyAnswer k q o p
    t.pair c q = ((s.pair c q).dropOut o.seq).failed o.op ∧
      ((∃ x ∈ (s.pair c q).sa.ops, x.seq = o.op ∧ x.failed = false) → t.cget k 0x2A = (s.cget k 0x2A + 1) % 2 ^ 32) ∧
      SameBut ([.pairs, .frame] ++ logFields) s t ∧ LogOnly s t := by
  intro t
  have hu : Logged s (s.nackNoted k q o p) := .report ..
  have e : t = (((s.nackNoted k q o p).kSetPair k q ((s.pair c q).dropOut o.seq)).failOp k q o.op p.status.toNat).settleSaved k q := by
    unfold t State.applyAnswer
    rw [noteSaved_runs h]
    dsimp only
    rw [h.kPair, if_neg (by rw [hp]; decide), if_neg (by rw [hp]; decide), if_pos (show p.kind = pkNack from hp)]
    rfl
  generalize s.nackNoted k q o p = u at hu e
  have hr : RunsOn u k c := h.of_logged hk hu
  have hr' : RunsOn (u.setPair c q ((s.pair c q).dropOut o.seq)) k c := hr
  obtain ⟨hpair, hrt, hs⟩ := failOp_runs (q := q) (seq := o.op) (code := p.status.toNat) hr'
  rw [hr.kSetPair, hrt.settleSaved] at e
  rw [State.pair_setPair] at hpair
  have hset : SameBut ([.pairs, .frame] ++ logFields) s (u.setPair c q ((s.pair c q).dropOut o.seq)) :=
    (hu.same.mono (by decide)).step (.setPair u c q _) (by decide)
  rw [e]
  refine ⟨hpair, fun ho => ?_, hset.step hs (by decide), hu.log.trans (.of_mem (hs .mem (by decide)))⟩
  have ho' : ∃ x ∈ ((u.setPair c q ((s.pair c q).dropOut o.seq)).pair c q).sa.ops, x.seq = o.op ∧ x.failed = false := by
    rw [State.pair_setPair]
    exact ho
  rw [← cget_logged hu hk (by decide)]
  exact failOp_counts hr' ho'

/-! ### Replies (R231, R243) -/

/-- A pair after a reply of `n` words: the wait ends with the last word asked for. -/
def Pair.replied (x : Pair) (o : Out) (n : Nat) : Pair :=
  if o.left - n = 0 then x.dropOut o.seq else x.putOut { o with left := o.left - n }

/-- Where a reply's first word goes: the local word asked for, moved by how far the reply is in. -/
def Packet.localWord (p : Packet) (o : Out) : Nat := o.loc + ((if p.kind = 4 then p.off else p.addr.toNat) - o.off)

theorem applyAnswer_reply (h : RunsOn s k c) (hk : p.kind = 4 ∨ p.kind = 12) (hu : s.putLocal k (Packet.localWord p o) p.data p.poison = u)
    (hr : RunsOn u k c) (hp : u.pairs = s.pairs) :
    s.applyAnswer k q o p = u.setPair c q ((s.pair c q).replied o p.data.length) := by
  have hpair : u.pair c q = s.pair c q := congrArg (KV.get Pair.zero · (pairKey c q)) hp
  have hr' : RunsOn (u.setPair c q ((s.pair c q).replied o p.data.length)) k c := hr
  have hne : p.kind ≠ pkHold ∧ p.kind ≠ pkAck ∧ p.kind ≠ pkNack := by
    obtain hk | hk := hk
    · rw [hk]; decide
    · rw [hk]; decide
  unfold State.applyAnswer
  rw [noteSaved_runs h]
  dsimp only
  rw [if_neg hne.1, if_neg hne.2.1, if_neg hne.2.2, ← Packet.localWord, hu, hr.kPair, hr.kSetPair, hpair]
  exact hr'.settleSaved

theorem putLocal_owned (h : RunsOn s k c) {ws : List SWord} {poison : Bool} (ho : ∀ i < ws.length, (s.ctx k).ownsWord (a + i) = true) :
    s.putLocal k a ws poison = s.editRun c a (newWord poison) ws :=
  foldS_editRun_range _ s ws fun x hx y hy => by
    have hr : RunsOn x k c := h.of_copy (hx.mono (by decide))
    have hc : x.ctx k = s.ctx k := congrArg (KV.get Ctx.zero · k) (hx .ctxs (by decide))
    rw [if_pos hr.isLive, hr.ccore]
    exact localWrite_owned (by rw [hc]; exact ho _ (List.mem_range.mp (List.of_mem_zip hy).1))

/-- A word that the context does not own and no window of its core takes is reported (R231). -/
theorem putLocal_refused (h : RunsOn s k c) {ws : List SWord} {poison : Bool} (hl : ws.length = 1) (ho : (s.ctx k).ownsWord a = false)
    (hw : s.matchWindow c c rPut a = none) : s.putLocal k a ws poison = s.rep 0x3007 (ucCore c) := by
  obtain ⟨w, rfl⟩ := List.length_eq_one_iff.mp hl
  have e : s.putLocal k a [w] poison = s.localWrite k (s.ccore k) a w poison := if_pos h.isLive
  rw [e, h.ccore]
  simp [State.localWrite, ho, State.matchedWrite, hw]

/-- A reply to words that are the context's own. -/
theorem reply_arrives (h : RunsOn s k c) (hk : p.kind = 4 ∨ p.kind = 12)
    (ho : ∀ i < p.data.length, (s.ctx k).ownsWord (Packet.localWord p o + i) = true) : let t := (s.fresh.arrive p).applyAnswer k q o p
    let a := Packet.localWord p o
    (∀ (i : Nat) (h : i < p.data.length), t.spm c (a + i) = p.data[i] ∧ t.spmPoison c (a + i) = p.poison) ∧
      t.pair c q = (s.pair c q).replied o p.data.length ∧ MemBut (spmAddr c a) (32 * p.data.length) s t ∧
      SameBut [.sent, .fabric, .pairs, .mem, .poison] s t := by
  have hr : RunsOn (s.fresh.arrive p) k c := h
  obtain ⟨hw, hm, hs⟩ := putRun_shows (s.fresh.arrive p) c (Packet.localWord p o) p.data p.poison
  rw [applyAnswer_reply hr hk (putLocal_owned hr ho) (hr.of_copy (hs.mono (by decide))) (hs .pairs (by decide))]
  refine ⟨hw, State.pair_setPair _ c q _, hm, ?_⟩
  exact (((SameBut.arrived s p).mono (by decide)).step hs (by decide)).step (.setPair _ c q _) (by decide)

/-- A reply of one word to a word that nothing takes. -/
theorem reply_refused (h : RunsOn s k c) (hkl : k < 64) (hk : p.kind = 4 ∨ p.kind = 12) (hl : p.data.length = 1)
    (ho : (s.ctx k).ownsWord (Packet.localWord p o) = false) (hw : s.matchWindow c c rPut (Packet.localWord p o) = none) :
    let t := (s.fresh.arrive p).applyAnswer k q o p
    SameBut ([.sent, .fabric, .pairs] ++ logFields) s t ∧ LogOnly s t := by
  have hr : RunsOn (s.fresh.arrive p) k c := h
  have hg : Logged (s.fresh.arrive p) _ := .rep (s.fresh.arrive p) 0x3007 (ucCore c)
  rw [applyAnswer_reply hr hk (putLocal_refused hr hl ho hw) (hr.of_logged hkl hg) (hg.same .pairs (by decide))]
  refine ⟨?_, hg.log⟩
  exact (((SameBut.arrived s p).mono (by decide)).step hg.same (by decide)).step (.setPair _ c q _) (by decide)

end Answers

/-- Settles O40: the row by `exec_answer` with `arriveAnswer_found` or `arriveAnswer_lost`, then `applyAnswer_ack`, `applyAnswer_nack`,
`applyAnswer_hold`, `reply_arrives` and `reply_refused`, or `dropAnswer_shows`. -/
theorem answersReachTheirOperation : Obligations.AnswersReachTheirOperation := by
  intro s p k q c hd hv hst hcc hm pr
  have hr : RunsOn s k c := runsOn_of hst hcc
  have hr' : RunsOn (s.fresh.arrive p) k c := hr
  have hk64 : k < 64 := p.srcCtx.isLt
  have ha := SameBut.arrived s p
  refine ⟨fun o ho => ⟨fun hk => ?_, fun hk => ?_, fun hk => ?_, fun cmd kind hmem hk => ?_⟩, fun ho cmd kind hmem hk => ?_⟩
  · refine gives_of_eq ((exec_answer (by simp)).trans (congrArg _ ((arriveAnswer_found hk hd hv hr hm ho).trans (applyAnswer_ack hr' hk)))) ?_
    exact ⟨State.pair_setPair _ c q _, (ha.mono (by decide)).step (.setPair _ c q _) (by decide)⟩
  · refine gives_of_eq ((exec_answer (by simp)).trans (congrArg _ (arriveAnswer_found hk hd hv hr hm ho))) ?_
    obtain ⟨hpair, hcount, hs, hl⟩ := applyAnswer_nack (q := q) (o := o) hr' hk64 hk
    refine ⟨?_, ?_, hcount, (ha.mono (by decide)).step hs (by decide), hl⟩
    · rw [hpair]
      rfl
    · rw [State.strm, hpair]
      exact failed_ops _ _
  · refine gives_of_eq ((exec_answer (by simp)).trans (congrArg _ ((arriveAnswer_found hk hd hv hr hm ho).trans (applyAnswer_hold hr' hk)))) ?_
    exact ⟨State.pair_setPair _ c q _, (ha.mono (by decide)).step (.setPair _ c q _) (by decide)⟩
  · subst hk
    have hk : p.kind = 4 ∨ p.kind = 12 := by
      simp only [List.mem_cons, Prod.mk.injEq, List.not_mem_nil, or_false] at hmem
      exact hmem.imp And.right And.right
    have hrow : exec cmd s = .next ((s.fresh.arrive p).applyAnswer k q o p) :=
      (exec_answer (List.mem_append_right [(.ack p, 8), (.nack p, 9), (.hold p, 13)] hmem)).trans
        (congrArg _ (arriveAnswer_found rfl hd hv hr hm ho))
    exact ⟨fun hl hown hw => gives_of_eq hrow (reply_refused hr hk64 hk hl hown hw), fun hown => gives_of_eq hrow (reply_arrives hr hk hown)⟩
  · obtain ⟨hn, hs, hl⟩ := dropAnswer_shows (s.fresh.arrive p) p
    refine gives_of_eq ((exec_answer hmem).trans (congrArg _ (arriveAnswer_lost hk hd hv hr hm ho))) ⟨?_, ?_, hl⟩
    · rwa [dget_of_sameBut ha (by decide)] at hn
    · exact (ha.mono (by decide)).step hs (by decide)

end Sys2Proof.Machine

/-! PROOFS. Requests at the window of a running context: GET requests, atomic adds, and the contributions of a strict round (R241, R243,
R247–R249, R262). -/

namespace Sys2Proof.Machine

section Requests

variable {s t u : State} {p : Packet} {k c a : Nat} {e : BitVec 128}

/-! ### GET requests (R241, R243) -/

/-- The packets that answer a GET request with the words read. -/
def getReplies (p : Packet) (l : List (SWord × Bool)) : List Packet :=
  (packWords l).map fun r => { p.answer 4 0 with addr := winAddr p.window p.gen (p.off + r.1), words := BitVec.ofNat 4 (r.2.1.length - 1),
                                                 data := r.2.1, poison := r.2.2 }

theorem applyPacket_get (h : RunsOn s k c) (he : s.ecc = []) (hk : p.kind = 3) : s.applyPacket k e p = { s with
    fabric := s.fabric ++ getReplies p ((List.range p.count).map fun i =>
      (s.spm c (wnBase e + p.off + i), s.spmPoison c (wnBase e + p.off + i))) } := by
  have hw : ((List.range p.count).map (wnBase e + p.off + ·)).map (s.kWord k) =
      (List.range p.count).map fun i => (s.spm c (wnBase e + p.off + i), s.spmPoison c (wnBase e + p.off + i)) := by
    rw [List.map_map]
    exact List.map_congr_left fun i _ => kWord_runs h _
  unfold State.applyPacket
  rw [noteSaved_runs h]
  dsimp only
  rw [if_pos hk, readKs_clean s k _ he, hw]
  exact foldS_sendPacket _ _ s

/-! ### Adds that take effect as they arrive (R247, R248) -/

theorem applyPacket_int (h : RunsOn s k c) (he : s.ecc = []) (hk : p.kind = 5) :
    s.applyPacket k e p = (s.editRun c (wnBase e + p.off) (addedWord addInt8 p.poison) p.data).sendPacket (p.answer pkAck 0) := by
  simp [State.applyPacket, noteSaved_runs h, addWords_runs h he, hk]

/-- A relaxed add counts its contributor, and a choice with the second one; the context runs on where it did. -/
theorem noteFp32_kept (h : RunsOn s k c) (p : Packet) : RunsOn (s.noteFp32 k p) k c ∧ SameBut [.ctxs, .dict] s (s.noteFp32 k p) := by
  have hx (x : Ctx) : SameBut [.ctxs, .dict] s (s.setCtx k x) := (SameBut.setCtx s k x).mono (by decide)
  have hr (x : Ctx) : RunsOn ((s.setCtx k x).choice k 0) k c := by
    have hd {b : Nat} (hb : b < 8) : ((s.setCtx k x).choice k 0).cget k b = (s.setCtx k x).cget k b :=
      choice_dict _ k (by decide) _ _ (by omega)
        (by simp only [List.mem_cons, Prod.mk.injEq, List.not_mem_nil, or_false]; omega)
    exact RunsOn.of_cget (s := s.setCtx k x) h (hd (by decide)) (hd (by decide))
  unfold State.noteFp32
  dsimp only
  split
  · exact ⟨h, .refl _ s⟩
  · split
    · exact ⟨hr _, (hx _).step (choice_same _ k 0) (by decide)⟩
    · exact ⟨h, hx _⟩

theorem applyPacket_fp (h : RunsOn s k c) (he : s.ecc = []) (hk : p.kind = 6) (hs : s.strict = false) :
    s.applyPacket k e p =
      ((s.noteFp32 k p).editRun c (wnBase e + p.off) (addedWord addFp8 p.poison) p.data).sendPacket (p.answer pkAck 0) := by
  obtain ⟨hr, hn⟩ := noteFp32_kept h p
  simp [State.applyPacket, noteSaved_runs h, addWords_runs hr ((hn .ecc (by decide)).trans he), hk, hs]

/-- The words of an add: each the sum of what it was and what the packet brought, and no other byte. -/
theorem addRun_shows (s : State) (c a : Nat) (f : SWord → SWord → SWord) (poison : Bool) (ws : List SWord) :
    let t := s.editRun c a (addedWord f poison) ws
    (∀ (i : Nat) (h : i < ws.length), t.spm c (a + i) = f (s.spm c (a + i)) ws[i]) ∧
      MemBut (spmAddr c a) (32 * ws.length) s t ∧ SameBut [.mem, .poison] s t :=
  ⟨fun i h => (Prod.mk.inj (editRun_shows s ws i h)).1, editRun_memBut s c a _ ws, editRun_same s c a _ ws⟩

/-! ### Contributions of a strict round (R248, R249) -/

theorem round_setRound_same (s : State) (c w : Nat) (l : List Contribution) : (s.setRound c w l).round c w = l := KV.get_set_same _ _ _ _

theorem round_setRound_ne (s : State) (c : Nat) {v w : Nat} (h : v ≠ w) (l : List Contribution) :
    (s.setRound c w l).round c v = s.round c v := KV.get_set_ne _ _ _ (by unfold roundKey; omega)

theorem SameBut.setRound (s : State) (c w : Nat) (l : List Contribution) : SameBut [.rounds] s (s.setRound c w l) := by
  intro f hf
  cases f
  case rounds => exact absurd (by decide) hf
  all_goals rfl

/-- Data word `i` of a packet, as the contribution that a round holds. -/
def contribution (p : Packet) (i : Nat) : Contribution := Contribution.mk p.src p.k p i

/-- The data words of a packet join the rounds of the words they name. -/
def State.joinRounds (s : State) (c : Nat) (p : Packet) (ws : List (Nat × Nat)) : State :=
  foldS ws (fun s x => s.setRound c x.2 (s.round c x.2 ++ [contribution p x.1])) s

theorem joinRounds_shows (s : State) (c : Nat) (p : Packet) (ws : List (Nat × Nat)) (hn : (ws.map Prod.snd).Nodup) :
    let t := s.joinRounds c p ws
    SameBut [.rounds] s t ∧ (∀ x ∈ ws, t.round c x.2 = s.round c x.2 ++ [contribution p x.1]) ∧
      ∀ w ∉ ws.map Prod.snd, t.round c w = s.round c w := by
  induction ws generalizing s with
  | nil => exact ⟨.refl _ s, fun _ h => absurd h List.not_mem_nil, fun _ _ => rfl⟩
  | cons y ws ih =>
    rw [List.map_cons, List.nodup_cons] at hn
    obtain ⟨hs, hin, hout⟩ := ih (s.setRound c y.2 (s.round c y.2 ++ [contribution p y.1])) hn.2
    refine ⟨(SameBut.setRound s c _ _).trans hs, List.forall_mem_cons.mpr ⟨?_, fun x hx => ?_⟩, fun w hw => ?_⟩
    · exact (hout _ hn.1).trans (round_setRound_same s c _ _)
    · have hne : x.2 ≠ y.2 := fun e => hn.1 (e ▸ List.mem_map_of_mem hx)
      exact (hin x hx).trans (by rw [round_setRound_ne s c hne])
    · rw [List.map_cons, List.mem_cons, not_or] at hw
      exact (hout w hw.2).trans (round_setRound_ne s c hw.1 _)

/-- The data words of a packet with the words they are added to. -/
def roundWords (p : Packet) (base : Nat) : List (Nat × Nat) := (List.range p.data.length).map fun i => (i, base + p.off + i)

theorem mem_roundWords {base : Nat} {x : Nat × Nat} :
    x ∈ roundWords p base ↔ ∃ i < p.data.length, (i, base + p.off + i) = x := by simp [roundWords]

theorem roundWords_nodup (p : Packet) (base : Nat) : ((roundWords p base).map Prod.snd).Nodup := by
  unfold roundWords
  rw [List.map_map]
  exact List.nodup_range.map fun _ _ h => Nat.add_left_cancel h

/-- A new contributor to rounds that stay open is held: its words join, and nothing is added. -/
theorem contribute_holds {base red : Nat} (h : ∀ i < p.data.length, (s.round c (base + p.off + i)).length + 1 < red ∧
    ∀ y ∈ s.round c (base + p.off + i), ¬ (y.unit = p.src ∧ y.ctx = p.k)) :
    s.contribute k c base red p = (s.joinRounds c p (roundWords p base)).sendPacket (p.answer pkHold 0) := by
  obtain ⟨-, hin, -⟩ := joinRounds_shows s c p (roundWords p base) (roundWords_nodup p base)
  have hnew : ¬ (roundWords p base).any (fun x => (s.round c x.2).any fun y => y.unit == p.src && y.ctx == p.k) = true := by
    intro ha
    obtain ⟨x, hx, hy⟩ := List.any_eq_true.mp ha
    obtain ⟨i, hi, rfl⟩ := mem_roundWords.mp hx
    obtain ⟨y, hy, e⟩ := List.any_eq_true.mp hy
    exact (h i hi).2 y hy (by simpa using e)
  refine (if_neg hnew).trans (foldS_id _ _ _ fun x hx => if_neg ?_)
  have hx' := hin x hx
  obtain ⟨i, hi, rfl⟩ := mem_roundWords.mp hx
  have hl : (((s.joinRounds c p (roundWords p base)).sendPacket (p.answer pkHold 0)).round c (base + p.off + i)).length =
      (s.round c (base + p.off + i)).length + 1 := (congrArg List.length hx').trans (by simp)
  have := (h i hi).1
  exact fun hr => absurd (hl ▸ hr : red ≤ _) (by omega)

theorem applyPacket_strict (h : RunsOn s k c) (hk : p.kind = 6) (hs : s.strict = true) :
    s.applyPacket k e p = s.contribute k p.dst (wnBase e) (wnRed e) p := by
  simp [State.applyPacket, noteSaved_runs h, hk, hs]

end Requests

/-- Settles O39: each row by `arriveWindow_checked`; a GET by `applyPacket_get`, an add by `applyPacket_int` or `applyPacket_fp` with
`addRun_shows`, a contribution by `contribute_holds`. -/
theorem getsAndAddsArriveAtTheirWindow : Obligations.GetsAndAddsArriveAtTheirWindow := by
  intro s p hd he e k c a hc hrun hsw
  have hr : RunsOn (s.fresh.arrive p) k c := runsOn_of hrun rfl
  have ha := SameBut.arrived s p
  have hrow {cmd : Instr} {kind : BitVec 4} (hcmd : exec cmd s = .next (s.arriveWindow kind p)) (hk : p.kind = kind) {t : State}
      (ht : (s.fresh.arrive p).applyPacket k e p = t) : exec cmd s = .next t := by
    subst hk
    exact hcmd.trans (congrArg _ ((arriveWindow_checked rfl hd hc hsw).trans ht))
  refine ⟨fun hk => ?_, fun hk => ?_, fun hk hs => ?_, fun hk hs hround => ?_⟩
  · exact gives_of_eq (hrow rfl hk (applyPacket_get hr he hk)) ⟨ha.trans ((SameBut.setFabric _ _).mono (by decide)), rfl⟩
  · obtain ⟨hw, hm, hsame⟩ := addRun_shows (s.fresh.arrive p) c a addInt8 p.poison p.data
    refine gives_of_eq (hrow rfl hk (applyPacket_int hr he hk)) ⟨congrArg (· ++ _) (hsame .fabric (by decide)), hw, hm, ?_⟩
    exact ((ha.mono (by decide)).step hsame (by decide)).step (.setFabric _ _) (by decide)
  · obtain ⟨-, hn⟩ := noteFp32_kept hr p
    obtain ⟨hw, hm, hsame⟩ := addRun_shows ((s.fresh.arrive p).noteFp32 k p) c a addFp8 p.poison p.data
    refine gives_of_eq (hrow rfl hk (applyPacket_fp hr he hk hs)) ⟨?_, fun i hi => ?_, ?_, ?_⟩
    · exact congrArg (· ++ _) ((hsame .fabric (by decide)).trans (hn .fabric (by decide)))
    · exact (hw i hi).trans (congrArg (addFp8 · _) (spm_congr (hn .mem (by decide)) c _))
    · exact (MemBut.of_mem (hn .mem (by decide))).trans hm
    · exact (((ha.mono (by decide)).step hn (by decide)).step hsame (by decide)).step (.setFabric _ _) (by decide)
  · obtain ⟨hj, hin, -⟩ := joinRounds_shows (s.fresh.arrive p) p.dst p (roundWords p (wnBase e)) (roundWords_nodup p _)
    refine gives_of_eq (hrow rfl hk ((applyPacket_strict hr hk hs).trans (contribute_holds hround))) ⟨?_, fun i hi => ?_, ?_⟩
    · exact congrArg (· ++ _) (hj .fabric (by decide))
    · exact hin _ (mem_roundWords.mpr ⟨i, hi, rfl⟩)
    · exact ((ha.mono (by decide)).step hj (by decide)).step (.setFabric _ _) (by decide)

end Sys2Proof.Machine

/-! PROOFS. Windows: the bits of an entry, what an open and a close leave in it, and the handles that a close completes (R237–R239, R250). -/

namespace Sys2Proof.Machine

section Entries

variable {hi lo hi' lo' v i : Nat} {e : BitVec 128}

/-! ### Bits of an entry replaced -/

theorem testBit_bits (v hi lo i : Nat) : (bits v hi lo).testBit i = (decide (i < hi + 1 - lo) && v.testBit (lo + i)) := by
  rw [bits, Nat.testBit_mod_two_pow, Nat.testBit_shiftRight]

/-- A number with a field of `w` bits from `lo` up replaced: what is above, the new field, what is below. -/
theorem replaceField_eq (x v lo w : Nat) : x - (x >>> lo) % 2 ^ w * 2 ^ lo + v % 2 ^ w * 2 ^ lo =
    2 ^ (lo + w) * (x / 2 ^ (lo + w)) + (2 ^ lo * (v % 2 ^ w) + x % 2 ^ lo) := by
  have h₁ := Nat.div_add_mod x (2 ^ (lo + w))
  have h₂ : x % 2 ^ (lo + w) = x % 2 ^ lo + 2 ^ lo * (x / 2 ^ lo % 2 ^ w) := by rw [Nat.pow_add, Nat.mod_mul]
  rw [Nat.shiftRight_eq_div_pow, Nat.mul_comm _ (2 ^ lo), Nat.mul_comm _ (2 ^ lo)]
  omega

theorem testBit_replaceField (x v lo w j : Nat) : (x - (x >>> lo) % 2 ^ w * 2 ^ lo + v % 2 ^ w * 2 ^ lo).testBit j =
    if lo ≤ j ∧ j < lo + w then v.testBit (j - lo) else x.testBit j := by
  have hlow : x % 2 ^ lo < 2 ^ lo := Nat.mod_lt _ (Nat.two_pow_pos lo)
  have hmid : 2 ^ lo * (v % 2 ^ w) + x % 2 ^ lo < 2 ^ (lo + w) := by
    have hv : v % 2 ^ w < 2 ^ w := Nat.mod_lt _ (Nat.two_pow_pos w)
    calc 2 ^ lo * (v % 2 ^ w) + x % 2 ^ lo < 2 ^ lo * (v % 2 ^ w + 1) := by rw [Nat.mul_add]; omega
      _ ≤ 2 ^ lo * 2 ^ w := Nat.mul_le_mul_left _ hv
      _ = 2 ^ (lo + w) := (Nat.pow_add ..).symm
  rw [replaceField_eq, Nat.testBit_two_pow_mul_add _ hmid, Nat.testBit_two_pow_mul_add _ hlow, Nat.testBit_mod_two_pow,
    Nat.testBit_mod_two_pow, Nat.testBit_div_two_pow]
  by_cases h₁ : j < lo
  · simp [h₁, show j < lo + w by omega, Nat.not_le.mpr h₁]
  · by_cases h₂ : j < lo + w
    · simp [h₁, h₂, Nat.not_lt.mp h₁, show j - lo < w by omega]
    · simp [h₂, show j - (lo + w) + (lo + w) = j by omega]

theorem getLsbD_wnPut (e : BitVec 128) (hh : hi < 128) (hl : lo ≤ hi) (v i : Nat) : (wnPut e hi lo v).getLsbD i =
    if lo ≤ i ∧ i ≤ hi then v.testBit (i - lo) else e.getLsbD i := by
  unfold wnPut
  rw [BitVec.getLsbD_ofNat]
  have h := testBit_replaceField e.toNat v lo (hi + 1 - lo) i
  rw [show lo + (hi + 1 - lo) = hi + 1 by omega, BitVec.testBit_toNat] at h
  dsimp only [bits]
  rw [h]
  by_cases hi' : lo ≤ i ∧ i ≤ hi
  · rw [if_pos hi', if_pos (by omega), decide_eq_true (by omega : i < 128), Bool.true_and]
  · rw [if_neg hi', if_neg (by omega)]
    by_cases hb : i < 128
    · rw [decide_eq_true hb, Bool.true_and]
    · rw [decide_eq_false hb, Bool.false_and, BitVec.getLsbD_of_ge _ _ (by omega)]

/-- Bits put into a field read back. -/
theorem bits_wnPut_same (e : BitVec 128) (hh : hi < 128) (hl : lo ≤ hi) (v : Nat) :
    bits (wnPut e hi lo v).toNat hi lo = v % 2 ^ (hi + 1 - lo) := by
  refine Nat.eq_of_testBit_eq fun i => ?_
  rw [testBit_bits, Nat.testBit_mod_two_pow, BitVec.testBit_toNat, getLsbD_wnPut e hh hl]
  by_cases h : i < hi + 1 - lo
  · rw [if_pos (by omega), Nat.add_sub_cancel_left]
  · rw [decide_eq_false h, Bool.false_and, Bool.false_and]

/-- Bits put into a field leave another field alone. -/
theorem bits_wnPut_ne (e : BitVec 128) (hh : hi < 128) (hl : lo ≤ hi) (hd : hi' < lo ∨ hi < lo') (v : Nat) :
    bits (wnPut e hi lo v).toNat hi' lo' = bits e.toNat hi' lo' := by
  refine Nat.eq_of_testBit_eq fun i => ?_
  rw [testBit_bits, testBit_bits, BitVec.testBit_toNat, BitVec.testBit_toNat, getLsbD_wnPut e hh hl]
  by_cases h : i < hi' + 1 - lo'
  · rw [if_neg (by omega)]
  · rw [decide_eq_false h, Bool.false_and, Bool.false_and]

/-! ### The entry that an open and a close leave (R238, R239) -/

/-- A written entry as it opens: with the generation it held, and its owner. -/
def ownedEntry (e : BitVec 128) (gen k : Nat) : BitVec 128 := wnPut (wnPut (wnPut (wnPut (wnPut e 47 47 0) 71 64 gen) 79 72 1) 78 73 k) 127 79 0

/-- The entry of an open: no reduction count without the right of FP32 adds, and the window's number. -/
def openedEntry (e : BitVec 128) (gen k w : Nat) : BitVec 128 :=
  wnPut (if wnBit (ownedEntry e gen k) rFp then ownedEntry e gen k else wnPut (ownedEntry e gen k) 63 60 0) 85 80 w

/-- The entry of a close: closed, its generation one on. -/
def closedEntry (e : BitVec 128) : BitVec 128 := wnPut (wnPut e 72 72 0) 71 64 (wnGen e + 1)

/-- The number and the reduction count are no part of what the other fields show. -/
theorem bits_openedEntry (e : BitVec 128) (gen k w : Nat) (h : hi < 60 ∨ 63 < lo) (h' : hi < 80) :
    bits (openedEntry e gen k w).toNat hi lo = bits (ownedEntry e gen k).toNat hi lo := by
  unfold openedEntry
  rw [bits_wnPut_ne _ (by decide) (by decide) (.inl h')]
  split
  · rfl
  · exact bits_wnPut_ne _ (by decide) (by decide) h _

theorem openedEntry_open (e : BitVec 128) (gen k w : Nat) : wnOpen (openedEntry e gen k w) = true := by
  have ho : (ownedEntry e gen k).getLsbD 72 = true := by
    unfold ownedEntry
    rw [getLsbD_wnPut _ (by decide) (by decide), if_neg (by decide), getLsbD_wnPut _ (by decide) (by decide), if_neg (by decide),
      getLsbD_wnPut _ (by decide) (by decide), if_pos (by decide)]
    rfl
  unfold wnOpen openedEntry
  rw [getLsbD_wnPut _ (by decide) (by decide), if_neg (by decide)]
  split
  · exact ho
  · rw [getLsbD_wnPut _ (by decide) (by decide), if_neg (by decide)]
    exact ho

/-- What an open leaves in the entry: the written base and length, the generation it held, its owner. -/
theorem openedEntry_shows (e old : BitVec 128) {k : Nat} (hk : k < 64) (w : Nat) : let o := openedEntry e (wnGen old) k w
    wnOpen o = true ∧ wnGen o = wnGen old ∧ wnOwner o = k ∧ wnBase o = wnBase e ∧ wnLen o = wnLen e := by
  refine ⟨openedEntry_open _ _ _ _, (bits_openedEntry _ _ _ _ (.inr (by decide)) (by decide)).trans ?_,
    (bits_openedEntry _ _ _ _ (.inr (by decide)) (by decide)).trans ?_, (bits_openedEntry _ _ _ _ (.inl (by decide)) (by decide)).trans ?_,
    (bits_openedEntry _ _ _ _ (.inl (by decide)) (by decide)).trans ?_⟩
  · rw [ownedEntry, bits_wnPut_ne _ (by decide) (by decide) (.inl (by decide)), bits_wnPut_ne _ (by decide) (by decide) (.inl (by decide)),
      bits_wnPut_ne _ (by decide) (by decide) (.inl (by decide)), bits_wnPut_same _ (by decide) (by decide)]
    exact Nat.mod_mod _ _
  · rw [ownedEntry, bits_wnPut_ne _ (by decide) (by decide) (.inl (by decide)), bits_wnPut_same _ (by decide) (by decide)]
    exact Nat.mod_eq_of_lt hk
  all_goals
    rw [ownedEntry, bits_wnPut_ne _ (by decide) (by decide) (.inl (by decide)), bits_wnPut_ne _ (by decide) (by decide) (.inl (by decide)),
      bits_wnPut_ne _ (by decide) (by decide) (.inl (by decide)), bits_wnPut_ne _ (by decide) (by decide) (.inl (by decide)),
      bits_wnPut_ne _ (by decide) (by decide) (.inl (by decide))]
    rfl

theorem closedEntry_shows (e : BitVec 128) : wnOpen (closedEntry e) = false ∧ wnGen (closedEntry e) = (wnGen e + 1) % 256 := by
  refine ⟨?_, bits_wnPut_same _ (by decide) (by decide) _⟩
  unfold wnOpen closedEntry
  rw [getLsbD_wnPut _ (by decide) (by decide), getLsbD_wnPut _ (by decide) (by decide)]
  rfl

end Entries

section Tables

variable {s t u v : State} {k c w : Nat} {l : List Field} {d : List (Nat × Nat)}

/-! ### The table (R237) -/

theorem win_congr (h : t.windows = s.windows) (c w : Nat) : t.win c w = s.win c w := congrArg (KV.get 0 · (winKey c w)) h

theorem SameBut.setWin (s : State) (c w : Nat) (e : BitVec 128) : SameBut [.windows] s (s.setWin c w e) := by
  intro f hf
  cases f
  case windows => exact absurd (by decide) hf
  all_goals rfl

theorem SameBut.setLastClose (s : State) (m : KV (Option Nat)) : SameBut [.lastClose] s { s with lastClose := m } := by
  intro f hf
  cases f
  case lastClose => exact absurd (by decide) hf
  all_goals rfl

theorem SameBut.setClosing (s : State) (m : KV (Option Closing)) : SameBut [.closing] s { s with closing := m } := by
  intro f hf
  cases f
  case closing => exact absurd (by decide) hf
  all_goals rfl

theorem SameBut.setRounds (s : State) (m : KV (List Contribution)) : SameBut [.rounds] s { s with rounds := m } := by
  intro f hf
  cases f
  case rounds => exact absurd (by decide) hf
  all_goals rfl

theorem openWindow_shows (s : State) (k c : Nat) (hw : w < 64) (e : BitVec 128) : let t := s.openWindow k c w e
    t.win c w = openedEntry e (wnGen (s.win c w)) k w ∧ w ∈ (t.ctx k).heldWins ∧ t.cget k (0xA1 + w) = (t.win c w).toNat ∧
      SameBut [.windows, .ctxs, .dict] s t ∧ DictBut [(0x2600 + k, 0xA1 + w)] s t := by
  intro t
  unfold t State.openWindow
  extract_lets gen e₁ e₂ s₁ x
  have he : e₂ = openedEntry e (wnGen (s.win c w)) k w := rfl
  have h₀ : (s.setWin c w e₂).win c w = e₂ := KV.get_set_same 0 s.windows _ e₂
  have hshow : SameBut [.dict] (s.setWin c w e₂) s₁ := .dset _ _ _ _
  have hwin : s₁.win c w = e₂ := (win_congr (hshow .windows (by decide)) c w).trans h₀
  have hget : s₁.cget k (0xA1 + w) = (s₁.win c w).toNat :=
    (State.dget_dset_same ..).trans (congrArg BitVec.toNat (h₀.trans hwin.symm))
  have hs : SameBut [.windows, .ctxs, .dict] s s₁ := ((SameBut.setWin s c w e₂).mono (by decide)).step hshow (by decide)
  have hd : DictBut [(0x2600 + k, 0xA1 + w)] s s₁ := (DictBut.of_sameBut (.setWin s c w e₂) (by decide)).trans (.cset _ k (by omega) _)
  split
  · rename_i hc
    exact ⟨hwin.trans he, List.contains_iff_mem.mp hc, hget, hs, hd⟩
  · have hx : SameBut [.ctxs] s₁ (s₁.setCtx k { x with heldWins := x.heldWins ++ [w] }) := .setCtx s₁ k _
    have hw' := win_congr (hx .windows (by decide)) c w
    refine ⟨hw'.trans (hwin.trans he), ?_, ?_, hs.step hx (by decide), hd.trans (.setCtx s₁ k _)⟩
    · rw [State.ctx_setCtx]
      exact List.mem_append_right _ List.mem_cons_self
    · rw [hw', State.cget, dget_of_sameBut hx (by decide)]
      exact hget

/-! ### A close that takes effect (R239, R250) -/

/-- What a close changes: its entry and when it was, and the contributions it discards with their NACKs. -/
def closeFields : List Field := [.windows, .lastClose, .rounds, .fabric, .sputBad] ++ logFields

theorem closeNow_shows (h : wnOpen (s.win c w) = true) : let t := s.closeNow c w
    t.win c w = closedEntry (s.win c w) ∧ KV.get none t.lastClose (winKey c w) = some s.timeNs ∧ SameBut closeFields s t := by
  intro t
  unfold t State.closeNow
  extract_lets e s₁ s₂ ps s₃ s₄
  have hwin : s₂.win c w = closedEntry (s.win c w) := KV.get_set_same _ _ _ _
  have h₁ : SameBut closeFields s s₁ := ((SameBut.setWin s c w _).mono (by decide)).step (.dset _ _ _ _) (by decide)
  have hlast : KV.get none s₂.lastClose (winKey c w) = some s.timeNs :=
    (KV.get_set_same none s₁.lastClose _ (some s₁.timeNs)).trans (congrArg some (h₁ .timeNs (by decide)))
  have h₂ : SameBut closeFields s s₂ := h₁.step (.setLastClose s₁ _) (by decide)
  have h₄ : SameBut ([.rounds, .fabric, .sputBad] ++ logFields) s₂ s₄ :=
    ((SameBut.setRounds s₂ _).mono (by decide)).step (Logged.report s₃ ..).same (by decide)
  have h₅ : SameBut ([.rounds, .fabric, .sputBad] ++ logFields) s₂ (foldS ps (fun s p => s.nackPacket p 0x3002) s₄) :=
    h₄.foldS fun x p => (nackPacket_shows x p 0x3002).2.2.same.mono (by decide)
  rw [if_neg (by rw [h]; decide)]
  split
  · exact ⟨hwin, hlast, h₂⟩
  · exact ⟨(win_congr (h₅ .windows (by decide)) c w).trans hwin, (congrArg (KV.get none · _) (h₅ .lastClose (by decide))).trans hlast,
      h₂.step h₅ (by decide)⟩

theorem spaced_congr (ht : t.timeNs = s.timeNs) (hl : t.lastClose = s.lastClose) (c w : Nat) : t.spaced c w = s.spaced c w := by
  unfold State.spaced
  rw [ht, hl]

/-! ### Handles that complete (R423) -/

theorem hslot_complete (s : State) (r r' : HRef) (code result : Nat) : (s.complete r code result).hslot r' =
    if hKey r'.1 r'.2 = hKey r.1 r.2 then { s.hslot r with st := 3, code := code } else s.hslot r' := by
  have e : (s.complete r code result).handles = (s.setHslot r { s.hslot r with st := 3, code := code }).handles := by
    unfold State.complete State.completeBody
    dsimp only
    split
    · exact hostRecord_same _ _ _ _ _ _ _ _ .handles (by decide)
    · rfl
  exact (congrArg (KV.get HandleSlot.zero · (hKey r'.1 r'.2)) e).trans (KV.get_set _ _ _ _ _)

theorem Completed.complete {r : HRef} {code : Nat} (h : Completed r code s) (r' : HRef) (result : Nat) :
    Completed r code (s.complete r' code result) := by
  unfold Completed
  rw [hslot_complete]
  split
  · exact ⟨rfl, rfl⟩
  · exact h

/-- Every handle of a list completes. -/
theorem completes_all (l : List HRef) (code : Nat) (result : State → Nat) (s : State) :
    ∀ r ∈ l, Completed r code (foldS l (fun s r => s.complete r code (result s)) s) := by
  have hkeep (l : List HRef) {r : HRef} {s : State} (h : Completed r code s) :
      Completed r code (foldS l (fun s r => s.complete r code (result s)) s) := by
    induction l generalizing s with
    | nil => exact h
    | cons x l ih => exact ih (h.complete x _)
  induction l generalizing s with
  | nil => exact fun _ h => absurd h List.not_mem_nil
  | cons x l ih => exact List.forall_mem_cons.mpr ⟨hkeep l (complete_done s x code _), ih _⟩

/-- A close that waited, once its spacing has passed. -/
theorem closeDue_shows {x : Closing} (hx : KV.get none s.closing (winKey c w) = some x) (ho : wnOpen (s.win c w) = true)
    (hs : s.spaced c w = true) : let t := s.closeDue c w
    t.win c w = closedEntry (s.win c w) ∧ KV.get none t.closing (winKey c w) = none ∧ ∀ r ∈ x.handles, Completed r 0 t := by
  obtain ⟨hwin, -, hsame⟩ := closeNow_shows (s := { s with closing := KV.set none s.closing (winKey c w) none }) ho
  have e : s.closeDue c w = foldS x.handles (fun s r => s.complete r 0 (wnGen (s.win c w)))
      ({ s with closing := KV.set none s.closing (winKey c w) none }.closeNow c w) := by
    unfold State.closeDue
    rw [hx]
    exact if_neg (by rw [hs]; decide)
  rw [e]
  have hf (y : State) : SameBut (.handles :: recordFields) y (foldS x.handles (fun s r => s.complete r 0 (wnGen (s.win c w))) y) :=
    SameBut.foldS (.refl _ y) fun z r => complete_same z r 0 _
  refine ⟨(win_congr (hf _ .windows (by decide)) c w).trans hwin, ?_, completes_all _ _ _ _⟩
  rw [hf _ .closing (by decide), hsame .closing (by decide)]
  exact KV.get_set_same none s.closing _ none

/-- What an opened window and its context show once the command has completed. -/
theorem openWindow_completes (s : State) (c : Nat) (hk : k < 64) (hw : w < 64) (e : BitVec 128) (r : HRef) (n : Nat) :
    let t := (s.openWindow k c w e).complete r 0 n
    wnOpen (t.win c w) = true ∧ wnGen (t.win c w) = wnGen (s.win c w) ∧ wnOwner (t.win c w) = k ∧ wnBase (t.win c w) = wnBase e ∧
      wnLen (t.win c w) = wnLen e ∧ w ∈ (t.ctx k).heldWins ∧ t.cget k (0xA1 + w) = (t.win c w).toNat := by
  intro t
  obtain ⟨he, hheld, hshow, -, -⟩ := openWindow_shows s k c hw e
  have hs := complete_same (s.openWindow k c w e) r 0 n
  have hwin : t.win c w = (s.openWindow k c w e).win c w := win_congr (hs .windows (by decide)) c w
  have hx : t.ctx k = (s.openWindow k c w e).ctx k := congrArg (KV.get Ctx.zero · k) (hs .ctxs (by decide))
  have hget : t.cget k (0xA1 + w) = (s.openWindow k c w e).cget k (0xA1 + w) :=
    complete_dictBut _ r 0 n _ _ (by omega) (by simp only [List.mem_cons, Prod.mk.injEq, List.not_mem_nil, or_false]; omega)
  obtain ⟨ho, hg, hown, hb, hl⟩ := openedEntry_shows e (s.win c w) hk w
  rw [hx, hget, hwin]
  refine ⟨?_, ?_, ?_, ?_, ?_, hheld, hshow⟩
  all_goals rw [he]; assumption

/-- A window that closes, once its command has completed. -/
theorem closeNow_completes (h : wnOpen (s.win c w) = true) (r : HRef) (n : Nat) : let t := (s.closeNow c w).complete r 0 n
    wnOpen (t.win c w) = false ∧ wnGen (t.win c w) = (wnGen (s.win c w) + 1) % 256 ∧
      KV.get none t.lastClose (winKey c w) = some s.timeNs := by
  intro t
  obtain ⟨he, hlast, -⟩ := closeNow_shows h
  obtain ⟨ho, hg⟩ := closedEntry_shows (s.win c w)
  have hs := complete_same (s.closeNow c w) r 0 n
  have hwin : t.win c w = closedEntry (s.win c w) := (win_congr (hs .windows (by decide)) c w).trans he
  rw [hwin, hs .lastClose (by decide)]
  exact ⟨ho, hg, hlast⟩

/-! ### The commands -/

section Commands

variable {iss : Issuer} {na ok : Bool} {who : Who} {st : List Nat} {r : HRef}

theorem Accepted.params (h : Accepted iss na who st ok s r u) : ok = true := by
  have hc := h.2.2.2
  unfold State.cmdCheck at hc
  split_ifs at hc with _ _ _ hn
  simpa using hn

/-- The frame and the completion of an accepted command that changes something of its own first. -/
theorem Accepted.finishes (h : Accepted iss na who st ok s r u) (hs : SameBut l u v) (hd : DictBut d u v) (code result : Nat) :
    Completed r code (v.complete r code result) ∧ SameBut (l ++ commandFields) s (v.complete r code result) ∧
      DictBut (d ++ commandEntries iss) s (v.complete r code result) := by
  refine ⟨complete_done v r code result, ?_, ?_⟩
  · have h₁ : SameBut (l ++ commandFields) s u := h.same.mono fun f hf => List.mem_append_right l
      ((by decide : ∀ f ∈ [Field.sent, .handles, .lastSlot, .seqs, .dict], f ∈ commandFields) f hf)
    exact (h₁.step hs fun f hf => List.mem_append_left _ hf).step (complete_same v r code result) fun f hf => List.mem_append_right l
      ((by decide : ∀ f ∈ .handles :: recordFields, f ∈ commandFields) f hf)
  · have h₁ : DictBut (d ++ commandEntries iss) s u := h.dictBut.mono fun x hx => List.mem_append_right d
      (List.mem_append_left [(0x2500, 0x32)] hx)
    exact (h₁.trans (hd.mono fun x hx => List.mem_append_left _ hx)).trans ((complete_dictBut v r code result).mono fun x hx =>
      List.mem_append_right d (List.mem_append_right [(0x5000 + issIx iss, 0x07), (0x5000 + issIx iss, 0x08)] hx))

/-- What an accepted command finds of a context and of windows is what there was before its slot was taken. -/
theorem Accepted.finds (h : Accepted iss na who st ok s r u) {k : Nat} (hk : k < 64) : u.cget k 0x08 = s.cget k 0x08 ∧
    u.ctx k = s.ctx k ∧ (∀ c w, u.win c w = s.win c w) ∧ ∀ c w, u.spaced c w = s.spaced c w :=
  ⟨h.dictBut _ _ (by decide) (by simp only [List.mem_cons, Prod.mk.injEq, List.not_mem_nil, or_false]; omega),
    congrArg (KV.get Ctx.zero · k) (h.same .ctxs (by decide)), win_congr (h.same .windows (by decide)),
    spaced_congr (h.same .timeNs (by decide)) (h.same .lastClose (by decide))⟩

variable {p0 p1 p2 p3 : BitVec 64}

theorem exec_windowOpen (h : Accepted iss true (.creator p0.toNat) stPOSM (p0.toNat < 64 && p1.toNat < 64) s r u) :
    exec (.windowOpen iss p0 p1 p2 p3) s = .next (windowOpen p0.toNat p1.toNat p2 p3 r u) := congrArg Host.Outcome.next (h.run _)

theorem exec_windowClose (h : Accepted iss true (.creator p0.toNat) stPOSM (p0.toNat < 64 && p1.toNat < 64) s r u) :
    exec (.windowClose iss p0 p1) s = .next (windowClose p0.toNat p1.toNat r u) := congrArg Host.Outcome.next (h.run _)

section Started

variable (hst : u.windowState k = true) (hc : u.cget k 0x08 = c)
include hst hc

theorem windowOpen_opens (hb : u.openBad k c w (p3 ++ p2) = false) : windowOpen k w p2 p3 r u =
    (u.openWindow k c w (p3 ++ p2)).complete r 0 (wnGen ((u.openWindow k c w (p3 ++ p2)).win c w)) := by
  subst hc
  exact (if_neg (by simp [hst])).trans (if_neg (by simp [hb]))

theorem windowOpen_refuses (hb : u.openBad k c w (p3 ++ p2) = true) : windowOpen k w p2 p3 r u =
    (u.rep codeWinDecl (ucCore c)).complete r codeWinDecl 0 := by
  subst hc
  exact (if_neg (by simp [hst])).trans (if_pos hb)

omit hc in
theorem windowClose_other (hn : w ∉ (u.ctx k).heldWins) : windowClose k w r u = u.refuse r NOT_OWNER := by
  exact (if_neg (by simp [hst])).trans (if_pos (by simp [hn]))

theorem windowClose_closed (hm : w ∈ (u.ctx k).heldWins) (ho : wnOpen (u.win c w) = false) :
    windowClose k w r u = u.complete r 0 (wnGen (u.win c w)) := by
  subst hc
  exact (if_neg (by simp [hst])).trans ((if_neg (by simp [hm])).trans (if_pos (by simp [ho])))

theorem windowClose_open (hm : w ∈ (u.ctx k).heldWins) (ho : wnOpen (u.win c w) = true) :
    windowClose k w r u = u.closeWindow k c w (some r) := by
  subst hc
  exact (if_neg (by simp [hst])).trans ((if_neg (by simp [hm])).trans (if_neg (by simp [ho])))

end Started

/-- A close whose spacing has not passed waits with its handle. -/
theorem closeWindow_waits (h : u.spaced c w = false) (r : HRef) : let t := u.closeWindow k c w (some r)
    SameBut [.closing] u t ∧ ∃ x, KV.get none t.closing (winKey c w) = some x ∧ r ∈ x.handles := by
  intro t
  unfold t State.closeWindow
  extract_lets v old
  rw [if_neg (by simp [h])]
  exact ⟨.setClosing u _, Closing.mk k (old ++ [r]), KV.get_set_same none u.closing (winKey c w) (some (Closing.mk k (old ++ [r]))),
    List.mem_append_right _ List.mem_cons_self⟩

theorem closeWindow_closes (h : u.spaced c w = true) (r : HRef) : u.closeWindow k c w (some r) =
    (u.closeNow c w).complete r 0 (wnGen ((u.closeNow c w).win c w)) := if_pos h

end Commands

end Tables

/-- Settles O26: an open by `openWindow_shows` and `openedEntry_shows`, a close by `closeNow_shows` and `closedEntry_shows`, one that
waits by `closeWindow_waits`, and one that waited by `closeDue_shows`. -/
theorem windowsOpenAndClose : Obligations.WindowsOpenAndClose := by
  intro s
  refine ⟨fun iss p0 p1 p2 p3 u r => ?_, fun c w n x hx ho hs => ?_⟩
  · intro k w c h hst
    have hp := h.params
    simp only [Bool.and_eq_true, decide_eq_true_eq] at hp
    obtain ⟨hk, hw⟩ := hp
    obtain ⟨hc, hctx, hwin, hsp⟩ := h.finds hk
    have hrefused (code : Nat) (unit : Nat) : let t := (u.rep code unit).complete r code 0
        Completed r code t ∧ t.win c w = s.win c w :=
      ⟨complete_done _ r _ _, (win_congr (complete_same _ r code 0 .windows (by decide)) c w).trans
        ((win_congr ((Logged.rep u code unit).same .windows (by decide)) c w).trans (hwin c w))⟩
    refine ⟨fun hb => ?_, fun hb => ?_, fun hn => ?_, fun hm ho => ?_, fun hm ho hs => ?_, fun hm ho hs => ?_⟩
    · obtain ⟨-, -, -, hsame, hdict⟩ := openWindow_shows u k c hw (p3 ++ p2)
      obtain ⟨hdone, hsame', hdict'⟩ := h.finishes hsame hdict 0 (wnGen ((u.openWindow k c w (p3 ++ p2)).win c w))
      obtain ⟨ho, hg, hown, hbase, hlen, hheld, hshow⟩ :=
        openWindow_completes u c hk hw (p3 ++ p2) r (wnGen ((u.openWindow k c w (p3 ++ p2)).win c w))
      rw [hwin] at hg
      exact gives_of_eq ((exec_windowOpen h).trans (congrArg _ (windowOpen_opens hst hc hb)))
        ⟨hdone, ho, hg, hown, hbase, hlen, hheld, hshow, hsame'.mono (by decide), hdict'⟩
    · exact gives_of_eq ((exec_windowOpen h).trans (congrArg _ (windowOpen_refuses hst hc hb))) (hrefused _ _)
    · exact gives_of_eq ((exec_windowClose h).trans (congrArg _ (windowClose_other hst (by rwa [hctx])))) (hrefused _ _)
    · exact gives_of_eq ((exec_windowClose h).trans (congrArg _ (windowClose_closed hst hc (by rwa [hctx]) (by rwa [hwin]))))
        (h.completes 0 _)
    · have ho' : wnOpen (u.win c w) = true := by rwa [hwin]
      obtain ⟨hcl, hg, hlast⟩ := closeNow_completes ho' r (wnGen ((u.closeNow c w).win c w))
      rw [hwin] at hg
      rw [h.same .timeNs (by decide)] at hlast
      exact gives_of_eq ((exec_windowClose h).trans (congrArg _ ((windowClose_open hst hc (by rwa [hctx]) ho').trans
        (closeWindow_closes (by rwa [hsp]) r)))) ⟨complete_done _ r _ _, hcl, hg, hlast⟩
    · have ho' : wnOpen (u.win c w) = true := by rwa [hwin]
      obtain ⟨hsame, hx⟩ := closeWindow_waits (k := k) (by rwa [hsp] : u.spaced c w = false) r
      refine gives_of_eq ((exec_windowClose h).trans (congrArg _ (windowClose_open hst hc (by rwa [hctx]) ho'))) ⟨?_, hx, ?_, ?_⟩
      · rwa [win_congr (hsame .windows (by decide))]
      · exact (h.same.mono (by decide)).step hsame (by decide)
      · exact (h.dictBut.mono fun x hx => List.mem_append_left [(0x2500, 0x32)] hx).trans (.of_sameBut hsame (by decide))
  · obtain ⟨he, hcl, hall⟩ := closeDue_shows (s := s.fresh.atTime n) hx ho hs
    obtain ⟨h₁, h₂⟩ := closedEntry_shows (s.win c.val w.val)
    exact gives_of_eq rfl ⟨(congrArg wnOpen he).trans h₁, (congrArg wnGen he).trans h₂, hcl, hall⟩

end Sys2Proof.Machine

/-! PROOFS. Die links that fail, slow beat rings, and the patrol scrub (R257, R260, R268, R377, R378, R381, R394). -/

namespace Sys2Proof.Machine

section Links

variable {s t u : State} {i b p n : Nat} {d : List (Nat × Nat)}

/-! ### The entries of the die links (R377) -/

theorem dget_of_plain (hi : i ∉ stateObjects) (h : KV.get none t.dict (dkey i b) = KV.get none s.dict (dkey i b)) :
    t.dget i b = s.dget i b := by
  unfold State.dget
  rw [h, dfltOf_of_plain hi s t b]

/-- The entries of 0x2500 that show the links' marks and rates read as they did. -/
def LinksKept (s t : State) : Prop := ∀ b, 0x0F ≤ b → b < 0x20 → t.dget 0x2500 b = s.dget 0x2500 b

namespace LinksKept

theorem refl (s : State) : LinksKept s s := fun _ _ _ => rfl

theorem trans (h : LinksKept s t) (k : LinksKept t u) : LinksKept s u := fun b hl hu => (k b hl hu).trans (h b hl hu)

theorem of_dict (h : LinksKept s t) (hd : u.dict = t.dict) : LinksKept s u :=
  h.trans fun b _ _ => dget_of_plain (by decide) (by rw [hd])

theorem dictBut (h : LinksKept s t) (k : DictBut d t u) (hd : ∀ b, 0x0F ≤ b → b < 0x20 → (0x2500, b) ∉ d) : LinksKept s u :=
  h.trans fun b hl hu => k _ b (by omega) (hd b hl hu)

theorem dset (h : LinksKept s t) (v : Nat) (hb : b < 256) (hn : i ≠ 0x2500 ∨ b < 0x0F ∨ 0x20 ≤ b) : LinksKept s (t.dset i b v) :=
  h.trans fun b' hl hu => dget_of_plain (by decide) (KV.get_set_ne none t.dict (some v) fun e : dkey 0x2500 b' = dkey i b => by
    have e' := Prod.mk.inj (dkey_inj (by omega) hb e)
    omega)

theorem ite {c : Prop} {_ : Decidable c} (h : LinksKept s t) (k : LinksKept s u) : LinksKept s (if c then t else u) := by
  split
  · exact h
  · exact k

theorem foldS {α : Type} {as : List α} {f : State → α → State} (h : LinksKept s t) (hf : ∀ x a, LinksKept s x → LinksKept s (f x a)) :
    LinksKept s (foldS as f t) := by
  induction as generalizing t with
  | nil => exact h
  | cons a as ih => exact ih (hf t a h)

theorem report (h : LinksKept s t) (code unit origin : Nat) (detail : List Byte) : LinksKept s (t.report code unit origin detail) :=
  h.dictBut (Logged.report ..).dict fun b hl hu => by
    simp only [logEntries, List.mem_cons, Prod.mk.injEq, List.not_mem_nil, or_false]
    omega

theorem complete (h : LinksKept s t) (r : HRef) (code result : Nat) : LinksKept s (t.complete r code result) :=
  h.dictBut (complete_dictBut t r code result) fun b hl hu => by
    simp only [List.mem_cons, Prod.mk.injEq, List.not_mem_nil, or_false]
    omega

theorem statusAll (h : LinksKept s t) (code unit : Nat) (body : List Byte) : LinksKept s (t.statusAll code unit body) :=
  h.dictBut (DictBut.trans (hostRecord_dictBut t 0 0 code 3 unit 0 body) (hostRecord_dictBut _ 1 0 code 3 unit 0 body)) fun b hl hu => by
    simp only [List.mem_cons, Prod.mk.injEq, List.not_mem_nil, or_false]
    omega

theorem fence (h : LinksKept s t) (p : Nat) : LinksKept s (t.fence p) := by
  unfold State.fence
  extract_lets x s₁ s₂
  have h₁ : LinksKept s s₁ := .ite (h.of_dict rfl) h
  have h₂ : LinksKept s s₂ := (h₁.of_dict (u := s₁.setPart p { x with fenced := true }) rfl).dset _ (by decide) (.inr (.inl (by decide)))
  exact h₂.of_dict rfl

theorem endActivity (h : LinksKept s t) (code : Nat) (aborted : Bool) : LinksKept s (t.endActivity code aborted) := by
  have hd {x : State} {b : Nat} (v : Nat) (hb : b < 256) (hx : LinksKept s x) : LinksKept s (x.dset 0x2A00 b v) :=
    hx.dset v hb (.inl (by decide))
  unfold State.endActivity
  split
  · exact h
  · rename_i a _
    extract_lets s₁ s₂ s₃ s₄
    have h₁ : LinksKept s s₁ := h.of_dict rfl
    have h₂ : LinksKept s s₂ := hd _ (by decide) (hd _ (by decide) (hd _ (by decide) h₁))
    have h₃ : LinksKept s s₃ := hd _ (by split <;> decide) h₂
    exact (LinksKept.ite (hd _ (by decide) h₃) h₃).complete _ _ _

theorem endOut (h : LinksKept s t) (hp : p < 4) (code : Nat) : LinksKept s (t.endOut p code) := by
  unfold State.endOut
  extract_lets x s₁
  have h₁ : LinksKept s s₁ := LinksKept.dset (h.of_dict rfl) _ (by omega) (.inr (.inl (by omega)))
  exact h₁.foldS fun y r hy => hy.complete r code 0

theorem startPartReset (h : LinksKept s t) (hp : p < 4) (cause : Nat) (safe : Bool) (handle : Option HRef) (detail : Nat) :
    LinksKept s (t.startPartReset p cause safe handle detail) := by
  unfold State.startPartReset
  extract_lets x hs s₁ x₁ s₂ s₃ s₄ s₅
  have h₁ : LinksKept s s₁ := by
    unfold s₁
    split
    · exact .ite (.endActivity (.report h _ _ _ _) _ _) h
    · exact h
  have h₂ : LinksKept s s₂ := h₁.of_dict rfl
  have h₃ : LinksKept s s₃ := ((h₂.fence p).dset _ (by omega) (.inr (.inl (by omega)))).dset _ (by omega) (.inr (.inl (by omega)))
  have h₄ : LinksKept s s₄ := h₃.dset _ (by decide) (.inr (.inl (by decide)))
  exact .ite (h.of_dict rfl) ((h₄.report _ _ _ _).statusAll _ _ _)

end LinksKept

/-! ### A partition's reset begins (R379, R381) -/

theorem part_congr (h : t.parts = s.parts) (p : Nat) : t.part p = s.part p := congrArg (KV.get Partition.zero · p) h

theorem fence_part (s : State) (p : Nat) : (s.fence p).part p = { s.part p with fenced := true } := by
  unfold State.fence
  extract_lets x s₁ s₂
  exact State.part_setPart (s := s₁) p { x with fenced := true }

theorem startPartReset_starts (h : (s.part p).resetting = false) (cause : Nat) (safe : Bool) (handle : Option HRef) (detail : Nat) :
    let t := s.startPartReset p cause safe handle detail
    (t.part p).resetStep = 1 ∧ t.isFenced p = true := by
  intro t
  unfold t State.startPartReset
  extract_lets x hs s₁ x₁ s₂ s₃ s₄ s₅
  rw [if_neg (by rw [h]; decide)]
  have h₂ : (s₂.part p).resetStep = 1 := congrArg Partition.resetStep (State.part_setPart (s := s₁) p _)
  have h₄ : SameBut [.dict] (s₂.fence p) s₄ := ((SameBut.dset _ _ _ _).trans (.dset _ _ _ _)).trans (.dset _ _ _ _)
  have h₅ : SameBut (logFields ++ recordFields) s₄ (s₅.statusAll codePartReset (ucPart p) (bytesOf 2 cause ++ bytesOf 2 detail)) :=
    ((Logged.report s₄ ..).same.mono (by decide)).step (statusAll_same s₅ _ _ _) (by decide)
  have hp : (s₅.statusAll codePartReset (ucPart p) (bytesOf 2 cause ++ bytesOf 2 detail)).part p = { s₂.part p with fenced := true } :=
    (part_congr (h₅ .parts (by decide)) p).trans ((part_congr (h₄ .parts (by decide)) p).trans (fence_part s₂ p))
  exact ⟨(congrArg Partition.resetStep hp).trans h₂, congrArg Partition.fenced hp⟩

/-! ### A failed link (R377, R378) -/

/-- A link's marks as it fails: its bit, and rate 0. -/
def State.linkMarked (s : State) (n : Nat) : State := (s.dset 0x2500 0x0F (s.dget 0x2500 0x0F ||| 2 ^ n)).dset 0x2500 (0x10 + n) 0

/-- A link reported and marked as it fails. -/
def State.linkNoted (s : State) (n : Nat) : State := (s.rep 0x300F (ucLink n)).linkMarked n

theorem linkMarked_shows (s : State) (hn : n < 8) : (s.linkMarked n).linkFailed n = true ∧ (s.linkMarked n).dget 0x2500 (0x10 + n) = 0 := by
  refine ⟨?_, State.dget_dset_same ..⟩
  have h : (s.linkMarked n).dget 0x2500 0x0F = s.dget 0x2500 0x0F ||| 2 ^ n :=
    (State.dget_dset_ne _ (by omega) (by decide) (by simp only [ne_eq, Prod.mk.injEq]; omega) (by simp only [ne_eq, Prod.mk.injEq]; omega)
      (by simp only [ne_eq, Prod.mk.injEq]; omega)).trans (State.dget_dset_same ..)
  rw [State.linkFailed, h, bitAt, Nat.testBit_or, Nat.testBit_two_pow_self, Bool.or_true]

theorem linkNoted_framed (s : State) (hn : n < 8) :
    Framed logFields ([(0x2500, 0x0F), (0x2500, 0x10 + n)] ++ logEntries) s (s.linkNoted n) :=
  (((Framed.refl s).rep (fun _ => id) (fun _ => List.mem_append_right _) _ _).dset (by decide) (by simp) (by decide) (by decide) (by decide)).dset
    (by decide) (by simp) (by omega) (by simp only [ne_eq, Prod.mk.injEq]; omega) (by simp only [ne_eq, Prod.mk.injEq]; omega)

theorem linkFail_ring (h : 4 ≤ n) : s.linkFail n = s.linkNoted n := if_pos h

theorem linkFail_bed (h : n < 4) (hr : (s.part n).resetting = false) : s.linkFail n = (s.linkNoted n).startPartReset n 0x300F false none := by
  have hp : (s.linkNoted n).part n = s.part n := part_congr ((linkNoted_framed s (by omega)).same .parts (by decide)) n
  have hr' : ¬ ((s.linkNoted n).part n).resetting = true := by rw [hp, hr]; decide
  exact (if_neg (by omega)).trans (if_neg hr')

/-- Whatever a link's failure does beside, the link's marks stay. -/
theorem linkFail_kept (s : State) (hn : n < 8) : LinksKept (s.linkNoted n) (s.linkFail n) := by
  by_cases h : 4 ≤ n
  · rw [linkFail_ring h]
    exact .refl _
  · have e : s.linkFail n = let u := s.linkNoted n
      if (u.part n).resetting then
        if !(u.part n).linkHit then u.setPart n { u.part n with linkHit := true }
        else if 5 ≤ (u.part n).resetStep then u.endOut n 0x300F
        else u.setPart n { u.part n with failCode := 0x300F }
      else u.startPartReset n 0x300F false none := if_neg h
    rw [e]
    have hr := LinksKept.refl (s.linkNoted n)
    exact .ite (.ite (hr.of_dict rfl) (.ite (hr.endOut (by omega) _) (hr.of_dict rfl))) (hr.startPartReset (by omega) _ _ _ _)

theorem linkFail_shows (s : State) (hn : n < 8) : (s.linkFail n).linkFailed n = true ∧ (s.linkFail n).dget 0x2500 (0x10 + n) = 0 := by
  obtain ⟨hf, hr⟩ := linkMarked_shows (s.rep 0x300F (ucLink n)) hn
  have hk := linkFail_kept s hn
  refine ⟨?_, (hk _ (by omega) (by omega)).trans hr⟩
  rw [State.linkFailed, hk _ (by decide) (by decide)]
  exact hf

theorem flitRetryFailure_fails (h : s.linkFailed n = false) : s.flitRetryFailure n = s.linkFail n := if_neg (by rw [h]; decide)

end Links

section Beats

variable {s t u : State} {n : Nat}

/-! ### A slow beat ring (R268, R394) -/

/-- A slow ring counted, and held until it has been at its cap. -/
def State.beatCounted (s : State) (n : Nat) : State :=
  { s.dbump 0x2900 (0x11 + n) with slowHeld := s.slowHeld ||| BitVec.ofNat 4 (2 ^ n) }

theorem beatCounted_shows (s : State) (hn : n < 4) : let t := s.beatCounted n
    t.dget 0x2900 (0x11 + n) = (s.dget 0x2900 (0x11 + n) + 1) % 2 ^ 32 ∧ t.slowHeld.getLsbD n = true ∧ SameBut [.slowHeld, .dict] s t ∧
      Framed (.slowHeld :: logFields) ((0x2900, 0x11 + n) :: logEntries) s t := by
  have hs : SameBut [.slowHeld] (s.dbump 0x2900 (0x11 + n)) (s.beatCounted n) := .setSlowHeld _ _
  refine ⟨(dget_of_sameBut hs (by decide) _ _).trans (State.dget_dset_same ..), ?_, ((SameBut.dbump s _ _).mono (by decide)).step hs (by decide), ?_⟩
  · have hb : (BitVec.ofNat 4 (2 ^ n)).getLsbD n = true := by
      rw [BitVec.getLsbD_ofNat, Nat.testBit_two_pow_self, decide_eq_true hn, Bool.and_true]
    exact BitVec.getLsbD_or.trans (by rw [hb, Bool.or_true])
  · exact Framed.then_same ((Framed.refl s).dbump (by decide) (by simp) (by omega) (by simp) (by simp)) hs (by decide) (by decide)

/-- Whether a stress test of the bed runs, under which a slow ring is not reported (R394). -/
def State.stressed (s : State) (n : Nat) : Bool :=
  (s.part n).underTest && (match s.activity with | some a => a.code == 1 | none => false)

theorem stressed_of {a : Activity} (hu : (s.part n).underTest = true) (ha : s.activity = some a) (h1 : a.code = 1) : s.stressed n = true := by
  rw [State.stressed, hu, ha, Bool.true_and]
  exact beq_iff_eq.mpr h1

theorem beatSlow_counts (h : s.slowHeld.getLsbD n = false) :
    s.beatSlow n = if s.stressed n then s.beatCounted n else (s.beatCounted n).rep 0x5030 (ucBed n) := if_neg (by rw [h]; decide)

theorem beatSlow_shows (hn : n < 4) (h : s.slowHeld.getLsbD n = false) : let t := s.beatSlow n
    t.dget 0x2900 (0x11 + n) = (s.dget 0x2900 (0x11 + n) + 1) % 2 ^ 32 ∧ t.slowHeld.getLsbD n = true ∧
      Framed (.slowHeld :: logFields) ((0x2900, 0x11 + n) :: logEntries) s t ∧ (s.stressed n = true → SameBut [.slowHeld, .dict] s t) := by
  obtain ⟨hd, hh, hs, hf⟩ := beatCounted_shows s hn
  rw [beatSlow_counts h]
  split
  · exact ⟨hd, hh, hf, fun _ => hs⟩
  · rename_i hn'
    refine ⟨(dget_rep _ _ _ (by omega) ?_).trans hd, ?_, hf.rep (by decide) (fun _ => List.mem_cons_of_mem _) _ _, fun h => absurd h hn'⟩
    · simp [logEntries]
    · rw [(Logged.rep (s.beatCounted n) 0x5030 (ucBed n)).same .slowHeld (by decide)]
      exact hh

end Beats

section Scrub

variable {s t u : State} {ch n x : Nat} {f : EccFinding}

/-! ### The patrol scrub (R257, R260) -/

theorem SameBut.setScrubPos (s : State) (m : KV Nat) : SameBut [.scrubPos] s { s with scrubPos := m } := by
  intro f hf
  cases f
  case scrubPos => exact absurd (by decide) hf
  all_goals rfl

/-- A channel's position moved on by one granule, wrapping. -/
def State.scrubbed (s : State) (ch : Nat) : State :=
  { s with scrubPos := KV.set 0 s.scrubPos ch ((KV.get 0 s.scrubPos ch + 1) % s.granules) }

theorem scrubbed_pos (s : State) (ch : Nat) : KV.get 0 (s.scrubbed ch).scrubPos ch = (KV.get 0 s.scrubPos ch + 1) % s.granules :=
  KV.get_set_same _ _ _ _

/-- The reads of a scrub access: the parts of its granule. -/
def State.granuleRead (s : State) (ch n : Nat) : State :=
  if n % 8 < 7 then foldS (List.range 8) (fun s i => s.touch (findingAddr ch n (4 * i))) s else s

theorem granuleRead_same (s : State) (ch n : Nat) : SameBut touchFields s (s.granuleRead ch n) :=
  .ite (.foldS (.refl _ s) fun x _ => touch_same x _) (.refl _ s)

theorem granuleRead_clean (h : s.ecc = []) (ch n : Nat) : s.granuleRead ch n = s := by
  have e : foldS (List.range 8) (fun s i => s.touch (findingAddr ch n (4 * i))) s = s := foldS_id _ _ s fun i _ => touch_clean s _ h
  rw [State.granuleRead, e, ite_self]

/-- The response to a scrub access's finding. -/
def State.scrubFinding (s : State) (ch n : Nat) : EccFinding → State
  | .clean => s
  | .corrected x => s.corrected (findingAddr ch n x.val)
  | .uncorrectable x => s.uncorrectable (findingAddr ch n x.val)

theorem scrubFinding_same (s : State) (ch n : Nat) (f : EccFinding) : SameBut touchFields s (s.scrubFinding ch n f) := by
  cases f with
  | clean => exact .refl _ s
  | corrected x => exact corrected_same s _
  | uncorrectable x => exact uncorrectable_same s _

theorem patrolScrub_runs (h : s.scrubs (ch / 8) = true) (hg : s.granules ≠ 0) (f : EccFinding) :
    s.patrolScrub ch f =
      ((s.scrubbed ch).granuleRead ch (KV.get 0 s.scrubPos ch)).scrubFinding ch (KV.get 0 s.scrubPos ch) f := by
  unfold State.patrolScrub
  rw [if_neg (by simp [h, hg])]
  cases f <;> rfl

/-- A finding in a granule of a channel concerns a part of that channel's partition. -/
theorem findingAddr_region (hc : ch < 32) (hx : x < 224) (hn : n < s.granules) (hu : s.usable ≤ 0x400000000) :
    s.regionOf (findingAddr ch n x) = .dram (ch / 8) := by
  unfold State.granules at hn
  have hd : (if n % 8 < 7 then 32 * (n % 8) + x % 32 else x) < 224 := by split <;> omega
  have ha : ∃ o < s.usable, findingAddr ch n x = ch / 8 * 0x400000000 + o := by
    unfold findingAddr partAddr dramBase
    generalize (if n % 8 < 7 then 32 * (n % 8) + x % 32 else x) = d at hd
    exact ⟨2048 * (7 * (n / 8) + d / 32) + 256 * (ch % 8) + 8 * (d % 32), by omega, by omega⟩
  obtain ⟨o, ho, ha⟩ := ha
  unfold State.regionOf
  rw [ha, if_pos (by omega), if_pos (by omega)]
  exact congrArg Region.dram (by omega)

/-- A corrected part of DRAM is counted for its partition, and reported. -/
theorem corrected_dram {a p : Nat} (h : s.regionOf a = .dram p) (hp : p < 4) : let t := s.corrected a
    t.dget 0x2500 (0x24 + p) = (s.dget 0x2500 (0x24 + p) + 1) % 2 ^ 32 ∧ SameBut (.ecc :: logFields) s t := by
  intro t
  have hs : SameBut [.ecc] s { s with ecc := KV.erase s.ecc (a / 8) } := .setEcc s _
  have hl := Logged.rep { s with ecc := KV.erase s.ecc (a / 8) } 0x3011 (ucChannel (8 * p + a % 0x400000000 / 256 % 8))
  have e : t = ({ s with ecc := KV.erase s.ecc (a / 8) }.rep 0x3011 (ucChannel (8 * p + a % 0x400000000 / 256 % 8))).dbump 0x2500 (0x24 + p) := by
    have h' : State.regionOf { s with ecc := KV.erase s.ecc (a / 8) } a = .dram p := h
    unfold t State.corrected
    dsimp only
    rw [h']
  have hd : ∀ {v : State}, v.dget 0x2500 (0x24 + p) = s.dget 0x2500 (0x24 + p) →
      (v.dbump 0x2500 (0x24 + p)).dget 0x2500 (0x24 + p) = (s.dget 0x2500 (0x24 + p) + 1) % 2 ^ 32 := fun hv => hv ▸ State.dget_dset_same ..
  rw [e]
  refine ⟨hd ((hl.dict _ _ (by omega) ?_).trans (dget_of_sameBut hs (by decide) _ _)), ?_⟩
  · simp only [logEntries, List.mem_cons, Prod.mk.injEq, List.not_mem_nil, or_false]
    omega
  · exact ((hs.mono (by decide)).step hl.same (by decide)).step (.dbump _ _ _) (by decide)

end Scrub

/-- Settles O19: a link by `linkFail_shows`, `linkFail_ring` and `startPartReset_starts`, a slow ring by `beatSlow_shows`, the scrub by
`patrolScrub_runs` and `corrected_dram`. -/
theorem linksBeatsAndScrubs : Obligations.LinksBeatsAndScrubs := by
  intro s
  have hfr := SameBut.fresh s
  refine ⟨fun l hl => ?_, fun b hb => ?_, fun b hb => ?_, fun ch f hs hg => ?_⟩
  · refine gives_of_eq (congrArg Host.Outcome.next (flitRetryFailure_fails (s := s.fresh) hl)) ?_
    obtain ⟨hf, hr⟩ := linkFail_shows s.fresh l.isLt
    refine ⟨hf, hr, fun h => ?_, fun h hp => ?_⟩
    · have hn := linkNoted_framed s.fresh l.isLt
      rw [linkFail_ring h]
      exact ⟨(hfr.mono (by decide)).step hn.same (by decide), hn.log, (DictBut.of_sameBut hfr (by decide)).trans hn.dict⟩
    · rw [linkFail_bed (s := s.fresh) h hp]
      have hpart : (s.fresh.linkNoted l.val).part l.val = s.part l.val := part_congr ((linkNoted_framed s.fresh l.isLt).same .parts (by decide)) _
      exact startPartReset_starts (by rw [hpart]; exact hp) _ _ _ _
  · obtain ⟨hd, hh, hn, hq⟩ := beatSlow_shows (s := s.fresh) b.isLt hb
    rw [dget_of_sameBut hfr (by decide)] at hd
    refine gives_of_eq rfl ⟨hd, hh, (hfr.mono (by decide)).step hn.same (by decide), hn.log, (DictBut.of_sameBut hfr (by decide)).trans hn.dict,
      fun hu ha => (hfr.mono (by decide)).step (hq ?_) (by decide)⟩
    obtain ⟨a, ha, h1⟩ := ha
    exact stressed_of (s := s.fresh) hu ha h1
  · exact gives_of_eq (congrArg Host.Outcome.next (if_pos hb : s.fresh.beatSlow b.val = s.fresh)) hfr
  · have hsc : SameBut [.scrubPos] s.fresh (s.fresh.scrubbed ch.val) := .setScrubPos _ _
    have hrow := patrolScrub_runs (s := s.fresh) (ch := ch.val) hs hg f
    refine gives_of_eq (congrArg Host.Outcome.next hrow) ⟨?_, fun he hf => ?_, fun he hf hn hu => ?_⟩
    · rw [scrubFinding_same _ _ _ f .scrubPos (by decide), granuleRead_same _ _ _ .scrubPos (by decide)]
      exact scrubbed_pos s.fresh ch.val
    · rw [granuleRead_clean (s := s.fresh.scrubbed ch.val) he, hf]
      exact (hfr.mono (by decide)).step hsc (by decide)
    · obtain ⟨x, rfl⟩ := hf
      obtain ⟨hd, hsame⟩ := corrected_dram (findingAddr_region (s := s.fresh.scrubbed ch.val) ch.isLt x.isLt hn hu) (by omega)
      rw [dget_of_sameBut hsc (by decide), dget_of_sameBut hfr (by decide)] at hd
      rw [granuleRead_clean (s := s.fresh.scrubbed ch.val) he]
      exact ⟨hd, ((hfr.mono (by decide)).step hsc (by decide)).step hsame (by decide)⟩

end Sys2Proof.Machine
